-- ==== Sys2Proof/Word.lean ====
section
/-!
DEFINITION. The plain widths of the machine (00 R1, R3): bytes, 16-bit half-words, 32-bit words, 64-bit double words and
the 7-bit register field. Everything that computes with them stands in files under Machine/ or in Decode.lean.
-/
namespace Sys2Proof

/-- One byte of memory. -/
abbrev Byte := BitVec 8

/-- A 32-bit register of a fibre, or an instruction word (14 R270). -/
abbrev Word := BitVec 32

/-- A 64-bit value: an address, a handle, a lead register (03 R54, R56). -/
abbrev DWord := BitVec 64

/-- A 7-bit register field of an instruction (03 R48, R56). -/
abbrev Reg := BitVec 7

end Sys2Proof
end

