-- ==== Sys2Proof/Syntax.lean ====
section
/-!
DEFINITION. The operations of the machine: one constructor for every row of the table of operations and events. A word
row carries the fields of its 32-bit word (14 R271); an event row carries the operands that say which agent or object the
event concerns, or what reaches the machine from outside. Legality of codes that the types do not exclude is WellFormed.
-/
namespace Sys2Proof

/-- The guard of an instruction word (14 R272): code 00, 01, 10 and 11. -/
inductive Guard where
  | always
  | p0
  | notP0
  | p1
deriving DecidableEq, Repr

/-- Who issues inside a block: a fibre by its id, or the lead (02 R26, R45). -/
inductive Who where
  | fibre (fid : Nat)
  | lead
deriving DecidableEq, Repr

/-- What the host driver's pre-emption request names (10 R212). -/
inductive PreemptTarget where
  | launch (lid : Nat)
  | core (core : Nat)
deriving DecidableEq, Repr

/-- What the governor of one die sees at a step (13 R267): sensor readings in degrees Celsius and watts, and whether a regulator
alert stands. -/
structure Reading where
  alert : Bool
  junction : Int
  dram : Int
  packagePower : Nat
deriving DecidableEq, Repr

/-- What begins an emergency (13 R267). -/
inductive EmergencyCause where
  | regulatorAlert
  | overpower
  | junction110
deriving DecidableEq, Repr

/-- A device register that software writes (05 R107, R110, R113 to R115; 10 R195; 11 R218, R220, R237; 12 R252, R253;
13 R257 to R267; 10 R438). Of the element that QW_HOLD keeps, qwHold names 8 bytes. -/
inductive DevReg where
  | dnCtl | dnSvbase | dnSvsize | dnResq | dnStctl | dnStxor | dnTrq | dnTrdrop | dnSvfail | dnSvq
  | lqHandle (q : Nat) | lqPtroot (q : Nat) | lqCfg (q : Nat) | lqQuant (q : Nat)
  | lqSpbase (q : Nat) | lqSporg (q : Nat) | lqSpn (q : Nat) | lqFaultq (q : Nat)
  | trCtl | trWin | trLo | trHi | trStat | trIns | trPb (k : Nat) | trPd (k : Nat)
  | amapCtl (n : Nat) | amapBase (n : Nat) | amapLimit (n : Nat) | amapMask (n k : Nat) | apWin
  | mccfg (channel : Nat) | bankstat (channel bank : Nat) | actsel (channel : Nat) | actcnt (channel : Nat)
  | gvCtl | hifence | haBase
  | qwHandle (w : Nat) | qwStat (w : Nat) | qwEnq (w : Nat) | qwHold (w k : Nat) | qwDeq (w : Nat)
  | importWindow (device window : Nat) (limit : Nat) (read write atomic : Bool)
  | route (device entry : Nat) | deadMap (device : Nat)
  | expert (offset : Nat)
  | bar0 (offset : Nat) | bar2 (offset : Nat)
deriving DecidableEq, Repr

/-- The type of a peer-link flit (13 R261). -/
inductive FlitType where
  | idle
  | data
  | control
  | other (code : Nat)
deriving DecidableEq, Repr

/-- What a request from one device asks of another (13 R264): reads and writes, atomics and contributions, queue operations, tagged
accesses, the upkeep of a line below the L1 (15 R310) and a fence of instruction caches (06 R138). A write names the bytes that it
writes by their offsets among len, whether it poisons their sectors (05 R117) and whether it fills the tags of the granules that it
covers wholly (05 R116). -/
inductive RemoteKind where
  | read (len : Nat)
  | write (len : Nat) (bytes : List (Nat × Byte)) (poison tags : Bool)
  | atom (op : Nat) (v : Word)
  | acas (expected v : Word)
  | red (op : Nat) (v : Word)
  | enq (bytes : List Byte) (try_ : Bool)
  | deq (sizeCode : Nat) (try_ : Bool)
  | qinit (area lcap code scope : Nat)
  | qstat
  | ldt (len : Nat) (consume : Bool)
  | stt (bytes : List Byte) (whenEmpty : Bool)
  | upkeep (discard : Bool)
  | codeFence
  | cancel (seq : Nat)
deriving DecidableEq, Repr

/-- A request from another device (13 R264): its source, its sequence number (of a read or write the number that its response
names), the local address it names and the port it came in by. -/
structure RemoteReq where
  source : Nat
  seq : Nat
  addr : Nat
  kind : RemoteKind
  port : Nat
deriving DecidableEq, Repr

/-- What the payload of a data flit carries (13 R261): nothing that concerns this model, a request, or the response to a request
of a sequence number or number, with its status (0 done, 1 error, 2 poisoned, 3 still under way) and bytes. The manual gives the
payload no layout. -/
inductive PeerMsg where
  | nothing
  | request (req : RemoteReq)
  | response (sequenced : Bool) (number status : Nat) (bytes : List Byte)
deriving DecidableEq, Repr

/-- A 256-byte flit as it arrives (13 R261): its header fields, payload bytes, CRC word, the lane that a CRC error is attributed
to, and what the payload says. -/
structure Flit where
  zero : Nat
  dst : Nat
  src : Nat
  type : FlitType
  nak : Bool
  ackv : Bool
  ackseq : Nat
  seq : Nat
  payload : List Byte
  crc : Word
  lane : Nat
  msg : PeerMsg
deriving DecidableEq, Repr

/-- A firmware image as the boot ROM or the root firmware finds it (13 R268): its number, whether its signature verifies against the
fused key hash, and its security version. -/
structure BootImage where
  number : Nat
  signed : Bool
  security : Nat
deriving DecidableEq, Repr

/-- What a boot loads (13 R268): the root firmware, the service firmware, and the configurations that are measured with them; and the
extents of tenant memory, a first address and a length, that the host driver grants the service firmware. -/
structure Boot where
  root : BootImage
  service : BootImage
  configs : List Nat
  extents : List (Nat × Nat)
deriving DecidableEq, Repr

/-- Traffic classes of Ridge messages (01 R10, R13). -/
inductive RidgeClass where
  | memory
  | coherence
  | queue
  | dean
  | summit
deriving DecidableEq, Repr

/-- The delivery of a message of the Ridge: its stop, and whether a hop link's error was found uncorrectable there (01 R14; 05 R117). -/
structure RidgeEnd where
  stop : Nat
  uncorrectable : Bool
deriving DecidableEq, Repr

/-- The service of a channel controller's next request: the channel, and the origin of an uncorrectable error that is detected in what is
read, in DRAM, the memory-side cache or the stack cache (05 R112, R117; 11 R214). -/
structure DramVisit where
  channel : Nat
  error : Option Nat
deriving DecidableEq, Repr

/-- The completion of a producer: its number, and the origin of an uncorrectable error that is detected in what it reads, such as one in
an L1 (05 R117; 11 R214). -/
structure ProducerEnd where
  pid : Nat
  error : Option Nat
deriving DecidableEq, Repr

/-- A write of a host to the element of a queue window (13 R259): the offset of its first byte and its bytes. -/
structure WindowWrite where
  offset : Nat
  element : List Byte
deriving DecidableEq, Repr

/-- What an instruction fetch met (02 R21, 14 R274 step 1). -/
inductive FetchFault where
  | badPc
  | xlate (detail : Nat) (addr : DWord)
  | perm (detail : Nat) (addr : DWord)
  | poison (origin : Nat) (addr : DWord)
deriving DecidableEq, Repr

/-- The operations of the machine, in the order of the table. -/
inductive Instr where
  /-- NOP (R363). Does nothing and counts as an issue. -/
  | nop (g : Guard)
  /-- BR (R306). Branches by a signed word offset from the branch itself. -/
  | br (off : BitVec 22) (g : Guard)
  /-- BRI (R307). Branches to the address held in a register pair. -/
  | bri (ra : Reg) (fe : Bool) (g : Guard)
  /-- CALL (R308). Writes the return address to v124:v125 or a124 and branches by a word offset. -/
  | call (off : BitVec 22) (g : Guard)
  /-- RET (R379). Branches through v124:v125, or a124 on the lead, as BRI does. -/
  | ret (fe : Bool) (g : Guard)
  /-- YIELD (R405). Gives up the issue turn and resets the fibre's readiness to the current cycle. -/
  | yield (g : Guard)
  /-- REP (R287). Repeats the following word n times, stepping its register fields. -/
  | rep (cnt : BitVec 6) (sd : BitVec 3) (sa : BitVec 3) (sb : BitVec 3)
  /-- TRAP (R394). Raises trap code 0x10 with the immediate as detail and stops the block. -/
  | trap (imm : BitVec 15) (g : Guard)
  /-- ERET (R326). Restores the predicate word and optionally wb, then branches (supervisor only). -/
  | eret (ra : Reg) (rb : Reg) (fe : Bool) (g : Guard)
  /-- END (R31). Puts the fibre or lead into the ending state; on the lead it also closes the uniform queue. -/
  | endIssue (g : Guard)
  /-- FORK (R30). Creates a fibre at the lowest free id with a target PC and an argument, or returns 0xFFFF_FFFF. -/
  | fork (rd : Reg) (ra : Reg) (rb : Reg) (fe : Bool) (g : Guard)
  /-- UPUSH (R395). Lead appends a 32-bit entry to the uniform queue, waiting while 64 entries are unfreed. -/
  | upush (ra : Reg) (fe : Bool) (g : Guard)
  /-- SETE (R60). Marks a register empty without changing its value. -/
  | sete (rd : Reg) (g : Guard)
  /-- WAITF (R398). Waits until every register of a range is full. -/
  | waitf (ra : Reg) (rb : Reg) (g : Guard)
  /-- WAITO (R137). Waits until an outstanding-operation counter is at most n, then acquires at .core for the covered operations. -/
  | waito (ra : Reg) (imm : BitVec 8) (g : Guard)
  /-- IADD (R339). Writes the 32-bit wrapping sum. -/
  | iadd (rd : Reg) (ra : Reg) (rb : Reg) (fe : Bool) (g : Guard)
  /-- ISUB (R339). Writes the 32-bit wrapping difference. -/
  | isub (rd : Reg) (ra : Reg) (rb : Reg) (fe : Bool) (g : Guard)
  /-- IMUL (R339). Writes the low 32 bits of the product. -/
  | imul (rd : Reg) (ra : Reg) (rb : Reg) (fe : Bool) (g : Guard)
  /-- IMULH (R339). Writes the high 32 bits of the signed product. -/
  | imulh (rd : Reg) (ra : Reg) (rb : Reg) (fe : Bool) (g : Guard)
  /-- IMULHU (R339). Writes the high 32 bits of the unsigned product. -/
  | imulhu (rd : Reg) (ra : Reg) (rb : Reg) (fe : Bool) (g : Guard)
  /-- IMAD (R339). Writes rd plus the product, wrapping at 32 bits. -/
  | imad (rd : Reg) (ra : Reg) (rb : Reg) (fe : Bool) (g : Guard)
  /-- DIV (R319). Long-latency signed division with the edge cases of R87. -/
  | div (rd : Reg) (ra : Reg) (rb : Reg) (fe : Bool) (g : Guard)
  /-- DIVU (R319). Long-latency unsigned division with the edge cases of R87. -/
  | divu (rd : Reg) (ra : Reg) (rb : Reg) (fe : Bool) (g : Guard)
  /-- AND (R319). Writes the bitwise AND of two registers. -/
  | and (rd : Reg) (ra : Reg) (rb : Reg) (fe : Bool) (g : Guard)
  /-- OR (R364). Writes the bitwise OR of two registers. -/
  | or (rd : Reg) (ra : Reg) (rb : Reg) (fe : Bool) (g : Guard)
  /-- XOR (R403). Writes the bitwise XOR of two registers. -/
  | xor (rd : Reg) (ra : Reg) (rb : Reg) (fe : Bool) (g : Guard)
  /-- ANDN (R319). Writes ra AND NOT rb. -/
  | andn (rd : Reg) (ra : Reg) (rb : Reg) (fe : Bool) (g : Guard)
  /-- SHL (R380). Shifts left by a register amount, giving 0 for amounts of 32 or more. -/
  | shl (rd : Reg) (ra : Reg) (rb : Reg) (fe : Bool) (g : Guard)
  /-- SHR (R380). Shifts right logically by a register amount. -/
  | shr (rd : Reg) (ra : Reg) (rb : Reg) (fe : Bool) (g : Guard)
  /-- SAR (R380). Shifts right arithmetically by a register amount. -/
  | sar (rd : Reg) (ra : Reg) (rb : Reg) (fe : Bool) (g : Guard)
  /-- IMIN (R339). Writes the signed minimum. -/
  | imin (rd : Reg) (ra : Reg) (rb : Reg) (fe : Bool) (g : Guard)
  /-- IMAX (R339). Writes the signed maximum. -/
  | imax (rd : Reg) (ra : Reg) (rb : Reg) (fe : Bool) (g : Guard)
  /-- IMINU (R339). Writes the unsigned minimum. -/
  | iminu (rd : Reg) (ra : Reg) (rb : Reg) (fe : Bool) (g : Guard)
  /-- IMAXU (R339). Writes the unsigned maximum. -/
  | imaxu (rd : Reg) (ra : Reg) (rb : Reg) (fe : Bool) (g : Guard)
  /-- IADDS (R339). Writes the signed sum saturated to the 32-bit range. -/
  | iadds (rd : Reg) (ra : Reg) (rb : Reg) (fe : Bool) (g : Guard)
  /-- ADDMIN (R319). Writes the signed minimum of rd and the wrapped sum ra + rb. -/
  | addmin (rd : Reg) (ra : Reg) (rb : Reg) (fe : Bool) (g : Guard)
  /-- ADDMAX (R319). Writes the signed maximum of rd and the wrapped sum ra + rb. -/
  | addmax (rd : Reg) (ra : Reg) (rb : Reg) (fe : Bool) (g : Guard)
  /-- SEL (R381). Writes ra if p0 is set, otherwise rb. -/
  | sel (rd : Reg) (ra : Reg) (rb : Reg) (fe : Bool) (g : Guard)
  /-- LEA (R353). Adds a sign-extended offset shifted by s to a 64-bit address pair. -/
  | lea (sh : BitVec 7) (ra : Reg) (rb : Reg) (fe : Bool) (g : Guard)
  /-- BFX (R321). Extracts an unsigned bit field selected by a control value. -/
  | bfx (rd : Reg) (ra : Reg) (rb : Reg) (fe : Bool) (g : Guard)
  /-- BFI (R321). Inserts a bit field into rd at the position and width of a control value. -/
  | bfi (rd : Reg) (ra : Reg) (rb : Reg) (fe : Bool) (g : Guard)
  /-- ICMP (R341). Compares two values as signed and writes one predicate. -/
  | icmp (cond : BitVec 3) (pn : BitVec 4) (ra : Reg) (rb : Reg) (fe : Bool) (g : Guard)
  /-- ICMPU (R341). Compares two values as unsigned and writes one predicate. -/
  | icmpu (cond : BitVec 3) (pn : BitVec 4) (ra : Reg) (rb : Reg) (fe : Bool) (g : Guard)
  /-- IABS (R339). Writes the absolute value, with 0x8000_0000 unchanged. -/
  | iabs (rd : Reg) (ra : Reg) (fe : Bool) (g : Guard)
  /-- POPC (R367). Writes the number of one bits. -/
  | popc (rd : Reg) (ra : Reg) (fe : Bool) (g : Guard)
  /-- CLZ (R319). Writes the count of leading zero bits. -/
  | clz (rd : Reg) (ra : Reg) (fe : Bool) (g : Guard)
  /-- BREV (R319). Writes the bit-reversed word. -/
  | brev (rd : Reg) (ra : Reg) (fe : Bool) (g : Guard)
  /-- MOV (R359). Copies a register, all 64 bits on the lead. -/
  | mov (rd : Reg) (ra : Reg) (fe : Bool) (g : Guard)
  /-- MOVI (R360). Writes a zero-extended 15-bit immediate. -/
  | movi (rd : Reg) (imm : BitVec 15) (g : Guard)
  /-- MOVHI (R360). Writes a 17-bit immediate into bits [31:15] and keeps bits [14:0]. -/
  | movhi (rd : Reg) (imm : BitVec 17)
  /-- IADDI (R340). Adds a sign-extended 8-bit immediate, wrapping at 32 bits. -/
  | iaddi (rd : Reg) (ra : Reg) (imm : BitVec 8) (g : Guard)
  /-- AND_IMM (R320). ANDs with a sign-extended 8-bit immediate. -/
  | andImm (rd : Reg) (ra : Reg) (imm : BitVec 8) (g : Guard)
  /-- OR_IMM (R364). ORs with a sign-extended 8-bit immediate. -/
  | orImm (rd : Reg) (ra : Reg) (imm : BitVec 8) (g : Guard)
  /-- XOR_IMM (R403). XORs with a sign-extended 8-bit immediate. -/
  | xorImm (rd : Reg) (ra : Reg) (imm : BitVec 8) (g : Guard)
  /-- SHL_IMM (R380). Shifts left by an unsigned 8-bit immediate. -/
  | shlImm (rd : Reg) (ra : Reg) (imm : BitVec 8) (g : Guard)
  /-- SHR_IMM (R380). Shifts right logically by an unsigned 8-bit immediate. -/
  | shrImm (rd : Reg) (ra : Reg) (imm : BitVec 8) (g : Guard)
  /-- SAR_IMM (R380). Shifts right arithmetically by an unsigned 8-bit immediate. -/
  | sarImm (rd : Reg) (ra : Reg) (imm : BitVec 8) (g : Guard)
  /-- MOVX (R52). Long-latency indirect read of the allocation register at an index. -/
  | movx (rd : Reg) (ra : Reg) (fe : Bool) (g : Guard)
  /-- MOVXW (R52). Indirect write of the allocation register at an index. -/
  | movxw (ra : Reg) (rb : Reg) (fe : Bool) (g : Guard)
  /-- WIN (R52). Sets the window base to an even immediate below A. -/
  | win (imm : BitVec 15) (g : Guard)
  /-- WINADD (R52). Adds an even signed immediate to the window base. -/
  | winadd (imm : BitVec 8) (g : Guard)
  /-- XLANE (R402). Row collective reading a register of the fibre at a selected row position. -/
  | xlane (rd : Reg) (ra : Reg) (rb : Reg) (fe : Bool) (g : Guard)
  /-- XSHF (R404). Row collective reading a register of the fibre at a fixed row offset. -/
  | xshf (rd : Reg) (ra : Reg) (imm : BitVec 8) (g : Guard)
  /-- PAND (R365). Writes the AND of two predicates. -/
  | pand (rd : Reg) (ra : Reg) (rb : Reg) (g : Guard)
  /-- POR (R365). Writes the OR of two predicates. -/
  | por (rd : Reg) (ra : Reg) (rb : Reg) (g : Guard)
  /-- PXOR (R365). Writes the XOR of two predicates. -/
  | pxor (rd : Reg) (ra : Reg) (rb : Reg) (g : Guard)
  /-- PNOT (R365). Writes the inverse of a predicate. -/
  | pnot (rd : Reg) (ra : Reg) (g : Guard)
  /-- PMOV_TO_PREDICATE (R366). Sets one predicate from a nonzero test, or replaces the whole predicate word. -/
  | pmovToPredicate (rd : Reg) (ra : Reg) (fe : Bool) (g : Guard)
  /-- PMOV_FROM_WORD (R366). Writes the predicate word zero-extended to a register. -/
  | pmovFromWord (rd : Reg) (g : Guard)
  /-- VOTE (R397). Row collective combining a predicate over the row as any, all or ballot. -/
  | vote (rd : Reg) (pn : BitVec 4) (rb : Reg) (g : Guard)
  /-- SREAD (R282). Reads a numbered item of fibre, block or core state. -/
  | sread (rd : Reg) (imm : BitVec 8) (g : Guard)
  /-- SYSR (R391). Reads a numbered system register: FP status, a proctor hit sum or the address-mapping block. -/
  | sysr (rd : Reg) (imm : BitVec 15) (g : Guard)
  /-- SYSW (R391). Writes a numbered system register, starting an address-mapping commit when COMMIT is written. -/
  | sysw (rd : Reg) (imm : BitVec 15) (g : Guard)
  /-- TLBI_PAGE (R393). Removes every TLB entry translating an address in an ASN or global, on every core. -/
  | tlbiPage (ra : Reg) (rb : Reg) (fe : Bool) (g : Guard)
  /-- TLBI_ASN (R393). Removes every non-global TLB entry of an ASN, on every core. -/
  | tlbiAsn (rb : Reg) (fe : Bool) (g : Guard)
  /-- TLBI_ALL (R393). Removes every TLB entry, global ones included, on every core. -/
  | tlbiAll (g : Guard)
  /-- SIGR (R383). Reads the issuer's signature CRC-64. -/
  | sigr (rd : Reg) (g : Guard)
  /-- CHKPT (R312). Commits the store buffer and, in checkpoint or paired mode, takes a checkpoint. -/
  | chkpt (g : Guard)
  /-- PROG (R255). Adds 1 to the causal-trial counter k of the current window. -/
  | prog (imm : BitVec 8) (g : Guard)
  /-- IFENCE (R338). Releases, then discards instruction caches of every core in scope and waits for acknowledgements. -/
  | ifence (sc : BitVec 4) (g : Bool)
  /-- FADD_F32 (R328). FP32 addition rounded once. -/
  | faddF32 (rd : Reg) (ra : Reg) (rb : Reg) (fe : Bool) (g : Guard)
  /-- FADD_BF16X2 (R328). Packed BF16 addition. -/
  | faddBf16x2 (rd : Reg) (ra : Reg) (rb : Reg) (fe : Bool) (g : Guard)
  /-- FADD_F16X2 (R328). Packed FP16 addition. -/
  | faddF16x2 (rd : Reg) (ra : Reg) (rb : Reg) (fe : Bool) (g : Guard)
  /-- FSUB_F32 (R328). FP32 subtraction rounded once. -/
  | fsubF32 (rd : Reg) (ra : Reg) (rb : Reg) (fe : Bool) (g : Guard)
  /-- FSUB_BF16X2 (R328). Packed BF16 subtraction. -/
  | fsubBf16x2 (rd : Reg) (ra : Reg) (rb : Reg) (fe : Bool) (g : Guard)
  /-- FSUB_F16X2 (R328). Packed FP16 subtraction. -/
  | fsubF16x2 (rd : Reg) (ra : Reg) (rb : Reg) (fe : Bool) (g : Guard)
  /-- FMUL_F32 (R328). FP32 multiplication rounded once. -/
  | fmulF32 (rd : Reg) (ra : Reg) (rb : Reg) (fe : Bool) (g : Guard)
  /-- FMUL_BF16X2 (R328). Packed BF16 multiplication. -/
  | fmulBf16x2 (rd : Reg) (ra : Reg) (rb : Reg) (fe : Bool) (g : Guard)
  /-- FMUL_F16X2 (R328). Packed FP16 multiplication. -/
  | fmulF16x2 (rd : Reg) (ra : Reg) (rb : Reg) (fe : Bool) (g : Guard)
  /-- FMA_F32 (R328). FP32 fused multiply-add into rd with one rounding. -/
  | fmaF32 (rd : Reg) (ra : Reg) (rb : Reg) (fe : Bool) (g : Guard)
  /-- FMA_BF16X2 (R328). Packed BF16 fused multiply-add. -/
  | fmaBf16x2 (rd : Reg) (ra : Reg) (rb : Reg) (fe : Bool) (g : Guard)
  /-- FMA_F16X2 (R328). Packed FP16 fused multiply-add. -/
  | fmaF16x2 (rd : Reg) (ra : Reg) (rb : Reg) (fe : Bool) (g : Guard)
  /-- FMIN_F32 (R328). FP32 minimum under the NaN and signed-zero rules. -/
  | fminF32 (rd : Reg) (ra : Reg) (rb : Reg) (fe : Bool) (g : Guard)
  /-- FMIN_BF16X2 (R328). Packed BF16 minimum. -/
  | fminBf16x2 (rd : Reg) (ra : Reg) (rb : Reg) (fe : Bool) (g : Guard)
  /-- FMIN_F16X2 (R328). Packed FP16 minimum. -/
  | fminF16x2 (rd : Reg) (ra : Reg) (rb : Reg) (fe : Bool) (g : Guard)
  /-- FMAX_F32 (R328). FP32 maximum under the NaN and signed-zero rules. -/
  | fmaxF32 (rd : Reg) (ra : Reg) (rb : Reg) (fe : Bool) (g : Guard)
  /-- FMAX_BF16X2 (R328). Packed BF16 maximum. -/
  | fmaxBf16x2 (rd : Reg) (ra : Reg) (rb : Reg) (fe : Bool) (g : Guard)
  /-- FMAX_F16X2 (R328). Packed FP16 maximum. -/
  | fmaxF16x2 (rd : Reg) (ra : Reg) (rb : Reg) (fe : Bool) (g : Guard)
  /-- FCMP_F32 (R330). Compares FP32 values and writes a predicate. -/
  | fcmpF32 (cond : BitVec 3) (pn : BitVec 4) (ra : Reg) (rb : Reg) (fe : Bool) (g : Guard)
  /-- FCMP_BF16X2 (R330). Compares packed BF16 values and writes two predicates. -/
  | fcmpBf16x2 (cond : BitVec 3) (pn : BitVec 4) (ra : Reg) (rb : Reg) (fe : Bool) (g : Guard)
  /-- FCMP_F16X2 (R330). Compares packed FP16 values and writes two predicates. -/
  | fcmpF16x2 (cond : BitVec 3) (pn : BitVec 4) (ra : Reg) (rb : Reg) (fe : Bool) (g : Guard)
  /-- FABS (R327). Clears the sign bit of each element. -/
  | fabs (rd : Reg) (ra : Reg) (fmt : BitVec 7) (fe : Bool) (g : Guard)
  /-- FNEG (R327). Inverts the sign bit of each element. -/
  | fneg (rd : Reg) (ra : Reg) (fmt : BitVec 7) (fe : Bool) (g : Guard)
  /-- FCVT (R331). Converts one element between the FP, F8 and NQ4 formats. -/
  | fcvt (rd : Reg) (ra : Reg) (src : BitVec 4) (dst : BitVec 3) (fe : Bool) (g : Guard)
  /-- FCVTI (R332). Converts FP32 to a signed or unsigned integer in a rounding mode. -/
  | fcvti (rd : Reg) (ra : Reg) (mode : BitVec 7) (fe : Bool) (g : Guard)
  /-- ICVTF (R332). Converts a signed or unsigned integer to FP32 in a rounding mode. -/
  | icvtf (rd : Reg) (ra : Reg) (mode : BitVec 7) (fe : Bool) (g : Guard)
  /-- FRCP (R334). Long-latency correctly rounded FP32 reciprocal. -/
  | frcp (rd : Reg) (ra : Reg) (fe : Bool) (g : Guard)
  /-- FRSQ (R334). Long-latency correctly rounded FP32 reciprocal square root. -/
  | frsq (rd : Reg) (ra : Reg) (fe : Bool) (g : Guard)
  /-- FEXP2 (R334). Long-latency correctly rounded FP32 base-2 exponential. -/
  | fexp2 (rd : Reg) (ra : Reg) (fe : Bool) (g : Guard)
  /-- FLOG2 (R334). Long-latency correctly rounded FP32 base-2 logarithm. -/
  | flog2 (rd : Reg) (ra : Reg) (fe : Bool) (g : Guard)
  /-- FRND (R334). Rounds an FP32 value to an integral value in a mode. -/
  | frnd (rd : Reg) (ra : Reg) (mode : BitVec 7) (fe : Bool) (g : Guard)
  /-- FCLASS (R329). Writes a one-hot class word for an FP32 value. -/
  | fclass (rd : Reg) (ra : Reg) (fe : Bool) (g : Guard)
  /-- FDOT2_BF16 (R333). Adds two exact BF16 products to FP32 rd with one rounding. -/
  | fdot2Bf16 (rd : Reg) (ra : Reg) (rb : Reg) (fe : Bool) (g : Guard)
  /-- FDOT2_F16 (R333). Adds two exact FP16 products to FP32 rd with one rounding. -/
  | fdot2F16 (rd : Reg) (ra : Reg) (rb : Reg) (fe : Bool) (g : Guard)
  /-- FDOT4_F8A (R333). Adds four exact F8A products to FP32 rd with one rounding. -/
  | fdot4F8a (rd : Reg) (ra : Reg) (rb : Reg) (fe : Bool) (g : Guard)
  /-- FDOT4_F8B (R333). Adds four exact F8B products to FP32 rd with one rounding. -/
  | fdot4F8b (rd : Reg) (ra : Reg) (rb : Reg) (fe : Bool) (g : Guard)
  /-- LD (R346). Loads 1 to 16 bytes, optionally acquiring at a scope. -/
  | ld (rd : Reg) (ra : Reg) (sz : BitVec 3) (ord : BitVec 2) (sc : BitVec 4) (g : Bool)
  /-- ST (R386). Stores 1 to 16 bytes into the store buffer, optionally releasing at a scope. -/
  | st (rd : Reg) (ra : Reg) (sz : BitVec 3) (ord : BitVec 2) (sc : BitVec 4) (g : Bool)
  /-- LDL (R350). Row collective reading the named bytes of one line as one event at the home. -/
  | ldl (rd : Reg) (ra : Reg) (sz : BitVec 3) (ord : BitVec 2) (sc : BitVec 4) (g : Bool)
  /-- STL (R388). Row collective writing the named bytes of one line as one store-buffer entry. -/
  | stl (rd : Reg) (ra : Reg) (sz : BitVec 3) (ord : BitVec 2) (sc : BitVec 4) (g : Bool)
  /-- LDT (R352). Waits for a full granule tag, reads, optionally consumes, then acquires. -/
  | ldt (rd : Reg) (ra : Reg) (sz : BitVec 3) (ord : BitVec 2) (sc : BitVec 4) (g : Bool)
  /-- STT (R390). Commits, releases, then writes and sets the granule tag full as one event, optionally waiting for empty. -/
  | stt (rd : Reg) (ra : Reg) (sz : BitVec 3) (ord : BitVec 2) (sc : BitVec 4) (g : Bool)
  /-- LDE (R348). Loads one formatted element and delivers its exact FP32 value. -/
  | lde (rd : Reg) (ra : Reg) (rb : Reg) (fe : Bool) (g : Guard)
  /-- PREF (R368). Prefetches a line into the L1 and home stack cache, or the stack cache only, without fault. -/
  | pref (ra : Reg) (sc : BitVec 4) (g : Bool)
  /-- CFLUSH (R310). Writes back dirty bytes of a range of lines in the caches the scope selects. -/
  | cflush (rd : Reg) (ra : Reg) (sc : BitVec 4) (g : Bool)
  /-- CINV (R310). Discards the bytes of a range of lines in the caches the scope selects. -/
  | cinv (rd : Reg) (ra : Reg) (sc : BitVec 4) (g : Bool)
  /-- FENCE (R128). Performs a release, an acquire or both at a scope. -/
  | fence (ord : BitVec 2) (sc : BitVec 4) (g : Bool)
  /-- ACAS_RELAXED (R298). Compares and swaps a word at the home with no ordering. -/
  | acasRelaxed (rd : Reg) (ra : Reg) (rb : Reg) (sc3 : BitVec 3)
  /-- ACAS_ACQ_REL (R298). Compares and swaps a word at the home with release before and acquire after. -/
  | acasAcqRel (rd : Reg) (ra : Reg) (rb : Reg) (sc3 : BitVec 3)
  /-- ATOM_RELAXED (R302). Performs a read-modify-write operation on a word at the home with no ordering. -/
  | atomRelaxed (op : BitVec 4) (rd : Reg) (ra : Reg) (rb : Reg) (sc3 : BitVec 3)
  /-- ATOM_ACQ_REL (R302). Performs a read-modify-write operation at the home with release and acquire at sc3. -/
  | atomAcqRel (op : BitVec 4) (rd : Reg) (ra : Reg) (rb : Reg) (sc3 : BitVec 3)
  /-- RED (R376). Appends a reduction contribution to the store buffer, combined at commit in update-only state. -/
  | red (op : BitVec 4) (ra : Reg) (rb : Reg) (sc3 : BitVec 3)
  /-- ENQ (R150). Commits, releases and enqueues an element, parking in the roll when full. -/
  | enq (ra : Reg) (rb : Reg) (fe : Bool) (g : Guard)
  /-- ENQT (R325). Tries to enqueue an element and writes 1 or 0. -/
  | enqt (rd : Reg) (ra : Reg) (rb : Reg) (fe : Bool) (g : Guard)
  /-- DEQ (R151). Dequeues an element into payload registers, parking in the roll when empty. -/
  | deq (rd : Reg) (ra : Reg) (fe : Bool) (g : Guard)
  /-- DEQT (R318). Tries to dequeue an element and writes 1 or 0. -/
  | deqt (rd : Reg) (ra : Reg) (rb : Reg) (fe : Bool) (g : Guard)
  /-- QINIT (R148). Initialises a queue control block and returns a status. -/
  | qinit (rd : Reg) (ra : Reg) (rb : Reg) (fe : Bool) (g : Guard)
  /-- QSTAT (R149). Reads a queue's occupancy, free count, configuration and waiters as one home event. -/
  | qstat (rd : Reg) (ra : Reg) (fe : Bool) (g : Guard)
  /-- BARI (R159). Sets a barrier's expected count. -/
  | bari (ra : Reg) (rb : Reg) (fe : Bool) (g : Guard)
  /-- BARA (R159). Releases at .blk, arrives with a count and returns a phase token. -/
  | bara (rd : Reg) (ra : Reg) (rb : Reg) (fe : Bool) (g : Guard)
  /-- BARW (R159). Waits until the barrier leaves the token's phase, then acquires at .blk. -/
  | barw (ra : Reg) (fe : Bool) (g : Guard)
  /-- CPY (R313). Starts a per-fibre engine copy of 4, 8 or 16 bytes between homes. -/
  | cpy (rd : Reg) (ra : Reg) (sz : BitVec 3) (g : Bool)
  /-- CPYB (R315). Starts a bulk copy described by a tensor shape record to memory or an A buffer. -/
  | cpyb (rd : Reg) (ra : Reg) (rb : Reg) (fe : Bool) (g : Guard)
  /-- CPYS (R315). Starts a bulk copy of scales into scale memory. -/
  | cpys (rd : Reg) (ra : Reg) (rb : Reg) (fe : Bool) (g : Guard)
  /-- MMA (R181). Checks a matrix command, claims its grains and appends it to the lead's command queue. -/
  | mma (ra : Reg) (fe : Bool) (g : Guard)
  /-- MZERO (R182). Queues the zeroing of accumulator rows in order with MMAs. -/
  | mzero (ra : Reg) (fe : Bool) (g : Guard)
  /-- MLDB (R357). Starts a bulk load of a B slice and invalidates its latched copy. -/
  | mldb (rd : Reg) (ra : Reg) (rb : Reg) (fe : Bool) (g : Guard)
  /-- MDRAIN (R355). Reads out accumulator rows into a summit instance. -/
  | mdrain (ra : Reg) (fe : Bool) (g : Guard)
  /-- MDRST (R356). Starts a bulk copy of accumulator rows to memory. -/
  | mdrst (rd : Reg) (ra : Reg) (rb : Reg) (fe : Bool) (g : Guard)
  /-- AFEED (R301). Writes 16 bytes of a register quad into an A buffer. -/
  | afeed (ra : Reg) (rb : Reg) (fe : Bool) (g : Guard)
  /-- ADRN (R300). Long-latency read of four accumulator columns into a register quad. -/
  | adrn (rd : Reg) (ra : Reg) (fe : Bool) (g : Guard)
  /-- HREAD (R336). Reads an indexed state item of a halted fibre. -/
  | hread (rd : Reg) (ra : Reg) (rb : Reg) (fe : Bool) (g : Guard)
  /-- HWRITE (R336). Writes an indexed state item of a halted fibre. -/
  | hwrite (rd : Reg) (ra : Reg) (rb : Reg) (fe : Bool) (g : Guard)
  /-- HSTEP (R249). Makes a halted fibre issue one instruction and returns a status. -/
  | hstep (rd : Reg) (ra : Reg) (fe : Bool) (g : Guard)
  /-- HRUN (R251). Releases halted fibres at fibre, block or launch level. -/
  | hrun (ra : Reg) (rb : Reg) (fe : Bool) (g : Guard)
  /-- WSET (R240). Loads a watch record into a proctor slot on every core and zeroes its counters. -/
  | wset (ra : Reg) (rb : Reg) (fe : Bool) (g : Guard)
  /-- WCLR (R240). Sets a proctor slot to kind 0 on every core. -/
  | wclr (ra : Reg) (fe : Bool) (g : Guard)
  /-- DEVICE_RESET (R268). Reset runs the boot ROM, verifies and enters root firmware, which initialises memory and starts the service firmware. -/
  | deviceReset (boot : Boot)
  /-- BUNDLE_REFORMATION (R28). Every 4 core cycles each core re-forms bundles from its ready fibres. -/
  | bundleReformation (core : Nat)
  /-- READY_AGE_OVERRIDE (R211). A fibre ready for 32,768 allowed cycles goes first whatever its key. -/
  | readyAgeOverride (core : Nat)
  /-- PRODUCER_COMPLETE (R57). A long-latency producer writes its destinations and marks them full. -/
  | producerComplete (bid : Nat) (who : Who) (pid : ProducerEnd)
  /-- FIBRE_ENDED (R31). An ending fibre or lead becomes ended once its counters are zero and producers complete, freeing its id. -/
  | fibreEnded (bid : Nat) (who : Who)
  /-- BLOCK_RETIRE (R33). Commits the store buffer, releases at .pkg, frees the block's resources and tells the dean. -/
  | blockRetire (bid : Nat)
  /-- RELEASE_ACK_COMPLETE (R123). The home acknowledgements awaited by a release at .stk or wider arrive and the release completes. -/
  | releaseAckComplete (bid : Nat) (who : Who)
  /-- PAGE_WALK_COMPLETE (R97). A walker finishes a TLB miss, filling the TLB or producing an XLATE fault. -/
  | pageWalkComplete (bid : Nat) (va : DWord)
  /-- L1_EVICTION (R161). An L1 eviction pushes gathered update-only copies home. -/
  | l1Eviction (core : Nat) (line : Nat)
  /-- QUEUE_ENQ_AT_HOME (R150). An enqueue request reaches the home, is checked, and is allocated an index, parked or refused. -/
  | queueEnqAtHome (req : Nat)
  /-- QUEUE_ENQ_WRITE_ACK (R150). The element write is acknowledged and TAIL, FREE and ENQCNT advance in index order. -/
  | queueEnqWriteAck (cb : Nat)
  /-- QUEUE_DEQ_AT_HOME (R151). A dequeue request reaches the home, is checked, and is allocated a slot, parked or refused. -/
  | queueDeqAtHome (req : Nat)
  /-- QUEUE_DEQ_READ_DONE (R151). The element read is performed and HEAD, FREE and DEQCNT advance in index order. -/
  | queueDeqReadDone (cb : Nat)
  /-- ROLL_BUSY_RESEND (R152). An issuer answered busy re-sends its queue operation after a delay. -/
  | rollBusyResend (req : Nat)
  /-- TAGGED_ACCESS_AT_HOME (R157). An LDT or STT reaches the granule's home and is performed or joins its FIFO list. -/
  | taggedAccessAtHome (req : Nat)
  /-- CPY_COMPLETE (R162). A per-fibre copy's write is performed and its class-0 counter falls. -/
  | cpyComplete (op : Nat)
  /-- ENGINE_TRIGGER_DEQ (R168). The engine performs the trigger DEQ of a TRIG = 2 operation and then starts it. -/
  | engineTriggerDeq (op : Nat)
  /-- OPERANDS_CONSUMED_EVENT (R168). An A buffer's pending-reader count reaches zero and a TRIG = 1 operation starts. -/
  | operandsConsumedEvent (op : Nat)
  /-- ENGINE_UNIT_WRITE (R167). The copy engine performs the next unit of a bulk operation in ascending linear order. -/
  | engineUnitWrite (op : Nat)
  /-- ENGINE_OPERATION_END (R169). After all writes, the engine enqueues the completion record and the class counter falls. -/
  | engineOperationEnd (op : Nat)
  /-- B_SLICE_LOAD_COMPLETE (R183). A 128-cycle load of a B slice into an idle register set completes. -/
  | bSliceLoadComplete (core : Nat)
  /-- MATRIX_COMMAND_START (R183). A queued MMA or MZERO starts on the array when its slice is latched and the array is free. -/
  | matrixCommandStart (core : Nat)
  /-- MATRIX_COMMAND_COMPLETE (R181). An MMA or MZERO has written every row; exceptions reach the lead and the class-2 counter falls. -/
  | matrixCommandComplete (core : Nat)
  /-- MDRAIN_READOUT_DONE (R186). The last source row of an MDRAIN is read out and its class-3 counter falls. -/
  | mdrainReadoutDone (op : Nat)
  /-- SUMMIT_CONTRIBUTION_ARRIVE (R187). A contribution reaches its instance, adding at Ridge stops, opening, counting or closing the instance. -/
  | summitContributionArrive (contrib : Nat)
  /-- SUMMIT_DELIVERY (R188). A closed instance writes root accumulator rows or enqueues its rows as queue elements. -/
  | summitDelivery (inst : Nat)
  /-- LAUNCH_ACCEPT (R198). A top unit dequeues a launch record, checks it and accepts it with a launch id. -/
  | launchAccept (queue : Nat)
  /-- BLOCK_SEAT (R208). The dean arbitrates among ready queues and seats one block on a chosen stack and core. -/
  | blockSeat (unit : Nat)
  /-- LAUNCH_COMPLETE (R202). After the last block retires or aborts, the dean writes STATUS, enqueues the completion record and decrements successors. -/
  | launchComplete (lid : Nat)
  /-- PREEMPT_PRIORITY (R212). After PWAIT × 256 cycles unseated, the dean pre-empts the lowest-priority youngest block. -/
  | preemptPriority (lid : Nat)
  /-- PREEMPT_HOST (R212). A host driver request pre-empts a launch or a core. -/
  | preemptHost (target : PreemptTarget)
  /-- PREEMPT_GOVERNOR (R212). During an emergency the dean pre-empts one block on the named dies every 10 µs. -/
  | preemptGovernor (stack : Nat)
  /-- BLOCK_SAVE (R221). Stops issue, settles operations, releases at .pkg and writes and seals the save image. -/
  | blockSave (bid : Nat)
  /-- PREEMPT_RETRY (R224). An abandoned pre-emption is retried no sooner than PWAIT × 256 cycles later. -/
  | preemptRetry (bid : Nat)
  /-- BLOCK_RESUME (R213). A pre-empted or stopped block is restored on an allowed core and continues, re-issuing parked operations and remainders. -/
  | blockResume (bid : Nat)
  /-- RESUME_RETRY (R218). A resume record with ACTION 0 re-executes parked accesses or resumes the stopped block at the faulting instruction. -/
  | resumeRetry
  /-- RESUME_SKIP (R218). A resume record with ACTION 1 resumes the stopped block past the faulting instruction. -/
  | resumeSkip
  /-- RESUME_ABORT (R218). A resume record with ACTION 2 drops the block's buffer, releases its grains and counts it aborted. -/
  | resumeAbort
  /-- CHECKPOINT_SEAL (R230). A KIND 2 image is sealed in the checkpoint extent and the commit completes. -/
  | checkpointSeal (bid : Nat)
  /-- SIGNATURE_COMPARE (R235). Both paired copies reach a commit point and their signatures are compared, committing or rolling back. -/
  | signatureCompare (bid : Nat)
  /-- TRIAL_START (R254). Writing RUN = 1 to TR_CTL zeroes the trial counters and starts the window pairs. -/
  | trialStart (value : DWord)
  /-- TRIAL_WINDOW_END (R254). A W-cycle window ends, adding mean inserted delay to INS and ending the trial after NWIN pairs. -/
  | trialWindowEnd
  /-- TRIAL_DELAY_EXPIRE (R254). A core's pending delay counts down to zero and out-of-range fibres may issue again. -/
  | trialDelayExpire (core : Nat)
  /-- GOVERNOR_STEP (R267). Every 10 µs a die's governor moves its throttle state by at most one step. -/
  | governorStep (stack : Nat) (reading : Reading)
  /-- GOVERNOR_EMERGENCY_BEGIN (R267). A regulator alert, sustained overpower or 110 °C junction sends the named dies to T7. -/
  | governorEmergencyBegin (dies : List Nat) (cause : EmergencyCause)
  /-- GOVERNOR_EMERGENCY_END (R267). The emergency ends after 1 ms free of its cause. -/
  | governorEmergencyEnd (stack : Nat)
  /-- DRAM_REQUEST_SERVICE (R112). A channel controller serves one request by class and deadline, activating a row as needed. -/
  | dramRequestService (visit : DramVisit)
  /-- DEADLINE_URGENT (R112). A deadline request comes within DLTHR of its latest-service time and becomes urgent. -/
  | deadlineUrgent (channel : Nat)
  /-- BANK_BACKOFF_END (R114). A bank's tRFM back-off of 280 ns ends with no row open. -/
  | bankBackoffEnd (channel : Nat) (bank : Nat)
  /-- ACTSEL_CLEAR (R115). Writing CLR = 1 to ACTSEL sets every row counter of the selected bank to 0. -/
  | actselClear (channel : Nat) (value : DWord)
  /-- AMAP_COMMIT (R108). Writing COMMIT checks the staged masks and installs the region's mapping after writing back its lines. -/
  | amapCommit (region : Nat) (value : DWord)
  /-- LAUNCH_QUEUE_ENABLE (R195). Writing EN = 1 enables a launch queue unless its handles have the wrong size codes. -/
  | launchQueueEnable (queue : Nat) (value : DWord)
  /-- REGISTER_WRITE (R4). A write to a device register with no behaviour of its own stores its fields under their access codes. -/
  | registerWrite (port : Nat) (reg : DevReg) (value : DWord)
  /-- HIFENCE (R258). A host write releases at .host and starts discarding instruction caches in scope, or is refused. -/
  | hifence (port : Nat) (value : DWord)
  /-- HIFENCE_COMPLETE (R258). Every core in scope acknowledges and BUSY clears. -/
  | hifenceComplete (port : Nat)
  /-- HIFENCE_TIMEOUT (R258). A pod member fails to acknowledge within 1 ms, setting TMO and clearing BUSY. -/
  | hifenceTimeout (port : Nat)
  /-- QW_HANDLE (R259). Writing a queue window's handle empties its staging FIFO. -/
  | qwHandle (port : Nat) (window : Nat) (value : DWord)
  /-- QW_ENQ (R259). A posted write of one element enters the window's staging FIFO or is dropped. -/
  | qwEnq (port : Nat) (window : Nat) (write : WindowWrite)
  /-- QW_STAGING_ENQUEUE (R259). The port enqueues the oldest staged element into the queue, or discards on a failed check. -/
  | qwStagingEnqueue (port : Nat) (window : Nat)
  /-- QW_DEQ (R259). A read performs a try-dequeue into QW_HOLD and returns 1 or 0. -/
  | qwDeq (port : Nat) (window : Nat)
  /-- HOST_APERTURE_READ (R260). A host read through BAR 4 is performed at the home and returned, poisoned or as Unsupported Request. -/
  | hostApertureRead (port : Nat) (offset : Nat) (len : Nat)
  /-- HOST_APERTURE_WRITE (R260). A host posted write through BAR 4 is performed at the home or discarded and reported. -/
  | hostApertureWrite (port : Nat) (offset : Nat) (bytes : List Byte)
  /-- PEER_FLIT_RECEIVE (R262). A peer-link flit is checked and taken in sequence, acknowledged or NAKed. -/
  | peerFlitReceive (port : Nat) (flit : Flit)
  /-- LANE_REPAIR (R263). A lane reaching 16 CRC errors in 1 ms retrains the link on three lanes and replays. -/
  | laneRepair (port : Nat) (lane : Nat)
  /-- REMOTE_REQUEST_AT_TARGET (R264). A target checks a remote request against its import windows and applies atomics once by sequence number. -/
  | remoteRequestAtTarget (req : RemoteReq)
  /-- REMOTE_RESEND (R264). A remote atomic or queue operation with no response in 100 µs is resent over any route. -/
  | remoteResend (op : Nat)
  /-- REMOTE_TIMEOUT (R265). A request unanswered for 1 ms faults REMOTE and marks the device dead. -/
  | remoteTimeout (op : Nat)
  /-- DEAD_MARK_CLEAR (R265). The host driver clears a device's dead mark through the link management registers. -/
  | deadMarkClear (device : Nat)
  /-- EXTENT_RELEASE (R118). The fabric manager releases a lent extent; the package refuses new accesses, drains and acknowledges. -/
  | extentRelease (base : Nat) (limit : Nat)
  /-- RIDGE_MESSAGE_DELIVER (R13). A Ridge message reaches its destination stop in per-class, per-pair order. -/
  | ridgeMessageDeliver (cls : RidgeClass) (src : Nat) (dst : RidgeEnd)
  /-- RIDGE_INJECTION_RESERVE (R14). An injection waiting 64 ring cycles gets the next free slot reserved. -/
  | ridgeInjectionReserve (stop : Nat) (ascending : Bool)
  /-- ATTESTATION_REQUEST (R268). A mailbox nonce is answered with a signed report of identity and measurements. -/
  | attestationRequest (nonce : BitVec 512)
  /-- EXPERT_UNLOCK (R269). A mailbox request signed by an enrolled key unlocks the expert level for a port until reset. -/
  | expertUnlock (port : Nat) (signed : Bool)
  /-- ORDINARY_REFRESH (R114). The channel controller performs ordinary DRAM refresh at the rate set by the throttle state's refresh multiplier and the DRAM's temperature demand; a refresh closes an open row and changes no counter. -/
  | ordinaryRefresh (channel : Nat) (bank : Nat)
  /-- LINK_RETRAIN_COMPLETE (R263). About 2 µs after repair began, the link finishes retraining on three lanes; it then runs at three-quarter bandwidth and the sender replays every flit still unacknowledged. -/
  | linkRetrainComplete (port : Nat)
  /-- AMAP_COMMIT_COMPLETE (R108). Once every stack-cache and memory-side-cache line of the region's extents has been written back and invalidated, the staged mapping becomes active, the held accesses are released and STATUS returns to OK. -/
  | amapCommitComplete (region : Nat)
  /-- UNASSIGNED_OPCODE (R275). A fetched word whose opcode is unassigned, or that matches no instruction's encoding, traps ILLOP or ILLOPD with no effect. -/
  | unassignedOpcode (word : Word)
  /-- INSTRUCTION_FETCH_FAULT (R21). A fetch at the PC misses translation, or meets a page without X or U, or a poisoned sector, and raises XLATE, PERM or POISON with the PC as the address. -/
  | instructionFetchFault (fault : FetchFault)
deriving DecidableEq, Repr

end Sys2Proof
end

