-- ==== Sys2Proof/WellFormed.lean ====
section
/-!
DEFINITION. Which instructions are legal words (14 R274 step 4, R275): the codes that the word alone decides and that the
types of Syntax do not exclude. What also depends on the executor, the window base or the allocation is checked at issue.
-/
namespace Sys2Proof

/-- A legal scope code (00 R6; 06 R127, R128). -/
def scopeCode (sc : BitVec 4) : Bool := decide (sc.toNat ≤ 10)

/-- The sz, ord and sc of LD, ST, LDL and STL (06 R127, 14 R278). -/
def plainOrOrdered (sz : BitVec 3) (ord : BitVec 2) (sc : BitVec 4) : Bool :=
  decide (sz.toNat ≤ 6) &&
    ((decide (ord.toNat = 0) && decide (sc.toNat = 0)) || (decide (ord.toNat = 1) && scopeCode sc))

/-- The sz, ord and sc of LDT and STT (07 R156). -/
def tagAccess (sz : BitVec 3) (ord : BitVec 2) (sc : BitVec 4) : Bool :=
  decide (sz.toNat ≤ 6) && decide (ord.toNat ≤ 1) && scopeCode sc

/-- A predicate index p0 to p15 in a 7-bit field (17 R342). -/
def predIndex (r : Reg) : Bool := decide (r.toNat ≤ 15)

/-- A number that SYSR (read) or SYSW (write) accepts (18 R391). -/
def sysNumber (n : BitVec 15) (read : Bool) : Bool :=
  decide (n.toNat = 18) || (read && decide (0x200 ≤ n.toNat ∧ n.toNat ≤ 0x23F)) ||
    decide (0x1000 ≤ n.toNat ∧ n.toNat ≤ 0x17FF)

/-- Whether the codes of an instruction word are all legal. Event rows have no word and are always well formed. -/
def Instr.wellFormed (i : Instr) : Bool :=
  match i with
  | .sete rd _ => decide (rd.toNat < 126)
  | .waitf ra rb _ => decide (rb.toNat ≤ 15) && decide (ra.toNat + rb.toNat ≤ 125)
  | .waito ra _ _ => decide (ra.toNat ≤ 3)
  | .lea sh _ _ _ _ => decide (sh.toNat ≤ 63)
  | .icmp cond _ _ _ _ _ => decide (cond.toNat ≤ 5)
  | .icmpu cond _ _ _ _ _ => decide (cond.toNat ≤ 5)
  | .pand rd ra rb _ => predIndex rd && predIndex ra && predIndex rb
  | .por rd ra rb _ => predIndex rd && predIndex ra && predIndex rb
  | .pxor rd ra rb _ => predIndex rd && predIndex ra && predIndex rb
  | .pnot rd ra _ => predIndex rd && predIndex ra
  | .pmovToPredicate rd _ _ _ => predIndex rd || decide (rd.toNat = 0x40)
  | .vote _ _ rb _ => decide (rb.toNat ≤ 2)
  | .sread _ imm _ => decide (imm.toNat ≤ 19)
  | .sysr _ imm _ => sysNumber imm true
  | .sysw _ imm _ => sysNumber imm false
  | .prog imm _ => decide (imm.toNat ≤ 15)
  | .ifence sc _ => scopeCode sc
  | .fcmpBf16x2 _ pn _ _ _ _ => decide (pn.toNat % 2 = 0)
  | .fcmpF16x2 _ pn _ _ _ _ => decide (pn.toNat % 2 = 0)
  | .fabs _ _ fmt _ _ => decide (fmt.toNat ≤ 2)
  | .fneg _ _ fmt _ _ => decide (fmt.toNat ≤ 2)
  | .fcvt _ _ src dst _ _ => decide (src.toNat ≤ 5) && decide (dst.toNat ≤ 5)
  | .fcvti _ _ mode _ _ => decide (mode.toNat ≤ 7)
  | .icvtf _ _ mode _ _ => decide (mode.toNat ≤ 7)
  | .frnd _ _ mode _ _ => decide (mode.toNat ≤ 3)
  | .ld _ _ sz ord sc _ => plainOrOrdered sz ord sc
  | .st _ _ sz ord sc _ => plainOrOrdered sz ord sc
  | .ldl _ _ sz ord sc _ => plainOrOrdered sz ord sc
  | .stl _ _ sz ord sc _ => plainOrOrdered sz ord sc
  | .ldt _ _ sz ord sc _ => tagAccess sz ord sc
  | .stt _ _ sz ord sc _ => tagAccess sz ord sc
  | .pref _ sc _ => scopeCode sc
  | .cflush _ _ sc _ => scopeCode sc
  | .cinv _ _ sc _ => scopeCode sc
  | .fence ord sc _ => decide (ord.toNat ≠ 3) && scopeCode sc
  | .atomRelaxed op _ _ _ _ => decide (op.toNat ≤ 9)
  | .atomAcqRel op _ _ _ _ => decide (op.toNat ≤ 9)
  | .red op _ _ _ => decide (op.toNat ≤ 8)
  | .cpy _ _ sz _ => decide (4 ≤ sz.toNat ∧ sz.toNat ≤ 6)
  | .nop .. => true
  | .br .. => true
  | .bri .. => true
  | .call .. => true
  | .ret .. => true
  | .yield .. => true
  | .rep .. => true
  | .trap .. => true
  | .eret .. => true
  | .endIssue .. => true
  | .fork .. => true
  | .upush .. => true
  | .iadd .. => true
  | .isub .. => true
  | .imul .. => true
  | .imulh .. => true
  | .imulhu .. => true
  | .imad .. => true
  | .div .. => true
  | .divu .. => true
  | .and .. => true
  | .or .. => true
  | .xor .. => true
  | .andn .. => true
  | .shl .. => true
  | .shr .. => true
  | .sar .. => true
  | .imin .. => true
  | .imax .. => true
  | .iminu .. => true
  | .imaxu .. => true
  | .iadds .. => true
  | .addmin .. => true
  | .addmax .. => true
  | .sel .. => true
  | .bfx .. => true
  | .bfi .. => true
  | .iabs .. => true
  | .popc .. => true
  | .clz .. => true
  | .brev .. => true
  | .mov .. => true
  | .movi .. => true
  | .movhi .. => true
  | .iaddi .. => true
  | .andImm .. => true
  | .orImm .. => true
  | .xorImm .. => true
  | .shlImm .. => true
  | .shrImm .. => true
  | .sarImm .. => true
  | .movx .. => true
  | .movxw .. => true
  | .win .. => true
  | .winadd .. => true
  | .xlane .. => true
  | .xshf .. => true
  | .pmovFromWord .. => true
  | .tlbiPage .. => true
  | .tlbiAsn .. => true
  | .tlbiAll .. => true
  | .sigr .. => true
  | .chkpt .. => true
  | .faddF32 .. => true
  | .faddBf16x2 .. => true
  | .faddF16x2 .. => true
  | .fsubF32 .. => true
  | .fsubBf16x2 .. => true
  | .fsubF16x2 .. => true
  | .fmulF32 .. => true
  | .fmulBf16x2 .. => true
  | .fmulF16x2 .. => true
  | .fmaF32 .. => true
  | .fmaBf16x2 .. => true
  | .fmaF16x2 .. => true
  | .fminF32 .. => true
  | .fminBf16x2 .. => true
  | .fminF16x2 .. => true
  | .fmaxF32 .. => true
  | .fmaxBf16x2 .. => true
  | .fmaxF16x2 .. => true
  | .fcmpF32 .. => true
  | .frcp .. => true
  | .frsq .. => true
  | .fexp2 .. => true
  | .flog2 .. => true
  | .fclass .. => true
  | .fdot2Bf16 .. => true
  | .fdot2F16 .. => true
  | .fdot4F8a .. => true
  | .fdot4F8b .. => true
  | .lde .. => true
  | .acasRelaxed .. => true
  | .acasAcqRel .. => true
  | .enq .. => true
  | .enqt .. => true
  | .deq .. => true
  | .deqt .. => true
  | .qinit .. => true
  | .qstat .. => true
  | .bari .. => true
  | .bara .. => true
  | .barw .. => true
  | .cpyb .. => true
  | .cpys .. => true
  | .mma .. => true
  | .mzero .. => true
  | .mldb .. => true
  | .mdrain .. => true
  | .mdrst .. => true
  | .afeed .. => true
  | .adrn .. => true
  | .hread .. => true
  | .hwrite .. => true
  | .hstep .. => true
  | .hrun .. => true
  | .wset .. => true
  | .wclr .. => true
  | .deviceReset .. => true
  | .bundleReformation .. => true
  | .readyAgeOverride .. => true
  | .producerComplete .. => true
  | .fibreEnded .. => true
  | .blockRetire .. => true
  | .releaseAckComplete .. => true
  | .pageWalkComplete .. => true
  | .l1Eviction .. => true
  | .queueEnqAtHome .. => true
  | .queueEnqWriteAck .. => true
  | .queueDeqAtHome .. => true
  | .queueDeqReadDone .. => true
  | .rollBusyResend .. => true
  | .taggedAccessAtHome .. => true
  | .cpyComplete .. => true
  | .engineTriggerDeq .. => true
  | .operandsConsumedEvent .. => true
  | .engineUnitWrite .. => true
  | .engineOperationEnd .. => true
  | .bSliceLoadComplete .. => true
  | .matrixCommandStart .. => true
  | .matrixCommandComplete .. => true
  | .mdrainReadoutDone .. => true
  | .summitContributionArrive .. => true
  | .summitDelivery .. => true
  | .launchAccept .. => true
  | .blockSeat .. => true
  | .launchComplete .. => true
  | .preemptPriority .. => true
  | .preemptHost .. => true
  | .preemptGovernor .. => true
  | .blockSave .. => true
  | .preemptRetry .. => true
  | .blockResume .. => true
  | .resumeRetry => true
  | .resumeSkip => true
  | .resumeAbort => true
  | .checkpointSeal .. => true
  | .signatureCompare .. => true
  | .trialStart .. => true
  | .trialWindowEnd => true
  | .trialDelayExpire .. => true
  | .governorStep .. => true
  | .governorEmergencyBegin .. => true
  | .governorEmergencyEnd .. => true
  | .dramRequestService .. => true
  | .deadlineUrgent .. => true
  | .bankBackoffEnd .. => true
  | .actselClear .. => true
  | .amapCommit .. => true
  | .launchQueueEnable .. => true
  | .registerWrite .. => true
  | .hifence .. => true
  | .hifenceComplete .. => true
  | .hifenceTimeout .. => true
  | .qwHandle .. => true
  | .qwEnq .. => true
  | .qwStagingEnqueue .. => true
  | .qwDeq .. => true
  | .hostApertureRead .. => true
  | .hostApertureWrite .. => true
  | .peerFlitReceive .. => true
  | .laneRepair .. => true
  | .remoteRequestAtTarget .. => true
  | .remoteResend .. => true
  | .remoteTimeout .. => true
  | .deadMarkClear .. => true
  | .extentRelease .. => true
  | .ridgeMessageDeliver .. => true
  | .ridgeInjectionReserve .. => true
  | .attestationRequest .. => true
  | .expertUnlock .. => true
  | .ordinaryRefresh .. => true
  | .linkRetrainComplete .. => true
  | .amapCommitComplete .. => true
  | .unassignedOpcode .. => true
  | .instructionFetchFault .. => true

/-- Whether an operation is an instruction word rather than an event. -/
def Instr.isWord (i : Instr) : Bool :=
  match i with
  | .nop .. => true
  | .br .. => true
  | .bri .. => true
  | .call .. => true
  | .ret .. => true
  | .yield .. => true
  | .rep .. => true
  | .trap .. => true
  | .eret .. => true
  | .endIssue .. => true
  | .fork .. => true
  | .upush .. => true
  | .sete .. => true
  | .waitf .. => true
  | .waito .. => true
  | .iadd .. => true
  | .isub .. => true
  | .imul .. => true
  | .imulh .. => true
  | .imulhu .. => true
  | .imad .. => true
  | .div .. => true
  | .divu .. => true
  | .and .. => true
  | .or .. => true
  | .xor .. => true
  | .andn .. => true
  | .shl .. => true
  | .shr .. => true
  | .sar .. => true
  | .imin .. => true
  | .imax .. => true
  | .iminu .. => true
  | .imaxu .. => true
  | .iadds .. => true
  | .addmin .. => true
  | .addmax .. => true
  | .sel .. => true
  | .lea .. => true
  | .bfx .. => true
  | .bfi .. => true
  | .icmp .. => true
  | .icmpu .. => true
  | .iabs .. => true
  | .popc .. => true
  | .clz .. => true
  | .brev .. => true
  | .mov .. => true
  | .movi .. => true
  | .movhi .. => true
  | .iaddi .. => true
  | .andImm .. => true
  | .orImm .. => true
  | .xorImm .. => true
  | .shlImm .. => true
  | .shrImm .. => true
  | .sarImm .. => true
  | .movx .. => true
  | .movxw .. => true
  | .win .. => true
  | .winadd .. => true
  | .xlane .. => true
  | .xshf .. => true
  | .pand .. => true
  | .por .. => true
  | .pxor .. => true
  | .pnot .. => true
  | .pmovToPredicate .. => true
  | .pmovFromWord .. => true
  | .vote .. => true
  | .sread .. => true
  | .sysr .. => true
  | .sysw .. => true
  | .tlbiPage .. => true
  | .tlbiAsn .. => true
  | .tlbiAll .. => true
  | .sigr .. => true
  | .chkpt .. => true
  | .prog .. => true
  | .ifence .. => true
  | .faddF32 .. => true
  | .faddBf16x2 .. => true
  | .faddF16x2 .. => true
  | .fsubF32 .. => true
  | .fsubBf16x2 .. => true
  | .fsubF16x2 .. => true
  | .fmulF32 .. => true
  | .fmulBf16x2 .. => true
  | .fmulF16x2 .. => true
  | .fmaF32 .. => true
  | .fmaBf16x2 .. => true
  | .fmaF16x2 .. => true
  | .fminF32 .. => true
  | .fminBf16x2 .. => true
  | .fminF16x2 .. => true
  | .fmaxF32 .. => true
  | .fmaxBf16x2 .. => true
  | .fmaxF16x2 .. => true
  | .fcmpF32 .. => true
  | .fcmpBf16x2 .. => true
  | .fcmpF16x2 .. => true
  | .fabs .. => true
  | .fneg .. => true
  | .fcvt .. => true
  | .fcvti .. => true
  | .icvtf .. => true
  | .frcp .. => true
  | .frsq .. => true
  | .fexp2 .. => true
  | .flog2 .. => true
  | .frnd .. => true
  | .fclass .. => true
  | .fdot2Bf16 .. => true
  | .fdot2F16 .. => true
  | .fdot4F8a .. => true
  | .fdot4F8b .. => true
  | .ld .. => true
  | .st .. => true
  | .ldl .. => true
  | .stl .. => true
  | .ldt .. => true
  | .stt .. => true
  | .lde .. => true
  | .pref .. => true
  | .cflush .. => true
  | .cinv .. => true
  | .fence .. => true
  | .acasRelaxed .. => true
  | .acasAcqRel .. => true
  | .atomRelaxed .. => true
  | .atomAcqRel .. => true
  | .red .. => true
  | .enq .. => true
  | .enqt .. => true
  | .deq .. => true
  | .deqt .. => true
  | .qinit .. => true
  | .qstat .. => true
  | .bari .. => true
  | .bara .. => true
  | .barw .. => true
  | .cpy .. => true
  | .cpyb .. => true
  | .cpys .. => true
  | .mma .. => true
  | .mzero .. => true
  | .mldb .. => true
  | .mdrain .. => true
  | .mdrst .. => true
  | .afeed .. => true
  | .adrn .. => true
  | .hread .. => true
  | .hwrite .. => true
  | .hstep .. => true
  | .hrun .. => true
  | .wset .. => true
  | .wclr .. => true
  | .deviceReset .. => false
  | .bundleReformation .. => false
  | .readyAgeOverride .. => false
  | .producerComplete .. => false
  | .fibreEnded .. => false
  | .blockRetire .. => false
  | .releaseAckComplete .. => false
  | .pageWalkComplete .. => false
  | .l1Eviction .. => false
  | .queueEnqAtHome .. => false
  | .queueEnqWriteAck .. => false
  | .queueDeqAtHome .. => false
  | .queueDeqReadDone .. => false
  | .rollBusyResend .. => false
  | .taggedAccessAtHome .. => false
  | .cpyComplete .. => false
  | .engineTriggerDeq .. => false
  | .operandsConsumedEvent .. => false
  | .engineUnitWrite .. => false
  | .engineOperationEnd .. => false
  | .bSliceLoadComplete .. => false
  | .matrixCommandStart .. => false
  | .matrixCommandComplete .. => false
  | .mdrainReadoutDone .. => false
  | .summitContributionArrive .. => false
  | .summitDelivery .. => false
  | .launchAccept .. => false
  | .blockSeat .. => false
  | .launchComplete .. => false
  | .preemptPriority .. => false
  | .preemptHost .. => false
  | .preemptGovernor .. => false
  | .blockSave .. => false
  | .preemptRetry .. => false
  | .blockResume .. => false
  | .resumeRetry => false
  | .resumeSkip => false
  | .resumeAbort => false
  | .checkpointSeal .. => false
  | .signatureCompare .. => false
  | .trialStart .. => false
  | .trialWindowEnd => false
  | .trialDelayExpire .. => false
  | .governorStep .. => false
  | .governorEmergencyBegin .. => false
  | .governorEmergencyEnd .. => false
  | .dramRequestService .. => false
  | .deadlineUrgent .. => false
  | .bankBackoffEnd .. => false
  | .actselClear .. => false
  | .amapCommit .. => false
  | .launchQueueEnable .. => false
  | .registerWrite .. => false
  | .hifence .. => false
  | .hifenceComplete .. => false
  | .hifenceTimeout .. => false
  | .qwHandle .. => false
  | .qwEnq .. => false
  | .qwStagingEnqueue .. => false
  | .qwDeq .. => false
  | .hostApertureRead .. => false
  | .hostApertureWrite .. => false
  | .peerFlitReceive .. => false
  | .laneRepair .. => false
  | .remoteRequestAtTarget .. => false
  | .remoteResend .. => false
  | .remoteTimeout .. => false
  | .deadMarkClear .. => false
  | .extentRelease .. => false
  | .ridgeMessageDeliver .. => false
  | .ridgeInjectionReserve .. => false
  | .attestationRequest .. => false
  | .expertUnlock .. => false
  | .ordinaryRefresh .. => false
  | .linkRetrainComplete .. => false
  | .amapCommitComplete .. => false
  | .unassignedOpcode .. => false
  | .instructionFetchFault .. => false

end Sys2Proof
end

