-- ==== Sys2Proof/Decode.lean ====
section
/-!
DEFINITION. Decoding of instruction words and the encoder, both from the formats of 14 R271 and the encoding tables of the
reference chapters (15 to 18). Every instruction is one 32-bit word stored least significant byte first (14 R270, 00 R2).
-/
namespace Sys2Proof

/-- Why a word gives no instruction: too few bytes, an unassigned opcode (14 R276), or an illegal encoding (14 R275). -/
inductive DecodeError where
  | truncated
  | unassigned (opcode : Nat)
  | illegal (word : Word)
deriving DecidableEq, Repr

/-- The guard of a two-bit code (14 R272). -/
def Guard.ofBits (b : BitVec 2) : Guard :=
  match b.toNat with
  | 0 => .always
  | 1 => .p0
  | 2 => .notP0
  | _ => .p1

/-- The two-bit code of a guard (14 R272). -/
def Guard.bits (g : Guard) : BitVec 2 :=
  match g with
  | .always => 0#2
  | .p0 => 1#2
  | .notP0 => 2#2
  | .p1 => 3#2

/-- A one-bit field as a truth value. -/
def bitSet (b : BitVec 1) : Bool := b.getLsbD 0

/-- Whether the n bits of w from bit lo up hold a value: a fixed or reserved field of an encoding (14 R275). -/
def fieldIs (w : Word) (lo n value : Nat) : Bool := decide (w.extractLsb' lo n = BitVec.ofNat n value)

/-- The opcodes that the opcode map assigns (14 R276). -/
def assignedOpcode (op : Nat) : Bool :=
  decide (0x01 ≤ op ∧ op ≤ 0x4E) || decide (0x50 ≤ op ∧ op ≤ 0x73) || decide (0x80 ≤ op ∧ op ≤ 0x8C) || decide (0x90 ≤ op ∧ op ≤ 0x99) || decide (0xA0 ≤ op ∧ op ≤ 0xA9) || decide (0xB0 ≤ op ∧ op ≤ 0xB8) || decide (0xC0 ≤ op ∧ op ≤ 0xCB) || decide (0xD0 ≤ op ∧ op ≤ 0xD6) || decide (0xE0 ≤ op ∧ op ≤ 0xE5)

/-- The instruction of a word under an opcode, if the fixed bits fit it, with its codes not yet checked (14 R271, R276). -/
def decodeOp (op : Nat) (w : Word) : Option Instr :=
  match op with
  | 0x01 => if fieldIs w 2 22 0 then some (.nop (Guard.ofBits (w.extractLsb' 0 2))) else none
  | 0x02 => some (.br (w.extractLsb' 2 22) (Guard.ofBits (w.extractLsb' 0 2)))
  | 0x03 => if fieldIs w 17 7 0 && fieldIs w 3 7 0 then some (.bri (w.extractLsb' 10 7) (bitSet (w.extractLsb' 2 1)) (Guard.ofBits (w.extractLsb' 0 2))) else none
  | 0x04 => some (.call (w.extractLsb' 2 22) (Guard.ofBits (w.extractLsb' 0 2)))
  | 0x05 => if fieldIs w 3 21 0 then some (.ret (bitSet (w.extractLsb' 2 1)) (Guard.ofBits (w.extractLsb' 0 2))) else none
  | 0x06 => if fieldIs w 2 22 0 then some (.yield (Guard.ofBits (w.extractLsb' 0 2))) else none
  | 0x07 => if fieldIs w 0 9 0 then some (.rep (w.extractLsb' 18 6) (w.extractLsb' 15 3) (w.extractLsb' 12 3) (w.extractLsb' 9 3)) else none
  | 0x08 => if fieldIs w 17 7 0 then some (.trap (w.extractLsb' 2 15) (Guard.ofBits (w.extractLsb' 0 2))) else none
  | 0x09 => if fieldIs w 17 7 0 then some (.eret (w.extractLsb' 10 7) (w.extractLsb' 3 7) (bitSet (w.extractLsb' 2 1)) (Guard.ofBits (w.extractLsb' 0 2))) else none
  | 0x0A => if fieldIs w 2 22 0 then some (.endIssue (Guard.ofBits (w.extractLsb' 0 2))) else none
  | 0x0B => some (.fork (w.extractLsb' 17 7) (w.extractLsb' 10 7) (w.extractLsb' 3 7) (bitSet (w.extractLsb' 2 1)) (Guard.ofBits (w.extractLsb' 0 2)))
  | 0x0C => if fieldIs w 17 7 0 && fieldIs w 3 7 0 then some (.upush (w.extractLsb' 10 7) (bitSet (w.extractLsb' 2 1)) (Guard.ofBits (w.extractLsb' 0 2))) else none
  | 0x0D => if fieldIs w 2 15 0 then some (.sete (w.extractLsb' 17 7) (Guard.ofBits (w.extractLsb' 0 2))) else none
  | 0x0E => if fieldIs w 17 7 0 && fieldIs w 2 1 0 then some (.waitf (w.extractLsb' 10 7) (w.extractLsb' 3 7) (Guard.ofBits (w.extractLsb' 0 2))) else none
  | 0x0F => if fieldIs w 17 7 0 then some (.waito (w.extractLsb' 10 7) (w.extractLsb' 2 8) (Guard.ofBits (w.extractLsb' 0 2))) else none
  | 0x10 => some (.iadd (w.extractLsb' 17 7) (w.extractLsb' 10 7) (w.extractLsb' 3 7) (bitSet (w.extractLsb' 2 1)) (Guard.ofBits (w.extractLsb' 0 2)))
  | 0x11 => some (.isub (w.extractLsb' 17 7) (w.extractLsb' 10 7) (w.extractLsb' 3 7) (bitSet (w.extractLsb' 2 1)) (Guard.ofBits (w.extractLsb' 0 2)))
  | 0x12 => some (.imul (w.extractLsb' 17 7) (w.extractLsb' 10 7) (w.extractLsb' 3 7) (bitSet (w.extractLsb' 2 1)) (Guard.ofBits (w.extractLsb' 0 2)))
  | 0x13 => some (.imulh (w.extractLsb' 17 7) (w.extractLsb' 10 7) (w.extractLsb' 3 7) (bitSet (w.extractLsb' 2 1)) (Guard.ofBits (w.extractLsb' 0 2)))
  | 0x14 => some (.imulhu (w.extractLsb' 17 7) (w.extractLsb' 10 7) (w.extractLsb' 3 7) (bitSet (w.extractLsb' 2 1)) (Guard.ofBits (w.extractLsb' 0 2)))
  | 0x15 => some (.imad (w.extractLsb' 17 7) (w.extractLsb' 10 7) (w.extractLsb' 3 7) (bitSet (w.extractLsb' 2 1)) (Guard.ofBits (w.extractLsb' 0 2)))
  | 0x16 => some (.div (w.extractLsb' 17 7) (w.extractLsb' 10 7) (w.extractLsb' 3 7) (bitSet (w.extractLsb' 2 1)) (Guard.ofBits (w.extractLsb' 0 2)))
  | 0x17 => some (.divu (w.extractLsb' 17 7) (w.extractLsb' 10 7) (w.extractLsb' 3 7) (bitSet (w.extractLsb' 2 1)) (Guard.ofBits (w.extractLsb' 0 2)))
  | 0x18 => some (.and (w.extractLsb' 17 7) (w.extractLsb' 10 7) (w.extractLsb' 3 7) (bitSet (w.extractLsb' 2 1)) (Guard.ofBits (w.extractLsb' 0 2)))
  | 0x19 => some (.or (w.extractLsb' 17 7) (w.extractLsb' 10 7) (w.extractLsb' 3 7) (bitSet (w.extractLsb' 2 1)) (Guard.ofBits (w.extractLsb' 0 2)))
  | 0x1A => some (.xor (w.extractLsb' 17 7) (w.extractLsb' 10 7) (w.extractLsb' 3 7) (bitSet (w.extractLsb' 2 1)) (Guard.ofBits (w.extractLsb' 0 2)))
  | 0x1B => some (.andn (w.extractLsb' 17 7) (w.extractLsb' 10 7) (w.extractLsb' 3 7) (bitSet (w.extractLsb' 2 1)) (Guard.ofBits (w.extractLsb' 0 2)))
  | 0x1C => some (.shl (w.extractLsb' 17 7) (w.extractLsb' 10 7) (w.extractLsb' 3 7) (bitSet (w.extractLsb' 2 1)) (Guard.ofBits (w.extractLsb' 0 2)))
  | 0x1D => some (.shr (w.extractLsb' 17 7) (w.extractLsb' 10 7) (w.extractLsb' 3 7) (bitSet (w.extractLsb' 2 1)) (Guard.ofBits (w.extractLsb' 0 2)))
  | 0x1E => some (.sar (w.extractLsb' 17 7) (w.extractLsb' 10 7) (w.extractLsb' 3 7) (bitSet (w.extractLsb' 2 1)) (Guard.ofBits (w.extractLsb' 0 2)))
  | 0x1F => some (.imin (w.extractLsb' 17 7) (w.extractLsb' 10 7) (w.extractLsb' 3 7) (bitSet (w.extractLsb' 2 1)) (Guard.ofBits (w.extractLsb' 0 2)))
  | 0x20 => some (.imax (w.extractLsb' 17 7) (w.extractLsb' 10 7) (w.extractLsb' 3 7) (bitSet (w.extractLsb' 2 1)) (Guard.ofBits (w.extractLsb' 0 2)))
  | 0x21 => some (.iminu (w.extractLsb' 17 7) (w.extractLsb' 10 7) (w.extractLsb' 3 7) (bitSet (w.extractLsb' 2 1)) (Guard.ofBits (w.extractLsb' 0 2)))
  | 0x22 => some (.imaxu (w.extractLsb' 17 7) (w.extractLsb' 10 7) (w.extractLsb' 3 7) (bitSet (w.extractLsb' 2 1)) (Guard.ofBits (w.extractLsb' 0 2)))
  | 0x23 => some (.iadds (w.extractLsb' 17 7) (w.extractLsb' 10 7) (w.extractLsb' 3 7) (bitSet (w.extractLsb' 2 1)) (Guard.ofBits (w.extractLsb' 0 2)))
  | 0x24 => some (.addmin (w.extractLsb' 17 7) (w.extractLsb' 10 7) (w.extractLsb' 3 7) (bitSet (w.extractLsb' 2 1)) (Guard.ofBits (w.extractLsb' 0 2)))
  | 0x25 => some (.addmax (w.extractLsb' 17 7) (w.extractLsb' 10 7) (w.extractLsb' 3 7) (bitSet (w.extractLsb' 2 1)) (Guard.ofBits (w.extractLsb' 0 2)))
  | 0x26 => some (.sel (w.extractLsb' 17 7) (w.extractLsb' 10 7) (w.extractLsb' 3 7) (bitSet (w.extractLsb' 2 1)) (Guard.ofBits (w.extractLsb' 0 2)))
  | 0x27 => some (.lea (w.extractLsb' 17 7) (w.extractLsb' 10 7) (w.extractLsb' 3 7) (bitSet (w.extractLsb' 2 1)) (Guard.ofBits (w.extractLsb' 0 2)))
  | 0x28 => some (.bfx (w.extractLsb' 17 7) (w.extractLsb' 10 7) (w.extractLsb' 3 7) (bitSet (w.extractLsb' 2 1)) (Guard.ofBits (w.extractLsb' 0 2)))
  | 0x29 => some (.bfi (w.extractLsb' 17 7) (w.extractLsb' 10 7) (w.extractLsb' 3 7) (bitSet (w.extractLsb' 2 1)) (Guard.ofBits (w.extractLsb' 0 2)))
  | 0x2A => some (.icmp (w.extractLsb' 21 3) (w.extractLsb' 17 4) (w.extractLsb' 10 7) (w.extractLsb' 3 7) (bitSet (w.extractLsb' 2 1)) (Guard.ofBits (w.extractLsb' 0 2)))
  | 0x2B => some (.icmpu (w.extractLsb' 21 3) (w.extractLsb' 17 4) (w.extractLsb' 10 7) (w.extractLsb' 3 7) (bitSet (w.extractLsb' 2 1)) (Guard.ofBits (w.extractLsb' 0 2)))
  | 0x2C => if fieldIs w 3 7 0 then some (.iabs (w.extractLsb' 17 7) (w.extractLsb' 10 7) (bitSet (w.extractLsb' 2 1)) (Guard.ofBits (w.extractLsb' 0 2))) else none
  | 0x2D => if fieldIs w 3 7 0 then some (.popc (w.extractLsb' 17 7) (w.extractLsb' 10 7) (bitSet (w.extractLsb' 2 1)) (Guard.ofBits (w.extractLsb' 0 2))) else none
  | 0x2E => if fieldIs w 3 7 0 then some (.clz (w.extractLsb' 17 7) (w.extractLsb' 10 7) (bitSet (w.extractLsb' 2 1)) (Guard.ofBits (w.extractLsb' 0 2))) else none
  | 0x2F => if fieldIs w 3 7 0 then some (.brev (w.extractLsb' 17 7) (w.extractLsb' 10 7) (bitSet (w.extractLsb' 2 1)) (Guard.ofBits (w.extractLsb' 0 2))) else none
  | 0x30 => if fieldIs w 3 7 0 then some (.mov (w.extractLsb' 17 7) (w.extractLsb' 10 7) (bitSet (w.extractLsb' 2 1)) (Guard.ofBits (w.extractLsb' 0 2))) else none
  | 0x31 => some (.movi (w.extractLsb' 17 7) (w.extractLsb' 2 15) (Guard.ofBits (w.extractLsb' 0 2)))
  | 0x32 => some (.movhi (w.extractLsb' 17 7) (w.extractLsb' 0 17))
  | 0x33 => some (.iaddi (w.extractLsb' 17 7) (w.extractLsb' 10 7) (w.extractLsb' 2 8) (Guard.ofBits (w.extractLsb' 0 2)))
  | 0x34 => some (.andImm (w.extractLsb' 17 7) (w.extractLsb' 10 7) (w.extractLsb' 2 8) (Guard.ofBits (w.extractLsb' 0 2)))
  | 0x35 => some (.orImm (w.extractLsb' 17 7) (w.extractLsb' 10 7) (w.extractLsb' 2 8) (Guard.ofBits (w.extractLsb' 0 2)))
  | 0x36 => some (.xorImm (w.extractLsb' 17 7) (w.extractLsb' 10 7) (w.extractLsb' 2 8) (Guard.ofBits (w.extractLsb' 0 2)))
  | 0x37 => some (.shlImm (w.extractLsb' 17 7) (w.extractLsb' 10 7) (w.extractLsb' 2 8) (Guard.ofBits (w.extractLsb' 0 2)))
  | 0x38 => some (.shrImm (w.extractLsb' 17 7) (w.extractLsb' 10 7) (w.extractLsb' 2 8) (Guard.ofBits (w.extractLsb' 0 2)))
  | 0x39 => some (.sarImm (w.extractLsb' 17 7) (w.extractLsb' 10 7) (w.extractLsb' 2 8) (Guard.ofBits (w.extractLsb' 0 2)))
  | 0x3A => if fieldIs w 3 7 0 then some (.movx (w.extractLsb' 17 7) (w.extractLsb' 10 7) (bitSet (w.extractLsb' 2 1)) (Guard.ofBits (w.extractLsb' 0 2))) else none
  | 0x3B => if fieldIs w 17 7 0 then some (.movxw (w.extractLsb' 10 7) (w.extractLsb' 3 7) (bitSet (w.extractLsb' 2 1)) (Guard.ofBits (w.extractLsb' 0 2))) else none
  | 0x3C => if fieldIs w 17 7 0 then some (.win (w.extractLsb' 2 15) (Guard.ofBits (w.extractLsb' 0 2))) else none
  | 0x3D => if fieldIs w 10 14 0 then some (.winadd (w.extractLsb' 2 8) (Guard.ofBits (w.extractLsb' 0 2))) else none
  | 0x3E => some (.xlane (w.extractLsb' 17 7) (w.extractLsb' 10 7) (w.extractLsb' 3 7) (bitSet (w.extractLsb' 2 1)) (Guard.ofBits (w.extractLsb' 0 2)))
  | 0x3F => some (.xshf (w.extractLsb' 17 7) (w.extractLsb' 10 7) (w.extractLsb' 2 8) (Guard.ofBits (w.extractLsb' 0 2)))
  | 0x40 => if fieldIs w 2 1 0 then some (.pand (w.extractLsb' 17 7) (w.extractLsb' 10 7) (w.extractLsb' 3 7) (Guard.ofBits (w.extractLsb' 0 2))) else none
  | 0x41 => if fieldIs w 2 1 0 then some (.por (w.extractLsb' 17 7) (w.extractLsb' 10 7) (w.extractLsb' 3 7) (Guard.ofBits (w.extractLsb' 0 2))) else none
  | 0x42 => if fieldIs w 2 1 0 then some (.pxor (w.extractLsb' 17 7) (w.extractLsb' 10 7) (w.extractLsb' 3 7) (Guard.ofBits (w.extractLsb' 0 2))) else none
  | 0x43 => if fieldIs w 2 8 0 then some (.pnot (w.extractLsb' 17 7) (w.extractLsb' 10 7) (Guard.ofBits (w.extractLsb' 0 2))) else none
  | 0x44 => if fieldIs w 3 7 0 then some (.pmovToPredicate (w.extractLsb' 17 7) (w.extractLsb' 10 7) (bitSet (w.extractLsb' 2 1)) (Guard.ofBits (w.extractLsb' 0 2))) else none
  | 0x45 => if fieldIs w 2 15 0 then some (.pmovFromWord (w.extractLsb' 17 7) (Guard.ofBits (w.extractLsb' 0 2))) else none
  | 0x46 => if fieldIs w 14 3 0 && fieldIs w 2 1 0 then some (.vote (w.extractLsb' 17 7) (w.extractLsb' 10 4) (w.extractLsb' 3 7) (Guard.ofBits (w.extractLsb' 0 2))) else none
  | 0x47 => if fieldIs w 10 7 0 then some (.sread (w.extractLsb' 17 7) (w.extractLsb' 2 8) (Guard.ofBits (w.extractLsb' 0 2))) else none
  | 0x48 => some (.sysr (w.extractLsb' 17 7) (w.extractLsb' 2 15) (Guard.ofBits (w.extractLsb' 0 2)))
  | 0x49 => some (.sysw (w.extractLsb' 17 7) (w.extractLsb' 2 15) (Guard.ofBits (w.extractLsb' 0 2)))
  | 0x4B => if fieldIs w 2 15 0 then some (.sigr (w.extractLsb' 17 7) (Guard.ofBits (w.extractLsb' 0 2))) else none
  | 0x4C => if fieldIs w 2 22 0 then some (.chkpt (Guard.ofBits (w.extractLsb' 0 2))) else none
  | 0x4D => if fieldIs w 10 14 0 then some (.prog (w.extractLsb' 2 8) (Guard.ofBits (w.extractLsb' 0 2))) else none
  | 0x4E => if fieldIs w 5 19 0 then some (.ifence (w.extractLsb' 1 4) (bitSet (w.extractLsb' 0 1))) else none
  | 0x50 => some (.faddF32 (w.extractLsb' 17 7) (w.extractLsb' 10 7) (w.extractLsb' 3 7) (bitSet (w.extractLsb' 2 1)) (Guard.ofBits (w.extractLsb' 0 2)))
  | 0x51 => some (.faddBf16x2 (w.extractLsb' 17 7) (w.extractLsb' 10 7) (w.extractLsb' 3 7) (bitSet (w.extractLsb' 2 1)) (Guard.ofBits (w.extractLsb' 0 2)))
  | 0x52 => some (.faddF16x2 (w.extractLsb' 17 7) (w.extractLsb' 10 7) (w.extractLsb' 3 7) (bitSet (w.extractLsb' 2 1)) (Guard.ofBits (w.extractLsb' 0 2)))
  | 0x53 => some (.fsubF32 (w.extractLsb' 17 7) (w.extractLsb' 10 7) (w.extractLsb' 3 7) (bitSet (w.extractLsb' 2 1)) (Guard.ofBits (w.extractLsb' 0 2)))
  | 0x54 => some (.fsubBf16x2 (w.extractLsb' 17 7) (w.extractLsb' 10 7) (w.extractLsb' 3 7) (bitSet (w.extractLsb' 2 1)) (Guard.ofBits (w.extractLsb' 0 2)))
  | 0x55 => some (.fsubF16x2 (w.extractLsb' 17 7) (w.extractLsb' 10 7) (w.extractLsb' 3 7) (bitSet (w.extractLsb' 2 1)) (Guard.ofBits (w.extractLsb' 0 2)))
  | 0x56 => some (.fmulF32 (w.extractLsb' 17 7) (w.extractLsb' 10 7) (w.extractLsb' 3 7) (bitSet (w.extractLsb' 2 1)) (Guard.ofBits (w.extractLsb' 0 2)))
  | 0x57 => some (.fmulBf16x2 (w.extractLsb' 17 7) (w.extractLsb' 10 7) (w.extractLsb' 3 7) (bitSet (w.extractLsb' 2 1)) (Guard.ofBits (w.extractLsb' 0 2)))
  | 0x58 => some (.fmulF16x2 (w.extractLsb' 17 7) (w.extractLsb' 10 7) (w.extractLsb' 3 7) (bitSet (w.extractLsb' 2 1)) (Guard.ofBits (w.extractLsb' 0 2)))
  | 0x59 => some (.fmaF32 (w.extractLsb' 17 7) (w.extractLsb' 10 7) (w.extractLsb' 3 7) (bitSet (w.extractLsb' 2 1)) (Guard.ofBits (w.extractLsb' 0 2)))
  | 0x5A => some (.fmaBf16x2 (w.extractLsb' 17 7) (w.extractLsb' 10 7) (w.extractLsb' 3 7) (bitSet (w.extractLsb' 2 1)) (Guard.ofBits (w.extractLsb' 0 2)))
  | 0x5B => some (.fmaF16x2 (w.extractLsb' 17 7) (w.extractLsb' 10 7) (w.extractLsb' 3 7) (bitSet (w.extractLsb' 2 1)) (Guard.ofBits (w.extractLsb' 0 2)))
  | 0x5C => some (.fminF32 (w.extractLsb' 17 7) (w.extractLsb' 10 7) (w.extractLsb' 3 7) (bitSet (w.extractLsb' 2 1)) (Guard.ofBits (w.extractLsb' 0 2)))
  | 0x5D => some (.fminBf16x2 (w.extractLsb' 17 7) (w.extractLsb' 10 7) (w.extractLsb' 3 7) (bitSet (w.extractLsb' 2 1)) (Guard.ofBits (w.extractLsb' 0 2)))
  | 0x5E => some (.fminF16x2 (w.extractLsb' 17 7) (w.extractLsb' 10 7) (w.extractLsb' 3 7) (bitSet (w.extractLsb' 2 1)) (Guard.ofBits (w.extractLsb' 0 2)))
  | 0x5F => some (.fmaxF32 (w.extractLsb' 17 7) (w.extractLsb' 10 7) (w.extractLsb' 3 7) (bitSet (w.extractLsb' 2 1)) (Guard.ofBits (w.extractLsb' 0 2)))
  | 0x60 => some (.fmaxBf16x2 (w.extractLsb' 17 7) (w.extractLsb' 10 7) (w.extractLsb' 3 7) (bitSet (w.extractLsb' 2 1)) (Guard.ofBits (w.extractLsb' 0 2)))
  | 0x61 => some (.fmaxF16x2 (w.extractLsb' 17 7) (w.extractLsb' 10 7) (w.extractLsb' 3 7) (bitSet (w.extractLsb' 2 1)) (Guard.ofBits (w.extractLsb' 0 2)))
  | 0x62 => some (.fcmpF32 (w.extractLsb' 21 3) (w.extractLsb' 17 4) (w.extractLsb' 10 7) (w.extractLsb' 3 7) (bitSet (w.extractLsb' 2 1)) (Guard.ofBits (w.extractLsb' 0 2)))
  | 0x63 => some (.fcmpBf16x2 (w.extractLsb' 21 3) (w.extractLsb' 17 4) (w.extractLsb' 10 7) (w.extractLsb' 3 7) (bitSet (w.extractLsb' 2 1)) (Guard.ofBits (w.extractLsb' 0 2)))
  | 0x64 => some (.fcmpF16x2 (w.extractLsb' 21 3) (w.extractLsb' 17 4) (w.extractLsb' 10 7) (w.extractLsb' 3 7) (bitSet (w.extractLsb' 2 1)) (Guard.ofBits (w.extractLsb' 0 2)))
  | 0x65 => some (.fabs (w.extractLsb' 17 7) (w.extractLsb' 10 7) (w.extractLsb' 3 7) (bitSet (w.extractLsb' 2 1)) (Guard.ofBits (w.extractLsb' 0 2)))
  | 0x66 => some (.fneg (w.extractLsb' 17 7) (w.extractLsb' 10 7) (w.extractLsb' 3 7) (bitSet (w.extractLsb' 2 1)) (Guard.ofBits (w.extractLsb' 0 2)))
  | 0x67 => some (.fcvt (w.extractLsb' 17 7) (w.extractLsb' 10 7) (w.extractLsb' 6 4) (w.extractLsb' 3 3) (bitSet (w.extractLsb' 2 1)) (Guard.ofBits (w.extractLsb' 0 2)))
  | 0x68 => some (.fcvti (w.extractLsb' 17 7) (w.extractLsb' 10 7) (w.extractLsb' 3 7) (bitSet (w.extractLsb' 2 1)) (Guard.ofBits (w.extractLsb' 0 2)))
  | 0x69 => some (.icvtf (w.extractLsb' 17 7) (w.extractLsb' 10 7) (w.extractLsb' 3 7) (bitSet (w.extractLsb' 2 1)) (Guard.ofBits (w.extractLsb' 0 2)))
  | 0x6A => if fieldIs w 3 7 0 then some (.frcp (w.extractLsb' 17 7) (w.extractLsb' 10 7) (bitSet (w.extractLsb' 2 1)) (Guard.ofBits (w.extractLsb' 0 2))) else none
  | 0x6B => if fieldIs w 3 7 0 then some (.frsq (w.extractLsb' 17 7) (w.extractLsb' 10 7) (bitSet (w.extractLsb' 2 1)) (Guard.ofBits (w.extractLsb' 0 2))) else none
  | 0x6C => if fieldIs w 3 7 0 then some (.fexp2 (w.extractLsb' 17 7) (w.extractLsb' 10 7) (bitSet (w.extractLsb' 2 1)) (Guard.ofBits (w.extractLsb' 0 2))) else none
  | 0x6D => if fieldIs w 3 7 0 then some (.flog2 (w.extractLsb' 17 7) (w.extractLsb' 10 7) (bitSet (w.extractLsb' 2 1)) (Guard.ofBits (w.extractLsb' 0 2))) else none
  | 0x6E => some (.frnd (w.extractLsb' 17 7) (w.extractLsb' 10 7) (w.extractLsb' 3 7) (bitSet (w.extractLsb' 2 1)) (Guard.ofBits (w.extractLsb' 0 2)))
  | 0x6F => if fieldIs w 3 7 0 then some (.fclass (w.extractLsb' 17 7) (w.extractLsb' 10 7) (bitSet (w.extractLsb' 2 1)) (Guard.ofBits (w.extractLsb' 0 2))) else none
  | 0x70 => some (.fdot2Bf16 (w.extractLsb' 17 7) (w.extractLsb' 10 7) (w.extractLsb' 3 7) (bitSet (w.extractLsb' 2 1)) (Guard.ofBits (w.extractLsb' 0 2)))
  | 0x71 => some (.fdot2F16 (w.extractLsb' 17 7) (w.extractLsb' 10 7) (w.extractLsb' 3 7) (bitSet (w.extractLsb' 2 1)) (Guard.ofBits (w.extractLsb' 0 2)))
  | 0x72 => some (.fdot4F8a (w.extractLsb' 17 7) (w.extractLsb' 10 7) (w.extractLsb' 3 7) (bitSet (w.extractLsb' 2 1)) (Guard.ofBits (w.extractLsb' 0 2)))
  | 0x73 => some (.fdot4F8b (w.extractLsb' 17 7) (w.extractLsb' 10 7) (w.extractLsb' 3 7) (bitSet (w.extractLsb' 2 1)) (Guard.ofBits (w.extractLsb' 0 2)))
  | 0x80 => some (.ld (w.extractLsb' 17 7) (w.extractLsb' 10 7) (w.extractLsb' 7 3) (w.extractLsb' 5 2) (w.extractLsb' 1 4) (bitSet (w.extractLsb' 0 1)))
  | 0x81 => some (.st (w.extractLsb' 17 7) (w.extractLsb' 10 7) (w.extractLsb' 7 3) (w.extractLsb' 5 2) (w.extractLsb' 1 4) (bitSet (w.extractLsb' 0 1)))
  | 0x82 => some (.ldl (w.extractLsb' 17 7) (w.extractLsb' 10 7) (w.extractLsb' 7 3) (w.extractLsb' 5 2) (w.extractLsb' 1 4) (bitSet (w.extractLsb' 0 1)))
  | 0x83 => some (.stl (w.extractLsb' 17 7) (w.extractLsb' 10 7) (w.extractLsb' 7 3) (w.extractLsb' 5 2) (w.extractLsb' 1 4) (bitSet (w.extractLsb' 0 1)))
  | 0x84 => some (.ldt (w.extractLsb' 17 7) (w.extractLsb' 10 7) (w.extractLsb' 7 3) (w.extractLsb' 5 2) (w.extractLsb' 1 4) (bitSet (w.extractLsb' 0 1)))
  | 0x85 => some (.stt (w.extractLsb' 17 7) (w.extractLsb' 10 7) (w.extractLsb' 7 3) (w.extractLsb' 5 2) (w.extractLsb' 1 4) (bitSet (w.extractLsb' 0 1)))
  | 0x86 => some (.lde (w.extractLsb' 17 7) (w.extractLsb' 10 7) (w.extractLsb' 3 7) (bitSet (w.extractLsb' 2 1)) (Guard.ofBits (w.extractLsb' 0 2)))
  | 0x87 => if fieldIs w 17 7 0 && fieldIs w 5 5 0 then some (.pref (w.extractLsb' 10 7) (w.extractLsb' 1 4) (bitSet (w.extractLsb' 0 1))) else none
  | 0x88 => if fieldIs w 5 5 0 then some (.cflush (w.extractLsb' 17 7) (w.extractLsb' 10 7) (w.extractLsb' 1 4) (bitSet (w.extractLsb' 0 1))) else none
  | 0x89 => if fieldIs w 5 5 0 then some (.cinv (w.extractLsb' 17 7) (w.extractLsb' 10 7) (w.extractLsb' 1 4) (bitSet (w.extractLsb' 0 1))) else none
  | 0x8A => if fieldIs w 7 17 0 then some (.fence (w.extractLsb' 5 2) (w.extractLsb' 1 4) (bitSet (w.extractLsb' 0 1))) else none
  | 0x8B => some (.acasRelaxed (w.extractLsb' 17 7) (w.extractLsb' 10 7) (w.extractLsb' 3 7) (w.extractLsb' 0 3))
  | 0x8C => some (.acasAcqRel (w.extractLsb' 17 7) (w.extractLsb' 10 7) (w.extractLsb' 3 7) (w.extractLsb' 0 3))
  | 0x90 | 0x91 | 0x92 | 0x93 | 0x94 | 0x95 | 0x96 | 0x97 | 0x98 | 0x99 => some (.atomRelaxed (w.extractLsb' 24 4) (w.extractLsb' 17 7) (w.extractLsb' 10 7) (w.extractLsb' 3 7) (w.extractLsb' 0 3))
  | 0xA0 | 0xA1 | 0xA2 | 0xA3 | 0xA4 | 0xA5 | 0xA6 | 0xA7 | 0xA8 | 0xA9 => some (.atomAcqRel (w.extractLsb' 24 4) (w.extractLsb' 17 7) (w.extractLsb' 10 7) (w.extractLsb' 3 7) (w.extractLsb' 0 3))
  | 0xB0 | 0xB1 | 0xB2 | 0xB3 | 0xB4 | 0xB5 | 0xB6 | 0xB7 | 0xB8 => if fieldIs w 17 7 0 then some (.red (w.extractLsb' 24 4) (w.extractLsb' 10 7) (w.extractLsb' 3 7) (w.extractLsb' 0 3)) else none
  | 0xC0 => if fieldIs w 17 7 0 then some (.enq (w.extractLsb' 10 7) (w.extractLsb' 3 7) (bitSet (w.extractLsb' 2 1)) (Guard.ofBits (w.extractLsb' 0 2))) else none
  | 0xC1 => some (.enqt (w.extractLsb' 17 7) (w.extractLsb' 10 7) (w.extractLsb' 3 7) (bitSet (w.extractLsb' 2 1)) (Guard.ofBits (w.extractLsb' 0 2)))
  | 0xC2 => if fieldIs w 3 7 0 then some (.deq (w.extractLsb' 17 7) (w.extractLsb' 10 7) (bitSet (w.extractLsb' 2 1)) (Guard.ofBits (w.extractLsb' 0 2))) else none
  | 0xC3 => some (.deqt (w.extractLsb' 17 7) (w.extractLsb' 10 7) (w.extractLsb' 3 7) (bitSet (w.extractLsb' 2 1)) (Guard.ofBits (w.extractLsb' 0 2)))
  | 0xC4 => some (.qinit (w.extractLsb' 17 7) (w.extractLsb' 10 7) (w.extractLsb' 3 7) (bitSet (w.extractLsb' 2 1)) (Guard.ofBits (w.extractLsb' 0 2)))
  | 0xC5 => if fieldIs w 3 7 0 then some (.qstat (w.extractLsb' 17 7) (w.extractLsb' 10 7) (bitSet (w.extractLsb' 2 1)) (Guard.ofBits (w.extractLsb' 0 2))) else none
  | 0xC6 => if fieldIs w 17 7 0 then some (.bari (w.extractLsb' 10 7) (w.extractLsb' 3 7) (bitSet (w.extractLsb' 2 1)) (Guard.ofBits (w.extractLsb' 0 2))) else none
  | 0xC7 => some (.bara (w.extractLsb' 17 7) (w.extractLsb' 10 7) (w.extractLsb' 3 7) (bitSet (w.extractLsb' 2 1)) (Guard.ofBits (w.extractLsb' 0 2)))
  | 0xC8 => if fieldIs w 17 7 0 && fieldIs w 3 7 0 then some (.barw (w.extractLsb' 10 7) (bitSet (w.extractLsb' 2 1)) (Guard.ofBits (w.extractLsb' 0 2))) else none
  | 0xC9 => if fieldIs w 1 6 0 then some (.cpy (w.extractLsb' 17 7) (w.extractLsb' 10 7) (w.extractLsb' 7 3) (bitSet (w.extractLsb' 0 1))) else none
  | 0xCA => some (.cpyb (w.extractLsb' 17 7) (w.extractLsb' 10 7) (w.extractLsb' 3 7) (bitSet (w.extractLsb' 2 1)) (Guard.ofBits (w.extractLsb' 0 2)))
  | 0xCB => some (.cpys (w.extractLsb' 17 7) (w.extractLsb' 10 7) (w.extractLsb' 3 7) (bitSet (w.extractLsb' 2 1)) (Guard.ofBits (w.extractLsb' 0 2)))
  | 0xD0 => if fieldIs w 17 7 0 && fieldIs w 3 7 0 then some (.mma (w.extractLsb' 10 7) (bitSet (w.extractLsb' 2 1)) (Guard.ofBits (w.extractLsb' 0 2))) else none
  | 0xD1 => if fieldIs w 17 7 0 && fieldIs w 3 7 0 then some (.mzero (w.extractLsb' 10 7) (bitSet (w.extractLsb' 2 1)) (Guard.ofBits (w.extractLsb' 0 2))) else none
  | 0xD2 => some (.mldb (w.extractLsb' 17 7) (w.extractLsb' 10 7) (w.extractLsb' 3 7) (bitSet (w.extractLsb' 2 1)) (Guard.ofBits (w.extractLsb' 0 2)))
  | 0xD3 => if fieldIs w 17 7 0 && fieldIs w 3 7 0 then some (.mdrain (w.extractLsb' 10 7) (bitSet (w.extractLsb' 2 1)) (Guard.ofBits (w.extractLsb' 0 2))) else none
  | 0xD4 => some (.mdrst (w.extractLsb' 17 7) (w.extractLsb' 10 7) (w.extractLsb' 3 7) (bitSet (w.extractLsb' 2 1)) (Guard.ofBits (w.extractLsb' 0 2)))
  | 0xD5 => if fieldIs w 17 7 0 then some (.afeed (w.extractLsb' 10 7) (w.extractLsb' 3 7) (bitSet (w.extractLsb' 2 1)) (Guard.ofBits (w.extractLsb' 0 2))) else none
  | 0xD6 => if fieldIs w 3 7 0 then some (.adrn (w.extractLsb' 17 7) (w.extractLsb' 10 7) (bitSet (w.extractLsb' 2 1)) (Guard.ofBits (w.extractLsb' 0 2))) else none
  | 0xE0 => some (.hread (w.extractLsb' 17 7) (w.extractLsb' 10 7) (w.extractLsb' 3 7) (bitSet (w.extractLsb' 2 1)) (Guard.ofBits (w.extractLsb' 0 2)))
  | 0xE1 => some (.hwrite (w.extractLsb' 17 7) (w.extractLsb' 10 7) (w.extractLsb' 3 7) (bitSet (w.extractLsb' 2 1)) (Guard.ofBits (w.extractLsb' 0 2)))
  | 0xE2 => if fieldIs w 3 7 0 then some (.hstep (w.extractLsb' 17 7) (w.extractLsb' 10 7) (bitSet (w.extractLsb' 2 1)) (Guard.ofBits (w.extractLsb' 0 2))) else none
  | 0xE3 => if fieldIs w 17 7 0 then some (.hrun (w.extractLsb' 10 7) (w.extractLsb' 3 7) (bitSet (w.extractLsb' 2 1)) (Guard.ofBits (w.extractLsb' 0 2))) else none
  | 0xE4 => if fieldIs w 17 7 0 then some (.wset (w.extractLsb' 10 7) (w.extractLsb' 3 7) (bitSet (w.extractLsb' 2 1)) (Guard.ofBits (w.extractLsb' 0 2))) else none
  | 0xE5 => if fieldIs w 17 7 0 && fieldIs w 3 7 0 then some (.wclr (w.extractLsb' 10 7) (bitSet (w.extractLsb' 2 1)) (Guard.ofBits (w.extractLsb' 0 2))) else none
  | 0x4A =>
      if fieldIs w 17 7 0 then some (.tlbiPage (w.extractLsb' 10 7) (w.extractLsb' 3 7) (bitSet (w.extractLsb' 2 1)) (Guard.ofBits (w.extractLsb' 0 2)))
      else if fieldIs w 10 14 0x80 then some (.tlbiAsn (w.extractLsb' 3 7) (bitSet (w.extractLsb' 2 1)) (Guard.ofBits (w.extractLsb' 0 2)))
      else if fieldIs w 2 22 0x10000 then some (.tlbiAll (Guard.ofBits (w.extractLsb' 0 2)))
      else none
  | _ => none

/-- The instruction of a word whose fixed bits fit one (14 R270, R271). -/
def decodeFields (w : Word) : Option Instr := decodeOp (w.extractLsb' 24 8).toNat w

/-- The instruction of a word (14 R274 steps 2 and 4, so far as the word alone decides). -/
def decodeWord (w : Word) : Except DecodeError Instr :=
  if assignedOpcode (w.extractLsb' 24 8).toNat then
    match decodeFields w with
    | some i => if i.wellFormed then .ok i else .error (.illegal w)
    | none => .error (.illegal w)
  else .error (.unassigned (w.extractLsb' 24 8).toNat)

/-- A word of its four bytes, least significant first (00 R2). -/
def wordOfBytes (b0 b1 b2 b3 : Byte) : Word := b3 ++ b2 ++ b1 ++ b0

/-- Decoding of the bytes at a PC: the instruction and the bytes after it. -/
def decode (bytes : List Byte) : Except DecodeError (Instr × List Byte) :=
  match bytes with
  | b0 :: b1 :: b2 :: b3 :: rest => (decodeWord (wordOfBytes b0 b1 b2 b3)).map (fun i => (i, rest))
  | _ => .error .truncated

/-- The four bytes of a word, least significant first (00 R2). -/
def bytesOfWord (w : Word) : List Byte :=
  [w.extractLsb' 0 8, w.extractLsb' 8 8, w.extractLsb' 16 8, w.extractLsb' 24 8]

/-- The word of an instruction, fields from the most significant down as its encoding table lists them; an event has none. -/
def encodeWord (i : Instr) : Option Word :=
  match i with
  | .nop g => some (0x400000#30 ++ g.bits)
  | .br off g => some (0x2#8 ++ off ++ g.bits)
  | .bri ra fe g => some (0x180#15 ++ ra ++ 0x0#7 ++ BitVec.ofBool fe ++ g.bits)
  | .call off g => some (0x4#8 ++ off ++ g.bits)
  | .ret fe g => some (0xA00000#29 ++ BitVec.ofBool fe ++ g.bits)
  | .yield g => some (0x1800000#30 ++ g.bits)
  | .rep cnt sd sa sb => some (0x7#8 ++ cnt ++ sd ++ sa ++ sb ++ 0x0#9)
  | .trap imm g => some (0x400#15 ++ imm ++ g.bits)
  | .eret ra rb fe g => some (0x480#15 ++ ra ++ rb ++ BitVec.ofBool fe ++ g.bits)
  | .endIssue g => some (0x2800000#30 ++ g.bits)
  | .fork rd ra rb fe g => some (0xB#8 ++ rd ++ ra ++ rb ++ BitVec.ofBool fe ++ g.bits)
  | .upush ra fe g => some (0x600#15 ++ ra ++ 0x0#7 ++ BitVec.ofBool fe ++ g.bits)
  | .sete rd g => some (0xD#8 ++ rd ++ 0x0#15 ++ g.bits)
  | .waitf ra rb g => some (0x700#15 ++ ra ++ rb ++ 0x0#1 ++ g.bits)
  | .waito ra imm g => some (0x780#15 ++ ra ++ imm ++ g.bits)
  | .iadd rd ra rb fe g => some (0x10#8 ++ rd ++ ra ++ rb ++ BitVec.ofBool fe ++ g.bits)
  | .isub rd ra rb fe g => some (0x11#8 ++ rd ++ ra ++ rb ++ BitVec.ofBool fe ++ g.bits)
  | .imul rd ra rb fe g => some (0x12#8 ++ rd ++ ra ++ rb ++ BitVec.ofBool fe ++ g.bits)
  | .imulh rd ra rb fe g => some (0x13#8 ++ rd ++ ra ++ rb ++ BitVec.ofBool fe ++ g.bits)
  | .imulhu rd ra rb fe g => some (0x14#8 ++ rd ++ ra ++ rb ++ BitVec.ofBool fe ++ g.bits)
  | .imad rd ra rb fe g => some (0x15#8 ++ rd ++ ra ++ rb ++ BitVec.ofBool fe ++ g.bits)
  | .div rd ra rb fe g => some (0x16#8 ++ rd ++ ra ++ rb ++ BitVec.ofBool fe ++ g.bits)
  | .divu rd ra rb fe g => some (0x17#8 ++ rd ++ ra ++ rb ++ BitVec.ofBool fe ++ g.bits)
  | .and rd ra rb fe g => some (0x18#8 ++ rd ++ ra ++ rb ++ BitVec.ofBool fe ++ g.bits)
  | .or rd ra rb fe g => some (0x19#8 ++ rd ++ ra ++ rb ++ BitVec.ofBool fe ++ g.bits)
  | .xor rd ra rb fe g => some (0x1A#8 ++ rd ++ ra ++ rb ++ BitVec.ofBool fe ++ g.bits)
  | .andn rd ra rb fe g => some (0x1B#8 ++ rd ++ ra ++ rb ++ BitVec.ofBool fe ++ g.bits)
  | .shl rd ra rb fe g => some (0x1C#8 ++ rd ++ ra ++ rb ++ BitVec.ofBool fe ++ g.bits)
  | .shr rd ra rb fe g => some (0x1D#8 ++ rd ++ ra ++ rb ++ BitVec.ofBool fe ++ g.bits)
  | .sar rd ra rb fe g => some (0x1E#8 ++ rd ++ ra ++ rb ++ BitVec.ofBool fe ++ g.bits)
  | .imin rd ra rb fe g => some (0x1F#8 ++ rd ++ ra ++ rb ++ BitVec.ofBool fe ++ g.bits)
  | .imax rd ra rb fe g => some (0x20#8 ++ rd ++ ra ++ rb ++ BitVec.ofBool fe ++ g.bits)
  | .iminu rd ra rb fe g => some (0x21#8 ++ rd ++ ra ++ rb ++ BitVec.ofBool fe ++ g.bits)
  | .imaxu rd ra rb fe g => some (0x22#8 ++ rd ++ ra ++ rb ++ BitVec.ofBool fe ++ g.bits)
  | .iadds rd ra rb fe g => some (0x23#8 ++ rd ++ ra ++ rb ++ BitVec.ofBool fe ++ g.bits)
  | .addmin rd ra rb fe g => some (0x24#8 ++ rd ++ ra ++ rb ++ BitVec.ofBool fe ++ g.bits)
  | .addmax rd ra rb fe g => some (0x25#8 ++ rd ++ ra ++ rb ++ BitVec.ofBool fe ++ g.bits)
  | .sel rd ra rb fe g => some (0x26#8 ++ rd ++ ra ++ rb ++ BitVec.ofBool fe ++ g.bits)
  | .lea sh ra rb fe g => some (0x27#8 ++ sh ++ ra ++ rb ++ BitVec.ofBool fe ++ g.bits)
  | .bfx rd ra rb fe g => some (0x28#8 ++ rd ++ ra ++ rb ++ BitVec.ofBool fe ++ g.bits)
  | .bfi rd ra rb fe g => some (0x29#8 ++ rd ++ ra ++ rb ++ BitVec.ofBool fe ++ g.bits)
  | .icmp cond pn ra rb fe g => some (0x2A#8 ++ cond ++ pn ++ ra ++ rb ++ BitVec.ofBool fe ++ g.bits)
  | .icmpu cond pn ra rb fe g => some (0x2B#8 ++ cond ++ pn ++ ra ++ rb ++ BitVec.ofBool fe ++ g.bits)
  | .iabs rd ra fe g => some (0x2C#8 ++ rd ++ ra ++ 0x0#7 ++ BitVec.ofBool fe ++ g.bits)
  | .popc rd ra fe g => some (0x2D#8 ++ rd ++ ra ++ 0x0#7 ++ BitVec.ofBool fe ++ g.bits)
  | .clz rd ra fe g => some (0x2E#8 ++ rd ++ ra ++ 0x0#7 ++ BitVec.ofBool fe ++ g.bits)
  | .brev rd ra fe g => some (0x2F#8 ++ rd ++ ra ++ 0x0#7 ++ BitVec.ofBool fe ++ g.bits)
  | .mov rd ra fe g => some (0x30#8 ++ rd ++ ra ++ 0x0#7 ++ BitVec.ofBool fe ++ g.bits)
  | .movi rd imm g => some (0x31#8 ++ rd ++ imm ++ g.bits)
  | .movhi rd imm => some (0x32#8 ++ rd ++ imm)
  | .iaddi rd ra imm g => some (0x33#8 ++ rd ++ ra ++ imm ++ g.bits)
  | .andImm rd ra imm g => some (0x34#8 ++ rd ++ ra ++ imm ++ g.bits)
  | .orImm rd ra imm g => some (0x35#8 ++ rd ++ ra ++ imm ++ g.bits)
  | .xorImm rd ra imm g => some (0x36#8 ++ rd ++ ra ++ imm ++ g.bits)
  | .shlImm rd ra imm g => some (0x37#8 ++ rd ++ ra ++ imm ++ g.bits)
  | .shrImm rd ra imm g => some (0x38#8 ++ rd ++ ra ++ imm ++ g.bits)
  | .sarImm rd ra imm g => some (0x39#8 ++ rd ++ ra ++ imm ++ g.bits)
  | .movx rd ra fe g => some (0x3A#8 ++ rd ++ ra ++ 0x0#7 ++ BitVec.ofBool fe ++ g.bits)
  | .movxw ra rb fe g => some (0x1D80#15 ++ ra ++ rb ++ BitVec.ofBool fe ++ g.bits)
  | .win imm g => some (0x1E00#15 ++ imm ++ g.bits)
  | .winadd imm g => some (0xF4000#22 ++ imm ++ g.bits)
  | .xlane rd ra rb fe g => some (0x3E#8 ++ rd ++ ra ++ rb ++ BitVec.ofBool fe ++ g.bits)
  | .xshf rd ra imm g => some (0x3F#8 ++ rd ++ ra ++ imm ++ g.bits)
  | .pand rd ra rb g => some (0x40#8 ++ rd ++ ra ++ rb ++ 0x0#1 ++ g.bits)
  | .por rd ra rb g => some (0x41#8 ++ rd ++ ra ++ rb ++ 0x0#1 ++ g.bits)
  | .pxor rd ra rb g => some (0x42#8 ++ rd ++ ra ++ rb ++ 0x0#1 ++ g.bits)
  | .pnot rd ra g => some (0x43#8 ++ rd ++ ra ++ 0x0#8 ++ g.bits)
  | .pmovToPredicate rd ra fe g => some (0x44#8 ++ rd ++ ra ++ 0x0#7 ++ BitVec.ofBool fe ++ g.bits)
  | .pmovFromWord rd g => some (0x45#8 ++ rd ++ 0x0#15 ++ g.bits)
  | .vote rd pn rb g => some (0x46#8 ++ rd ++ 0x0#3 ++ pn ++ rb ++ 0x0#1 ++ g.bits)
  | .sread rd imm g => some (0x47#8 ++ rd ++ 0x0#7 ++ imm ++ g.bits)
  | .sysr rd imm g => some (0x48#8 ++ rd ++ imm ++ g.bits)
  | .sysw rd imm g => some (0x49#8 ++ rd ++ imm ++ g.bits)
  | .tlbiPage ra rb fe g => some (0x2500#15 ++ ra ++ rb ++ BitVec.ofBool fe ++ g.bits)
  | .tlbiAsn rb fe g => some (0x128080#22 ++ rb ++ BitVec.ofBool fe ++ g.bits)
  | .tlbiAll g => some (0x12810000#30 ++ g.bits)
  | .sigr rd g => some (0x4B#8 ++ rd ++ 0x0#15 ++ g.bits)
  | .chkpt g => some (0x13000000#30 ++ g.bits)
  | .prog imm g => some (0x134000#22 ++ imm ++ g.bits)
  | .ifence sc g => some (0x2700000#27 ++ sc ++ BitVec.ofBool g)
  | .faddF32 rd ra rb fe g => some (0x50#8 ++ rd ++ ra ++ rb ++ BitVec.ofBool fe ++ g.bits)
  | .faddBf16x2 rd ra rb fe g => some (0x51#8 ++ rd ++ ra ++ rb ++ BitVec.ofBool fe ++ g.bits)
  | .faddF16x2 rd ra rb fe g => some (0x52#8 ++ rd ++ ra ++ rb ++ BitVec.ofBool fe ++ g.bits)
  | .fsubF32 rd ra rb fe g => some (0x53#8 ++ rd ++ ra ++ rb ++ BitVec.ofBool fe ++ g.bits)
  | .fsubBf16x2 rd ra rb fe g => some (0x54#8 ++ rd ++ ra ++ rb ++ BitVec.ofBool fe ++ g.bits)
  | .fsubF16x2 rd ra rb fe g => some (0x55#8 ++ rd ++ ra ++ rb ++ BitVec.ofBool fe ++ g.bits)
  | .fmulF32 rd ra rb fe g => some (0x56#8 ++ rd ++ ra ++ rb ++ BitVec.ofBool fe ++ g.bits)
  | .fmulBf16x2 rd ra rb fe g => some (0x57#8 ++ rd ++ ra ++ rb ++ BitVec.ofBool fe ++ g.bits)
  | .fmulF16x2 rd ra rb fe g => some (0x58#8 ++ rd ++ ra ++ rb ++ BitVec.ofBool fe ++ g.bits)
  | .fmaF32 rd ra rb fe g => some (0x59#8 ++ rd ++ ra ++ rb ++ BitVec.ofBool fe ++ g.bits)
  | .fmaBf16x2 rd ra rb fe g => some (0x5A#8 ++ rd ++ ra ++ rb ++ BitVec.ofBool fe ++ g.bits)
  | .fmaF16x2 rd ra rb fe g => some (0x5B#8 ++ rd ++ ra ++ rb ++ BitVec.ofBool fe ++ g.bits)
  | .fminF32 rd ra rb fe g => some (0x5C#8 ++ rd ++ ra ++ rb ++ BitVec.ofBool fe ++ g.bits)
  | .fminBf16x2 rd ra rb fe g => some (0x5D#8 ++ rd ++ ra ++ rb ++ BitVec.ofBool fe ++ g.bits)
  | .fminF16x2 rd ra rb fe g => some (0x5E#8 ++ rd ++ ra ++ rb ++ BitVec.ofBool fe ++ g.bits)
  | .fmaxF32 rd ra rb fe g => some (0x5F#8 ++ rd ++ ra ++ rb ++ BitVec.ofBool fe ++ g.bits)
  | .fmaxBf16x2 rd ra rb fe g => some (0x60#8 ++ rd ++ ra ++ rb ++ BitVec.ofBool fe ++ g.bits)
  | .fmaxF16x2 rd ra rb fe g => some (0x61#8 ++ rd ++ ra ++ rb ++ BitVec.ofBool fe ++ g.bits)
  | .fcmpF32 cond pn ra rb fe g => some (0x62#8 ++ cond ++ pn ++ ra ++ rb ++ BitVec.ofBool fe ++ g.bits)
  | .fcmpBf16x2 cond pn ra rb fe g => some (0x63#8 ++ cond ++ pn ++ ra ++ rb ++ BitVec.ofBool fe ++ g.bits)
  | .fcmpF16x2 cond pn ra rb fe g => some (0x64#8 ++ cond ++ pn ++ ra ++ rb ++ BitVec.ofBool fe ++ g.bits)
  | .fabs rd ra fmt fe g => some (0x65#8 ++ rd ++ ra ++ fmt ++ BitVec.ofBool fe ++ g.bits)
  | .fneg rd ra fmt fe g => some (0x66#8 ++ rd ++ ra ++ fmt ++ BitVec.ofBool fe ++ g.bits)
  | .fcvt rd ra src dst fe g => some (0x67#8 ++ rd ++ ra ++ src ++ dst ++ BitVec.ofBool fe ++ g.bits)
  | .fcvti rd ra mode fe g => some (0x68#8 ++ rd ++ ra ++ mode ++ BitVec.ofBool fe ++ g.bits)
  | .icvtf rd ra mode fe g => some (0x69#8 ++ rd ++ ra ++ mode ++ BitVec.ofBool fe ++ g.bits)
  | .frcp rd ra fe g => some (0x6A#8 ++ rd ++ ra ++ 0x0#7 ++ BitVec.ofBool fe ++ g.bits)
  | .frsq rd ra fe g => some (0x6B#8 ++ rd ++ ra ++ 0x0#7 ++ BitVec.ofBool fe ++ g.bits)
  | .fexp2 rd ra fe g => some (0x6C#8 ++ rd ++ ra ++ 0x0#7 ++ BitVec.ofBool fe ++ g.bits)
  | .flog2 rd ra fe g => some (0x6D#8 ++ rd ++ ra ++ 0x0#7 ++ BitVec.ofBool fe ++ g.bits)
  | .frnd rd ra mode fe g => some (0x6E#8 ++ rd ++ ra ++ mode ++ BitVec.ofBool fe ++ g.bits)
  | .fclass rd ra fe g => some (0x6F#8 ++ rd ++ ra ++ 0x0#7 ++ BitVec.ofBool fe ++ g.bits)
  | .fdot2Bf16 rd ra rb fe g => some (0x70#8 ++ rd ++ ra ++ rb ++ BitVec.ofBool fe ++ g.bits)
  | .fdot2F16 rd ra rb fe g => some (0x71#8 ++ rd ++ ra ++ rb ++ BitVec.ofBool fe ++ g.bits)
  | .fdot4F8a rd ra rb fe g => some (0x72#8 ++ rd ++ ra ++ rb ++ BitVec.ofBool fe ++ g.bits)
  | .fdot4F8b rd ra rb fe g => some (0x73#8 ++ rd ++ ra ++ rb ++ BitVec.ofBool fe ++ g.bits)
  | .ld rd ra sz ord sc g => some (0x80#8 ++ rd ++ ra ++ sz ++ ord ++ sc ++ BitVec.ofBool g)
  | .st rd ra sz ord sc g => some (0x81#8 ++ rd ++ ra ++ sz ++ ord ++ sc ++ BitVec.ofBool g)
  | .ldl rd ra sz ord sc g => some (0x82#8 ++ rd ++ ra ++ sz ++ ord ++ sc ++ BitVec.ofBool g)
  | .stl rd ra sz ord sc g => some (0x83#8 ++ rd ++ ra ++ sz ++ ord ++ sc ++ BitVec.ofBool g)
  | .ldt rd ra sz ord sc g => some (0x84#8 ++ rd ++ ra ++ sz ++ ord ++ sc ++ BitVec.ofBool g)
  | .stt rd ra sz ord sc g => some (0x85#8 ++ rd ++ ra ++ sz ++ ord ++ sc ++ BitVec.ofBool g)
  | .lde rd ra rb fe g => some (0x86#8 ++ rd ++ ra ++ rb ++ BitVec.ofBool fe ++ g.bits)
  | .pref ra sc g => some (0x4380#15 ++ ra ++ 0x0#5 ++ sc ++ BitVec.ofBool g)
  | .cflush rd ra sc g => some (0x88#8 ++ rd ++ ra ++ 0x0#5 ++ sc ++ BitVec.ofBool g)
  | .cinv rd ra sc g => some (0x89#8 ++ rd ++ ra ++ 0x0#5 ++ sc ++ BitVec.ofBool g)
  | .fence ord sc g => some (0x1140000#25 ++ ord ++ sc ++ BitVec.ofBool g)
  | .acasRelaxed rd ra rb sc3 => some (0x8B#8 ++ rd ++ ra ++ rb ++ sc3)
  | .acasAcqRel rd ra rb sc3 => some (0x8C#8 ++ rd ++ ra ++ rb ++ sc3)
  | .atomRelaxed op rd ra rb sc3 => some (0x9#4 ++ op ++ rd ++ ra ++ rb ++ sc3)
  | .atomAcqRel op rd ra rb sc3 => some (0xA#4 ++ op ++ rd ++ ra ++ rb ++ sc3)
  | .red op ra rb sc3 => some (0xB#4 ++ op ++ 0x0#7 ++ ra ++ rb ++ sc3)
  | .enq ra rb fe g => some (0x6000#15 ++ ra ++ rb ++ BitVec.ofBool fe ++ g.bits)
  | .enqt rd ra rb fe g => some (0xC1#8 ++ rd ++ ra ++ rb ++ BitVec.ofBool fe ++ g.bits)
  | .deq rd ra fe g => some (0xC2#8 ++ rd ++ ra ++ 0x0#7 ++ BitVec.ofBool fe ++ g.bits)
  | .deqt rd ra rb fe g => some (0xC3#8 ++ rd ++ ra ++ rb ++ BitVec.ofBool fe ++ g.bits)
  | .qinit rd ra rb fe g => some (0xC4#8 ++ rd ++ ra ++ rb ++ BitVec.ofBool fe ++ g.bits)
  | .qstat rd ra fe g => some (0xC5#8 ++ rd ++ ra ++ 0x0#7 ++ BitVec.ofBool fe ++ g.bits)
  | .bari ra rb fe g => some (0x6300#15 ++ ra ++ rb ++ BitVec.ofBool fe ++ g.bits)
  | .bara rd ra rb fe g => some (0xC7#8 ++ rd ++ ra ++ rb ++ BitVec.ofBool fe ++ g.bits)
  | .barw ra fe g => some (0x6400#15 ++ ra ++ 0x0#7 ++ BitVec.ofBool fe ++ g.bits)
  | .cpy rd ra sz g => some (0xC9#8 ++ rd ++ ra ++ sz ++ 0x0#6 ++ BitVec.ofBool g)
  | .cpyb rd ra rb fe g => some (0xCA#8 ++ rd ++ ra ++ rb ++ BitVec.ofBool fe ++ g.bits)
  | .cpys rd ra rb fe g => some (0xCB#8 ++ rd ++ ra ++ rb ++ BitVec.ofBool fe ++ g.bits)
  | .mma ra fe g => some (0x6800#15 ++ ra ++ 0x0#7 ++ BitVec.ofBool fe ++ g.bits)
  | .mzero ra fe g => some (0x6880#15 ++ ra ++ 0x0#7 ++ BitVec.ofBool fe ++ g.bits)
  | .mldb rd ra rb fe g => some (0xD2#8 ++ rd ++ ra ++ rb ++ BitVec.ofBool fe ++ g.bits)
  | .mdrain ra fe g => some (0x6980#15 ++ ra ++ 0x0#7 ++ BitVec.ofBool fe ++ g.bits)
  | .mdrst rd ra rb fe g => some (0xD4#8 ++ rd ++ ra ++ rb ++ BitVec.ofBool fe ++ g.bits)
  | .afeed ra rb fe g => some (0x6A80#15 ++ ra ++ rb ++ BitVec.ofBool fe ++ g.bits)
  | .adrn rd ra fe g => some (0xD6#8 ++ rd ++ ra ++ 0x0#7 ++ BitVec.ofBool fe ++ g.bits)
  | .hread rd ra rb fe g => some (0xE0#8 ++ rd ++ ra ++ rb ++ BitVec.ofBool fe ++ g.bits)
  | .hwrite rd ra rb fe g => some (0xE1#8 ++ rd ++ ra ++ rb ++ BitVec.ofBool fe ++ g.bits)
  | .hstep rd ra fe g => some (0xE2#8 ++ rd ++ ra ++ 0x0#7 ++ BitVec.ofBool fe ++ g.bits)
  | .hrun ra rb fe g => some (0x7180#15 ++ ra ++ rb ++ BitVec.ofBool fe ++ g.bits)
  | .wset ra rb fe g => some (0x7200#15 ++ ra ++ rb ++ BitVec.ofBool fe ++ g.bits)
  | .wclr ra fe g => some (0x7280#15 ++ ra ++ 0x0#7 ++ BitVec.ofBool fe ++ g.bits)
  | .deviceReset .. => none
  | .bundleReformation .. => none
  | .readyAgeOverride .. => none
  | .producerComplete .. => none
  | .fibreEnded .. => none
  | .blockRetire .. => none
  | .releaseAckComplete .. => none
  | .pageWalkComplete .. => none
  | .l1Eviction .. => none
  | .queueEnqAtHome .. => none
  | .queueEnqWriteAck .. => none
  | .queueDeqAtHome .. => none
  | .queueDeqReadDone .. => none
  | .rollBusyResend .. => none
  | .taggedAccessAtHome .. => none
  | .cpyComplete .. => none
  | .engineTriggerDeq .. => none
  | .operandsConsumedEvent .. => none
  | .engineUnitWrite .. => none
  | .engineOperationEnd .. => none
  | .bSliceLoadComplete .. => none
  | .matrixCommandStart .. => none
  | .matrixCommandComplete .. => none
  | .mdrainReadoutDone .. => none
  | .summitContributionArrive .. => none
  | .summitDelivery .. => none
  | .launchAccept .. => none
  | .blockSeat .. => none
  | .launchComplete .. => none
  | .preemptPriority .. => none
  | .preemptHost .. => none
  | .preemptGovernor .. => none
  | .blockSave .. => none
  | .preemptRetry .. => none
  | .blockResume .. => none
  | .resumeRetry => none
  | .resumeSkip => none
  | .resumeAbort => none
  | .checkpointSeal .. => none
  | .signatureCompare .. => none
  | .trialStart .. => none
  | .trialWindowEnd => none
  | .trialDelayExpire .. => none
  | .governorStep .. => none
  | .governorEmergencyBegin .. => none
  | .governorEmergencyEnd .. => none
  | .dramRequestService .. => none
  | .deadlineUrgent .. => none
  | .bankBackoffEnd .. => none
  | .actselClear .. => none
  | .amapCommit .. => none
  | .launchQueueEnable .. => none
  | .registerWrite .. => none
  | .hifence .. => none
  | .hifenceComplete .. => none
  | .hifenceTimeout .. => none
  | .qwHandle .. => none
  | .qwEnq .. => none
  | .qwStagingEnqueue .. => none
  | .qwDeq .. => none
  | .hostApertureRead .. => none
  | .hostApertureWrite .. => none
  | .peerFlitReceive .. => none
  | .laneRepair .. => none
  | .remoteRequestAtTarget .. => none
  | .remoteResend .. => none
  | .remoteTimeout .. => none
  | .deadMarkClear .. => none
  | .extentRelease .. => none
  | .ridgeMessageDeliver .. => none
  | .ridgeInjectionReserve .. => none
  | .attestationRequest .. => none
  | .expertUnlock .. => none
  | .ordinaryRefresh .. => none
  | .linkRetrainComplete .. => none
  | .amapCommitComplete .. => none
  | .unassignedOpcode .. => none
  | .instructionFetchFault .. => none

/-- The bytes of an instruction; empty for an event. -/
def encode (i : Instr) : List Byte :=
  match encodeWord i with
  | some w => bytesOfWord w
  | none => []

/-- The instruction the decoder reads from the low nbits of w: four bytes in memory order. -/
def decodeTableWord (nbits w : Nat) : Option Instr :=
  match decode (bytesOfWord (BitVec.ofNat 32 (w % 2 ^ nbits))) with
  | .ok (i, _) => some i
  | .error _ => none

end Sys2Proof
end

