-- ==== Sys2Proof/Machine/State.lean ====
section
/-!
DEFINITION. The state of one Ozmos package as plain data, and the state right after reset. Every piece of state that the
spec names has a field here; INVENTORY.md lists each with its rule. Sparse lists stand for large arrays: a memory lists
only the bytes that differ from what an unlisted address reads as.
-/
namespace Sys2Proof.Machine

/-- Reasons for which the machine as a whole stops without a next state. -/
inductive Fault where
  /-- Raised by BLOCK_RESUME when an image was changed in a way that 11 R226 calls undefined. Safe: no next state is given. -/
  | editedImage
deriving DecidableEq, Repr

/-- Reasons for which an operation has no meaning here. -/
inductive Refusal where
  /-- Raised only by an arm of exec whose operation has no meaning yet. Safe: nothing is claimed of it. -/
  | notModelled (mnemonic : String)
deriving DecidableEq, Repr

/-- Bytes by address, strictly rising, none equal to zero: an unlisted address reads as zero (05 R116). -/
abbrev Memory := List Host.Cell

/-- 32-bit cells by index, strictly rising, none equal to zero. -/
abbrev WordMap := List (Nat × Word)

/-- One mapping: enable, base and limit in 2 MiB units, the 35 masks (05 R107). -/
structure Mapping where
  en : Bool
  base : Nat
  limit : Nat
  masks : List Nat
deriving DecidableEq, Repr

/-- Cells whose bytes are undefined since the event of the given epoch until written again: those from lo up to hi, or,
when a mapping region was committed, those that addresses moved to (05 R108): the active mappings before and those after. -/
structure Extent where
  lo : Nat
  hi : Nat
  epoch : Nat
  remap : Option (List (Nat × Mapping) × List (Nat × Mapping))
  written : List Nat
deriving DecidableEq, Repr

/-- The trap codes of 11 R214. -/
inductive TrapCode where
  | illop | illopd | priv | emptyt | xlate | perm | fmtmis | poison
  | qcorrupt | qbroken | barerr | watch | sigmis | remote | decomp | trap
deriving DecidableEq, Repr

/-- A trap or fault with its detail and the address of its record (11 R214, R215). -/
structure Trap where
  code : TrapCode
  detail : Nat
  addr : DWord
deriving DecidableEq, Repr

/-- A fault record (11 R215). -/
structure FaultRec where
  lid : Nat
  blk : Nat
  who : Who
  pc : DWord
  addr : DWord
  image : Nat
  trunc : Bool
  cont : Bool
  eng : Bool
  replay : Bool
  detail : Nat
  code : TrapCode
deriving DecidableEq, Repr

/-- The operations of ATOM and RED (07 R160). -/
inductive AtomOp where
  | add | min | max | minu | maxu | and | or | xor | xchg | fadd
deriving DecidableEq, Repr

/-- What a producer still awaits (03 R57): the element of a dequeue that has been allocated, the bytes of a load, those known
listed, or of an element, or the old word of an atomic that another device performs (13 R264). -/
inductive Late where
  | element
  | load (sz : BitVec 3) (known : List (Nat × Byte))
  | lde (fmt index : Nat)
  | atom (op : Option AtomOp) (operand : Word)
deriving DecidableEq, Repr

/-- A long-latency producer that has issued and not completed (03 R57): the register cells it will write and the
full/empty bits it will set, the words it will write or, of ADRN, the accumulator element it will read, the scope of the
acquire it performs, and what it still awaits. Its memory requests are those of the channel controllers numbered from since up
to upto (05 R112), and src names the sectors of this package's memory that it reads, each with the address of the part of its access that
touches it (05 R117). -/
structure Producer where
  pid : Nat
  since : Nat
  upto : Nat
  src : List (Nat × DWord)
  pc : DWord
  cells : List Nat
  bits : List Nat
  value : List Word
  reads : Option Nat
  acquire : Option Nat
  late : Option Late
deriving DecidableEq, Repr

/-- The cases in which an issuer waits (02 R40). -/
inductive Wait where
  | sourceEmpty | condition | uqEmpty | uqFull | roll | barrier | tag | collective | ending
  | acks | mig | classFull | commandQueue | answer | slack | pair | trial | acquire | checkpoint | watch
deriving DecidableEq, Repr

/-- Progress of one awaited answer of the instruction at the PC. A release that covers other devices waits for the requests
numbered below upto too (06 R123); a TLBI waits until none of the writes numbered below upto is on its way (18 R393; 06 R140). -/
inductive Ack where
  | none
  | awaiting
  | abroad (upto : Nat)
  | drained (upto : Nat)
  | done
deriving DecidableEq, Repr

/-- Progress of a request to a home made by the instruction at the PC. A dequeue that has waited is granted an element under the
number that its producer takes; its data may have come already. A load that a proctor match holds (12 R242) gathers the bytes
that other devices send, by their offset. -/
inductive Answer where
  | none
  | awaiting
  | got (v : List Word)
  | granted (token : Nat) (data : Option (List Word))
  | loading (known : List (Nat × Byte))
deriving DecidableEq, Repr

/-- How far the instruction at the PC has come when it acts in several steps: the acknowledgements of its release, the
comparison of a pair at its commit point, the answer of a home, the sealing of its checkpoint. -/
structure Phase where
  release : Ack
  compare : Ack
  answer : Answer
  sealing : Ack
deriving DecidableEq, Repr

/-- The operation of a row collective, with what one fibre brings to it (02 R38). -/
inductive CollOp where
  | xlane (lane : Nat)
  | xshf (shift : Int)
  | vote (mode : Nat)
  | ldl (sz : BitVec 3) (acquire : Option Nat) (addr : DWord)
  | stl (sz : BitVec 3) (release : Nat) (addr : DWord) (data : List Byte)
deriving DecidableEq, Repr

/-- A fibre's arrival at a row collective (02 R38, 03 R66); before is its CRC before the store event that its STL has made (11 R233,
R234). -/
structure Arrival where
  pc : DWord
  op : CollOp
  active : Bool
  value : Word
  pred : Bool
  cells : List Nat
  bits : List Nat
  before : Option DWord
deriving DecidableEq, Repr

/-- Repeat state (02 R20, 14 R287) with the steps of the REP word. -/
structure Rep where
  active : Bool
  count : Nat
  index : Nat
  sd : BitVec 3
  sa : BitVec 3
  sb : BitVec 3
deriving DecidableEq, Repr

/-- Life of a fibre or lead (02 R31). An id that is free has no entry in the block. -/
inductive Life where
  | live | ending | ended
deriving DecidableEq, Repr

/-- Halt state (12 R244 to R251): the slot that halted, the skid count, the instructions
that may still retire of a skid in progress and the time by which it ends, the exemption of the first instruction after a
release or step, whether a step that parked is still to complete, and the debugger that steps it. -/
structure Halt where
  halted : Bool
  slot : Nat
  skid : Nat
  left : Option Nat
  limit : Nat
  exempt : Bool
  again : Bool
  stepper : Option (Nat × Who)
deriving DecidableEq, Repr

/-- A watch slot (12 R241). -/
structure Watch where
  kind : Nat
  lo : DWord
  hi : DWord
  lidf : Nat
  blkf : Nat
  fidf : Nat
  liden : Bool
  blken : Bool
  fiden : Bool
  count : Nat
  fpx : BitVec 5
  msk : Nat
  cmp : Nat
  action : Nat
  trace : Bool
deriving DecidableEq, Repr

/-- The context of a fibre (02 R20) or of a lead (02 R45). Register cells are 32 bits: allocation index i of a fibre is cell i; a_k
of a lead is cells 2k (bits [31:0]) and 2k+1 (bits [63:32]). Full/empty bits are kept by allocation index or a-register number; the
list names the empty ones, rising. heldBits names those that the held or parked instruction at the PC has emptied (03 R57, R61);
parked is the record that it waits on and its address (05 R100); slots are the watch slots in force when it issued (12 R240);
counted says whether its issue is counted in the block's cost (10 R206). -/
structure Ctx where
  life : Life
  pc : DWord
  preds : BitVec 16
  wb : BitVec 12
  regs : WordMap
  empties : List Nat
  fps : BitVec 5
  rep : Rep
  cnt0 : Nat
  cnt1 : Nat
  cnt2 : Nat
  cnt3 : Nat
  uqPos : Nat
  latch : Word
  producers : List Producer
  wait : Option Wait
  phase : Phase
  arrival : Option Arrival
  parked : Option (Nat × DWord)
  heldBits : List Nat
  slots : Option (List (Nat × Watch))
  counted : Bool
  halt : Halt
  crc : DWord
  readySince : Nat
deriving DecidableEq, Repr

/-- A barrier: expected count E, arrival count a, phase p (07 R158). -/
structure Barrier where
  expected : Nat
  arrived : Nat
  phase : Nat
deriving DecidableEq, Repr

/-- Kinds of store-buffer entries (11 R223 kind 7). -/
inductive SbKind where
  | st | stl | stt
  | red (op : AtomOp)
deriving DecidableEq, Repr

/-- An uncommitted entry of the store buffer (06 R122): its virtual address, size code, kind, issuer and PC, and its
bytes by virtual address. -/
structure SbEntry where
  kind : SbKind
  va : DWord
  szcode : Nat
  who : Who
  pc : DWord
  bytes : List (Nat × Byte)
deriving DecidableEq, Repr

/-- The part of a block that a save image holds (11 R223); endedCrc is the exclusive-or of the CRCs that ended fibres left
since the last comparison, drains what is still to be appended to the lead's CRC: the values of an MDRST that is read, by its
operation, and the store events behind them (11 R233). -/
structure BlockBody where
  fibres : List (Nat × Ctx)
  lead : Ctx
  uq : List Word
  uqBase : Nat
  barriers : List Barrier
  buffer : List SbEntry
  storeEvents : Nat
  ordinal : Nat
  endedCrc : DWord
  drains : List (Option Nat × List Byte)
deriving DecidableEq, Repr

/-- What a launch fixes for all its blocks (02 R24, R35; 10 R196) and the address space and privilege of its queue. -/
structure LaunchParams where
  lid : Nat
  queue : Nat
  fibreCount : Nat
  initialCount : Nat
  allocation : Nat
  barrierCount : Nat
  dimX : Nat
  dimY : Nat
  dimZ : Nat
  stages : Nat
  code : DWord
  lead : DWord
  arg : DWord
  tcb : DWord
  prio : Nat
  ckpt : Bool
  paired : Bool
  slack : Nat
  root : Nat
  asn : Nat
  supervisor : Bool
deriving DecidableEq, Repr

/-- Units of a core's matrix state that are owned by grain (09 R174). -/
inductive MUnit where
  | abuf | bslice | scale | acc
deriving DecidableEq, Repr

/-- A grain and its owning block (09 R175). -/
structure Grain where
  core : Nat
  unit : MUnit
  index : Nat
  bid : Nat
deriving DecidableEq, Repr

/-- The saved content of one owned grain (11 R223 kind 10): bytes, or accumulator cells. -/
structure GrainSave where
  unit : MUnit
  index : Nat
  bytes : Memory
  cells : WordMap
deriving DecidableEq, Repr

/-- A remainder's or operation's kind in the copy engine and drains (08, 09). -/
inductive EngKind where
  | cpy | cpyb | cpys | mldb | mdrst | mdrain
deriving DecidableEq, Repr

/-- A tensor shape record as read at issue (08 R164). -/
structure Shape where
  src : DWord
  dst : DWord
  ticket : Nat
  addm : Bool
  tbuf : Nat
  trig : Nat
  dec : Bool
  dfmt : Nat
  ndim : Nat
  esize : Nat
  dkind : Nat
  skind : Nat
  box : List Nat
  valid : List Nat
  sstr : List Int
  dstr : List Int
deriving DecidableEq, Repr

/-- Where an engine operation stands (08 R168 to R173): before its trigger, at its units, ended, its record on the way; parked at one
of the first two or at its record on a page that is not mapped; in a pair, after a fault that has stopped its issuer. -/
inductive EngPhase where
  | waitTrigger | running | triggerParked | parked | ended | reporting | recordParked | faulted
deriving DecidableEq, Repr

/-- An outstanding engine operation: its record, handles, progress unit, bytes written, trigger and outcome, the page on
whose record it is parked, the bytes of its unit that other devices have sent, by physical address, each with whether it is poisoned, and
whether its unit is on its way to other devices. -/
structure EngOp where
  oid : Nat
  bid : Nat
  who : Who
  pc : DWord
  kind : EngKind
  shape : Shape
  size : Nat
  cq : DWord
  tq : DWord
  phase : EngPhase
  done : Nat
  bytes : Nat
  readers : List Nat
  status : Nat
  code : Option TrapCode
  detail : Nat
  faddr : DWord
  srcOff : Nat
  desc : DWord
  page : Nat
  fetched : List (Nat × Byte × Bool)
  sending : Bool
deriving DecidableEq, Repr

/-- A save image (11 R222, R223): the block it holds, the core it left, where it lies, its kind, what it records, and the bytes of
the sections that nothing but the hardware writes. -/
structure Image where
  bid : Nat
  lid : Nat
  core : Nat
  base : Nat
  kind : Nat
  cause : Nat
  body : BlockBody
  grains : List GrainSave
  ops : List EngOp
  others : List (Nat × List Byte)
  primary : Option FaultRec
  seconds : List FaultRec
  overflow : Bool
  truncated : Bool
  excess : List Nat
deriving DecidableEq, Repr

/-- A request that a block be saved: the image's kind and the pre-emption cause (11 R221, R222). -/
structure SaveReq where
  kind : Nat
  cause : Nat
deriving DecidableEq, Repr

/-- Redundancy role (14 R282 number 16). -/
inductive Role where
  | single | leading | trailing
deriving DecidableEq, Repr

/-- A block (02 R27): its place among the launch, the core it is resident on, or was last, and its lead context there, its saved
image, what stops it, its marks and checkpoint (11 R230, R231), and the pair it belongs to (11 R232 to R236). -/
structure Block where
  bid : Nat
  params : LaunchParams
  index : Nat
  bx : Nat
  by_ : Nat
  bz : Nat
  stage : Nat
  role : Role
  partner : Nat
  core : Option Nat
  lastCore : Nat
  context : Nat
  extent : Nat
  ckptExtent : Nat
  body : BlockBody
  saved : Option Image
  awaiting : Bool
  saveReq : Option SaveReq
  primary : Option FaultRec
  seconds : List FaultRec
  marked : Bool
  unprotected : Bool
  checkpoint : Option Image
  runs : Nat
  poisons : Nat
  forwarded : List (Who × List Word)
  performed : List (Who × Nat)
  cost : Nat
  est : Option Nat
  seatedAt : Nat
  retry : Option (Nat × SaveReq)
  avoid : List Nat
deriving DecidableEq, Repr

/-- STATUS of a launch (10 R200). -/
inductive LaunchStatus where
  | waiting | ready | running | done | aborted
deriving DecidableEq, Repr

/-- An accepted launch (10 R199): its parameters, footprints, progress, since when each of its blocks that found no place waits
(10 R212), and completion steps. -/
structure Launch where
  params : LaunchParams
  footprints : List (Nat × Int × Int × Int × Int)
  cq : DWord
  status : LaunchStatus
  next : Nat
  retired : Nat
  abortedBlocks : Nat
  cyc : Nat
  acceptedAt : Nat
  unseatedSince : List (Nat × Nat)
  held : Bool
  reported : Bool
  reportDone : Bool
deriving DecidableEq, Repr

/-- An outstanding XLATE record of a block and 64 KiB page (05 R100): what parked on it. -/
structure XRec where
  xid : Nat
  bid : Nat
  page : Nat
  who : Who
  pc : DWord
  addr : DWord
  detail : Nat
deriving DecidableEq, Repr

/-- A word that an update-only copy has gathered (07 R161): its offset in the line, its value, and the fault record that names
its RED should it meet poison (05 R117), with the launch queue that the record goes to. -/
structure Gathered where
  off : Nat
  word : Word
  queue : Nat
  owner : FaultRec
deriving DecidableEq, Repr

/-- A line of 128 bytes in an L1 (05 R102) or a stack cache (05 R103): its tag, bytes by offset, masks of valid and dirty
bytes and of poisoned sectors, and, in update-only state, the operation and the gathered words (07 R161). -/
structure Line where
  core : Nat
  tag : Nat
  bytes : Memory
  valid : Nat
  dirty : Nat
  poison : Nat
  red : Option AtomOp
  gathered : List Gathered
deriving DecidableEq, Repr

/-- A TLB entry (05 R91, R92, R97): the core, address space, page and the entry's fields. -/
structure TlbEntry where
  core : Nat
  asn : Nat
  base : Nat
  size : Nat
  entry : DWord
deriving DecidableEq, Repr

/-- A pointer entry held in a walker's internal cache (05 R98). -/
structure WalkEntry where
  stack : Nat
  pa : Nat
  entry : DWord
deriving DecidableEq, Repr

/-- A word in a core's instruction cache (06 R138). -/
structure CodeWord where
  core : Nat
  pa : Nat
  word : Word
deriving DecidableEq, Repr

/-- Who asked a home for a queue operation, so who gets the answer. -/
inductive QFrom where
  | actor (bid : Nat) (who : Who)
  | producer (bid : Nat) (who : Who) (pid : Nat)
  | engine (oid : Nat)
  | trigger (oid : Nat)
  | faultRec (rec : FaultRec)
  | launchRec (rec : FaultRec)
  | launch (lid : Nat)
  | refusal
  | summit (inst : Nat)
  | window (port window token : Nat)
  | trace
  | dean (n : Nat)
  | remote (source seq : Nat)
deriving DecidableEq, Repr

/-- A queue request on its way to, or parked at, its home (07 R150 to R152); va is its control block's virtual address. One that an
agent makes through a device register or record carries the handle and the launch queue whose tables translate it at the home (10
R438). src is the Ridge stop that it left (01 R13), unc whether its control block is reached uncached (05 R104). -/
structure QReq where
  rid : Nat
  from_ : QFrom
  enq : Bool
  try_ : Bool
  pa : Nat
  va : DWord
  handle : Option (DWord × Nat)
  code : Nat
  payload : List Byte
  parked : Bool
  busy : Bool
  src : Nat
  unc : Bool
deriving DecidableEq, Repr

/-- The hidden state of a queue at its home (07 R150 to R152): allocated and incomplete enqueues (pe) and dequeues (pd),
oldest first, each with who made it, and whether the last operation reached its control block uncached (05 R104). Parked
operations are the requests of qreqs marked parked, in order. -/
structure QHome where
  pa : Nat
  unc : Bool
  enqs : List QFrom
  deqs : List QFrom
deriving DecidableEq, Repr

/-- An LDT or STT on its way to, or waiting at, its granule's home (07 R157): an issuer's, or another device's under its source
and sequence number (13 R264); busy is one that found no entry of the roll and is sent again (07 R152). -/
structure TagReq where
  rid : Nat
  bid : Nat
  who : Who
  pa : Nat
  va : DWord
  load : Bool
  condition : Bool
  size : Nat
  data : List Byte
  waiting : Bool
  busy : Bool
  src : Nat
  unc : Bool
  remote : Option (Nat × Nat)
deriving DecidableEq, Repr

/-- A matrix command (09 R180, R182) in a lead's queue or running, with its block and the lead's context number. -/
structure MatrixCmd where
  mid : Nat
  bid : Nat
  lead : Nat
  zero : Bool
  word : DWord
deriving DecidableEq, Repr

/-- A latched copy of a B slice in one of the array's two register sets (09 R183). -/
structure Latch where
  slice : Nat
  fmt : Nat
  valid : Bool
  bytes : Memory
deriving DecidableEq, Repr

/-- The matrix array of a core (09 R183): the leads' command queues in issue order, the running command with its start
time, the two register sets, a load in progress (slice, format, completion time), the set last used and the lead served
last. -/
structure MArray where
  core : Nat
  queue : List MatrixCmd
  running : Option (MatrixCmd × Nat)
  latches : List Latch
  loading : Option (Nat × Nat × Nat)
  lastUsed : Nat
  lastLead : Nat
deriving DecidableEq, Repr

/-- The matrix state of all cores (09 R174): units by core and offset, ownership, arrays. -/
structure Matrix where
  abuf : Memory
  bslice : Memory
  scale : Memory
  acc : WordMap
  grains : List Grain
  arrays : List MArray
deriving DecidableEq, Repr

/-- A collective descriptor (09 R186). -/
structure SummitDesc where
  iadd : Bool
  dest : Bool
  root : Nat
  memb : Nat
  group : Nat
  drow : Nat
  nrow : Nat
  srow : Nat
  qh : DWord
deriving DecidableEq, Repr

/-- A member's contribution on its way from the stop src (09 R187): rows by destination row × 384 + column. -/
structure Contribution where
  cid : Nat
  src : Nat
  params : LaunchParams
  desc : SummitDesc
  block : Nat
  bid : Nat
  pc : DWord
  cells : WordMap
deriving DecidableEq, Repr

/-- An instance of the summit (09 R187 to R189). -/
structure Instance where
  iid : Nat
  params : LaunchParams
  desc : SummitDesc
  count : Nat
  parts : List WordMap
  members : List (Nat × Nat × DWord)
  failed : Option (TrapCode × Nat)
  closed : Bool
  sent : Nat
deriving DecidableEq, Repr

/-- A launch queue's registers (10 R195) and arbitration state (10 R205, R206). -/
structure LaunchQueue where
  handle : DWord
  root : DWord
  tickets : Nat
  en : Bool
  priv : Bool
  asn : Nat
  quant : Nat
  spbase : DWord
  sporg : DWord
  spn : Nat
  faultq : DWord
  pass : Nat
  deficit : Int
  lastCost : Option Nat
  wasReady : Bool
deriving DecidableEq, Repr

/-- What the dean goes on with once bytes that it has asked other devices for have come (05 R89): the judgement of a launch record,
given its TCB (10 R198); a launch's completion record, given its TCB; its successors, given their number and list, then given the
list (10 R202). -/
inductive DeanTask where
  | judge (queue : Nat) (record : List Byte)
  | report (lid : Nat)
  | count (lid : Nat)
  | list (lid : Nat)
deriving DecidableEq, Repr

/-- A read of the dean some of whose bytes other devices have still to send: what follows it, the bytes known by their offset, and their
number. -/
structure DeanRead where
  id : Nat
  task : DeanTask
  known : List (Nat × Byte)
  len : Nat
deriving DecidableEq, Repr

/-- The dean's registers and arbitration state (10 R194, R195, R205, R206, R208, R438; 11 R218, R220, R224, R237;
12 R252). The reads that other devices have still to answer, and the elements that these have
sent for launch queues and, under 64, for the resume queue. -/
structure Dean where
  drr : Bool
  pwait : Nat
  svbase : DWord
  svsize : Nat
  resq : DWord
  stctl : DWord
  stxor : DWord
  trq : DWord
  trdrop : Nat
  svfail : Nat
  svq : Nat
  queues : List (Nat × LaunchQueue)
  lastUnit : List (Nat × Nat)
  rrStack : List (Nat × Nat)
  lastPass : List (Nat × Nat)
  visit : List (Nat × Nat)
  pool : List (Nat × Nat × Nat)
  reads : List DeanRead
  taken : List (Nat × List Byte)
deriving DecidableEq, Repr

/-- A mapping region: staged and active values, STATUS, and the masks and the enable with which the commit under way has started
(05 R107, R108). -/
structure Region where
  staged : Mapping
  active : Mapping
  status : Nat
  checked : List Nat
  starting : Bool
deriving DecidableEq, Repr

/-- Service classes of a channel controller (05 R112). -/
inductive DramClass where
  | bulk | deadline | normal
deriving DecidableEq, Repr

/-- A request queued at a channel controller (05 R112): cell column unit, class, arrival and latest-service times, and of a read the
core whose L1 takes what is read or the sectors into which an engine copies it. -/
structure DramReq where
  did : Nat
  cell : Nat
  reading : Bool
  reader : Option Nat
  lands : List Nat
  cls : DramClass
  arrival : Nat
  latest : Nat
  urgent : Bool
deriving DecidableEq, Repr

/-- A bank (05 R114): open row, activation counters by row, BANKSTAT and the end of a back-off. -/
structure Bank where
  openRow : Option Nat
  counts : List (Nat × Nat)
  rfmcnt : Nat
  backoff : Nat
  backoffEnd : Option Nat
deriving DecidableEq, Repr

/-- A channel controller (05 R112 to R115). -/
structure Channel where
  bulksh : Nat
  dlbudget : Nat
  dlthr : Nat
  actthr : Nat
  actsel : DWord
  banks : List (Nat × Bank)
  reqs : List DramReq
  sinceBulk : Nat
deriving DecidableEq, Repr

/-- A queue window (13 R259). -/
structure Window where
  handle : DWord
  drops : Nat
  err : Nat
  fifo : List (List Byte)
  sending : Option Nat
  hold : List Byte
  result : Nat
deriving DecidableEq, Repr

/-- A host port (13 R257 to R260). The requests of its fence toward other devices are those numbered from fenceFrom on; fenceDead says that
one of these will not be acknowledged. -/
structure Port where
  busy : Bool
  err : Bool
  tmo : Bool
  scope : Nat
  fenceAt : Nat
  fenceFrom : Nat
  fenceDead : Bool
  haBase : Nat
  windows : List (Nat × Window)
  lastRead : List Byte
  lastStatus : Nat
  reports : Nat
deriving DecidableEq, Repr

/-- The governor of a stack die (13 R267): its state, the states it has left with the time at which each ended, latest first, the
causes of its emergency and when one was last seen, since when the package has drawn more than 15,000 W, its last step and its last
pre-emption. -/
structure Governor where
  throttle : Nat
  history : List (Nat × Nat)
  emergency : Bool
  causes : List EmergencyCause
  refresh : Nat
  lastStep : Nat
  emergencyAt : Nat
  overSince : Option Nat
  lastPreempt : Nat
deriving DecidableEq, Repr

/-- A flit that a port sends (13 R261, R262): its acknowledgement fields and, of a data flit, its sequence number, destination and
payload. -/
structure OutFlit where
  nak : Bool
  ackv : Bool
  ackseq : Nat
  data : Option (Nat × Nat × PeerMsg)
deriving DecidableEq, Repr

/-- A peer-link port (13 R261 to R263): receive and send sequence, what waits to be sent, unacknowledged flits, the lane and time of
each recent CRC error, the lane that has reached its limit, the acknowledgement that is due, the flit sent last, repair state,
payloads taken. -/
structure PeerPort where
  up : Bool
  lanes : Nat
  laneErrors : List (Nat × Nat)
  worn : Option Nat
  expect : Nat
  nextSeq : Nat
  waiting : List (Nat × PeerMsg)
  unacked : List (Nat × Nat × PeerMsg)
  replay : List Nat
  nakOut : Option Nat
  ackOut : Option Nat
  out : Option OutFlit
  repairs : Nat
  retrainEnd : Option Nat
  inbox : List (List Byte)
deriving DecidableEq, Repr

/-- An import window of one source device (13 R264): base and limit in 2 MiB units and enables. -/
structure Import where
  device : Nat
  window : Nat
  base : Nat
  limit : Nat
  read : Bool
  write : Bool
  atomic : Bool
deriving DecidableEq, Repr

/-- What the answer of another device does (13 R264): bytes for the producers of loads (reader, producer, first byte of the answer,
count, first byte of the load), the old word for an atomic's producer, words for an issuer that waits, whether it then has made a
visible effect and whether the other copy of a pair is told, the acknowledgement of a store, of a fence or of a line's upkeep, or of
a reduction with its POISON record, a queue operation, bytes for or acknowledgement of an engine's unit, a word of code, a port's
fence, bytes from an offset on for a load that a proctor match holds, the withdrawal of an earlier request, bytes from an offset on
for a read of the dean. -/
inductive RemoteUse where
  | loads (readers : List (Who × Nat × Nat × Nat × Nat))
  | atom (pid : Nat)
  | answer (mark tell : Bool)
  | store
  | ack
  | red (queue : Nat) (owner : FaultRec)
  | queue (q : QReq)
  | unitRead (oid pa : Nat)
  | unitWrite (oid : Nat)
  | code (core pa : Nat)
  | fence (port : Nat)
  | held (off : Nat)
  | cancel (rid : Nat)
  | dean (id off : Nat)
deriving DecidableEq, Repr

/-- A request toward another device that this package awaits (13 R264, R265): its number, target, sequence number if its kind takes
one, the local address it names there, what it asks and what its answer does, the issuer whose instruction it is and the virtual
address for a fault, when it was first and last sent, how often again, and whether its target was dead when it was made. -/
structure RemoteOp where
  rid : Nat
  target : Nat
  seq : Option Nat
  addr : Nat
  kind : RemoteKind
  use : RemoteUse
  owner : Option (Nat × Who × DWord)
  va : DWord
  sent : Option (Nat × Nat)
  resends : Nat
  doomed : Bool
deriving DecidableEq, Repr

/-- The peer layer (13 R261 to R265; 05 R118): the extents released, those whose release is still under way and those acknowledged,
and the next sequence number toward each target. -/
structure Peers where
  ports : List (Nat × PeerPort)
  routes : List (Nat × DWord)
  dead : List Nat
  imports : List Import
  applied : List (Nat × Nat × List Word)
  outstanding : List RemoteOp
  seqs : List (Nat × Nat)
  responses : List (Nat × Nat × List Byte)
  released : List (Nat × Nat)
  releasing : List (Nat × Nat)
  acknowledged : List (Nat × Nat)
deriving DecidableEq, Repr

/-- A message of the Ridge (01 R10 to R14): since when it waits at its stop, when it took its slot, whether the next free slot is
reserved for it, the 32-byte sectors whose data it carries, the channel controller's request that it belongs to, the core whose L1 takes
the data, if one does, and the sectors into which an engine copies it. -/
structure RidgeMsg where
  cls : RidgeClass
  src : Nat
  dst : Nat
  since : Nat
  entered : Option Nat
  reserved : Bool
  data : List Nat
  req : Nat
  reader : Option Nat
  lands : List Nat
deriving DecidableEq, Repr

/-- Proctor slots, the same on every core, and hit counters by core × 64 + slot (12 R238). -/
structure Proctors where
  slots : List (Nat × Watch)
  hits : List (Nat × Nat)
deriving DecidableEq, Repr

/-- The causal trial (12 R253, R254). -/
structure Trial where
  run : Bool
  delay : Nat
  lid : Nat
  nwin : Nat
  win : Nat
  lo : DWord
  hi : DWord
  pairs : Nat
  status : Nat
  inserted : Nat
  pb : List (Nat × Nat)
  pd : List (Nat × Nat)
  delayed : Bool
  windowEnd : Nat
  pending : List (Nat × Nat)
  waited : List (Nat × Nat)
deriving DecidableEq, Repr

/-- An attestation report (13 R268). -/
structure Report where
  nonce : BitVec 512
  device : Nat
  serial : Nat
  versions : List Nat
  measurements : List (BitVec 512)
  unlocked : List Nat
  signature : Nat
deriving DecidableEq, Repr

/-- What the service firmware may reach (13 R268): device keys, the expert level, and extents of tenant memory that the host driver has
granted. -/
structure Sandbox where
  keys : Bool
  expert : Bool
  extents : List (Nat × Nat)
deriving DecidableEq, Repr

/-- What the service firmware starts with where the host driver grants nothing (13 R268). -/
def Sandbox.closed : Sandbox := { keys := false, expert := false, extents := [] }

/-- The security processor's firmware (13 R268, R269): whether the root firmware runs or the device is in recovery, the images and
configurations loaded and measured, the sandbox of the service firmware if that runs, the ports unlocked now and ever. -/
structure Firmware where
  booted : Bool
  recovery : Bool
  images : List Nat
  configs : List Nat
  service : Option Sandbox
  expert : List Nat
  everUnlocked : List Nat
  report : Option Report
deriving DecidableEq, Repr

/-- What the service firmware's error log holds (11 R216; 13 R259, R260, R264). -/
inductive LogEntry where
  | faultRecord (rec : FaultRec)
  | resumeDropped (handle : DWord)
  | saveShort (bid : Nat)
  | planUnreadable (addr : Nat)
  | windowFailed (port window code : Nat)
  | aperture (port addr : Nat)
  | remoteRefused (source addr : Nat)
  | remoteDead (device : Nat) (addr : DWord)
deriving DecidableEq, Repr

/-- Bundles formed at the last re-formation of a core (02 R28): each a block and its fibre ids or lead. -/
structure Bundle where
  core : Nat
  bid : Nat
  members : List Who
deriving DecidableEq, Repr

/-- Whose turn it is: an issuer of a resident block, an event, or the clock. -/
inductive Turn where
  | issue (bid : Nat) (who : Who)
  | event (e : Instr)
  | tick
deriving DecidableEq, Repr

/-- The state of the package. -/
structure State where
  agenda : List Turn
  issuer : Option (Nat × Who)
  time : Nat
  fresh : Nat
  device : Nat
  mem : Memory
  blur : List Extent
  scache : List Line
  mside : List (Nat × List Nat)
  poison : List (Nat × Nat)
  tags : List Nat
  l1 : List Line
  tlb : List TlbEntry
  walkc : List WalkEntry
  icache : List CodeWord
  queues : List QHome
  qreqs : List QReq
  treqs : List TagReq
  blocks : List Block
  launches : List Launch
  xrecs : List XRec
  images : List Image
  ops : List EngOp
  matrix : Matrix
  contribs : List Contribution
  instances : List Instance
  dean : Dean
  amap : List (Nat × Region)
  apwin : Nat
  channels : List (Nat × Channel)
  ports : List (Nat × Port)
  gvPolicy : Bool
  gvCap : Nat
  governors : List (Nat × Governor)
  peers : Peers
  ridge : List RidgeMsg
  proctors : Proctors
  trial : Trial
  firmware : Firmware
  errlog : List LogEntry
  bundles : List Bundle
deriving DecidableEq, Repr

/-- Reset values of a launch queue's registers (10 R195). -/
def LaunchQueue.reset : LaunchQueue :=
  { handle := 0, root := 0, tickets := 1, en := false, priv := false, asn := 0, quant := 65536, spbase := 0, sporg := 0,
    spn := 0, faultq := 0, pass := 0, deficit := 0, lastCost := none, wasReady := false }

/-- Reset values of the dean's registers (10 R195, R438; 11 R218, R220, R224, R237; 12 R252). (DESIGN CHOICE, log entry 7.) -/
def Dean.reset : Dean :=
  { drr := false, pwait := 16, svbase := 0, svsize := 0, resq := 0, stctl := 0, stxor := 0, trq := 0, trdrop := 0,
    svfail := 0, svq := 0, queues := [], lastUnit := [], rrStack := [], lastPass := [], visit := [], pool := [], reads := [], taken := [] }

/-- The masks of the reset matrix (05 R109), mask k naming the address bits a[j+6] that feed y[k]. -/
def resetMasks : List Nat :=
  (List.range 5).map (fun i => 2 ^ i) ++ (List.range 15).map (fun i => 2 ^ (20 + i)) ++
    (List.range 2).map (fun i => 2 ^ (13 + i)) ++ (List.range 2).map (fun i => 2 ^ (11 + i)) ++ [2 ^ 10] ++
    (List.range 5).map (fun i => 2 ^ (5 + i) + 2 ^ (15 + i)) ++ (List.range 5).map (fun i => 2 ^ (15 + i))

/-- Reset values of mapping region n (05 R107, R109). The masks of regions 1 to 7 take the reset matrix too: R107 gives
their reset as the reset matrix. -/
def Region.reset (n : Nat) : Region :=
  let m : Mapping :=
    { en := decide (n = 0), base := 0, limit := if n = 0 then 0x100000 else 0, masks := resetMasks }
  { staged := m, active := m, status := 0, checked := [], starting := false }

/-- Reset values of a bank (05 R114). -/
def Bank.reset : Bank := { openRow := none, counts := [], rfmcnt := 0, backoff := 0, backoffEnd := none }

/-- Reset values of a channel controller (05 R113, R115). -/
def Channel.reset : Channel :=
  { bulksh := 4, dlbudget := 1000, dlthr := 200, actthr := 1024, actsel := 0, banks := [], reqs := [], sinceBulk := 0 }

/-- Reset values of a queue window (13 R259). -/
def Window.reset : Window :=
  { handle := 0, drops := 0, err := 0, fifo := [], sending := none, hold := [], result := 0 }

/-- Reset values of a host port (13 R258, R260). -/
def Port.reset : Port :=
  { busy := false, err := false, tmo := false, scope := 0, fenceAt := 0, fenceFrom := 0, fenceDead := false, haBase := 0,
    windows := [], lastRead := [],
    lastStatus := 0, reports := 0 }

/-- A stack die's governor after reset (13 R267; DESIGN CHOICE, log entry 1). -/
def Governor.reset : Governor :=
  { throttle := 0, history := [], emergency := false, causes := [], refresh := 1, lastStep := 0, emergencyAt := 0, overSince := none,
    lastPreempt := 0 }

/-- A peer port after reset (13 R261; DESIGN CHOICE, log entry 1): up on four lanes, sequence numbers at zero. -/
def PeerPort.reset : PeerPort :=
  { up := true, lanes := 4, laneErrors := [], worn := none, expect := 0, nextSeq := 0, waiting := [], unacked := [], replay := [],
    nakOut := none, ackOut := none, out := none, repairs := 0, retrainEnd := none, inbox := [] }

/-- The trial registers after reset (12 R253). -/
def Trial.reset : Trial :=
  { run := false, delay := 0, lid := 0, nwin := 0, win := 65536, lo := 0, hi := 0, pairs := 0, status := 0, inserted := 0,
    pb := [], pd := [], delayed := false, windowEnd := 0, pending := [], waited := [] }

/-- The machine right after reset: memory zero with clear poison and empty tags (05 R116), every register at its reset
value, no block, launch, queue or request, firmware started (13 R268). (DESIGN CHOICE, log entry 49.) -/
def State.reset : State :=
  { agenda := [], issuer := none, time := 0, fresh := 0, device := 0, mem := [], blur := [], scache := [], mside := [], poison := [],
    tags := [], l1 := [], tlb := [], walkc := [], icache := [], queues := [], qreqs := [], treqs := [], blocks := [],
    launches := [], xrecs := [], images := [], ops := [],
    matrix := { abuf := [], bslice := [], scale := [], acc := [], grains := [], arrays := [] },
    contribs := [], instances := [], dean := Dean.reset, amap := [], apwin := 0, channels := [], ports := [],
    gvPolicy := false, gvCap := 1500, governors := [],
    peers := { ports := [], routes := [], dead := [], imports := [], applied := [], outstanding := [], seqs := [], responses := [],
               released := [], releasing := [], acknowledged := [] },
    ridge := [], proctors := { slots := [], hits := [] }, trial := Trial.reset,
    firmware := { booted := true, recovery := false, images := [0, 1], configs := [], service := some Sandbox.closed,
                  expert := [], everUnlocked := [], report := none },
    errlog := [], bundles := [] }

end Sys2Proof.Machine
end

