-- ==== Sys2Proof/Machine/Bits.lean ====
section
/-!
DEFINITION. Bit fields, byte order, sparse lists, checksums and GF(2) algebra: the plain computations that the other files
of the machine share. Every function is structural, so that the kernel can evaluate it.
-/
namespace Sys2Proof.Machine

/-- Bits [hi:lo] of a number. -/
def bits (x lo n : Nat) : Nat := (x >>> lo) % 2 ^ n

/-- Bit i of a number. -/
def bitAt (x i : Nat) : Bool := x.testBit i

/-- The number 1 or 0 of a truth value. -/
def bit01 (b : Bool) : Nat := if b then 1 else 0

/-- The value of little-endian bytes (00 R2). -/
def ofBytes (bs : List Byte) : Nat := bs.foldr (fun b acc => b.toNat + 256 * acc) 0

/-- The n little-endian bytes of a number (00 R2). -/
def toBytes (n x : Nat) : List Byte :=
  match n with
  | 0 => []
  | n + 1 => BitVec.ofNat 8 x :: toBytes n (x / 256)

/-- The 32-bit words of little-endian bytes, the last one padded with zeros. -/
def wordsOf (n : Nat) (bs : List Byte) : List Word :=
  match n with
  | 0 => []
  | n + 1 => BitVec.ofNat 32 (ofBytes (bs.take 4)) :: wordsOf n (bs.drop 4)

/-- The little-endian bytes of 32-bit words. -/
def bytesOf (ws : List Word) : List Byte := ws.flatMap (fun w => toBytes 4 w.toNat)

/-- Entry k of a sparse list whose unlisted entries are d. -/
def sget {α : Type} (d : α) (m : List (Nat × α)) (k : Nat) : α :=
  match m with
  | [] => d
  | (j, v) :: rest => if j = k then v else sget d rest k

/-- A list of entries by index with entry k set, in rising order. -/
def aput {α : Type} (m : List (Nat × α)) (k : Nat) (v : α) : List (Nat × α) :=
  match m with
  | [] => [(k, v)]
  | (j, w) :: rest =>
    if j < k then (j, w) :: aput rest k v
    else if j = k then (k, v) :: rest
    else (k, v) :: (j, w) :: rest

/-- A list of entries by index without entry k. -/
def adel {α : Type} (m : List (Nat × α)) (k : Nat) : List (Nat × α) := m.filter (fun e => e.1 != k)

/-- A sparse list with entry k set: kept in rising order of index, without any entry equal to d. -/
def sput {α : Type} [DecidableEq α] (d : α) (m : List (Nat × α)) (k : Nat) (v : α) : List (Nat × α) :=
  if v = d then adel m k else aput m k v

/-- Whether a sparse memory is in its canonical form: addresses strictly rising, no entry equal to zero. -/
def Memory.wf (m : Memory) : Bool :=
  match m with
  | [] => true
  | (_, v) :: [] => decide (v ≠ 0)
  | (j, v) :: (k, w) :: rest => decide (v ≠ 0) && decide (j < k) && Memory.wf ((k, w) :: rest)

/-- Entry k of a list of entries by index, if any. -/
def aget {α : Type} (m : List (Nat × α)) (k : Nat) : Option α :=
  match m with
  | [] => none
  | (j, v) :: rest => if j = k then some v else aget rest k

/-- A rising list of numbers with k added. -/
def sins (l : List Nat) (k : Nat) : List Nat :=
  match l with
  | [] => [k]
  | j :: rest => if j < k then j :: sins rest k else if j = k then j :: rest else k :: j :: rest

/-- A list of numbers without k. -/
def sdel (l : List Nat) (k : Nat) : List Nat := l.filter (· != k)

/-- The numbers lo, lo + 1, up to n of them. -/
def span (lo n : Nat) : List Nat := (List.range n).map (lo + ·)

/-- The bytes of a sparse memory at n addresses from lo. -/
def readSparse (m : Memory) (lo n : Nat) : List Byte := (span lo n).map (sget 0 m)

/-- A sparse memory with bytes written from lo upward. -/
def writeSparse (m : Memory) (lo : Nat) (bs : List Byte) : Memory :=
  match bs with
  | [] => m
  | b :: rest => writeSparse (sput 0 m lo b) (lo + 1) rest

/-- A mask with bits [hi:lo] set, n of them. -/
def maskOf (lo n : Nat) : Nat := (2 ^ n - 1) <<< lo

/-- The parity of the one bits of a number below 2^64. -/
def parity (x : Nat) : Nat :=
  let a := x ^^^ (x >>> 32)
  let b := a ^^^ (a >>> 16)
  let c := b ^^^ (b >>> 8)
  let d := c ^^^ (c >>> 4)
  let e := d ^^^ (d >>> 2)
  (e ^^^ (e >>> 1)) % 2

/-- The number of one bits of the low n bits. -/
def popCount (n x : Nat) : Nat :=
  match n with
  | 0 => 0
  | n + 1 => x % 2 + popCount n (x / 2)

/-- The GF(2) product of masks with a bit vector: bit k is the parity of mask k and x (05 R105). -/
def gfApply (masks : List Nat) (x : Nat) : Nat :=
  masks.foldr (fun m acc => parity (m &&& x) + 2 * acc) 0

/-- The first row with bit j, and the others. -/
def takePivot (j : Nat) (rows : List (Nat × Nat)) : Option ((Nat × Nat) × List (Nat × Nat)) :=
  match rows with
  | [] => none
  | r :: rest =>
    if r.1.testBit j then some (r, rest)
    else match takePivot j rest with
      | none => none
      | some (p, others) => some (p, r :: others)

/-- Add a pivot row to a row that holds its bit. -/
def clearBit (j : Nat) (p r : Nat × Nat) : Nat × Nat :=
  if r.1.testBit j then (r.1 ^^^ p.1, r.2 ^^^ p.2) else r

/-- Gauss elimination over GF(2): the solved rows by column, or none if the matrix is singular. -/
def gfSolveFrom (cols : List Nat) (done rest : List (Nat × Nat)) : Option (List (Nat × Nat)) :=
  match cols with
  | [] => some done
  | j :: js =>
    match takePivot j rest with
    | none => none
    | some (p, others) => gfSolveFrom js (p :: done.map (clearBit j p)) (others.map (clearBit j p))

/-- The vector x with gfApply masks x = y, or none if the 35 masks are singular (05 R108, R110). -/
def gfSolve (masks : List Nat) (y : Nat) : Option Nat :=
  let rows := masks.zip ((List.range 35).map (fun k => bits y k 1))
  match gfSolveFrom (List.range 35) [] rows with
  | none => none
  | some done => some (done.foldl (fun acc r => 2 * acc + r.2) 0)

/-- One bit of a reflected CRC with the given reversed polynomial. -/
def crcBit (poly c : Nat) : Nat := if c % 2 = 1 then (c >>> 1) ^^^ poly else c >>> 1

/-- One byte of a reflected CRC. -/
def crcByte (poly c : Nat) (b : Byte) : Nat := Nat.repeat (crcBit poly) 8 (c ^^^ b.toNat)

/-- CRC-32C (Castagnoli), reflected, initial value and final exclusive-or all ones (07 R143). -/
def crc32c (bs : List Byte) : Nat := bs.foldl (crcByte 0x82F63B78) 0xFFFFFFFF ^^^ 0xFFFFFFFF

/-- One bit of CRC-64 with the ECMA-182 polynomial, most significant bit first (11 R233). -/
def crc64Bit (c : Nat) : Nat :=
  if c.testBit 63 then ((c <<< 1) % 2 ^ 64) ^^^ 0x42F0E1EBA9EA3693 else c <<< 1

/-- A CRC-64 with bytes appended (11 R233). -/
def crc64 (c : DWord) (bs : List Byte) : DWord :=
  BitVec.ofNat 64 (bs.foldl (fun c b => Nat.repeat crc64Bit 8 (c ^^^ (b.toNat <<< 56))) c.toNat)

/-- Whether bits [63:57] of an address equal bit 56 (05 R88, 02 R21). -/
def canonical (a : DWord) : Bool :=
  decide (bits a.toNat 57 7 = if a.getLsbD 56 then 127 else 0)

/-- A legal PC or branch target (02 R21). -/
def goodPc (a : DWord) : Bool := decide (a.toNat % 4 = 0) && canonical a

/-- Round x up to a multiple of n. -/
def roundUp (x n : Nat) : Nat := (x + n - 1) / n * n

/-- The signed value of the low n bits of a number. -/
def signed (n x : Nat) : Int := if bits x (n - 1) 1 = 1 then (bits x 0 n : Int) - 2 ^ n else bits x 0 n

/-- A number as an n-bit two's complement value. -/
def wrap (n : Nat) (x : Int) : Nat := (x % (2 ^ n : Nat)).toNat

end Sys2Proof.Machine
end

