-- ==== Sys2Proof/Machine/Float.lean ====
section
/-!
DEFINITION. Floating-point formats and arithmetic (04): codes decode to exact dyadic values, operations are computed
exactly, and one rounding delivers the code and the exceptions it raises.
-/
namespace Sys2Proof.Machine

/-- A format of 04 R68: exponent and fraction widths, bias, and its special codes. -/
structure FpFmt where
  width : Nat
  eb : Nat
  fb : Nat
  bias : Int
  maxFinite : Nat
  infCode : Option Nat
  nanCode : Nat
deriving DecidableEq, Repr

/-- FP32. -/
def f32 : FpFmt := ⟨32, 8, 23, 127, 0x7F7FFFFF, some 0x7F800000, 0x7FC00000⟩
/-- FP16. -/
def f16 : FpFmt := ⟨16, 5, 10, 15, 0x7BFF, some 0x7C00, 0x7E00⟩
/-- BF16. -/
def bf16 : FpFmt := ⟨16, 8, 7, 127, 0x7F7F, some 0x7F80, 0x7FC0⟩
/-- F8A: no infinity, and 0x80 is the only NaN. -/
def f8a : FpFmt := ⟨8, 4, 3, 8, 0x7F, none, 0x80⟩
/-- F8B. -/
def f8b : FpFmt := ⟨8, 5, 2, 15, 0x7B, some 0x7C, 0x7E⟩

/-- A decoded value: NaN, an infinity, or (−1)^neg × m × 2^e. -/
inductive Fp where
  | nan
  | inf (neg : Bool)
  | fin (neg : Bool) (m : Nat) (e : Int)
deriving DecidableEq, Repr

/-- The exception bits of the FP status word (04 R76). -/
abbrev FpFlags := BitVec 5

/-- Invalid. -/
def fInvalid : FpFlags := 1#5
/-- Divide-by-zero. -/
def fDivZero : FpFlags := 2#5
/-- Overflow with inexact. -/
def fOverflow : FpFlags := 20#5
/-- Underflow. -/
def fUnderflow : FpFlags := 8#5
/-- Inexact. -/
def fInexact : FpFlags := 16#5
/-- No exception. -/
def fNone : FpFlags := 0#5

/-- Flags raised when a condition holds. -/
def flagIf (b : Bool) (f : FpFlags) : FpFlags := if b then f else fNone

/-- The value of a code (04 R69). -/
def fpDecode (t : FpFmt) (code : Nat) : Fp :=
  let neg := bitAt code (t.width - 1)
  let e := bits code t.fb t.eb
  let f := bits code 0 t.fb
  match t.infCode with
  | none =>
    if code % 2 ^ t.width = t.nanCode then .nan
    else if e = 0 then .fin neg f (1 - t.bias - t.fb) else .fin neg (f + 2 ^ t.fb) (e - t.bias - t.fb)
  | some _ =>
    if e = 2 ^ t.eb - 1 then (if f = 0 then .inf neg else .nan)
    else if e = 0 then .fin neg f (1 - t.bias - t.fb) else .fin neg (f + 2 ^ t.fb) (e - t.bias - t.fb)

/-- The value of an SF8 scale code (04 R68, R69): never negative. -/
def sf8Decode (code : Nat) : Fp :=
  if code = 0xFF then .nan
  else if code / 16 = 0 then .fin false (code % 16) (-10)
  else .fin false (code % 16 + 16) ((code / 16 : Nat) - 11)

/-- Rounding modes of FRND (04 R77). -/
inductive RMode where
  | even | zero | down | up
deriving DecidableEq, Repr

/-- The rounding mode of a code. -/
def rmodeOf (n : Nat) : RMode :=
  match n % 4 with
  | 0 => .even
  | 1 => .zero
  | 2 => .down
  | _ => .up

/-- Whether a magnitude is rounded up: what was kept is odd or not, the rest is compared with half a unit, and sticky says
that a positive amount below the rest's last bit remains. -/
def roundsUp (mode : RMode) (neg odd : Bool) (rem half : Nat) (sticky : Bool) : Bool :=
  match mode with
  | .even => decide (rem > half) || (decide (rem = half ∧ 0 < half) && (sticky || odd))
  | .zero => false
  | .down => neg && (decide (rem ≠ 0) || sticky)
  | .up => !neg && (decide (rem ≠ 0) || sticky)

/-- The sign bit of a format put on a magnitude code. F8A has no −0 (04 R69). -/
def signCode (t : FpFmt) (neg : Bool) (mag : Nat) : Nat :=
  if neg && !(t.infCode.isNone && decide (mag = 0)) then mag + 2 ^ (t.width - 1) else mag

/-- Round (−1)^neg × (m + ε) × 2^e once to a format (04 R74), where ε lies in (0, 1) if sticky and is 0 otherwise. -/
def fpRound (t : FpFmt) (mode : RMode) (neg : Bool) (m : Nat) (e : Int) (sticky : Bool) : Nat × FpFlags :=
  if m = 0 && !sticky then (signCode t neg 0, fNone)
  else
    let emin : Int := 1 - t.bias - t.fb
    let top : Int := e + (Nat.log2 m : Int) - t.fb
    let q : Int := if top < emin then emin else top
    let k : Int := q - e
    let kept := if k ≤ 0 then m <<< (-k).toNat else m >>> k.toNat
    let rem := if k ≤ 0 then 0 else m % 2 ^ k.toNat
    let half := if k ≤ 0 then 0 else 2 ^ (k.toNat - 1)
    let inexact := decide (rem ≠ 0) || sticky
    let up := roundsUp mode neg (decide (kept % 2 = 1)) rem half sticky
    let mag := (q - emin).toNat * 2 ^ t.fb + (kept + bit01 up)
    if mag > t.maxFinite then
      match t.infCode with
      | some c => (signCode t neg c, fOverflow)
      | none => (signCode t neg t.maxFinite, fOverflow)
    else
      (signCode t neg mag,
        flagIf inexact fInexact ||| flagIf (inexact && decide (mag ≠ 0 ∧ mag < 2 ^ t.fb)) fUnderflow)

/-- The code of a value, rounded once to nearest even (04 R74, R75). -/
def fpEncode (t : FpFmt) (x : Fp) : Nat × FpFlags :=
  match x with
  | .nan => (t.nanCode, fNone)
  | .inf neg =>
    match t.infCode with
    | some c => (signCode t neg c, fNone)
    | none => (t.nanCode, fInvalid)
  | .fin neg m e => fpRound t .even neg m e false

/-- The negated value. -/
def Fp.neg (x : Fp) : Fp :=
  match x with
  | .nan => .nan
  | .inf n => .inf (!n)
  | .fin n m e => .fin (!n) m e

/-- Whether a value is a zero. -/
def Fp.isZero (x : Fp) : Bool :=
  match x with
  | .fin _ m _ => decide (m = 0)
  | _ => false

/-- The exact product and whether it is inf × 0 (04 R76). -/
def fpMul (a b : Fp) : Fp × Bool :=
  match a, b with
  | .nan, _ => (.nan, false)
  | _, .nan => (.nan, false)
  | .inf n, .inf k => (.inf (n != k), false)
  | .inf n, .fin k m _ => if m = 0 then (.nan, true) else (.inf (n != k), false)
  | .fin n m _, .inf k => if m = 0 then (.nan, true) else (.inf (n != k), false)
  | .fin n m e, .fin k p f => (.fin (n != k) (m * p) (e + f), false)

/-- The signed integer of a finite value in units of 2^u, for u at most its exponent. -/
def Fp.scaled (u : Int) (x : Fp) : Int :=
  match x with
  | .fin n m e => if n then -((m <<< (e - u).toNat : Nat) : Int) else ((m <<< (e - u).toNat : Nat) : Int)
  | _ => 0

/-- The exponent of a finite value, or a default. -/
def Fp.exp (x : Fp) (d : Int) : Int :=
  match x with
  | .fin _ _ e => e
  | _ => d

/-- The least exponent of the terms. -/
def minExp (ts : List Fp) : Int :=
  match ts with
  | [] => 0
  | t :: rest => rest.foldl (fun u x => if x.exp u < u then x.exp u else u) (t.exp 0)

/-- Whether a term is an infinity of a sign. -/
def Fp.isInf (neg : Bool) (x : Fp) : Bool := decide (x = .inf neg)

/-- The exact sum of terms and whether +inf and −inf met (04 R74, R76, R78, R84). A zero sum is −0 only if every term is a
zero with a negative sign. -/
def fpSum (ts : List Fp) : Fp × Bool :=
  let pos := ts.any (Fp.isInf false)
  let neg := ts.any (Fp.isInf true)
  if pos && neg then (.nan, true)
  else if ts.any (fun t => decide (t = .nan)) then (.nan, false)
  else if pos then (.inf false, false)
  else if neg then (.inf true, false)
  else
    let u := minExp ts
    let v := ts.foldl (fun acc t => acc + t.scaled u) 0
    if v = 0 then
      (.fin (ts.all (fun t => t.isZero && (match t with | .fin n _ _ => n | _ => false))) 0 0, false)
    else (.fin (decide (v < 0)) v.natAbs u, false)

/-- The sum of products and addends, exact, rounded once (04 R74, R78): products that are inf × 0 raise invalid. -/
def fpDot (t : FpFmt) (addends : List Fp) (prods : List (Fp × Fp)) : Nat × FpFlags :=
  let ps := prods.map (fun p => fpMul p.1 p.2)
  let bad := ps.any (·.2)
  let r := fpSum (addends ++ ps.map (·.1))
  if bad || r.2 then (t.nanCode, fInvalid) else fpEncode t r.1

/-- FADD on one element (04 R74, 16 R328). -/
def fpAdd (t : FpFmt) (a b : Nat) : Nat × FpFlags := fpDot t [fpDecode t a, fpDecode t b] []

/-- FSUB on one element. -/
def fpSub (t : FpFmt) (a b : Nat) : Nat × FpFlags := fpDot t [fpDecode t a, (fpDecode t b).neg] []

/-- FMUL on one element. -/
def fpMulR (t : FpFmt) (a b : Nat) : Nat × FpFlags := fpDot t [] [(fpDecode t a, fpDecode t b)]

/-- FMA on one element: c + a × b with one rounding. -/
def fpFma (t : FpFmt) (c a b : Nat) : Nat × FpFlags := fpDot t [fpDecode t c] [(fpDecode t a, fpDecode t b)]

/-- Whether a is less than b, neither being NaN, with −0 equal to +0. -/
def fpLt (a b : Fp) : Bool :=
  match a, b with
  | .nan, _ => false
  | _, .nan => false
  | .inf n, .inf k => n && !k
  | .inf n, .fin _ _ _ => n
  | .fin _ _ _, .inf k => !k
  | .fin n m e, .fin k p f =>
    let u := if e < f then e else f
    decide ((Fp.fin n m e).scaled u < (Fp.fin k p f).scaled u)

/-- Whether a and b are equal, neither being NaN, with −0 equal to +0. -/
def fpEq (a b : Fp) : Bool :=
  decide (a ≠ .nan) && decide (b ≠ .nan) && !fpLt a b && !fpLt b a

/-- Whether a value has a negative sign. -/
def Fp.isNeg (x : Fp) : Bool :=
  match x with
  | .nan => false
  | .inf n => n
  | .fin n _ _ => n

/-- Order for FMIN and FMAX, in which −0 is less than +0 (04 R75). -/
def fpBelow (a b : Fp) : Bool := fpLt a b || (fpEq a b && a.isNeg && !b.isNeg)

/-- FMIN (max = false) or FMAX on one element: the chosen operand's code (04 R75, 16 R328). -/
def fpMinMax (t : FpFmt) (isMax : Bool) (a b : Nat) : Nat :=
  let x := fpDecode t a
  let y := fpDecode t b
  match x, y with
  | .nan, .nan => t.nanCode
  | .nan, _ => b % 2 ^ t.width
  | _, .nan => a % 2 ^ t.width
  | _, _ => if (if isMax then fpBelow x y else fpBelow y x) then b % 2 ^ t.width else a % 2 ^ t.width

/-- The condition of a code of 14 R280 on two floating-point values. -/
def fpCond (cond : Nat) (a b : Fp) : Bool :=
  let un := decide (a = .nan) || decide (b = .nan)
  match cond with
  | 0 => fpEq a b
  | 1 => !fpEq a b
  | 2 => fpLt a b
  | 3 => fpLt a b || fpEq a b
  | 4 => fpLt b a
  | 5 => fpLt b a || fpEq a b
  | 6 => un
  | _ => !un

/-- Floor of the square root, over the given bit positions from high to low. -/
def isqrtFrom (ps : List Nat) (n r : Nat) : Nat :=
  match ps with
  | [] => r
  | p :: rest => if (r + 2 ^ p) * (r + 2 ^ p) ≤ n then isqrtFrom rest n (r + 2 ^ p) else isqrtFrom rest n r

/-- Floor of the square root. -/
def isqrt (n : Nat) : Nat := isqrtFrom (List.range (Nat.log2 n / 2 + 1)).reverse n 0

/-- FRCP (04 R77). -/
def fpRcp (a : Nat) : Nat × FpFlags :=
  match fpDecode f32 a with
  | .nan => (f32.nanCode, fNone)
  | .inf n => (signCode f32 n 0, fNone)
  | .fin n m e =>
    if m = 0 then (signCode f32 n 0x7F800000, fDivZero)
    else
      let k := Nat.log2 m + 40
      fpRound f32 .even n (2 ^ k / m) (-e - k) (decide (2 ^ k % m ≠ 0))

/-- FRSQ (04 R77). -/
def fpRsq (a : Nat) : Nat × FpFlags :=
  match fpDecode f32 a with
  | .nan => (f32.nanCode, fNone)
  | .inf n => if n then (f32.nanCode, fInvalid) else (0, fNone)
  | .fin n m e =>
    if m = 0 then (signCode f32 n 0x7F800000, fDivZero)
    else if n then (f32.nanCode, fInvalid)
    else
      let m' := if e % 2 = 0 then m else 2 * m
      let e' := if e % 2 = 0 then e else e - 1
      let k := Nat.log2 m' + 40
      let r := isqrt (2 ^ (2 * k) / m')
      fpRound f32 .even false r (-(e' / 2) - k) (decide (r * r * m' ≠ 2 ^ (2 * k)))

/-- 2 to the power 2^(−i), i from 1 upward, in units of 2^(−160), each by the square root of the one before. -/
def exp2Roots (n : Nat) (prev : Nat) : List Nat :=
  match n with
  | 0 => []
  | n + 1 => let r := isqrt (prev * 2 ^ 160); r :: exp2Roots n r

/-- The product of the roots that the bits of a fraction select, most significant first. -/
def exp2Prod (f : Nat) (i : Nat) (roots : List Nat) (acc : Nat) : Nat :=
  match roots with
  | [] => acc
  | r :: rest => exp2Prod f (i - 1) rest (if bitAt f (i - 1) then acc * r / 2 ^ 160 else acc)

/-- FEXP2 (04 R77). The fraction has at most 50 bits where the result is not 1.0 rounded; 160 bits of the power are
formed, and the result is inexact unless the operand is an integer (DEDUCED, log entry 20). -/
def fpExp2 (a : Nat) : Nat × FpFlags :=
  match fpDecode f32 a with
  | .nan => (f32.nanCode, fNone)
  | .inf n => if n then (0, fNone) else (0x7F800000, fNone)
  | .fin n m e =>
    if m = 0 then (0x3F800000, fNone)
    else
      let size : Int := e + (Nat.log2 m : Int)
      if size < -26 then (0x3F800000, fInexact)
      else if size ≥ 8 then (if n then (0, fInexact) else (0x7F800000, fOverflow))
      else
        let x : Int := (if n then -1 else 1) * ((m <<< (e + 50).toNat >>> (-(e + 50)).toNat : Nat) : Int)
        let whole : Int := x / 2 ^ 50
        let f : Nat := (x % 2 ^ 50).toNat
        if f = 0 then fpRound f32 .even false 1 whole false
        else fpRound f32 .even false (exp2Prod f 50 (exp2Roots 50 (2 * 2 ^ 160)) (2 ^ 160)) (whole - 160) true

/-- Fraction bits of log2 of a number in [1, 2) in units of 2^(−400), by repeated squaring. -/
def log2Bits (n : Nat) (y acc : Nat) : Nat :=
  match n with
  | 0 => acc
  | n + 1 =>
    let z := y * y / 2 ^ 400
    if z ≥ 2 * 2 ^ 400 then log2Bits n (z / 2) (2 * acc + 1) else log2Bits n z (2 * acc)

/-- FLOG2 (04 R77): 128 bits of the fraction are formed; a power of two is exact (DEDUCED, log entry 20). -/
def fpLog2 (a : Nat) : Nat × FpFlags :=
  match fpDecode f32 a with
  | .nan => (f32.nanCode, fNone)
  | .inf n => if n then (f32.nanCode, fInvalid) else (0x7F800000, fNone)
  | .fin n m e =>
    if m = 0 then (0xFF800000, fDivZero)
    else if n then (f32.nanCode, fInvalid)
    else
      let l := Nat.log2 m
      let whole : Int := e + (l : Int)
      if m = 2 ^ l then fpRound f32 .even (decide (whole < 0)) whole.natAbs 0 false
      else
        let frac := log2Bits 128 (m <<< (400 - l)) 0
        let v : Int := whole * 2 ^ 128 + frac
        if v ≥ 0 then fpRound f32 .even false v.natAbs (-128) true
        else fpRound f32 .even true (v.natAbs - 1) (-128) true

/-- A finite magnitude m × 2^e rounded to an integer, and whether it was exact. -/
def fpToInt (mode : RMode) (neg : Bool) (m : Nat) (e : Int) : Nat × Bool :=
  if e ≥ 0 then (m <<< e.toNat, true)
  else
    let k := (-e).toNat
    let kept := m >>> k
    let rem := m % 2 ^ k
    (kept + bit01 (roundsUp mode neg (decide (kept % 2 = 1)) rem (2 ^ (k - 1)) false), decide (rem = 0))

/-- FRND (04 R77): raises no flag and keeps the sign. -/
def fpRnd (mode : RMode) (a : Nat) : Nat :=
  match fpDecode f32 a with
  | .nan => f32.nanCode
  | .inf n => signCode f32 n 0x7F800000
  | .fin n m e => (fpRound f32 .even n (fpToInt mode n m e).1 0 false).1

/-- FCVTI (04 R81): the mode and whether the destination is unsigned. -/
def fpToInt32 (mode : RMode) (uns : Bool) (a : Nat) : Nat × FpFlags :=
  let lo : Int := if uns then 0 else -(2 ^ 31)
  let hi : Int := if uns then 2 ^ 32 - 1 else 2 ^ 31 - 1
  match fpDecode f32 a with
  | .nan => (0, fInvalid)
  | .inf n => (wrap 32 (if n then lo else hi), fInvalid)
  | .fin n m e =>
    let r := fpToInt mode n m e
    let v : Int := if n then -(r.1 : Int) else r.1
    if v < lo then (wrap 32 lo, fInvalid)
    else if v > hi then (wrap 32 hi, fInvalid)
    else (wrap 32 v, flagIf (!r.2) fInexact)

/-- ICVTF (04 R81). -/
def int32ToFp (mode : RMode) (uns : Bool) (a : Nat) : Nat × FpFlags :=
  let v : Int := if uns then (a : Int) else signed 32 a
  fpRound f32 mode (decide (v < 0)) v.natAbs 0 false

/-- The NQ4 codebook in units of 1/512 (04 R72). -/
def nq4Book : List Int := [-512, -356, -268, -202, -146, -95, -47, 0, 41, 83, 127, 174, 227, 290, 372, 512]

/-- The value of an NQ4 code; code 7 is +0 (04 R72, R73). -/
def nq4Decode (code : Nat) : Fp :=
  let v := nq4Book.getD (code % 16) 0
  .fin (decide (v < 0)) v.natAbs (-9)

/-- The better of two candidates by distance; the even code wins a tie (04 R80). -/
def nq4Better (x : Int) (scale : Nat) (best code : Nat) : Nat :=
  let d (c : Nat) : Nat := (x - nq4Book.getD c 0 * scale).natAbs
  if d code < d best then code else if d code = d best ∧ code % 2 = 0 then code else best

/-- Conversion of a value to NQ4 (04 R79, R80). -/
def nq4Encode (x : Fp) : Nat × FpFlags :=
  match x with
  | .nan => (7, fInvalid)
  | .inf n => (if n then 0 else 15, fInvalid)
  | .fin n m e =>
    let u : Int := if e < -9 then e else -9
    let v := (Fp.fin n m e).scaled u
    let scale := 2 ^ (-9 - u).toNat
    let best := (List.range 16).foldl (nq4Better v scale) 0
    (best, flagIf (decide (nq4Book.getD best 0 * scale ≠ v)) fInexact)

/-- The format of a code of FCVT below 5 (14 R281). -/
def cvtFmt (code : Nat) : FpFmt :=
  match code with
  | 0 => f32
  | 1 => bf16
  | 2 => f16
  | 3 => f8a
  | _ => f8b

/-- FCVT of one element (04 R79, R80; 16 R331). -/
def fpConvert (src dst : Nat) (a : Nat) : Nat × FpFlags :=
  let x := if src = 5 then nq4Decode a else fpDecode (cvtFmt src) a
  if src = dst then
    if src = 5 then (a % 16, fNone)
    else ((if x = .nan then (cvtFmt src).nanCode else a % 2 ^ (cvtFmt src).width), fNone)
  else if dst = 5 then nq4Encode x
  else fpEncode (cvtFmt dst) x

/-- FCLASS (16 R329). -/
def fpClass (a : Nat) : Nat :=
  match fpDecode f32 a with
  | .nan => 2 ^ 8
  | .inf n => if n then 1 else 2 ^ 7
  | .fin n m _ =>
    if m = 0 then (if n then 2 ^ 3 else 2 ^ 4)
    else if bits a 23 8 = 0 then (if n then 2 ^ 2 else 2 ^ 5)
    else if n then 2 ^ 1 else 2 ^ 6

/-- A scale met by a value (04 R82): the value times the scale, exact, and whether invalid is raised. -/
def scaleMeet (s x : Fp) : Fp × Bool :=
  match s, x with
  | .nan, _ => (.nan, false)
  | _, .nan => (.nan, false)
  | s, x => fpMul s x

end Sys2Proof.Machine
end

