-- ==== Sys2Proof/Config.lean ====
section
/-!
DEFINITION. The values that the manual leaves open. Each is an opaque constant: nothing in Lean can evaluate it, so a
theorem about the machine holds whatever it is (DESIGN CHOICE, log entry 3).
-/
namespace Sys2Proof.Config

/-- A byte whose value the manual calls undefined: the first argument is the epoch of the event that left it so, the
second the cell (05 R108, 08 R167, 11 R223). -/
opaque freeByte : Nat → Nat → Byte

/-- A choice the manual leaves to the Ozmos: which of several allowed values an uncached read returns (05 R104), in which
order copies combine (06 R131). The argument is a fresh number. -/
opaque choice : Nat → Nat

/-- The TLB set in which an entry of a base and size is kept, which 05 R97 does not state. -/
opaque tlbSet : Nat → Nat → Nat

/-- The peer port that an entry of the routing table names: 13 R263 gives no layout of an entry. -/
opaque routePort : BitVec 64 → Option Nat

/-- The content of bits [63:32] of the waiter word of a queue control block, undefined to programs (07 R143). -/
opaque queueWaiterWord : Nat → BitVec 32

/-- SHA3-512 measurement held by the root firmware of image number n (13 R268). -/
opaque measurement : Nat → BitVec 512

/-- SHA3-512 measurement held by the root firmware of configuration number n (13 R268). -/
opaque configMeasurement : Nat → BitVec 512

/-- The version number of firmware image n (13 R268). -/
opaque firmwareVersion : Nat → Nat

/-- The minimum security version in fuses (13 R268). -/
opaque fusedMinimum : Nat

/-- The serial number of the part (13 R268). -/
opaque serialNumber : Nat

/-- ML-DSA-87 signature under the device identity key of a report of the given number (13 R268). -/
opaque signature : Nat → List Nat → Nat

end Sys2Proof.Config
end

