-- ==== Sys2Proof/Machine/Access.lean ====
section
/-!
DEFINITION. Reading and replacing the parts of State by number: blocks, contexts, launch queues, registers by allocation
index, engines, and the fault record's bytes.
-/
namespace Sys2Proof

/-- Whether an issuer is the lead. -/
def Who.isLead (w : Who) : Bool :=
  match w with
  | .lead => true
  | .fibre _ => false

/-- Fibre id of an issuer, 0 for the lead. -/
def Who.fid (w : Who) : Nat :=
  match w with
  | .lead => 0
  | .fibre f => f

end Sys2Proof

namespace Sys2Proof.Machine

/-- The block of a number. -/
def State.block? (s : State) (bid : Nat) : Option Block := s.blocks.find? (fun b => b.bid == bid)

/-- Replace a block by its number. -/
def State.setBlock (s : State) (b : Block) : State :=
  { s with blocks := s.blocks.map (fun x => if x.bid = b.bid then b else x) }

/-- Change one block. -/
def State.modBlock (s : State) (bid : Nat) (f : Block → Block) : State :=
  { s with blocks := s.blocks.map (fun x => if x.bid = bid then f x else x) }

/-- The context of a fibre or of the lead of a block. -/
def Block.ctx? (b : Block) (who : Who) : Option Ctx :=
  match who with
  | .lead => some b.body.lead
  | .fibre f => aget b.body.fibres f

/-- Change the body of a block. -/
def Block.modBody (b : Block) (f : BlockBody → BlockBody) : Block := { b with body := f b.body }

/-- Replace the context of a fibre or of the lead. -/
def Block.setCtx (b : Block) (who : Who) (c : Ctx) : Block :=
  match who with
  | .lead => { b with body := { b.body with lead := c } }
  | .fibre f => { b with body := { b.body with fibres := aput b.body.fibres f c } }

/-- Change the context of a fibre or of the lead, if it exists. -/
def Block.modCtx (b : Block) (who : Who) (f : Ctx → Ctx) : Block :=
  match b.ctx? who with
  | none => b
  | some c => b.setCtx who (f c)

/-- The context of an issuer. -/
def State.ctx? (s : State) (bid : Nat) (who : Who) : Option Ctx :=
  match s.block? bid with
  | none => none
  | some b => b.ctx? who

/-- Change the context of an issuer. -/
def State.modCtx (s : State) (bid : Nat) (who : Who) (f : Ctx → Ctx) : State :=
  s.modBlock bid (fun b => b.modCtx who f)

/-- Every issuer of a block that has a context: its fibres, then its lead. -/
def Block.whos (b : Block) : List Who := b.body.fibres.map (fun e => Who.fibre e.1) ++ [Who.lead]

/-- Change every context of a block. -/
def Block.mapCtx (b : Block) (f : Who → Ctx → Ctx) : Block :=
  { b with body := { b.body with
      fibres := b.body.fibres.map (fun e => (e.1, f (.fibre e.1) e.2)), lead := f .lead b.body.lead } }

/-- The register value of a list of cells, cell 0 lowest (03 R54, R56). -/
def Ctx.cellsValue (c : Ctx) (cells : List Nat) : Nat :=
  cells.foldr (fun i acc => (sget 0 c.regs i).toNat + 2 ^ 32 * acc) 0

/-- Write words to register cells in order. -/
def writeCells (regs : WordMap) (cells : List Nat) (ws : List Word) : WordMap :=
  match cells, ws with
  | i :: is, w :: rest => writeCells (sput 0 regs i w) is rest
  | _, _ => regs

/-- Write words to cells and mark their full/empty bits full (03 R58). -/
def Ctx.writeReg (c : Ctx) (cells fullBits : List Nat) (ws : List Word) : Ctx :=
  { c with regs := writeCells c.regs cells ws, empties := c.empties.filter (fun b => !fullBits.contains b) }

/-- Mark bits empty (03 R57, R58). -/
def Ctx.markEmpty (c : Ctx) (bs : List Nat) : Ctx := { c with empties := bs.foldl sins c.empties }

/-- The n little-endian 32-bit words of a number. -/
def wordsOfNat (n x : Nat) : List Word :=
  match n with
  | 0 => []
  | n + 1 => BitVec.ofNat 32 x :: wordsOfNat n (x / 2 ^ 32)

/-- Predicate p(n) of a context. -/
def Ctx.pred (c : Ctx) (n : Nat) : Bool := c.preds.getLsbD n

/-- A predicate word with p(n) set to a value. -/
def setPred (p : BitVec 16) (n : Nat) (v : Bool) : BitVec 16 :=
  if v then p ||| (1#16 <<< n) else p &&& ~~~(1#16 <<< n)

/-- Outstanding-operation counter k (06 R135). -/
def Ctx.counter (c : Ctx) (k : Nat) : Nat :=
  match k with
  | 0 => c.cnt0
  | 1 => c.cnt1
  | 2 => c.cnt2
  | _ => c.cnt3

/-- Set outstanding-operation counter k. -/
def Ctx.setCounter (c : Ctx) (k v : Nat) : Ctx :=
  match k with
  | 0 => { c with cnt0 := v }
  | 1 => { c with cnt1 := v }
  | 2 => { c with cnt2 := v }
  | _ => { c with cnt3 := v }

/-- A launch queue's registers (10 R195). -/
def State.lq (s : State) (n : Nat) : LaunchQueue := (aget s.dean.queues n).getD LaunchQueue.reset

/-- Replace a launch queue's registers. -/
def State.setLq (s : State) (n : Nat) (q : LaunchQueue) : State :=
  { s with dean := { s.dean with queues := aput s.dean.queues n q } }

/-- The launch of an id. -/
def State.launch? (s : State) (lid : Nat) : Option Launch := s.launches.find? (fun l => l.params.lid == lid)

/-- Change one launch. -/
def State.modLaunch (s : State) (lid : Nat) (f : Launch → Launch) : State :=
  { s with launches := s.launches.map (fun l => if l.params.lid = lid then f l else l) }

/-- The engine operation of a number. -/
def State.op? (s : State) (oid : Nat) : Option EngOp := s.ops.find? (fun o => o.oid == oid)

/-- Change one engine operation. -/
def State.modOp (s : State) (oid : Nat) (f : EngOp → EngOp) : State :=
  { s with ops := s.ops.map (fun o => if o.oid = oid then f o else o) }

/-- Remove an engine operation. -/
def State.dropOp (s : State) (oid : Nat) : State := { s with ops := s.ops.filter (fun o => o.oid != oid) }

/-- Stack of a core (01 R8). -/
def stackOf (core : Nat) : Nat := core / 4

/-- Ridge stop of a stack (01 R10); stack numbers 32 and 33 stand for I/O dies 0 and 1. -/
def stopOf (stack : Nat) : Nat :=
  if stack < 16 then stack + 1 else if stack < 32 then stack + 2 else if stack = 32 then 0 else 17

/-- Time of one core cycle, in sixths of a nanosecond: 1.5 GHz (01 R18). -/
def cycleTime : Nat := 4

/-- Time of n nanoseconds. -/
def nsTime (n : Nat) : Nat := 6 * n

/-- The core cycle counter (14 R282): cycles since reset. -/
def State.cycle (s : State) : Nat := s.time / cycleTime

/-- The code number of a trap (11 R214). -/
def TrapCode.num (c : TrapCode) : Nat :=
  match c with
  | .illop => 0x01 | .illopd => 0x02 | .priv => 0x03 | .emptyt => 0x04 | .xlate => 0x05 | .perm => 0x06
  | .fmtmis => 0x07 | .poison => 0x08 | .qcorrupt => 0x09 | .qbroken => 0x0A | .barerr => 0x0B | .watch => 0x0C
  | .sigmis => 0x0D | .remote => 0x0E | .decomp => 0x0F | .trap => 0x10

/-- The block handle: launch id and block linear index (11 R215). -/
def blockHandle (lid blk : Nat) : Nat := lid % 2 ^ 16 * 2 ^ 48 + blk % 2 ^ 24 * 2 ^ 24

/-- The fibre handle: bytes +0 to +7 of a fault record (11 R215). -/
def fibreHandle (lid blk : Nat) (who : Who) : Nat := blockHandle lid blk + who.fid % 2 ^ 10 * 2 ^ 14

/-- The 32 bytes of a fault record (11 R215). -/
def FaultRec.encode (r : FaultRec) : List Byte :=
  toBytes 8 (fibreHandle r.lid r.blk r.who) ++ toBytes 8 r.pc.toNat ++ toBytes 8 r.addr.toNat ++
    toBytes 8 (r.image % 2 ^ 26 * 2 ^ 38 + bit01 r.trunc * 2 ^ 37 + bit01 r.cont * 2 ^ 36 + bit01 r.eng * 2 ^ 35 +
      bit01 r.who.isLead * 2 ^ 34 + bit01 r.replay * 2 ^ 33 + r.detail % 2 ^ 24 * 2 ^ 8 + r.code.num)

/-- A fresh number, for identities and free values. -/
def State.tick1 (s : State) : State := { s with fresh := s.fresh + 1 }

/-- A trap without detail or address. (DEDUCED, log entry 50.) -/
def Trap.plain (c : TrapCode) : Trap := { code := c, detail := 0, addr := 0 }

/-- The fault record of a trap of an issuer of a block (11 R215). -/
def Block.faultRec (b : Block) (who : Who) (pc : DWord) (t : Trap) (eng : Bool) : FaultRec :=
  { lid := b.params.lid, blk := b.index, who := who, pc := pc, addr := t.addr, image := 0, trunc := false, cont := false,
    eng := eng, replay := false, detail := t.detail, code := t.code }

/-- Whether a block is resident and may run: on a core, not being saved, not stopped (11 R217, R221). -/
def Block.running (b : Block) : Bool :=
  b.core.isSome && b.primary.isNone && b.saveReq.isNone && b.saved.isNone

/-- Whether a fibre of a block counts for row collectives and the uniform queue: neither ending nor ended (02 R31). -/
def Ctx.isLive (c : Ctx) : Bool := decide (c.life = .live)

/-- Ids of the fibres of a block that are neither ending nor ended. -/
def Block.liveFibres (b : Block) : List (Nat × Ctx) := b.body.fibres.filter (fun e => e.2.isLive)

/-- A new context at a PC: the creation state of 02 R20 and R45. -/
def Ctx.new (pc : DWord) (uq now : Nat) : Ctx :=
  { life := .live, pc := pc, preds := 0, wb := 0, regs := [], empties := [], fps := 0,
    rep := { active := false, count := 0, index := 0, sd := 0, sa := 0, sb := 0 },
    cnt0 := 0, cnt1 := 0, cnt2 := 0, cnt3 := 0, uqPos := uq, latch := 0, producers := [], wait := none,
    phase := { release := .none, compare := .none, answer := .none, sealing := .none }, arrival := none, parked := none,
    heldBits := [], slots := none, counted := false,
    halt := { halted := false, slot := 0, skid := 0, left := none, limit := 0, exempt := false, again := false, stepper := none },
    crc := 0, readySince := now }

/-- No progress of a multi-step instruction. -/
def Phase.idle : Phase := { release := .none, compare := .none, answer := .none, sealing := .none }

/-- Repeat state at rest (02 R20). -/
def Rep.idle : Rep := { active := false, count := 0, index := 0, sd := 0, sa := 0, sb := 0 }

end Sys2Proof.Machine
end

