-- ==== Sys2Proof/Machine/Remote.lean ====
section
/-!
DEFINITION. What every unit of the package does toward other devices (05 R89; 13 R262 to R265): the peer-link ports and routes, the
requests that this package makes and awaits, the answers it gives.
-/
namespace Sys2Proof

/-- The bytes that a request of an engine's unit has written once it is acknowledged (08 R169): a unit that a poisoned source reaches is
written as poison; the one that only sets tags writes none. -/
def RemoteKind.wrote (k : RemoteKind) : Nat :=
  match k with
  | .write n bytes poison _ => if poison then n else bytes.length
  | .red .. => 4
  | _ => 0

/-- The kinds of request that carry a sequence number and are applied once (13 R264): tagged accesses too, which the rule does not
name. (DESIGN CHOICE, log entry 55.) -/
def RemoteKind.sequenced (k : RemoteKind) : Bool :=
  match k with
  | .atom .. => true
  | .acas .. => true
  | .red .. => true
  | .enq .. => true
  | .deq .. => true
  | .qinit .. => true
  | .qstat => true
  | .ldt .. => true
  | .stt .. => true
  | _ => false

/-- Whether a request may wait at its home for as long as nothing changes there (07 R150, R151, R157). -/
def RemoteKind.waits (k : RemoteKind) : Bool :=
  match k with
  | .enq _ try_ => !try_
  | .deq _ try_ => !try_
  | .ldt .. => true
  | .stt .. => true
  | _ => false

/-- Whether the answer to a request says that it was withdrawn with no effect (07 R154, R157). (DESIGN CHOICE, log entry 55.) -/
def RemoteKind.withdrawn (k : RemoteKind) (bs : List Byte) : Bool :=
  match k with
  | .enq _ try_ => !try_ && !bs.isEmpty
  | .deq _ try_ => !try_ && decide (Machine.ofBytes (bs.take 4) = 0)
  | .ldt .. => bs.isEmpty
  | .stt .. => !bs.isEmpty
  | _ => false

end Sys2Proof

namespace Sys2Proof.Machine

/-- Whether a physical address names another device (05 R89). -/
def State.away (s : State) (pa : Nat) : Bool := decide (pa / 2 ^ 42 ≠ s.device)

/-- Change the peer layer. -/
def State.modPeers (s : State) (f : Peers → Peers) : State := { s with peers := f s.peers }

/-- A peer-link port. -/
def Peers.port (p : Peers) (n : Nat) : PeerPort := (aget p.ports n).getD PeerPort.reset

/-- Replace a peer-link port. -/
def Peers.setPort (p : Peers) (n : Nat) (x : PeerPort) : Peers := { p with ports := aput p.ports n x }

/-- The ports by which the routing table reaches a device, in the order of its entries, whose links are up (13 R263). -/
def Peers.routesTo (p : Peers) (device : Nat) : List Nat :=
  (List.range 4).filterMap (fun k => match (aget p.routes (device * 4 + k)).bind Config.routePort with
    | some n => if n < 32 && (p.port n).up then some n else none
    | none => none)

/-- The other devices that the routing table names: the members of the pod that this package knows. -/
def State.members (s : State) : List Nat :=
  (s.peers.routes.foldl (fun acc r => sins acc (r.1 / 4)) []).filter (· != s.device)

/-- The I/O die of a peer port, as a stack number of the Ridge and as the number under which its requests access memory (01 R9). -/
def portDie (port : Nat) : Nat := if port < 16 then 32 else 33

/-- The Ridge stop from which requests for a device leave the package. -/
def State.linkStop (s : State) (device : Nat) : Nat :=
  match s.peers.routesTo device with
  | n :: _ => stopOf (portDie n)
  | [] => stopOf 32

/-- Ask another device for something (13 R264). The request takes the next sequence number toward its target if its kind takes one,
and waits to be sent; a target that is marked dead answers none (13 R265). -/
def State.remoteSend (s : State) (pa : Nat) (kind : RemoteKind) (use : RemoteUse) (owner : Option (Nat × Who × DWord))
    (va : DWord) : State :=
  let t := pa / 2 ^ 42
  let n := sget 0 s.peers.seqs t
  let o : RemoteOp := { rid := s.fresh, target := t, seq := if kind.sequenced then some n else none, addr := pa % 2 ^ 42,
                        kind := kind, use := use, owner := owner, va := va, sent := none, resends := 0,
                        doomed := s.peers.dead.contains t }
  ({ s with fresh := s.fresh + 1 } : State).modPeers (fun p =>
    { p with outstanding := p.outstanding ++ [o],
             seqs := if kind.sequenced then sput 0 p.seqs t ((n + 1) % 2 ^ 32) else p.seqs })

/-- Put a message into the port of a route to a device; without a route it is lost. -/
def State.peerSend (s : State) (device k : Nat) (m : PeerMsg) : State :=
  let rs := s.peers.routesTo device
  match rs[k % rs.length]? with
  | none => s
  | some n => s.modPeers (fun p => p.setPort n { p.port n with waiting := (p.port n).waiting ++ [(device, m)] })

/-- Answer a request of another device with a status and bytes: 0 done, 1 error, 2 poisoned data, 3 still under way, 4 a
failed check of a queue. -/
def State.reply (s : State) (source number : Nat) (sequenced : Bool) (status : Nat) (bs : List Byte) : State :=
  (s.modPeers (fun p => { p with responses := p.responses ++ [(source, number, BitVec.ofNat 8 status :: bs)] })).peerSend
    source 0 (.response sequenced number status bs)

/-- Whether a request is a write, an atomic among them, a fence or a line's upkeep, whose acknowledgement a release waits for (06
R123). -/
def RemoteUse.acknowledged (u : RemoteUse) : Bool :=
  match u with
  | .store => true
  | .ack => true
  | .red .. => true
  | .atom _ => true
  | _ => false

/-- Whether acknowledgements are still to come of requests made before number upto (06 R123): those of every block, among which are all
whose writes happen before a release. (DESIGN CHOICE, log entry 55.) -/
def State.unacknowledged (s : State) (upto : Nat) : Bool :=
  s.peers.outstanding.any (fun o => o.use.acknowledged && decide (o.rid < upto))

/-- Ask another device to withdraw a request that may wait there, unless that has been asked (07 R154, R157). -/
def State.cancelOp (s : State) (o : RemoteOp) : State :=
  match o.seq with
  | none => s
  | some n =>
    if !o.kind.waits || s.peers.outstanding.any (fun x => decide (x.use = .cancel o.rid)) then s
    else s.remoteSend (o.target * 2 ^ 42 + o.addr) (.cancel n) (.cancel o.rid) none 0

/-- Whether a request is an issuer's of a block, or of one of its engine operations. -/
def State.ofBlockAbroad (s : State) (bid : Nat) (o : RemoteOp) : Bool :=
  decide (o.owner.map (·.1) = some bid) || match o.use with
    | .queue q => match q.from_ with
      | .engine k => s.ops.any (fun x => x.oid == k && x.bid == bid)
      | .trigger k => s.ops.any (fun x => x.oid == k && x.bid == bid)
      | _ => false
    | _ => false

/-- Ask other devices to withdraw what a block's instructions and engine operations wait for there. -/
def State.cancelAbroad (s : State) (bid : Nat) : State :=
  (s.peers.outstanding.filter (s.ofBlockAbroad bid)).foldl (fun t o => t.cancelOp o) s

/-- Whether an answer of another device is still to come to an issuer of a block, or to the queue operation of one of its engine
operations (13 R264; 07 R155; 08 R173); of what may wait at its home only where that counts too. -/
def State.awaitsAbroad (s : State) (bid : Nat) (stays : Bool) : Bool :=
  s.peers.outstanding.any (fun o => s.ofBlockAbroad bid o && !(stays && o.kind.waits) && match o.use with
    | .answer .. => true
    | .queue _ => true
    | _ => false)

/-- Withdraw the loads of a block that a proctor match holds and whose bytes other devices send (03 R61): nobody awaits these now. -/
def State.dropLoading (s : State) (bid : Nat) : State :=
  s.modPeers (fun p => { p with outstanding := p.outstanding.filter (fun o =>
    !(decide (o.owner.map (·.1) = some bid) && match o.use with
      | .held _ => true
      | _ => false)) })

/-- Whether a request writes, so that it goes on when its block does not await it any more. -/
def RemoteUse.writes (u : RemoteUse) : Bool :=
  match u with
  | .unitWrite _ => true
  | _ => u.acknowledged

/-- Forget the requests of a block whose answers nobody awaits any more, and have those withdrawn that may wait; its writes stay on
their way. -/
def State.dropAbroad (s : State) (bid : Nat) : State :=
  (s.cancelAbroad bid).modPeers (fun p => { p with outstanding := p.outstanding.filter (fun o =>
    !(decide (o.owner.map (·.1) = some bid)) || o.use.writes) })

/-- Whether writes that this package made before number upto are still on their way to other devices, or operations that it has asked
these to withdraw (06 R140). -/
def State.undrained (s : State) (upto : Nat) : Bool :=
  s.peers.outstanding.any (fun o => decide (o.rid < upto) && (o.use.writes || match o.use with
    | .cancel _ => true
    | _ => false))

/-- Whether an engine operation has written units to other devices that are not acknowledged. -/
def State.writesAbroad (s : State) (oid : Nat) : Bool :=
  s.peers.outstanding.any (fun o => decide (o.use = .unitWrite oid))

/-- Bytes by their offset. -/
def offsetBytes (bs : List Byte) : List (Nat × Byte) := (List.range bs.length).map (fun i => (i, bs.getD i 0))

end Sys2Proof.Machine
end

