-- ==== Sys2Proof/Machine/Memory.lean ====
section
/-!
DEFINITION. Memory: the address mapping (05 R105 to R110), DRAM cells, homes, L1 lines (05 R102, R103; 07 R161), page tables
and translation (05 R91 to R101), and the reading and writing of bytes through them.

A home holds its DRAM and its stack cache in units of 64 bytes. An access that finds no stack-cache copy acts on DRAM
directly; PREF makes a copy (DEDUCED, log entry 6).
-/
namespace Sys2Proof.Machine

/-- A mapping region's registers (05 R107). -/
def State.region (s : State) (n : Nat) : Region := (aget s.amap n).getD (Region.reset n)

/-- Replace a region's registers. -/
def State.setRegion (s : State) (n : Nat) (r : Region) : State := { s with amap := aput s.amap n r }

/-- Whether a commit of a mapping region is under way (05 R108). -/
def State.amapBusy (s : State) : Bool := s.amap.any (fun e => e.2.status == 3)

/-- Whether a unit of 64 bytes is named by an address inside a mapping's extent. -/
def Mapping.names (m : Mapping) (unit : Nat) : Bool :=
  match gfSolve m.masks unit with
  | none => false
  | some x => decide (m.base ≤ x * 64 / 2 ^ 21) && decide (x * 64 / 2 ^ 21 < m.limit)

/-- Whether a commit under way holds new accesses to a unit: it lies in the old or the new extent of the region (05 R108). -/
def State.heldUnit (s : State) (unit : Nat) : Bool :=
  s.amap.any (fun e => e.2.status == 3 &&
    (e.2.active.names unit || ({ e.2.staged with masks := e.2.checked } : Mapping).names unit))

/-- Whether a step from one state to another has asked a home for a unit that a commit holds: the requests that it noted say
which units it asked for (05 R108, R112). The step that finishes the commit is not held. -/
def State.reaches (s t : State) : Bool :=
  s.amapBusy && t.channels.any (fun c => c.2.reqs.any (fun r =>
    decide (s.fresh ≤ r.did) && s.heldUnit r.cell && t.heldUnit r.cell))

/-- The active mappings by region number. -/
def State.maps (s : State) : List (Nat × Mapping) := (List.range 8).map (fun n => (n, (s.region n).active))

/-- Whether an enabled mapping contains a canonical address (05 R106). -/
def Mapping.holds (m : Mapping) (a : Nat) : Bool :=
  m.en && decide (m.base ≤ a / 2 ^ 21) && decide (a / 2 ^ 21 < m.limit)

/-- The region of a canonical address: the enabled one of lowest number (05 R106). -/
def regionOf (maps : List (Nat × Mapping)) (a : Nat) : Option (Nat × Mapping) := maps.find? (fun e => e.2.holds a)

/-- The DRAM byte that a canonical address names: 64 × y plus the byte (05 R105). -/
def canonCell (maps : List (Nat × Mapping)) (a : Nat) : Option Nat :=
  match regionOf maps a with
  | none => none
  | some e => some (gfApply e.2.masks (bits a 6 35) * 64 + a % 64)

/-- DRAM coordinates y of an offset in aperture kind 0 row-major, 1 tile-swizzled, 2 bank-private, window w (05 R110). -/
def apertureY (kind w o : Nat) : Nat :=
  let stack := 8 * w + bits o 36 3
  let row := if kind = 2 then bits o 11 15 else bits o 21 15
  let ch := if kind = 2 then bits o 31 5 else bits o 16 5
  let pc := if kind = 2 then bits o 30 1 else bits o 15 1
  let bg := if kind = 2 then bits o 28 2 else bits o 13 2
  let bank := if kind = 2 then bits o 26 2 else bits o 11 2
  let col := if kind = 1 then bits o 6 5 ^^^ bits o 21 5 else bits o 6 5
  col + row * 2 ^ 5 + bank * 2 ^ 20 + bg * 2 ^ 22 + pc * 2 ^ 24 + ch * 2 ^ 25 + stack * 2 ^ 30

/-- The DRAM byte of an offset in an aperture, which only region 0 governs (05 R110). -/
def State.apertureCell (s : State) (kind o : Nat) : Option Nat :=
  let m := (s.region 0).active
  let y := apertureY kind (bits s.apwin (2 * kind) 2) o
  match gfSolve m.masks y with
  | none => none
  | some x => if m.holds (x * 64) then some (y * 64 + o % 64) else none

/-- The DRAM byte of a local address, or none where the access gets an error response (05 R90, R106, R110). -/
def State.localCell (s : State) (l : Nat) : Option Nat :=
  if l < 2 ^ 41 then canonCell s.maps l
  else
    let kind := (l - 2 ^ 41) / 2 ^ 39
    if kind < 3 then s.apertureCell kind ((l - 2 ^ 41) % 2 ^ 39) else none

/-- The DRAM byte of a physical address of this package (05 R89). -/
def State.paCell (s : State) (pa : Nat) : Option Nat :=
  if pa / 2 ^ 42 = s.device then s.localCell (pa % 2 ^ 42) else none

/-- Split n bytes from an address at multiples of 64: the address and length of each part. -/
def chunksFrom (fuel a n : Nat) : List (Nat × Nat) :=
  match fuel with
  | 0 => []
  | fuel + 1 =>
    if n = 0 then []
    else
      let k := 64 - a % 64
      if n ≤ k then [(a, n)] else (a, k) :: chunksFrom fuel (a + k) (n - k)

/-- Split n bytes from an address at multiples of 64. -/
def chunks (a n : Nat) : List (Nat × Nat) := chunksFrom (n / 64 + 2) a n

/-- The cells of n bytes from a physical address: the first cell and length of each part, or none if any part has no cell. -/
def State.cellsOf (s : State) (pa n : Nat) : Option (List (Nat × Nat)) :=
  (chunks pa n).foldr (fun p acc =>
    match acc, s.paCell p.1 with
    | some l, some c => some ((c, p.2) :: l)
    | _, _ => none) (some [])

/-- Whether an address names a cell since a commit of the mappings, by the mapping r, and whether it did so before (05 R108). -/
def cellMoved (old new : List (Nat × Mapping)) (c : Nat) (r : Nat × Mapping) : Option Bool :=
  match gfSolve r.2.masks (c / 64) with
  | none => none
  | some x =>
    let a := x * 64 + c % 64
    if (regionOf new a).map (·.1) = some r.1 then some (decide (canonCell old a ≠ some c)) else none

/-- Whether the bytes of a cell are undefined since an event (05 R108, 08 R167, 11 R223). After a commit they are where an address has
come to name the cell and none names it as before; where another address still names it, the cell keeps the value that it has there,
which the address that has come shows too. (DESIGN CHOICE, log entry 49.) -/
def Extent.covers (e : Extent) (c : Nat) : Bool :=
  (match e.remap with
    | none => decide (e.lo ≤ c ∧ c < e.hi)
    | some (old, new) =>
      let moves := new.filterMap (cellMoved old new c)
      moves.contains true && !moves.contains false) &&
    !e.written.contains c

/-- The byte that DRAM holds at a cell: a free value where it is undefined. (DESIGN CHOICE, log entry 49.) -/
def State.dramByte (s : State) (c : Nat) : Byte :=
  match s.blur.find? (fun e => e.covers c) with
  | some e => Config.freeByte e.epoch c
  | none => sget 0 s.mem c

/-- Write one byte of DRAM. -/
def State.dramPut (s : State) (c : Nat) (b : Byte) : State :=
  { s with mem := sput 0 s.mem c b,
           blur := s.blur.map (fun e => if e.covers c then { e with written := c :: e.written } else e) }

/-- Write bytes of DRAM. -/
def State.dramWrite (s : State) (c : Nat) (bs : List Byte) : State :=
  match bs with
  | [] => s
  | b :: rest => (s.dramPut c b).dramWrite (c + 1) rest

/-- The stack-cache copy of a unit of 64 bytes, if any (05 R103). -/
def State.scFind (s : State) (unit : Nat) : Option Line := s.scache.find? (fun l => l.tag == unit)

/-- The byte that the home holds at a cell: its stack cache's copy, else DRAM's. -/
def State.homeByte (s : State) (c : Nat) : Byte :=
  match s.scFind (c / 64) with
  | some l => sget 0 l.bytes (c % 64)
  | none => s.dramByte c

/-- The bytes that the home holds from a cell upward, within one unit. -/
def State.homeBytes (s : State) (c n : Nat) : List Byte := (span c n).map s.homeByte

/-- Replace a stack-cache copy. -/
def State.scPut (s : State) (l : Line) : State :=
  { s with scache := l :: s.scache.filter (fun x => x.tag != l.tag) }

/-- The memory-side cache slice of a channel takes in a unit on its way to or from DRAM (01 R17; 05 R103): 512 KiB of units of
64 bytes, the latest first. It is written through, so it holds tags alone. (DESIGN CHOICE, log entry 52.) -/
def State.msideTouch (s : State) (unit : Nat) : State :=
  let n := bits unit 25 10
  let tags := (aget s.mside n).getD []
  { s with mside := aput s.mside n ((unit :: tags.filter (· != unit)).take 8192) }

/-- The memory-side cache loses a unit (05 R108, R118). -/
def State.msideDrop (s : State) (unit : Nat) : State :=
  let n := bits unit 25 10
  match aget s.mside n with
  | none => s
  | some tags => { s with mside := aput s.mside n (tags.filter (· != unit)) }

/-- Queue a request at the controller of a unit's channel (05 R112), of a read for the core whose L1 takes the data. -/
def State.noteDram (s : State) (unit : Nat) (cls : DramClass) (reading : Bool := false) (reader : Option Nat := none) : State :=
  let chn := bits unit 25 10
  let ch := (aget s.channels chn).getD Channel.reset
  let req : DramReq := { did := s.fresh, cell := unit, reading := reading, reader := reader, lands := [], cls := cls, arrival := s.time,
                         latest := s.time + nsTime ch.dlbudget, urgent := false }
  { s with channels := aput s.channels chn { ch with reqs := ch.reqs ++ [req] }, fresh := s.fresh + 1 }

/-- Write back the dirty bytes of a stack-cache copy to DRAM; the copy stays, clean (15 R310). -/
def State.scClean (s : State) (l : Line) : State :=
  let s1 := (List.range 64).foldl
    (fun t i => if bitAt l.dirty i then t.dramPut (l.tag * 64 + i) (sget 0 l.bytes i) else t) s
  let s2 := if l.dirty = 0 then s1 else (s1.noteDram l.tag .normal).msideTouch l.tag
  s2.scPut { l with dirty := 0 }

/-- Write back and drop a stack-cache copy. -/
def State.scDrop (s : State) (l : Line) : State :=
  let s1 := s.scClean l
  { s1 with scache := s1.scache.filter (fun x => x.tag != l.tag) }

/-- Room for a copy in the 48 MiB stack cache of a unit's stack (01 R17): the copy made first goes. Which one goes is the
model's choice. (DESIGN CHOICE, log entry 52.) -/
def State.scRoom (s : State) (unit : Nat) : State :=
  let mine := s.scache.filter (fun l => bits l.tag 30 5 == bits unit 30 5)
  if mine.length < 786432 then s
  else
    match mine.getLast? with
    | none => s
    | some l => s.scDrop l

/-- Make a stack-cache copy of a unit (17 R368), read through the memory-side cache (05 R103). -/
def State.scFill (s : State) (unit : Nat) : State :=
  match s.scFind unit with
  | some _ => s
  | none =>
    let s1 := ((s.scRoom unit).noteDram unit .normal).msideTouch unit
    s1.scPut { core := 0, tag := unit, bytes := writeSparse [] 0 ((span (unit * 64) 64).map s1.dramByte),
               valid := maskOf 0 64, dirty := 0, poison := 0, red := none, gathered := [] }

/-- The sectors of 32 bytes that n bytes from an address touch. -/
def sectors (a n : Nat) : List Nat := if n = 0 then [] else span (a / 32) ((a + n - 1) / 32 - a / 32 + 1)

/-- The poison origin of the first poisoned sector among n cells (05 R117). -/
def State.poisonIn (s : State) (c n : Nat) : Option Nat :=
  (sectors c n).foldl (fun acc k => match acc with
    | some o => some o
    | none => aget s.poison k) none

/-- Clear the poison of the sectors that a write covers wholly (05 R117). -/
def State.clearPoison (s : State) (c n : Nat) : State :=
  { s with poison := s.poison.filter (fun e => !(decide (c ≤ e.1 * 32) && decide (e.1 * 32 + 32 ≤ c + n))) }

/-- Poison the sectors of n cells with an origin, unless they are poisoned already. -/
def State.addPoison (s : State) (c n origin : Nat) : State :=
  { s with poison := (sectors c n).foldl (fun p k => match aget p k with
      | some _ => p
      | none => aput p k origin) s.poison }

/-- Write bytes at a home, within one unit: to the stack-cache copy if there is one, else to DRAM. -/
def State.homeWrite (s : State) (c : Nat) (bs : List Byte) : State :=
  let s1 := match s.scFind (c / 64) with
    | some l => s.scPut { l with bytes := writeSparse l.bytes (c % 64) bs, dirty := l.dirty ||| maskOf (c % 64) bs.length }
    | none => s.dramWrite c bs
  s1.clearPoison c bs.length

/-- Send a message over the Ridge (01 R11); a message to its own stop never enters the ring. It names the sectors whose data it
carries, if any, for the request of the channel controllers that was noted last, and the core whose L1 takes them. -/
def State.ridgeSend (s : State) (rc : RidgeClass) (src dst : Nat) (data : List Nat) (reader : Option Nat := none) : State :=
  if src = dst then s
  else { s with ridge := s.ridge ++ [{ cls := rc, src := src, dst := dst, since := s.time, entered := none, reserved := false,
                                       data := data, req := s.fresh - 1, reader := reader, lands := [] }] }

/-- Ridge stop of the stack that a cell lies in (01 R10). -/
def cellStop (c : Nat) : Nat := stopOf (bits (c / 64) 30 5)

/-- Whether a message brings data from its home. -/
def RidgeMsg.brings (m : RidgeMsg) : Bool := m.data.any (fun k => cellStop (k * 32) == m.src)

/-- Note a home access for the channel controller and, between stacks, for the Ridge: a write, whose request carries the data (05
R112; 01 R10 to R13). The notes order service, count activations and time the ring. (DEDUCED, log entry 42.) -/
def State.note (s : State) (core c n : Nat) (cls : DramClass) (rc : RidgeClass) : State :=
  (s.noteDram (c / 64) cls).ridgeSend rc (stopOf (stackOf core)) (cellStop c) (sectors c n)

/-- Note a read at a home: its request, and the response that carries the data back. (DEDUCED, log entry 42.) -/
def State.noteRead (s : State) (core c n : Nat) (cls : DramClass) : State :=
  let reader := if cls = .normal then some core else none
  ((s.noteDram (c / 64) cls true reader).ridgeSend .memory (stopOf (stackOf core)) (cellStop c) []).ridgeSend .memory (cellStop c)
    (stopOf (stackOf core)) (sectors c n) reader

/-- The new word of an operation of ATOM and RED with its exceptions (07 R160). -/
def AtomOp.apply (op : AtomOp) (old v : Word) : Word × FpFlags :=
  match op with
  | .add => (old + v, fNone)
  | .min => (if old.slt v then old else v, fNone)
  | .max => (if old.slt v then v else old, fNone)
  | .minu => (if old.ult v then old else v, fNone)
  | .maxu => (if old.ult v then v else old, fNone)
  | .and => (old &&& v, fNone)
  | .or => (old ||| v, fNone)
  | .xor => (old ^^^ v, fNone)
  | .xchg => (v, fNone)
  | .fadd => let r := fpAdd f32 old.toNat v.toNat; (BitVec.ofNat 32 r.1, r.2)

/-- The identity at which an update-only copy starts (07 R161). -/
def AtomOp.identity (op : AtomOp) : Word :=
  match op with
  | .and => 0xFFFFFFFF#32
  | .fadd => 0x80000000#32
  | .min => 0x7FFFFFFF#32
  | .max => 0x80000000#32
  | .minu => 0xFFFFFFFF#32
  | _ => 0#32

/-- Put x before element k of a list. -/
def insertAt {α : Type} (k : Nat) (x : α) (l : List α) : List α :=
  match l with
  | [] => [x]
  | y :: rest =>
    match k with
    | 0 => x :: y :: rest
    | k + 1 => y :: insertAt k x rest

/-- A list in an order that the manual leaves open (06 R131): every order is possible for some free values.
(DESIGN CHOICE, log entry 3.) -/
def freeOrder {α : Type} (seed : Nat) (l : List α) : List α :=
  match l with
  | [] => []
  | x :: rest =>
    let r := freeOrder (seed + 1) rest
    match r with
    | [] => [x]
    | _ => insertAt (Config.choice seed % (r.length + 1)) x r

/-- Whether an L1 line holds a cell unit, at the address it is tagged with. -/
def State.lineHas (s : State) (l : Line) (unit : Nat) : Bool :=
  decide ((s.paCell (l.tag * 128)).map (· / 64) = some unit) ||
    decide ((s.paCell (l.tag * 128 + 64)).map (· / 64) = some unit)

/-- The Ridge stop from which an agent sends a request (01 R9, R10): a window its port's I/O die, another device the I/O die of its
link, every other agent its top unit. -/
def agentStop (f : QFrom) (queue : Nat) : Nat :=
  match f with
  | .window port _ _ => if port = 0 then 0 else 17
  | _ => if queue < 32 then 0 else 17

/-- The byte of a UNC read (05 R104): DRAM's or, where a cache holds another, a free choice among the copies.
(DESIGN CHOICE, log entry 3.) -/
def State.uncByte (s : State) (c : Nat) : Byte :=
  let copies := (match s.scFind (c / 64) with
      | some l => [sget 0 l.bytes (c % 64)]
      | none => []) ++
    (s.l1.filter (fun l => l.red.isNone && s.lineHas l (c / 64))).filterMap (fun l =>
      let off := if (s.paCell (l.tag * 128)).map (· / 64) = some (c / 64) then c % 64 else 64 + c % 64
      if bitAt l.valid off then some (sget 0 l.bytes off) else none)
  let d := s.dramByte c
  let others := copies.filter (fun b => b != d)
  match others with
  | [] => d
  | _ => (d :: others).getD (Config.choice s.fresh % (others.length + 1)) d

/-- Append a request of an agent to the queue that a device register names (10 R438). Handle 0 names none. -/
def State.sendAgent (s : State) (f : QFrom) (handle : DWord) (queue : Nat) (payload : List Byte) : State :=
  { s with qreqs := s.qreqs ++ [{ rid := s.fresh, from_ := f, enq := true, try_ := false, pa := 0,
                                  va := BitVec.ofNat 64 (handle.toNat / 64 * 64), handle := some (handle, queue), code := bits handle.toNat 0 3,
                                  payload := payload, parked := false, busy := false, src := agentStop f queue, unc := false }],
           fresh := s.fresh + 1 }

/-- Send a fault record to the fault queue of its launch's queue (11 R216). -/
def State.sendRecord (s : State) (queue : Nat) (r : FaultRec) : State :=
  s.sendAgent (.faultRec r) (s.lq queue).faultq queue r.encode

/-- Write bytes from a cell at the home or, on an uncached page, in DRAM (05 R104). -/
def State.putBytes (s : State) (unc : Bool) (c : Nat) (bs : List Byte) : State :=
  if unc then (s.dramWrite c bs).clearPoison c bs.length else s.homeWrite c bs

/-- Combine the contributions of one update-only copy, each offset's in order of arrival from the identity, with memory, in
DRAM on an uncached page (07 R161; 05 R104). A poisoned sector discards them and writes POISON records that name their issuers
(05 R117). -/
def State.combineAt (s : State) (unc : Bool) (l : Line) : State :=
  match l.red with
  | none => s
  | some op =>
    let offs := l.gathered.foldl (fun acc g => sins acc g.off) []
    offs.foldl (fun t off =>
      let mine := l.gathered.filter (fun g => g.off == off)
      match t.paCell (l.tag * 128 + off) with
      | none => t
      | some c =>
        match t.poisonIn c 4 with
        | some origin =>
          mine.foldl (fun u g => u.sendRecord g.queue { g.owner with detail := origin }) t
        | none =>
          let v := mine.foldl (fun acc g => (op.apply acc g.word).1) op.identity
          let old : Word := BitVec.ofNat 32 (ofBytes (if unc then (span c 4).map t.uncByte else t.homeBytes c 4))
          (t.note l.core c 4 .normal .coherence).putBytes unc c (toBytes 4 (op.apply old v).1.toNat)) s

/-- Combine the contributions of an update-only copy at its home. -/
def State.combineLine (s : State) (l : Line) : State := s.combineAt false l

/-- Remove an L1 line of a core. -/
def State.l1Drop (s : State) (core tag : Nat) : State :=
  { s with l1 := s.l1.filter (fun x => !(x.core == core && x.tag == tag)) }

/-- Recall and combine every update-only copy that holds a unit, each once, in a free order, and drop it (07 R161). -/
def State.recall (s : State) (unit : Nat) : State :=
  match s.l1.filter (fun l => l.red.isSome && s.lineHas l unit) with
  | [] => s
  | copies =>
    let order := freeOrder s.fresh copies
    order.foldl (fun t l => (t.combineLine l).l1Drop l.core l.tag) { s with fresh := s.fresh + copies.length }

/-- Recall the copies that hold any of the given cells. -/
def State.recallAll (s : State) (cells : List (Nat × Nat)) : State := cells.foldl (fun t p => t.recall (p.1 / 64)) s

/-- An L1 line of a core by its tag, the physical address divided by 128 (05 R102). -/
def State.l1Find (s : State) (core tag : Nat) : Option Line := s.l1.find? (fun l => l.core == core && l.tag == tag)

/-- Replace an L1 line. -/
def State.l1Put (s : State) (l : Line) : State :=
  { s with l1 := l :: s.l1.filter (fun x => !(x.core == l.core && x.tag == l.tag)) }

/-- An L1 line that holds nothing. -/
def Line.blank (core tag : Nat) : Line :=
  { core := core, tag := tag, bytes := [], valid := 0, dirty := 0, poison := 0, red := none, gathered := [] }

/-- Read bytes at their home, recalling update-only copies first (05 R103, 07 R161). -/
def State.homeRead (s : State) (core : Nat) (cells : List (Nat × Nat)) (cls : DramClass) : State × List Byte :=
  let s1 := cells.foldl (fun t p => t.noteRead core p.1 p.2 cls) (s.recallAll cells)
  (s1, cells.flatMap (fun p => s1.homeBytes p.1 p.2))

/-- Write the parts of bytes at the cells of an address, without recall. -/
def State.homeScatter (s : State) (cells : List (Nat × Nat)) (bs : List Byte) : State :=
  match cells with
  | [] => s
  | p :: rest => (s.homeWrite p.1 (bs.take p.2)).homeScatter rest (bs.drop p.2)

/-- Write bytes at their home, recalling update-only copies first. -/
def State.homeStore (s : State) (core : Nat) (cells : List (Nat × Nat)) (bs : List Byte) (cls : DramClass) : State :=
  let s1 := cells.foldl (fun t p => t.note core p.1 p.2 cls .memory) (s.recallAll cells)
  s1.homeScatter cells bs

/-- Write the parts of bytes at the cells of an address in DRAM, past every cache (05 R104). -/
def State.dramScatter (s : State) (cells : List (Nat × Nat)) (bs : List Byte) : State :=
  match cells with
  | [] => s
  | p :: rest => (s.putBytes true p.1 (bs.take p.2)).dramScatter rest (bs.drop p.2)

/-- Read bytes of an access that is performed at its home: from the home or, on an uncached page, past the caches (05 R103,
R104). -/
def State.homeGet (s : State) (unc : Bool) (core : Nat) (cells : List (Nat × Nat)) (cls : DramClass) : State × List Byte :=
  if unc then
    let s1 := cells.foldl (fun t p => t.noteRead core p.1 p.2 cls) (s.recallAll cells)
    ({ s1 with fresh := s1.fresh + 1 }, cells.flatMap (fun p => (span p.1 p.2).map s1.uncByte))
  else s.homeRead core cells cls

/-- Write bytes of an access whose request has been noted: at the home or, on an uncached page, in DRAM. -/
def State.scatterAs (s : State) (unc : Bool) (cells : List (Nat × Nat)) (bs : List Byte) : State :=
  if unc then s.dramScatter cells bs else s.homeScatter cells bs

/-- Write bytes of an access that is performed at its home (05 R103, R104). -/
def State.homeSet (s : State) (unc : Bool) (core : Nat) (cells : List (Nat × Nat)) (bs : List Byte) (cls : DramClass) : State :=
  if unc then (cells.foldl (fun t p => t.note core p.1 p.2 cls .memory) (s.recallAll cells)).dramScatter cells bs
  else s.homeStore core cells bs cls

/-- The lowest poison origin among cells. -/
def State.poisonAny (s : State) (cells : List (Nat × Nat)) : Option Nat :=
  cells.foldl (fun acc p => match acc with
    | some o => some o
    | none => s.poisonIn p.1 p.2) none

/-- Write back the dirty bytes of one sector of an L1 line: all 32 as one write, which clears the home's poison, and poison
with them (05 R102, R117). -/
def State.writeSector (s : State) (l : Line) (k : Nat) : State :=
  match s.paCell (l.tag * 128 + 32 * k) with
  | none => s
  | some c =>
    let s1 := s.recall (c / 64)
    let s2 := if bits l.dirty (32 * k) 32 = 2 ^ 32 - 1 then s1.homeWrite c (readSparse l.bytes (32 * k) 32)
      else (List.range 32).foldl (fun t i =>
        if bitAt l.dirty (32 * k + i) then t.homeWrite (c + i) [sget 0 l.bytes (32 * k + i)] else t) s1
    if bitAt l.poison k then s2.addPoison c 1 6 else s2

/-- Note the write-back of one of the two 64-byte units of an L1 line, with the sectors of it that are dirty. -/
def State.noteBack (s : State) (l : Line) (u : Nat) : State :=
  match s.paCell (l.tag * 128 + 64 * u) with
  | none => s
  | some c =>
    let ks := [2 * u, 2 * u + 1].filter (fun k => bits l.dirty (32 * k) 32 != 0)
    if ks.isEmpty then s
    else (s.noteDram (c / 64) .normal).ridgeSend .memory (stopOf (stackOf l.core)) (cellStop c)
      (ks.map (fun k => c / 32 + k % 2))

/-- Write back the dirty bytes of an L1 line to their homes; they stay valid and clean (05 R102). -/
def State.writeBack (s : State) (l : Line) : State :=
  if l.dirty = 0 then s
  else
    let s1 := (List.range 4).foldl (fun t k => if bits l.dirty (32 * k) 32 = 0 then t else t.writeSector l k) s
    (([0, 1].foldl (fun t u => t.noteBack l u) s1)).l1Put { l with dirty := 0 }

/-- Push one L1 line home: combine gathered contributions, or write dirty bytes back (07 R161). -/
def State.pushLine (s : State) (l : Line) : State :=
  match l.red with
  | some _ => (s.combineLine l).l1Drop l.core l.tag
  | none => s.writeBack l

/-- Write back every dirty byte and push every gathered contribution of a core (05 R102; 06 R123). -/
def State.pushCore (s : State) (core : Nat) : State :=
  (s.l1.filter (fun l => l.core == core)).foldl (fun t l => t.pushLine l) s

/-- The sectors of a line that hold a byte of a mask. -/
def sectorMask (m : Nat) : Nat := (List.range 4).foldl (fun acc k => if bits m (32 * k) 32 = 0 then acc else acc ||| 2 ^ k) 0

/-- Invalidate every clean byte of a core's L1 (05 R102), with the poison of the sectors that it leaves empty. -/
def State.dropClean (s : State) (core : Nat) : State :=
  let ls := s.l1.map (fun l =>
    if l.core = core ∧ l.red = none then { l with valid := l.dirty, poison := l.poison &&& sectorMask l.dirty } else l)
  { s with l1 := ls.filter (fun l => !(l.core == core && l.red.isNone && decide (l.valid = 0))) }

/-- What the issuing core does to the line of an access performed at the home: write back its dirty bytes and discard its
clean ones (05 R102). -/
def State.evictFor (s : State) (core pa : Nat) : State :=
  match s.l1Find core (pa / 128) with
  | none => s
  | some l => (s.pushLine l).l1Drop core (pa / 128)

/-- Room for a line in the 512 KiB of a core's L1 (01 R15): the line taken in first goes home. Which one goes is the model's
choice. (DESIGN CHOICE, log entry 52.) -/
def State.l1Room (s : State) (core tag : Nat) : State :=
  let mine := s.l1.filter (fun l => l.core == core)
  if mine.length < 4096 || mine.any (fun l => l.tag == tag) then s
  else
    match mine.getLast? with
    | none => s
    | some l => (s.pushLine l).l1Drop core l.tag

/-- Fill an L1 line from its homes: dirty bytes stay, every other byte comes from the home with its poison, so that one access
never returns part of a line as it was and part as it is (06 R129). -/
def State.l1Fill (s : State) (core tag : Nat) : State :=
  let s0 := match s.l1Find core tag with
    | some l => if l.red.isSome then s.pushLine l else s
    | none => s.l1Room core tag
  match s0.cellsOf (tag * 128) 128 with
  | none => s0
  | some cells =>
    let r := s0.homeRead core cells .normal
    let old := (r.1.l1Find core tag).getD (Line.blank core tag)
    let bytes := (List.range 128).foldl (fun m i =>
      if bitAt old.dirty i then m else sput 0 m i (r.2.getD i 0)) old.bytes
    let poison := (List.range 4).foldl (fun acc k =>
      let c := (r.1.paCell (tag * 128 + 32 * k)).getD 0
      if bits old.dirty (32 * k) 32 ≠ 2 ^ 32 - 1 && (r.1.poisonIn c 1).isSome then acc ||| 2 ^ k else acc)
      (old.poison &&& sectorMask old.dirty)
    r.1.l1Put { old with bytes := bytes, valid := maskOf 0 128, poison := poison }

/-- Read bytes of one L1 line, filling it on a miss (05 R102); the poison origin of the first poisoned sector, if any. -/
def State.l1Read (s : State) (core pa n : Nat) : State × List Byte × Option Nat :=
  let tag := pa / 128
  let off := pa % 128
  let hit := match s.l1Find core tag with
    | some l => l.red.isNone && decide (l.valid &&& maskOf off n = maskOf off n)
    | none => false
  let s1 := if hit then s else s.l1Fill core tag
  match s1.l1Find core tag with
  | none => (s1, [], none)
  | some l =>
    let bad := (sectors off n).any (fun k => bitAt l.poison k)
    let home := match s1.paCell pa with
      | some c => (s1.poisonIn c n).getD 6
      | none => 6
    (s1, readSparse l.bytes off n, if bad then some home else none)

/-- Commit bytes into one L1 line: valid and dirty (05 R102). -/
def State.l1Write (s : State) (core pa : Nat) (bs : List Byte) : State :=
  let tag := pa / 128
  let off := pa % 128
  let s1 := match s.l1Find core tag with
    | some l => if l.red.isSome then s.pushLine l else s
    | none => s.l1Room core tag
  let l := (s1.l1Find core tag).getD (Line.blank core tag)
  let m := maskOf off bs.length
  s1.l1Put { l with bytes := writeSparse l.bytes off bs, valid := l.valid ||| m, dirty := l.dirty ||| m }

/-- Put bytes that a home has performed into the issuing core's copy, valid and clean (06 R130). -/
def State.l1Install (s : State) (core pa : Nat) (bs : List Byte) : State :=
  let tag := pa / 128
  let s1 := s.l1Room core tag
  let l := (s1.l1Find core tag).getD (Line.blank core tag)
  s1.l1Put { l with bytes := writeSparse l.bytes (pa % 128) bs, valid := l.valid ||| maskOf (pa % 128) bs.length }

/-- Recall the copies of a line that another operation gathers in, on every core: copies of two kinds never stand together
(07 R161). -/
def State.recallOthers (s : State) (tag : Nat) (op : AtomOp) : State :=
  [tag * 128, tag * 128 + 64].foldl (fun t pa =>
    match t.paCell pa with
    | none => t
    | some c => if t.l1.any (fun l => l.red.isSome && l.red != some op && t.lineHas l (c / 64)) then t.recall (c / 64) else t) s

/-- Let one contribution join the L1's copy of its line in update-only state (07 R161). (DEDUCED, log entry 40.) -/
def State.l1Red (s : State) (core pa : Nat) (op : AtomOp) (g : Gathered) : State :=
  let tag := pa / 128
  let s0 := s.recallOthers tag op
  let s1 := match s0.l1Find core tag with
    | some l => if l.red = some op then s0 else (s0.pushLine l).l1Drop core tag
    | none => s0.l1Room core tag
  let l := (s1.l1Find core tag).getD { Line.blank core tag with red := some op }
  s1.l1Put { l with gathered := l.gathered ++ [g] }

/-- The space an access is translated in: its core, address-space number, root table and privilege (05 R91, R94). -/
structure Space where
  core : Nat
  asn : Nat
  root : Nat
  user : Bool
deriving DecidableEq, Repr

/-- What an access needs of its page (05 R94). -/
structure Need where
  r : Bool
  w : Bool
  x : Bool
deriving DecidableEq, Repr

/-- A field of a page-table entry (05 R92). -/
def pteAddr (e : Nat) : Nat := bits e 8 44 * 256
/-- FMT of an entry. -/
def pteFmt (e : Nat) : Nat := bits e 56 4
/-- GEOM of an entry. -/
def pteGeom (e : Nat) : Nat := bits e 60 3

/-- The pairs of FMT and GEOM that 05 R96 lists. -/
def fmtGeomOk (f g : Nat) : Bool :=
  decide ((f = 0 ∧ g = 0) ∨ (f = 4 ∧ g = 0) ∨ (1 ≤ f ∧ f ≤ 3 ∧ g ≤ 1))

/-- Whether an entry of a level is a leaf (05 R91). -/
def pteLeaf (level e : Nat) : Bool := decide (level = 0) || (decide (level < 3) && decide (bits e 1 3 ≠ 0))

/-- Size of the page that a leaf of a level maps. -/
def leafSize (level : Nat) : Nat := if level = 0 then 2 ^ 16 else if level = 1 then 2 ^ 21 else 2 ^ 30

/-- Size of the table that a pointer of a level names. -/
def tableSize (level : Nat) : Nat := if level = 1 then 256 else 4096

/-- Malformed entries with V = 1 (05 R93). A table lies on the package's own device (05 R91); a page may lie on another (05 R89;
07 R148; 10 R201; 17 R344). (DEDUCED, log entry 44.) -/
def pteMalformed (device level e : Nat) : Bool :=
  bitAt e 63 ||
    (if pteLeaf level e then
      (bitAt e 2 && !bitAt e 1) || decide (pteAddr e % leafSize level ≠ 0) || !fmtGeomOk (pteFmt e) (pteGeom e)
    else
      decide (pteAddr e / 2 ^ 42 ≠ device) || decide (bits e 56 7 ≠ 0) || decide (bits e 1 7 ≠ 0) || decide (pteAddr e % tableSize level ≠ 0))

/-- The level's index of a virtual address (05 R91). -/
def walkIndex (level va : Nat) : Nat :=
  if level = 3 then bits va 39 18 else if level = 2 then bits va 30 9 else if level = 1 then bits va 21 9 else bits va 16 5

/-- Read one table entry from the walkers' cache or its home (05 R97, R98); the XLATE detail on failure. -/
def State.readPte (s : State) (core pa : Nat) : State × Except Nat Nat :=
  match s.walkc.find? (fun w => w.stack == stackOf core && w.pa == pa) with
  | some w => (s, .ok w.entry.toNat)
  | none =>
    match s.cellsOf pa 8 with
    | none => (s, .error 4)
    | some cells =>
      let r := s.homeRead core cells .normal
      match r.1.poisonAny cells with
      | some _ => (r.1, .error 3)
      | none => (r.1, .ok (ofBytes r.2))

/-- Walk the tables from a level down (05 R91 to R93, R97, R98). -/
def State.walkFrom (s : State) (core asn va : Nat) (level table : Nat) : State × Except Nat TlbEntry :=
  let pa := table + 8 * walkIndex level va
  let r := s.readPte core pa
  match r.2 with
  | .error d => (r.1, .error d)
  | .ok e =>
    if !bitAt e 0 then (r.1, .error 1)
    else if pteMalformed s.device level e then (r.1, .error 2)
    else if level = 3 && decide (bits e 1 3 ≠ 0) then (r.1, .error 2)
    else if pteLeaf level e then
      (r.1, .ok { core := core, asn := asn, base := va / leafSize level * leafSize level, size := leafSize level,
                  entry := BitVec.ofNat 64 e })
    else
      let s1 := { r.1 with walkc := { stack := stackOf core, pa := pa, entry := BitVec.ofNat 64 e } ::
                                     r.1.walkc.filter (fun w => !(w.stack == stackOf core && w.pa == pa)) }
      match level with
      | 0 => (s1, .error 2)
      | level + 1 => s1.walkFrom core asn va level (pteAddr e)
termination_by structural level

/-- The TLB entry of a core that translates an address (05 R92, R97). -/
def State.tlbFind (s : State) (core asn va : Nat) : Option TlbEntry :=
  s.tlb.find? (fun t => t.core == core && (t.asn == asn || bitAt t.entry.toNat 5) && decide (t.base ≤ va) &&
    decide (va < t.base + t.size))

/-- Add an entry to the TLB of its core (05 R97): 2,048 entries, 8 to a set; a full set loses the entry taken in first. Which set
an entry falls in and which entry goes are not stated. (DESIGN CHOICE, log entry 52.) -/
def tlbAdd (tlb : List TlbEntry) (t : TlbEntry) : List TlbEntry :=
  let mine := tlb.filter (fun x => x.core == t.core)
  if mine.length < 8 then t :: tlb
  else
    let way := mine.filter (fun x => Config.tlbSet x.base x.size % 256 == Config.tlbSet t.base t.size % 256)
    if way.length < 8 then t :: tlb
    else
      match way.getLast? with
      | none => t :: tlb
      | some x => t :: tlb.erase x

/-- Translate an address: by the TLB, or by a walk that fills it (05 R97). -/
def State.translate (s : State) (sp : Space) (va : Nat) : State × Except Nat TlbEntry :=
  match s.tlbFind sp.core sp.asn va with
  | some t => (s, .ok t)
  | none =>
    let r := s.walkFrom sp.core sp.asn va 3 sp.root
    match r.2 with
    | .error d => (r.1, .error d)
    | .ok t => ({ r.1 with tlb := tlbAdd r.1.tlb t }, .ok t)

/-- One part of an access, within 64 bytes: its virtual and physical address, length and page entry. -/
structure Piece where
  va : Nat
  pa : Nat
  len : Nat
  entry : Nat
deriving DecidableEq, Repr

/-- FMT of a piece's page. -/
def Piece.fmt (p : Piece) : Nat := pteFmt p.entry
/-- Whether a piece lies on another device (05 R89). -/
def State.anyAway (s : State) (ps : List Piece) : Bool := ps.any (fun p => s.away p.pa)
/-- Whether a piece's page is uncached. -/
def Piece.unc (p : Piece) : Bool := bitAt p.entry 6
/-- Whether a piece's page is locked for migration. -/
def Piece.mig (p : Piece) : Bool := bitAt p.entry 7

/-- The fault of a page entry that lacks what an access needs (05 R94). -/
def permFault (need : Need) (e : Nat) : Option Nat :=
  if need.r && !bitAt e 1 then some 1
  else if need.w && !bitAt e 2 then some 2
  else if need.x && !bitAt e 3 then some 3
  else none

/-- A trap with a detail and a virtual address. -/
def Trap.at (c : TrapCode) (detail va : Nat) : Trap := { code := c, detail := detail, addr := BitVec.ofNat 64 va }

/-- Translate every part of an access (17 R344 step 3): all parts or the fault of the lowest. -/
def State.translateAll (s : State) (sp : Space) (parts : List (Nat × Nat)) : State × Except Trap (List Piece) :=
  match parts with
  | [] => (s, .ok [])
  | (va, n) :: rest =>
    let r := s.translate sp va
    match r.2 with
    | .error d => (r.1, .error (Trap.at .xlate d va))
    | .ok t =>
      let q := r.1.translateAll sp rest
      match q.2 with
      | .error f => (q.1, .error f)
      | .ok ps => (q.1, .ok ({ va := va, pa := pteAddr t.entry.toNat + (va - t.base), len := n, entry := t.entry.toNat } :: ps))

/-- The first part that its page or the local map refuses, once the range may reach every page (17 R344 step 4). What another
device refuses its answer says (step 7). -/
def State.permEach (s : State) (need : Need) (ps : List Piece) : Option Trap :=
  match ps with
  | [] => none
  | p :: rest =>
    match permFault need p.entry with
    | some d => some (Trap.at .perm d p.va)
    | none => if !s.away p.pa && (s.cellsOf p.pa p.len).isNone then some (Trap.at .perm 6 p.va) else s.permEach need rest

/-- The permission fault of an access: U of every page first, then what the access needs of each (05 R94). -/
def State.permAll (s : State) (sp : Space) (need : Need) (ps : List Piece) : Option Trap :=
  match ps.find? (fun p => sp.user && !bitAt p.entry 4) with
  | some p => some (Trap.at .perm 4 p.va)
  | none => s.permEach need ps

/-- The parts of n bytes from a virtual address, which wraps at 2^64. -/
def vaParts (va n : Nat) : List (Nat × Nat) := (chunks va n).map (fun p => (p.1 % 2 ^ 64, p.2))

/-- Check and translate an access (17 R344 steps 2 to 4): canonical addresses, every translation, then permissions. -/
def State.pieces (s : State) (sp : Space) (va n : Nat) (need : Need) : State × Except Trap (List Piece) :=
  let parts := vaParts va n
  match parts.find? (fun p => !canonical (BitVec.ofNat 64 p.1)) with
  | some p => (s, .error (Trap.at .perm 5 p.1))
  | none =>
    let r := s.translateAll sp parts
    match r.2 with
    | .error f => (r.1, .error f)
    | .ok ps =>
      match r.1.permAll sp need ps with
      | some f => (r.1, .error f)
      | none => (r.1, .ok ps)

/-- The cells of a piece, known to exist. -/
def State.pieceCells (s : State) (p : Piece) : List (Nat × Nat) := (s.cellsOf p.pa p.len).getD []

/-- The youngest uncommitted byte of a virtual address in a store buffer (06 R122). RED is not forwarded (18 R376). A buffer
that a read of pieces sees names a byte by the address at which the read reaches it (bufferFor; log entry 59). -/
def bufferByte (buf : List SbEntry) (va : Nat) : Option Byte :=
  buf.foldl (fun acc e => match e.kind with
    | .red _ => acc
    | _ => match aget e.bytes va with
      | some b => some b
      | none => acc) none

/-- Read the bytes of a piece that the store buffer does not hold, from the L1 or, on a UNC page, past the caches. -/
def State.readPiece (s : State) (core : Nat) (p : Piece) : State × Except Trap (List Byte) :=
  if p.unc then
    let cells := s.pieceCells p
    match s.poisonAny cells with
    | some o => (s, .error (Trap.at .poison o p.va))
    | none =>
      let r := s.homeGet true core cells .normal
      (r.1, .ok r.2)
  else
    let r := s.l1Read core p.pa p.len
    match r.2.2 with
    | some o => (r.1, .error (Trap.at .poison o p.va))
    | none => (r.1, .ok r.2.1)

/-- Read pieces as a load of a block sees them: each byte the youngest uncommitted write, else memory (06 R122). -/
def State.readPieces (s : State) (core : Nat) (buf : List SbEntry) (ps : List Piece) : State × Except Trap (List Byte) :=
  match ps with
  | [] => (s, .ok [])
  | p :: rest =>
    let own := (span p.va p.len).map (bufferByte buf)
    let r := if own.all Option.isSome then (s, Except.ok (List.replicate p.len 0)) else s.readPiece core p
    match r.2 with
    | .error f => (r.1, .error f)
    | .ok bs =>
      let q := r.1.readPieces core buf rest
      match q.2 with
      | .error f => (q.1, .error f)
      | .ok more => (q.1, .ok (own.zipWith (fun o b => o.getD b) bs ++ more))

/-- Read pieces at their homes, without the L1, as copy engines and the dean do; poison is a fault. -/
def State.readHome (s : State) (core : Nat) (ps : List Piece) (cls : DramClass) : State × Except Trap (List Byte) :=
  match ps with
  | [] => (s, .ok [])
  | p :: rest =>
    let cells := s.pieceCells p
    let r := s.homeGet p.unc core cells cls
    match r.1.poisonAny cells with
    | some o => (r.1, .error (Trap.at .poison o p.va))
    | none =>
      let q := r.1.readHome core rest cls
      match q.2 with
      | .error f => (q.1, .error f)
      | .ok more => (q.1, .ok (r.2 ++ more))

/-- Write pieces at their homes. -/
def State.writeHome (s : State) (core : Nat) (ps : List Piece) (bs : List Byte) (cls : DramClass) : State :=
  match ps with
  | [] => s
  | p :: rest =>
    let s1 := s.homeSet p.unc core (s.pieceCells p) (bs.take p.len) cls
    s1.writeHome core rest (bs.drop p.len) cls

end Sys2Proof.Machine
end

