-- ==== Sys2Proof/Machine/Ops.lean ====
section
/-!
DEFINITION. The named operations that instructions share: who issues, taking a trap (11 R214 to R218, R231), the store buffer
and its commits (06 R122, 11 R229), release and acquire (06 R123, R124), store events of a pair (11 R233), grain ownership
(09 R175) and requests to homes.
-/
namespace Sys2Proof.Machine

/-- The issuer of the instruction that a step performs, with its block and context. -/
structure Env where
  blk : Block
  who : Who
  ctx : Ctx
deriving DecidableEq, Repr

/-- The issuer's number of its block. -/
def Env.bid (e : Env) : Nat := e.blk.bid
/-- The issuer's core. -/
def Env.core (e : Env) : Nat := e.blk.core.getD 0
/-- Whether the issuer is the lead. -/
def Env.lead (e : Env) : Bool := e.who.isLead
/-- Registers per fibre, A. -/
def Env.alloc (e : Env) : Nat := e.blk.params.allocation

/-- An issuer of a block. -/
def State.envOf (s : State) (bid : Nat) (who : Who) : Option Env :=
  match s.block? bid with
  | none => none
  | some b =>
    match b.ctx? who with
    | none => none
    | some c => some { blk := b, who := who, ctx := c }

/-- The issuer of the step, if it has one. -/
def State.env? (s : State) : Option Env :=
  match s.issuer with
  | none => none
  | some (bid, who) => s.envOf bid who

/-- The issuer's environment read again from a later state. -/
def Env.again (e : Env) (s : State) : Env := (s.envOf e.bid e.who).getD e

/-- Change the issuer's context. -/
def State.modMe (s : State) (e : Env) (f : Ctx → Ctx) : State := s.modCtx e.bid e.who f

/-- The sectors of this package's memory that n bytes of an issuer lie in, each with the virtual address of the part of the access that
touches it (05 R117). -/
def State.readSpan (s : State) (sp : Space) (va n : Nat) : List (Nat × DWord) :=
  match (s.pieces sp va n { r := false, w := false, x := false }).2 with
  | .error _ => []
  | .ok ps => ps.flatMap (fun p => (s.pieceCells p).flatMap (fun c => (sectors c.1 c.2).map (fun k => (k, BitVec.ofNat 64 p.va))))

/-- The space in which a block's accesses are translated (05 R91, 02 R42). -/
def Block.space (b : Block) : Space :=
  { core := b.core.getD 0, asn := b.params.asn, root := b.params.root, user := !b.params.supervisor }

/-- Where a byte of a store buffer stands for a reader of pieces: at the reader's own virtual address if both name one physical byte
(06 R121, R122), else where it was written. -/
def State.aliasAt (s : State) (sp : Space) (ps : List Piece) (va : Nat) : Nat :=
  match (s.pieces sp va 1 { r := false, w := false, x := false }).2 with
  | .ok (q :: _) => match ps.find? (fun p => decide (p.pa ≤ q.pa) && decide (q.pa < p.pa + p.len)) with
    | some p => p.va + (q.pa - p.pa)
    | none => va
  | _ => va

/-- A block's store buffer as a read of pieces sees it: a byte written through another mapping of the same memory too (06 R121,
R122; DEDUCED, log entry 59). -/
def State.bufferSeen (s : State) (b : Block) (ps : List Piece) : List SbEntry :=
  b.body.buffer.map (fun x =>
    { x with va := BitVec.ofNat 64 (s.aliasAt b.space ps x.va.toNat),
             bytes := x.bytes.map (fun y => (s.aliasAt b.space ps y.1, y.2)) })

/-- The store buffer of an issuer's block as a read of pieces sees it. -/
def State.bufferFor (s : State) (e : Env) (ps : List Piece) : List SbEntry := s.bufferSeen (e.again s).blk ps

/-- The space of a launch queue's tables on a core (10 R438): pages with either value of U. -/
def State.queueSpace (s : State) (n core : Nat) : Space :=
  { core := core, asn := (s.lq n).asn, root := (s.lq n).root.toNat, user := false }

/-- Whether a block takes checkpoints (11 R230, R232). -/
def Block.ckptMode (b : Block) : Bool := b.params.ckpt || b.params.paired

/-- The body a block has at its launch (02 R20, R29; 07 R158; 10 R197). -/
def LaunchParams.body (p : LaunchParams) (now : Nat) : BlockBody :=
  let l := Ctx.new p.lead 0 now
  { fibres := (List.range p.initialCount).map (fun i => (i, Ctx.new p.code 0 now)),
    lead := { l with life := if p.lead = 0 then .ended else .live,
                     regs := writeCells [] [0, 1, 2, 3] (wordsOfNat 2 p.arg.toNat ++ wordsOfNat 2 p.tcb.toNat) },
    uq := [], uqBase := 0,
    barriers := List.replicate p.barrierCount { expected := 0, arrived := 0, phase := 0 },
    buffer := [], storeEvents := 0, ordinal := 0, endedCrc := 0, drains := [] }

/-- Stack of a DRAM cell (05 R105). -/
def stackOfCell (c : Nat) : Nat := bits (c / 64) 30 5

/-- Whether the control block at a physical address was last reached uncached (05 R104). -/
def State.queueUnc (s : State) (pa : Nat) : Bool := s.queues.any (fun q => q.pa == pa && q.unc)

/-- Write bytes of a control block at its home or, reached uncached, in DRAM (05 R104). -/
def State.ctlWrite (s : State) (pa off : Nat) (bs : List Byte) : State :=
  match s.paCell pa with
  | none => s
  | some c => s.putBytes (s.queueUnc pa) (c + off) bs

/-- Bytes of a control block as its home finds them (05 R104). -/
def State.ctlLook (s : State) (pa off n : Nat) : List Byte :=
  match s.paCell pa with
  | none => []
  | some c => if s.queueUnc pa then (span (c + off) n).map s.uncByte else s.homeBytes (c + off) n

/-- Parked requests of one kind at a control block, in order (07 R152). -/
def State.parkedAt (s : State) (pa : Nat) (enq : Bool) : List QReq :=
  s.qreqs.filter (fun q => q.parked && q.pa == pa && q.enq == enq)

/-- Rewrite the waiter word of a queue (07 R143); on a broken queue it keeps its counts (07 R145). Its upper half is
undefined. -/
def State.noteWaiters (s : State) (pa : Nat) : State :=
  if bitAt (ofBytes (s.ctlLook pa 13 1)) 5 then s
  else
    let e := min (s.parkedAt pa true).length 0xFFFF
    let d := min (s.parkedAt pa false).length 0xFFFF
    (s.tick1).ctlWrite pa 24 (toBytes 4 (e + d * 2 ^ 16) ++ toBytes 4 (Config.queueWaiterWord s.fresh).toNat)

/-- Whether a queue request was made by an issuer of a block. -/
def QReq.ofBlock (q : QReq) (bid : Nat) : Bool :=
  match q.from_ with
  | .actor b _ => b == bid
  | _ => false

/-- Remove requests that have not been performed; the waiter words of the queues they were parked on follow. -/
def State.withdrawReqs (s : State) (gone : QReq → Bool) : State :=
  let pas := (s.qreqs.filter (fun q => q.parked && gone q)).map (·.pa)
  pas.foldl (fun t pa => t.noteWaiters pa) { s with qreqs := s.qreqs.filter (fun q => !gone q) }

/-- The block whose issuer asked for a queue operation. -/
def QFrom.block? (f : QFrom) : Option Nat :=
  match f with
  | .actor bid _ => some bid
  | .producer bid _ _ => some bid
  | _ => none

/-- Whether an allocated dequeue still waits for its block's commit: a copy's comparison, or the commit and the retirement of an
issuer in checkpoint mode, come before the element leaves its queue (11 R229). -/
def State.beforeCommit (s : State) (f : QFrom) : Bool :=
  match f with
  | .producer bid who pid => match s.block? bid, s.ctx? bid who with
    | some b, some c => b.ckptMode && decide (c.phase.answer = .granted pid none)
    | _, _ => false
  | _ => false

/-- A context whose instruction is withdrawn with no effect (12 R244): what it had emptied is full, and it has asked nothing. A
comparison that it has made stands. -/
def Ctx.undone (c : Ctx) : Ctx :=
  { c with wait := none, phase := { c.phase with answer := .none, release := .none }, slots := none, counted := false,
           empties := c.empties.filter (fun b => !c.heldBits.contains b), heldBits := [] }

/-- Whether a buffer entry is an STT's, which its home performs as one event when its tag allows (18 R390). -/
def SbEntry.isStt (e : SbEntry) : Bool := decide (e.kind = .stt)

/-- The entries of a store buffer that a commit drains: all but those of STTs, each of which its own commit drains last (18 R390). -/
def BlockBody.stores (y : BlockBody) : List SbEntry := y.buffer.filter (fun x => !x.isStt)

/-- The STTs that a store buffer holds and that their homes have not performed. -/
def BlockBody.tagged (y : BlockBody) : List SbEntry := y.buffer.filter SbEntry.isStt

/-- Take the STT of an issuer out of its block's store buffer: it has been performed, or withdrawn (18 R390). -/
def State.leaveStt (s : State) (bid : Nat) (who : Who) : State :=
  s.modBlock bid (fun b => b.modBody (fun y => { y with buffer := y.buffer.filter (fun x => !(x.isStt && decide (x.who = who))) }))

/-- Withdraw the instruction of an issuer with no effect. -/
def State.undo (s : State) (bid : Nat) (who : Who) : State := (s.modCtx bid who Ctx.undone).leaveStt bid who

/-- Give back the dequeues that a block's issuers hold and whose comparison or commit has not been made: nothing has left its queue. -/
def State.dropHeld (s : State) (bid : Nat) : State :=
  let mine (f : QFrom) : Bool := f.block? = some bid && s.beforeCommit f
  let s1 : State := { s with queues := s.queues.map (fun q => { q with deqs := q.deqs.filter (fun f => !mine f) }) }
  s1.modBlock bid (fun b => b.mapCtx (fun _ c => match c.phase.answer with
    | .granted _ none => if b.ckptMode then c.undone else c
    | _ => c))

/-- Whether an STT of an issuer is on its way to another device, or waits there. -/
def State.sttAbroad (s : State) (bid : Nat) (who : Who) : Bool :=
  s.peers.outstanding.any (fun o => decide (o.owner.map (fun x => (x.1, x.2.1)) = some (bid, who)) && match o.kind with
    | .stt .. => true
    | _ => false)

/-- A context whose load a proctor match holds while other devices send its bytes: the load is withdrawn (03 R61). -/
def Ctx.unloaded (c : Ctx) : Ctx :=
  match c.phase.answer with
  | .loading _ => c.undone
  | _ => c

/-- Remove the requests of a block's issuers that have not been performed and that they await (07 R154, R157), and ask other devices to
withdraw theirs. -/
def State.dropWaiting (s : State) (bid : Nat) : State :=
  let s1 := ((s.withdrawReqs (fun q => q.ofBlock bid)).cancelAbroad bid).dropLoading bid
  ({ s1 with treqs := s1.treqs.filter (fun q => q.remote.isSome || q.bid != bid) }).modBlock bid
    (fun b =>
    (b.mapCtx (fun _ c => c.unloaded)).modBody (fun y => { y with buffer := y.buffer.filter (fun x => !x.isStt || s.sttAbroad bid x.who) }))

/-- Remove every request of a block that leaves its core: those that its issuers have gone on from too. -/
def State.dropRequests (s : State) (bid : Nat) : State :=
  let s1 := (s.dropHeld bid).dropWaiting bid
  { s1 with qreqs := s1.qreqs.filter (fun q => q.from_.block? ≠ some bid) }

/-- The matrix array of a core (09 R183). Where its turns among the leads' contexts start the spec does not say: before its first command
the context last served reads as 0, so that context 1 comes before context 0. (DESIGN CHOICE, log entry 66.) -/
def State.array (s : State) (core : Nat) : MArray :=
  (s.matrix.arrays.find? (fun a => a.core == core)).getD
    { core := core, queue := [], running := none, latches := [], loading := none, lastUsed := 0, lastLead := 0 }

/-- Replace a matrix array. -/
def State.setArray (s : State) (a : MArray) : State :=
  { s with matrix := { s.matrix with arrays := a :: s.matrix.arrays.filter (fun x => x.core != a.core) } }

/-- A latched copy of a slice is not used any more; the command that runs keeps what it has latched (09 R184; 17 R357). -/
def State.staleLatch (s : State) (core slice : Nat) : State :=
  let a := s.array core
  s.setArray { a with latches := a.latches.map (fun l => if l.slice = slice then { l with valid := false } else l) }

/-- Invalidate the latched copies of a slice (09 R179, R183). -/
def State.unlatch (s : State) (core slice : Nat) : State :=
  let a := s.array core
  s.setArray { a with latches := a.latches.map (fun l => if l.slice = slice then { l with valid := false } else l),
                      loading := match a.loading with
                        | some (k, f, t) => if k = slice then none else some (k, f, t)
                        | none => none }

/-- First byte of a unit's grain in the memory that holds the units of its kind (09 R174). -/
def grainBase (core : Nat) (u : MUnit) (i : Nat) : Nat :=
  match u with
  | .abuf => (core * 8 + i) * 65536
  | .bslice => (core * 128 + i) * 98304
  | .scale => core * 262144 + i * 8192
  | .acc => (core * 1024 + i * 32) * 384

/-- Bytes, or accumulator cells, of a grain (09 R174). -/
def grainSize (u : MUnit) : Nat :=
  match u with
  | .abuf => 65536
  | .bslice => 98304
  | .scale => 8192
  | .acc => 32 * 384

/-- Entries of a sparse list outside a range. -/
def outside {α : Type} (lo n : Nat) (m : List (Nat × α)) : List (Nat × α) :=
  m.filter (fun e => !(decide (lo ≤ e.1) && decide (e.1 < lo + n)))

/-- Clear a released grain (09 R176): a slice loses its latched copies too (09 R183). -/
def State.clearGrain (s : State) (g : Grain) : State :=
  let lo := grainBase g.core g.unit g.index
  let n := grainSize g.unit
  let m := s.matrix
  match g.unit with
  | .abuf => { s with matrix := { m with abuf := outside lo n m.abuf } }
  | .bslice => { s.unlatch g.core g.index with matrix :=
      { (s.unlatch g.core g.index).matrix with bslice := outside lo n m.bslice } }
  | .scale => { s with matrix := { m with scale := outside lo n m.scale } }
  | .acc => { s with matrix := { m with acc := outside lo n m.acc } }

/-- Release every grain that a block owns (09 R176). -/
def State.releaseGrains (s : State) (bid : Nat) : State :=
  let s1 := (s.matrix.grains.filter (fun g => g.bid == bid)).foldl (fun t g => t.clearGrain g) s
  { s1 with matrix := { s1.matrix with grains := s1.matrix.grains.filter (fun g => g.bid != bid) } }

/-- Remove the matrix commands of a block, queued or running. -/
def State.dropCommands (s : State) (bid : Nat) : State :=
  { s with matrix := { s.matrix with arrays := s.matrix.arrays.map (fun a =>
      { a with queue := a.queue.filter (fun c => c.bid != bid),
               running := match a.running with
                 | some (c, t) => if c.bid = bid then none else some (c, t)
                 | none => none }) } }

/-- Write back what a block has committed on its core (06 R123). -/
def State.pushOf (s : State) (bid : Nat) : State :=
  match (s.block? bid).bind (fun b => b.core) with
  | some core => s.pushCore core
  | none => s

/-- Take a block off its core, with its requests, matrix commands and grains; what it has committed is written back first. -/
def State.unseat (s : State) (bid : Nat) : State :=
  (((((s.pushOf bid).dropRequests bid).dropAbroad bid).dropCommands bid).releaseGrains bid).modBlock bid (fun b => { b with core := none })

/-- Stop a block for a stopping fault: the first is the primary cause, later ones are secondary (11 R217, R227). The copies
of a pair first wait for each other (11 R235). -/
def State.stopBlock (s : State) (bid : Nat) (r : FaultRec) : State :=
  s.modBlock bid (fun b => match b.primary with
    | some _ => { b with seconds := b.seconds ++ [r] }
    | none => { b with primary := some r,
                       saveReq := if b.role = .single then some { kind := 1, cause := 0 } else b.saveReq })

/-- Stop blocks together for one fault, each to be saved (11 R217, R231, R235): a copy that has already a fault, and has waited for the
other, is saved with that. -/
def State.stopCopies (s : State) (bids : List Nat) (r : FaultRec) : State :=
  bids.foldl (fun t k => t.modBlock k (fun b => match b.primary with
    | some _ => { b with seconds := b.seconds ++ [r], saveReq := some { kind := 1, cause := 0 } }
    | none => { b with primary := some r, saveReq := some { kind := 1, cause := 0 } })) s

/-- Send a fault record of a block to its fault queue, after a release over the block's committed writes (06 R126; 11 R216). -/
def State.blockRecord (s : State) (b : Block) (r : FaultRec) : State :=
  (match b.core with
    | some core => s.pushCore core
    | none => s).sendRecord b.params.queue r

/-- The record of a block and 64 KiB page, written now if there is none (05 R100): its number. -/
def State.recordFor (s : State) (b : Block) (who : Who) (pc : DWord) (t : Trap) (eng : Bool) : State × Nat :=
  let page := t.addr.toNat / 2 ^ 16
  match s.xrecs.find? (fun x => x.bid == b.bid && x.page == page) with
  | some x => (s, x.xid)
  | none =>
    let x : XRec := { xid := s.fresh, bid := b.bid, page := page, who := who, pc := pc, addr := t.addr, detail := t.detail }
    let s1 := { s with xrecs := s.xrecs ++ [x], fresh := s.fresh + 1 }
    (s1.blockRecord b { b.faultRec who pc t eng with replay := true }, x.xid)

/-- Park an access on the record of its block and 64 KiB page (05 R100). -/
def State.parkOn (s : State) (b : Block) (who : Who) (pc : DWord) (t : Trap) : State :=
  let r := s.recordFor b who pc t false
  r.1.modCtx b.bid who (fun c => { c with parked := some (r.2, t.addr) })

/-- Cores that a contained block may not return to: its core, or its stack when the origin is the stack cache (11 R231). -/
def avoidAfter (core : Option Nat) (origin : Nat) : List Nat :=
  match core with
  | none => []
  | some c => if origin = 3 then span (stackOf c * 4) 4 else [c]

/-- Put one block back to its launch state, to be seated again (11 R231 item 1). -/
def State.relaunch (s : State) (bid : Nat) (avoid : List Nat) : State :=
  let s1 := s.unseat bid
  let s2 := { s1 with ops := s1.ops.filter (fun o => o.bid != bid),
                      xrecs := s1.xrecs.filter (fun x => x.bid != bid) }
  s2.modBlock bid (fun b => { b with body := b.params.body s.time, saved := none, saveReq := none, primary := none,
                                     seconds := [], avoid := avoid, forwarded := [], performed := [] })

/-- The engine class of an operation (06 R135). -/
def EngKind.cls (k : EngKind) : Nat :=
  match k with
  | .cpy => 0
  | .cpyb => 1
  | .cpys => 1
  | .mldb => 1
  | .mdrst => 3
  | .mdrain => 3

/-- Whether an operation writes on-core units (08 R164). -/
def EngOp.onCore (o : EngOp) : Bool :=
  match o.kind with
  | .cpyb => o.shape.dkind != 0
  | .cpys => true
  | .mldb => true
  | _ => false

/-- What an operation that was outstanding at a checkpoint becomes on return to it (11 R230): one that writes memory or drains goes
on, at its faulting unit where a fault has stopped its issuer; one that fills on-core units fills them again from where it stood,
its trigger and its record not repeated (DEDUCED, log entry 12). -/
def EngOp.returned (o : EngOp) (now : Option EngOp) : Option EngOp :=
  match now with
  | some c =>
    if o.onCore then
      some { o with phase := if c.phase = .waitTrigger ∨ c.phase = .triggerParked then .waitTrigger else .running, fetched := [],
                    cq := if c.phase = .reporting then 0 else o.cq }
    else if c.cq = 0 ∧ c.code.isSome then
      some { c with phase := .running, status := 0, code := none, detail := 0, faddr := 0, fetched := [] }
    else some c
  | none => if o.onCore then some { o with phase := .running, cq := 0 } else none

/-- The operations with which a block goes on after it returns to a checkpoint. -/
def State.returnedOps (s : State) (im : Image) : List EngOp :=
  im.ops.filterMap (fun o => o.returned (s.op? o.oid))

/-- Counters that count exactly the given operations of an issuer. -/
def Ctx.countOps (c : Ctx) (ops : List EngOp) (who : Who) : Ctx :=
  let n (k : Nat) : Nat := (ops.filter (fun o => decide (o.who = who) && o.kind.cls == k)).length
  { c with cnt0 := n 0, cnt1 := n 1, cnt2 := 0, cnt3 := n 3 }

/-- A body that returns to a checkpoint (11 R235): the values of the MDRSTs outstanding there, which the copies go on reading from
different rows, do not enter its signature. (DEDUCED, log entry 11.) -/
def BlockBody.undrained (y : BlockBody) : BlockBody :=
  { y with drains := (y.drains.filter (fun d => d.1.isNone)), lead := y.lead }

/-- A body whose counters count exactly the given operations. -/
def BlockBody.countOps (y : BlockBody) (ops : List EngOp) : BlockBody :=
  { y with fibres := y.fibres.map (fun e => (e.1, e.2.countOps ops (.fibre e.1))), lead := y.lead.countOps ops .lead }

/-- What a block was told of operations with which it goes on: as many tokens as there are such operations (11 R236). -/
def keepTold (told : List (Who × Nat)) (ops : List EngOp) : List (Who × Nat) :=
  told.foldl (fun acc k =>
    let due := (ops.filter (fun o => decide (o.who = k.1) && o.kind.cls == k.2 % 16)).length
    if (acc.filter (fun x => decide (x = k))).length < due then acc ++ [k] else acc) []

/-- Return one block to its last checkpoint, to be restored elsewhere (11 R230, R231 item 2, R235); without one, to its
launch state. -/
def State.rollback (s : State) (bid : Nat) (avoid : List Nat) : State :=
  match (s.block? bid).bind (fun b => b.checkpoint) with
  | none => s.relaunch bid avoid
  | some im =>
    let ops := s.returnedOps im
    let s1 := s.unseat bid
    let s2 := { s1 with ops := s1.ops.filter (fun o => o.bid != bid),
                        xrecs := s1.xrecs.filter (fun x => x.bid != bid) }
    let y := (im.body.countOps ops).undrained
    s2.modBlock bid (fun b =>
      { b with body := y, saved := some { im with body := y, ops := ops }, saveReq := none, primary := none, avoid := avoid,
               forwarded := [], performed := keepTold b.performed ops })

/-- The two copies of a pair, or the block alone (11 R232). -/
def Block.copies (b : Block) : List Nat := if b.role = .single then [b.bid] else [b.bid, b.partner]

/-- The copy of a pair that makes effects visible, or the block alone (11 R232). -/
def State.leadingOf (s : State) (b : Block) : Block := if b.role = .trailing then (s.block? b.partner).getD b else b

/-- Contain consumed poison (11 R231), of both copies of a pair: relaunch an unmarked block, return one in checkpoint mode to its
checkpoint, else, and at the third time, stop it. -/
def State.contain (s : State) (b : Block) (who : Who) (pc : DWord) (t : Trap) (eng : Bool) : State :=
  let l := s.leadingOf b
  let s1 := b.copies.foldl (fun u k => u.modBlock k (fun x => { x with poisons := x.poisons + 1 })) s
  let r := b.faultRec who pc t eng
  let avoid := avoidAfter b.core t.detail
  if l.poisons < 2 && !l.marked then
    b.copies.foldl (fun u k => u.relaunch k avoid) (s1.blockRecord b { r with cont := true })
  else if l.poisons < 2 && b.ckptMode && l.checkpoint.isSome && !l.unprotected && !b.unprotected then
    b.copies.foldl (fun u k => u.rollback k avoid) (s1.blockRecord b { r with cont := true })
  else s1.stopCopies b.copies r

/-- TAKING A TRAP OR FAULT (11 R214): a translation miss parks the access, consumed poison is contained, every other code
stops the block; the issuer's PC stays at the instruction. -/
def State.takeTrap (s : State) (bid : Nat) (who : Who) (pc : DWord) (t : Trap) : State :=
  match s.block? bid with
  | none => s
  | some b =>
    match t.code with
    | .xlate => s.parkOn b who pc t
    | .poison => s.contain b who pc t false
    | _ => s.stopBlock bid (b.faultRec who pc t false)

/-- A fault of an engine operation that stops its issuer (08 R163, R170): poison is contained. -/
def State.engineTrap (s : State) (b : Block) (who : Who) (pc : DWord) (t : Trap) : State :=
  match t.code with
  | .poison => s.contain b who pc t true
  | _ => s.stopBlock b.bid (b.faultRec who pc t true)

/-- RETURN FROM A STOPPING FAULT (11 R218): the block runs again from its saved body, the faulting issuer at its instruction
(retry) or past it (skip; an interrupted repeat is abandoned, 14 R287). -/
def BlockBody.returnFrom (body : BlockBody) (who : Who) (skip : Bool) : BlockBody :=
  let f (c : Ctx) : Ctx :=
    if skip && decide (c.life = .live) then { c with pc := c.pc + 4, rep := Rep.idle, phase := Phase.idle } else c
  match who with
  | .lead => { body with lead := f body.lead }
  | .fibre k => { body with fibres := body.fibres.map (fun e => if e.1 = k then (e.1, f e.2) else e) }

/-- What became of a drain of the store buffer: the entries left, and a fault of the oldest of them if it has one. -/
structure Drained where
  state : State
  left : List SbEntry
  fault : Option (Who × DWord × Trap)
deriving DecidableEq, Repr

/-- Write an entry's bytes that lie in a piece at the home or, on an uncached page, in DRAM, as one event: a sector it covers
wholly loses its poison. -/
def State.scatterHome (s : State) (core : Nat) (p : Piece) (bytes : List (Nat × Byte)) : State :=
  match s.pieceCells p with
  | [] => s
  | (c0, _) :: _ =>
    let s1 := (s.recall (c0 / 64)).note core c0 p.len .normal .memory
    let s2 := bytes.foldl (fun t b =>
      if p.va ≤ b.1 ∧ b.1 < p.va + p.len then t.putBytes p.unc (c0 + (b.1 - p.va)) [b.2] else t) s1
    (sectors c0 p.len).foldl (fun t k =>
      if (span (k * 32) 32).all (fun c => c0 ≤ c && (aget bytes (p.va + (c - c0))).isSome) then t.clearPoison (k * 32) 32
      else t) s2

/-- The number of an operation in a request to another device: its index among those of ATOM (15 R302). -/
def AtomOp.num (op : AtomOp) : Nat :=
  match op with
  | .add => 0 | .min => 1 | .max => 2 | .minu => 3 | .maxu => 4 | .and => 5 | .or => 6 | .xor => 7 | .xchg => 8 | .fadd => 9

/-- Send an entry to another device (18 R387; 05 R89): it is performed at its home there, past this package's caches. A piece is
one write; an STL is one write of its line. (DESIGN CHOICE, log entry 55.) -/
def State.drainAway (s : State) (b : Block) (e : SbEntry) (p : Piece) : State :=
  let owner := some (b.bid, e.who, e.pc)
  let bs := (span p.va p.len).map (fun a => (aget e.bytes (a % 2 ^ 64)).getD 0)
  match e.kind with
  | .stt => s
  | .st => s.remoteSend p.pa (.write p.len (offsetBytes bs) false false) .store owner (BitVec.ofNat 64 p.va)
  | .stl =>
    if p.va ≠ e.va.toNat then s
    else s.remoteSend p.pa (.write 128 (e.bytes.map (fun x => (x.1 - e.va.toNat, x.2))) false false) .store owner e.va
  | .red op =>
    s.remoteSend p.pa (.red op.num (BitVec.ofNat 32 (ofBytes bs)))
      (.red b.params.queue (b.faultRec e.who e.pc { code := .poison, detail := 0, addr := e.va } false)) owner e.va

/-- Drain one entry into the L1, to its home or, on a UNC page, to DRAM (06 R122, R130; 05 R104; 07 R161). The line of an STL
leaves the L1 whole before its bytes are installed. -/
def State.drainEntry (s : State) (core : Nat) (b : Block) (e : SbEntry) (ps : List Piece) : State :=
  match e.kind with
  | .stt => s
  | .st => ps.foldl (fun t p =>
      let bs := (span p.va p.len).map (fun a => (aget e.bytes (a % 2 ^ 64)).getD 0)
      if p.unc then t.homeSet true core (t.pieceCells p) bs .normal else t.l1Write core p.pa bs) s
  | .stl => ps.foldl (fun t p =>
      let t1 := t.scatterHome core p e.bytes
      if p.unc then t1
      else e.bytes.foldl (fun u b =>
        if p.va ≤ b.1 ∧ b.1 < p.va + p.len then u.l1Install core (p.pa + (b.1 - p.va)) [b.2] else u) t1)
      (ps.foldl (fun t p => t.evictFor core p.pa) s)
  | .red op => ps.foldl (fun t p =>
      let g : Gathered := { off := p.pa % 128, word := BitVec.ofNat 32 (ofBytes (e.bytes.map (·.2))), queue := b.params.queue,
                            owner := b.faultRec e.who e.pc { code := .poison, detail := 0, addr := e.va } false }
      if p.unc then
        (t.recallAll (t.pieceCells p)).combineAt true { Line.blank core (p.pa / 128) with red := some op, gathered := [g] }
      else t.l1Red core p.pa op g) s

/-- Drain a store buffer in order. An entry whose page is locked for migration, and every younger one, stay (05 R101); each
entry is translated again when it drains (DEDUCED, log entry 8). -/
def State.drain (s : State) (b : Block) (buf : List SbEntry) : Drained :=
  match buf with
  | [] => { state := s, left := [], fault := none }
  | e :: rest =>
    let isRed := match e.kind with
      | .red _ => true
      | _ => false
    let n := match e.kind with
      | .stl => 128
      | _ => e.bytes.length
    let r := s.pieces b.space e.va.toNat n { r := isRed, w := true, x := false }
    match r.2 with
    | .error f => { state := r.1, left := e :: rest, fault := some (e.who, e.pc, f) }
    | .ok ps =>
      if ps.any (fun p => p.mig) then { state := r.1, left := e :: rest, fault := none }
      else
        let far := ps.filter (fun p => r.1.away p.pa)
        let near := ps.filter (fun p => !r.1.away p.pa)
        ((far.foldl (fun t p => t.drainAway b e p) r.1).drainEntry (b.core.getD 0) b e near).drain b rest

/-- What an operation that may have to wait found: it goes on, waits, or takes a trap. -/
inductive Gate where
  | go (s : State)
  | wait (s : State) (w : Wait)
  | trap (s : State) (t : Trap)
deriving DecidableEq, Repr

/-- What a drain of entries comes to: the block keeps those left, those younger and those of STTs, and is marked (11 R230). A fault
of a store at its commit is taken by the store's issuer (18 R387). -/
def State.drained (s : State) (b : Block) (buf younger : List SbEntry) : Gate :=
  let d := s.drain b buf
  let s1 := d.state.modBlock b.bid (fun x => { x with marked := true, body := { x.body with buffer := d.left ++ b.body.tagged ++ younger } })
  match d.fault, d.left with
  | some (who, pc, t), _ => .wait (s1.takeTrap b.bid who pc t) .acks
  | none, [] => .go s1
  | none, _ => .wait s1 .mig

/-- The second commit of a releasing store of a pair drains the entry of that store alone: the trailing copy drops it (11 R232;
18 R386). What entered before was drained at the comparison (11 R235). -/
def State.commitOwn (s : State) (b : Block) (who : Who) : Gate :=
  let mine := b.body.stores.filter (fun x => decide (x.who = who))
  let rest := b.body.stores.filter (fun x => decide (x.who ≠ who))
  if mine.isEmpty then .go s
  else if b.role = .trailing then .go (s.modBlock b.bid (fun x => x.modBody (fun y => { y with buffer := rest ++ b.body.tagged })))
  else s.drained b mine rest

/-- Commit a block's store buffer (06 R122). The buffers of a pair are drained and dropped at its comparison (11 R235), so only
the second commit of a releasing store drains anything here. -/
def State.commit (s : State) (e : Env) : Gate :=
  match s.block? e.bid with
  | none => .go s
  | some b =>
    if b.body.stores.isEmpty then .go s
    else if b.role = .single then s.drained b b.body.stores []
    else
      match b.ctx? e.who with
      | some c => if c.phase.answer = .got [] then s.commitOwn b e.who else .go s
      | none => .go s

/-- Set how far the issuer's instruction has come. -/
def State.setPhase (s : State) (e : Env) (f : Phase → Phase) : State :=
  s.modMe e (fun c => { c with phase := f c.phase })

/-- Release(S) (06 R123): commit, write the core's dirty bytes and contributions back, and at .stk or wider wait for the
acknowledgements of the homes, which RELEASE_ACK_COMPLETE brings: of those on other devices too at .peer, .pod and .sys. A stepped
release has those of this package's homes at once, and waits for no other (12 R250). -/
def State.release (s : State) (e : Env) (sc : Nat) : Gate :=
  if sc ≤ 1 then .go s
  else
    match e.ctx.phase.release with
    | .done => .go s
    | .awaiting => .wait s .acks
    | .abroad _ => .wait s .acks
    | .drained _ => .wait s .acks
    | .none =>
      match s.commit e with
      | .go s1 =>
        let s2 := s1.pushCore e.core
        if sc ≤ 2 || e.ctx.halt.stepper.isSome && !(decide (sc ≥ 8) && s2.unacknowledged s2.fresh) then .go s2
        else .wait (s2.setPhase e (fun p => { p with release := if sc ≥ 8 then .abroad s2.fresh else .awaiting })) .acks
      | .wait s1 w => .wait s1 w
      | .trap s1 t => .trap s1 t

/-- Acquire(S) of a core (06 R124). -/
def State.acquire (s : State) (core sc : Nat) : State := if sc ≤ 1 then s else s.dropClean core

/-- Go on with an operation when a gate opens. -/
def Gate.andThen (g : Gate) (f : State → Gate) : Gate :=
  match g with
  | .go s => f s
  | .wait s w => .wait s w
  | .trap s t => .trap s t

/-- Whether the leading copy stands at the slack limit (11 R234). -/
def State.atSlack (s : State) (b : Block) : Bool :=
  match b.role with
  | .leading =>
    match s.block? b.partner with
    | none => false
    | some p => decide (b.body.storeEvents ≥ p.body.storeEvents + b.params.slack)
  | _ => false

/-- Element size in bytes. -/
def Shape.size (h : Shape) : Nat := 2 ^ h.esize
/-- Elements of the box. -/
def Shape.total (h : Shape) : Nat := h.box.foldl (· * ·) 1

/-- Append a store event to the lead's CRC: behind an MDRST whose values are still to come, it waits for these (11 R233; DEDUCED, log
entry 11). -/
def BlockBody.leadEvent (y : BlockBody) (bs : List Byte) : BlockBody :=
  if y.drains.isEmpty then { y with lead := { y.lead with crc := crc64 y.lead.crc bs } }
  else { y with drains := y.drains ++ [(none, bs)] }

/-- A store event of a pair (11 R233, R234): appended to an issuer's CRC and counted. Outside a pair nothing is kept. -/
def State.storeEvent (s : State) (e : Env) (who : Who) (bs : List Byte) : State :=
  if e.blk.role = .single then s
  else
    (if who.isLead then s.modBlock e.bid (fun b => b.modBody (fun y => y.leadEvent bs))
     else s.modCtx e.bid who (fun c => { c with crc := crc64 c.crc bs })).modBlock e.bid
      (fun b => b.modBody (fun y => { y with storeEvents := y.storeEvents + 1 }))

/-- Whether an MDRST still has values to read that belong into its issuer's CRC (11 R233). -/
def State.rowsOpen (s : State) (oid : Nat) : Bool :=
  match s.op? oid with
  | none => false
  | some o => decide (o.done < o.shape.total) && (decide (o.phase = .waitTrigger) || decide (o.phase = .triggerParked) ||
      decide (o.phase = .running) || decide (o.phase = .parked))

/-- Append to a CRC what waits for it, up to the first MDRST that is still read. -/
def flushDrains (isOpen : Nat → Bool) (crc : DWord) (ds : List (Option Nat × List Byte)) : DWord × List (Option Nat × List Byte) :=
  match ds with
  | [] => (crc, [])
  | (some k, bs) :: rest => if isOpen k then (crc, ds) else flushDrains isOpen (crc64 crc bs) rest
  | (none, bs) :: rest => flushDrains isOpen (crc64 crc bs) rest

/-- A body whose lead's CRC has taken all that it can (11 R233). -/
def BlockBody.flushed (y : BlockBody) (isOpen : Nat → Bool) : BlockBody :=
  let r := flushDrains isOpen y.lead.crc y.drains
  { y with lead := { y.lead with crc := r.1 }, drains := r.2 }

/-- Bring a block's CRCs up to date. -/
def State.flushCrc (s : State) (bid : Nat) : State := s.modBlock bid (fun b => b.modBody (fun y => y.flushed s.rowsOpen))

/-- A store event that its issuer makes outside a commit point: it waits at the slack limit (11 R234). -/
def State.slackGate (s : State) (e : Env) (ev : List Byte) : Gate :=
  if s.atSlack e.blk then .wait s .slack else .go (s.storeEvent e e.who ev)

/-- Whether another issuer of the block waits for the comparison at its commit point, which comes first (11 R235). -/
def Block.heldBy (b : Block) (who : Who) : Bool :=
  b.whos.any (fun w => decide (w ≠ who) && match b.ctx? w with
    | some c => decide (c.phase.compare = .awaiting)
    | none => false)

/-- Arrive at a commit point (11 R229, R230, R235): the instruction's store event, if it has one, enters the signature
(DEDUCED, log entry 11), then the copies of a pair wait until their signatures have been compared. -/
def State.pairPoint (s : State) (e : Env) (ev : List Byte) : Gate :=
  if e.blk.role = .single then .go s
  else
    match e.ctx.phase.compare with
    | .done => .go s
    | .awaiting => .wait s .pair
    | .abroad _ => .wait s .pair
    | .drained _ => .wait s .pair
    | .none =>
      if e.blk.heldBy e.who then .wait s .pair
      else if !ev.isEmpty && s.atSlack e.blk then .wait s .slack
      else
        let s1 := if ev.isEmpty then s else s.storeEvent e e.who ev
        .wait (s1.setPhase e (fun p => { p with compare := .awaiting })) .pair

/-- A commit point before an instruction is performed: the pair's comparison, then the commit. Every commit point takes one
commit ordinal; a pair's is taken at its comparison (11 R230, R235). -/
def State.commitPoint (s : State) (e : Env) (ev : List Byte) : Gate := (s.pairPoint e ev).andThen (fun s1 => s1.commit e)

/-- A commit point that is a release at a scope: no commit point below .core (11 R229). -/
def State.releasePoint (s : State) (e : Env) (ev : List Byte) (sc : Nat) : Gate :=
  if sc ≤ 1 then .go s else (s.pairPoint e ev).andThen (fun s1 => s1.release e sc)

/-- The commit ordinal taken by a commit point of a block alone (11 R230). -/
def State.takeOrdinal (s : State) (e : Env) : State :=
  if e.blk.role = .single then s.modBlock e.bid (fun b => b.modBody (fun y => { y with ordinal := y.ordinal + 1 })) else s

/-- A commit point that stands before its instruction (11 R230): an overflowing store, or a read of an uncommitted RED. In
checkpoint mode the instruction waits until its checkpoint is sealed. -/
def State.commitBefore (s : State) (e : Env) : Gate :=
  if e.ctx.phase.sealing = .done then .go s
  else (s.commitPoint e []).andThen (fun s1 =>
    if e.blk.ckptMode then
      .wait ((s1.takeOrdinal e).setPhase e (fun p => { p with sealing := .awaiting, compare := .none })) .checkpoint
    else .go (s1.takeOrdinal e))

/-- Whether the buffer holds a RED contribution to a word that n bytes touch (18 R376). -/
def bufferRed (buf : List SbEntry) (va n : Nat) : Bool :=
  buf.any (fun e => match e.kind with
    | .red _ => decide (e.va.toNat < va + n) && decide (va < e.va.toNat + 4)
    | _ => false)

/-- Uncommitted bytes of a buffer. -/
def bufferSize (buf : List SbEntry) : Nat := buf.foldl (fun n e => n + e.bytes.length) 0

/-- Uncommitted bytes of all blocks of a core (01 R15). -/
def State.coreBuffer (s : State) (core : Nat) : Nat :=
  s.blocks.foldl (fun n b => if b.core = some core then n + bufferSize b.body.buffer else n) 0

/-- Whether another issuer of a block stands between its comparison and the checkpoint that follows it. -/
def Block.openPoint (b : Block) (who : Who) : Bool :=
  b.whos.any (fun w => decide (w ≠ who) && match b.ctx? w with
    | some c => decide (c.phase.compare = .done)
    | none => false)

/-- Whether a store of n bytes fits: at most 64 KiB a block and 2 MiB a core are uncommitted (02 R27, 01 R15). -/
def State.fits (s : State) (e : Env) (n : Nat) : Bool :=
  decide (bufferSize (e.again s).blk.body.buffer + n ≤ 2 ^ 16) && decide (s.coreBuffer e.core + n ≤ 2 ^ 21)

/-- Make room for a store of n bytes by committing the block's buffer (11 R229). What the other blocks of the core hold uncommitted has
its own commit points: where their bytes fill the core's store buffers, the store waits for these. (DESIGN CHOICE, log entry 66.) While
another issuer of a pair ends a commit point that has been compared, whose checkpoint is sealed with an empty buffer, a store waits
(11 R230, R235; log entry 32). -/
def State.roomFor (s : State) (e : Env) (n : Nat) : Gate :=
  if decide (e.blk.role ≠ .single) && e.blk.openPoint e.who then .wait s .pair
  else if s.fits e n then .go s
  else if e.blk.body.buffer.isEmpty then .wait s .condition
  else
    let s0 := if e.ctx.phase.sealing = .done then s.setPhase e (fun p => { p with sealing := .none }) else s
    (s0.commitBefore (e.again s0)).andThen (fun t => if t.fits e n then .go t else .wait t .condition)

/-- Append an entry to the block's store buffer (06 R122). -/
def State.enterBuffer (s : State) (e : Env) (x : SbEntry) : State :=
  s.modBlock e.bid (fun b => b.modBody (fun y => { y with buffer := y.buffer ++ [x] }))

/-- Mark a block that has made a visible effect (11 R230). -/
def State.mark (s : State) (bid : Nat) : State := s.modBlock bid (fun b => { b with marked := true })

/-- What an instruction does outside its block: of a pair only the leading copy does it (11 R232). -/
def State.outside (s : State) (e : Env) (t : State) : State := if e.blk.role = .trailing then s else t

/-- Forward results of an issuer of the leading copy to the same issuer of the trailing one (11 R236). -/
def State.forward (s : State) (b : Block) (who : Who) (ws : List Word) : State :=
  if b.role = .leading then s.modBlock b.partner (fun p => { p with forwarded := p.forwarded ++ [(who, ws)] }) else s

/-- The oldest result forwarded to an issuer of a trailing copy, removed. -/
def State.takeForwarded (s : State) (b : Block) (who : Who) : Option (State × List Word) :=
  match b.forwarded.find? (fun x => decide (x.1 = who)) with
  | none => none
  | some x => some (s.modBlock b.bid (fun p => { p with forwarded := p.forwarded.erase x }), x.2)

/-- The traps of 07 R144 of a queue handle: reserved bits and the size code. -/
def handleOk (h : Nat) : Bool := decide (bits h 3 3 = 0) && decide (bits h 0 3 ≤ 6)

/-- Control block address of a handle (07 R144). -/
def handleAddr (h : Nat) : Nat := h / 64 * 64

/-- Element size in bytes of a size code (07 R144). -/
def codeSize (code : Nat) : Nat := 4 * 2 ^ code

/-- Translate a control block (07 R144, R325): permissions, then FMT = 0. -/
def State.controlBlock (s : State) (sp : Space) (h : Nat) (need : Need) : State × Except Trap Piece :=
  let r := s.pieces sp (handleAddr h) 64 need
  match r.2 with
  | .error f => (r.1, .error f)
  | .ok [] => (r.1, .error (Trap.at .perm 6 (handleAddr h)))
  | .ok (p :: _) =>
    if p.fmt ≠ 0 then (r.1, .error (Trap.at .fmtmis (p.fmt * 16) (handleAddr h))) else (r.1, .ok p)

/-- The Ridge stop of the issuer's stack (01 R10). -/
def Env.stop (e : Env) : Nat := stopOf (stackOf e.core)

/-- Ridge stop of the home of a physical address, or of the link that leads to it. -/
def State.homeStop (s : State) (pa : Nat) : Nat :=
  if s.away pa then s.linkStop (pa / 2 ^ 42) else stopOf (((s.paCell pa).map stackOfCell).getD 0)

/-- An issuer's instruction has asked its home and awaits the answer; the watch slots in force stay in force for it (12 R240). -/
def State.asking (s : State) (e : Env) : State :=
  s.modMe e (fun c => { c with phase := { c.phase with answer := .awaiting }, slots := some s.proctors.slots })

/-- Send a queue request of an issuer to its home (07 R150, R151), for whom it is made. The issuing core's copy of the control block's
line goes first (05 R102). -/
def State.askFor (s : State) (e : Env) (f : QFrom) (enq try_ : Bool) (p : Piece) (code : Nat) (payload : List Byte) : State :=
  let s0 := (s.evictFor e.core p.pa).ridgeSend .queue e.stop (s.homeStop p.pa) []
  let q : QReq := { rid := s0.fresh, from_ := f, enq := enq, try_ := try_, pa := p.pa,
                    va := BitVec.ofNat 64 p.va, handle := none, code := code, payload := payload, parked := false,
                    busy := false, src := e.stop, unc := p.unc }
  { s0 with qreqs := s0.qreqs ++ [q], fresh := s0.fresh + 1 }

/-- Send a queue request of an issuer that awaits the answer at its instruction. -/
def State.ask (s : State) (e : Env) (enq try_ : Bool) (p : Piece) (code : Nat) (payload : List Byte) : State :=
  (s.askFor e (.actor e.bid e.who) enq try_ p code payload).asking e

/-- Whether the block has a lead, so that it may own grains (11 R220). -/
def Block.hasLead (b : Block) : Bool := b.params.lead != 0

/-- The owner of a grain of a core (09 R175). -/
def State.grainOwner (s : State) (core : Nat) (u : MUnit) (i : Nat) : Option Nat :=
  (s.matrix.grains.find? (fun g => g.core == core && decide (g.unit = u) && g.index == i)).map (·.bid)

end Sys2Proof.Machine
end

