-- ==== Sys2Proof/Machine/Operands.lean ====
section
/-!
DEFINITION. Operand forms: for every instruction word which fields name registers, how wide, which executor runs it and at
which privilege (14 R276 to R278 and the reference entries), the checks of 14 R274 on them, and how operands are read and
results written (03 R48 to R60).
-/
namespace Sys2Proof.Machine

/-- Which field names a register, for the steps of REP; the link register of CALL and RET is implicit. -/
inductive OpRole where
  | d | a | b | link
deriving DecidableEq, Repr

/-- A field that names registers: on a fibre a single, a pair (2) or a quad (4) of 32-bit registers; on the lead one
a-register for 1 and 2, a pair of a-registers for 4 (03 R54, R56). -/
structure Fld where
  role : OpRole
  reg : Nat
  wide : Nat
deriving DecidableEq, Repr

/-- The rd field. -/
def Fld.d (r : Reg) (wide : Nat) : Fld := ⟨.d, r.toNat, wide⟩
/-- The ra field. -/
def Fld.a (r : Reg) (wide : Nat) : Fld := ⟨.a, r.toNat, wide⟩
/-- The rb field. -/
def Fld.b (r : Reg) (wide : Nat) : Fld := ⟨.b, r.toNat, wide⟩
/-- v124:v125, or a124 on the lead (14 R283). -/
def Fld.link : Fld := ⟨.link, 124, 2⟩

/-- What an instruction needs of its issuer and its operands. -/
structure Form where
  guard : Guard
  fe : Bool
  srcs : List Fld
  dsts : List Fld
  names : List Fld
  fibre : Bool
  lead : Bool
  super : Bool
  coll : Bool
  mem : Bool
  repeatable : Bool
deriving DecidableEq, Repr

/-- A form that names no register and runs anywhere. -/
def base (g : Guard) (fe : Bool) : Form :=
  { guard := g, fe := fe, srcs := [], dsts := [], names := [], fibre := true, lead := true, super := false, coll := false,
    mem := false, repeatable := false }

/-- The guard of a g1 bit (14 R272). -/
def g1 (b : Bool) : Guard := if b then .p0 else .always

/-- Registers of a size code (14 R278): 1, a pair or a quad. -/
def sizeRegs (sz : BitVec 3) : Nat := if sz.toNat = 6 then 4 else if sz.toNat = 5 then 2 else 1

/-- Bytes of a size code (14 R278). -/
def sizeBytes (sz : BitVec 3) : Nat :=
  match sz.toNat with
  | 0 => 1
  | 1 => 1
  | 2 => 2
  | 3 => 2
  | 4 => 4
  | 5 => 8
  | _ => 16

/-- The operand form of every instruction. Sources stand in the order in which they are checked and popped: ra, rb, rd
(DEDUCED, log entry 9). -/
def form (i : Instr) : Form :=
  match i with
  | .nop g => base g false
  | .br _ g => base g false
  | .bri ra fe g => { base g fe with srcs := [.a ra 2] }
  | .call _ g => { base g false with dsts := [.link] }
  | .ret fe g => { base g fe with srcs := [.link] }
  | .yield g => base g false
  | .rep _ _ _ _ => base .always false
  | .trap _ g => base g false
  | .eret ra rb fe g => { base g fe with srcs := [.a ra 2, .b rb 1], super := true }
  | .endIssue g => base g false
  | .fork rd ra rb fe g => { base g fe with srcs := [.a ra 2, .b rb 1], dsts := [.d rd 1], lead := false }
  | .upush ra fe g => { base g fe with srcs := [.a ra 1], fibre := false }
  | .sete rd g => { base g false with dsts := [.d rd 1], repeatable := true }
  | .waitf _ _ g => base g false
  | .waito _ _ g => base g false
  | .iadd rd ra rb fe g => { base g fe with srcs := [.a ra 1, .b rb 1], dsts := [.d rd 1], repeatable := true }
  | .isub rd ra rb fe g => { base g fe with srcs := [.a ra 1, .b rb 1], dsts := [.d rd 1], repeatable := true }
  | .imul rd ra rb fe g => { base g fe with srcs := [.a ra 1, .b rb 1], dsts := [.d rd 1], repeatable := true }
  | .imulh rd ra rb fe g => { base g fe with srcs := [.a ra 1, .b rb 1], dsts := [.d rd 1], repeatable := true }
  | .imulhu rd ra rb fe g => { base g fe with srcs := [.a ra 1, .b rb 1], dsts := [.d rd 1], repeatable := true }
  | .imad rd ra rb fe g => { base g fe with srcs := [.a ra 1, .b rb 1, .d rd 1], dsts := [.d rd 1], repeatable := true }
  | .div rd ra rb fe g => { base g fe with srcs := [.a ra 1, .b rb 1], dsts := [.d rd 1], repeatable := true }
  | .divu rd ra rb fe g => { base g fe with srcs := [.a ra 1, .b rb 1], dsts := [.d rd 1], repeatable := true }
  | .and rd ra rb fe g => { base g fe with srcs := [.a ra 1, .b rb 1], dsts := [.d rd 1], repeatable := true }
  | .or rd ra rb fe g => { base g fe with srcs := [.a ra 1, .b rb 1], dsts := [.d rd 1], repeatable := true }
  | .xor rd ra rb fe g => { base g fe with srcs := [.a ra 1, .b rb 1], dsts := [.d rd 1], repeatable := true }
  | .andn rd ra rb fe g => { base g fe with srcs := [.a ra 1, .b rb 1], dsts := [.d rd 1], repeatable := true }
  | .shl rd ra rb fe g => { base g fe with srcs := [.a ra 1, .b rb 1], dsts := [.d rd 1], repeatable := true }
  | .shr rd ra rb fe g => { base g fe with srcs := [.a ra 1, .b rb 1], dsts := [.d rd 1], repeatable := true }
  | .sar rd ra rb fe g => { base g fe with srcs := [.a ra 1, .b rb 1], dsts := [.d rd 1], repeatable := true }
  | .imin rd ra rb fe g => { base g fe with srcs := [.a ra 1, .b rb 1], dsts := [.d rd 1], repeatable := true }
  | .imax rd ra rb fe g => { base g fe with srcs := [.a ra 1, .b rb 1], dsts := [.d rd 1], repeatable := true }
  | .iminu rd ra rb fe g => { base g fe with srcs := [.a ra 1, .b rb 1], dsts := [.d rd 1], repeatable := true }
  | .imaxu rd ra rb fe g => { base g fe with srcs := [.a ra 1, .b rb 1], dsts := [.d rd 1], repeatable := true }
  | .iadds rd ra rb fe g => { base g fe with srcs := [.a ra 1, .b rb 1], dsts := [.d rd 1], repeatable := true }
  | .addmin rd ra rb fe g => { base g fe with srcs := [.a ra 1, .b rb 1, .d rd 1], dsts := [.d rd 1], repeatable := true }
  | .addmax rd ra rb fe g => { base g fe with srcs := [.a ra 1, .b rb 1, .d rd 1], dsts := [.d rd 1], repeatable := true }
  | .sel rd ra rb fe g => { base g fe with srcs := [.a ra 1, .b rb 1], dsts := [.d rd 1], repeatable := true }
  | .lea _ ra rb fe g => { base g fe with srcs := [.a ra 2, .b rb 1], dsts := [.a ra 2], repeatable := true }
  | .bfx rd ra rb fe g => { base g fe with srcs := [.a ra 1, .b rb 1], dsts := [.d rd 1], repeatable := true }
  | .bfi rd ra rb fe g => { base g fe with srcs := [.a ra 1, .b rb 1, .d rd 1], dsts := [.d rd 1], repeatable := true }
  | .icmp _ _ ra rb fe g => { base g fe with srcs := [.a ra 1, .b rb 1], repeatable := true }
  | .icmpu _ _ ra rb fe g => { base g fe with srcs := [.a ra 1, .b rb 1], repeatable := true }
  | .iabs rd ra fe g => { base g fe with srcs := [.a ra 1], dsts := [.d rd 1], repeatable := true }
  | .popc rd ra fe g => { base g fe with srcs := [.a ra 1], dsts := [.d rd 1], repeatable := true }
  | .clz rd ra fe g => { base g fe with srcs := [.a ra 1], dsts := [.d rd 1], repeatable := true }
  | .brev rd ra fe g => { base g fe with srcs := [.a ra 1], dsts := [.d rd 1], repeatable := true }
  | .mov rd ra fe g => { base g fe with srcs := [.a ra 1], dsts := [.d rd 1], repeatable := true }
  | .movi rd _ g => { base g false with dsts := [.d rd 1], repeatable := true }
  | .movhi rd _ => { base .always false with srcs := [.d rd 1], dsts := [.d rd 1], repeatable := true }
  | .iaddi rd ra _ g => { base g false with srcs := [.a ra 1], dsts := [.d rd 1], repeatable := true }
  | .andImm rd ra _ g => { base g false with srcs := [.a ra 1], dsts := [.d rd 1], repeatable := true }
  | .orImm rd ra _ g => { base g false with srcs := [.a ra 1], dsts := [.d rd 1], repeatable := true }
  | .xorImm rd ra _ g => { base g false with srcs := [.a ra 1], dsts := [.d rd 1], repeatable := true }
  | .shlImm rd ra _ g => { base g false with srcs := [.a ra 1], dsts := [.d rd 1], repeatable := true }
  | .shrImm rd ra _ g => { base g false with srcs := [.a ra 1], dsts := [.d rd 1], repeatable := true }
  | .sarImm rd ra _ g => { base g false with srcs := [.a ra 1], dsts := [.d rd 1], repeatable := true }
  | .movx rd ra fe g => { base g fe with srcs := [.a ra 1], dsts := [.d rd 1], lead := false, repeatable := true }
  | .movxw ra rb fe g => { base g fe with srcs := [.a ra 1, .b rb 1], lead := false, repeatable := true }
  | .win _ g => { base g false with lead := false }
  | .winadd _ g => { base g false with lead := false }
  | .xlane rd ra rb fe g => { base g fe with srcs := [.a ra 1, .b rb 1], dsts := [.d rd 1], lead := false, coll := true }
  | .xshf rd ra _ g => { base g false with srcs := [.a ra 1], dsts := [.d rd 1], lead := false, coll := true }
  | .pand _ _ _ g => { base g false with repeatable := true }
  | .por _ _ _ g => { base g false with repeatable := true }
  | .pxor _ _ _ g => { base g false with repeatable := true }
  | .pnot _ _ g => { base g false with repeatable := true }
  | .pmovToPredicate _ ra fe g => { base g fe with srcs := [.a ra 1], repeatable := true }
  | .pmovFromWord rd g => { base g false with dsts := [.d rd 1], repeatable := true }
  | .vote rd _ _ g => { base g false with dsts := [.d rd 1], lead := false, coll := true }
  | .sread rd _ g => { base g false with dsts := [.d rd 1], repeatable := true }
  | .sysr rd imm g => { base g false with dsts := [.d rd 2], super := decide (imm.toNat ≠ 18) }
  | .sysw rd imm g => { base g false with srcs := [.d rd 2], super := decide (imm.toNat ≠ 18) }
  | .tlbiPage ra rb fe g => { base g fe with srcs := [.a ra 2, .b rb 1], super := true }
  | .tlbiAsn rb fe g => { base g fe with srcs := [.b rb 1], super := true }
  | .tlbiAll g => { base g false with super := true }
  | .sigr rd g => { base g false with dsts := [.d rd 2] }
  | .chkpt g => base g false
  | .prog _ g => base g false
  | .ifence _ g => { base (g1 g) false with mem := true }
  | .faddF32 rd ra rb fe g => { base g fe with srcs := [.a ra 1, .b rb 1], dsts := [.d rd 1], repeatable := true }
  | .faddBf16x2 rd ra rb fe g => { base g fe with srcs := [.a ra 1, .b rb 1], dsts := [.d rd 1], lead := false, repeatable := true }
  | .faddF16x2 rd ra rb fe g => { base g fe with srcs := [.a ra 1, .b rb 1], dsts := [.d rd 1], lead := false, repeatable := true }
  | .fsubF32 rd ra rb fe g => { base g fe with srcs := [.a ra 1, .b rb 1], dsts := [.d rd 1], repeatable := true }
  | .fsubBf16x2 rd ra rb fe g => { base g fe with srcs := [.a ra 1, .b rb 1], dsts := [.d rd 1], lead := false, repeatable := true }
  | .fsubF16x2 rd ra rb fe g => { base g fe with srcs := [.a ra 1, .b rb 1], dsts := [.d rd 1], lead := false, repeatable := true }
  | .fmulF32 rd ra rb fe g => { base g fe with srcs := [.a ra 1, .b rb 1], dsts := [.d rd 1], repeatable := true }
  | .fmulBf16x2 rd ra rb fe g => { base g fe with srcs := [.a ra 1, .b rb 1], dsts := [.d rd 1], lead := false, repeatable := true }
  | .fmulF16x2 rd ra rb fe g => { base g fe with srcs := [.a ra 1, .b rb 1], dsts := [.d rd 1], lead := false, repeatable := true }
  | .fmaF32 rd ra rb fe g => { base g fe with srcs := [.a ra 1, .b rb 1, .d rd 1], dsts := [.d rd 1], repeatable := true }
  | .fmaBf16x2 rd ra rb fe g => { base g fe with srcs := [.a ra 1, .b rb 1, .d rd 1], dsts := [.d rd 1], lead := false, repeatable := true }
  | .fmaF16x2 rd ra rb fe g => { base g fe with srcs := [.a ra 1, .b rb 1, .d rd 1], dsts := [.d rd 1], lead := false, repeatable := true }
  | .fminF32 rd ra rb fe g => { base g fe with srcs := [.a ra 1, .b rb 1], dsts := [.d rd 1], repeatable := true }
  | .fminBf16x2 rd ra rb fe g => { base g fe with srcs := [.a ra 1, .b rb 1], dsts := [.d rd 1], lead := false, repeatable := true }
  | .fminF16x2 rd ra rb fe g => { base g fe with srcs := [.a ra 1, .b rb 1], dsts := [.d rd 1], lead := false, repeatable := true }
  | .fmaxF32 rd ra rb fe g => { base g fe with srcs := [.a ra 1, .b rb 1], dsts := [.d rd 1], repeatable := true }
  | .fmaxBf16x2 rd ra rb fe g => { base g fe with srcs := [.a ra 1, .b rb 1], dsts := [.d rd 1], lead := false, repeatable := true }
  | .fmaxF16x2 rd ra rb fe g => { base g fe with srcs := [.a ra 1, .b rb 1], dsts := [.d rd 1], lead := false, repeatable := true }
  | .fcmpF32 _ _ ra rb fe g => { base g fe with srcs := [.a ra 1, .b rb 1], repeatable := true }
  | .fcmpBf16x2 _ _ ra rb fe g => { base g fe with srcs := [.a ra 1, .b rb 1], lead := false, repeatable := true }
  | .fcmpF16x2 _ _ ra rb fe g => { base g fe with srcs := [.a ra 1, .b rb 1], lead := false, repeatable := true }
  | .fabs rd ra fmt fe g => { base g fe with srcs := [.a ra 1], dsts := [.d rd 1], lead := decide (fmt.toNat = 0), repeatable := true }
  | .fneg rd ra fmt fe g => { base g fe with srcs := [.a ra 1], dsts := [.d rd 1], lead := decide (fmt.toNat = 0), repeatable := true }
  | .fcvt rd ra _ _ fe g => { base g fe with srcs := [.a ra 1], dsts := [.d rd 1], lead := false, repeatable := true }
  | .fcvti rd ra _ fe g => { base g fe with srcs := [.a ra 1], dsts := [.d rd 1], repeatable := true }
  | .icvtf rd ra _ fe g => { base g fe with srcs := [.a ra 1], dsts := [.d rd 1], repeatable := true }
  | .frcp rd ra fe g => { base g fe with srcs := [.a ra 1], dsts := [.d rd 1], repeatable := true }
  | .frsq rd ra fe g => { base g fe with srcs := [.a ra 1], dsts := [.d rd 1], repeatable := true }
  | .fexp2 rd ra fe g => { base g fe with srcs := [.a ra 1], dsts := [.d rd 1], repeatable := true }
  | .flog2 rd ra fe g => { base g fe with srcs := [.a ra 1], dsts := [.d rd 1], repeatable := true }
  | .frnd rd ra _ fe g => { base g fe with srcs := [.a ra 1], dsts := [.d rd 1], repeatable := true }
  | .fclass rd ra fe g => { base g fe with srcs := [.a ra 1], dsts := [.d rd 1], repeatable := true }
  | .fdot2Bf16 rd ra rb fe g => { base g fe with srcs := [.a ra 1, .b rb 1, .d rd 1], dsts := [.d rd 1], lead := false, repeatable := true }
  | .fdot2F16 rd ra rb fe g => { base g fe with srcs := [.a ra 1, .b rb 1, .d rd 1], dsts := [.d rd 1], lead := false, repeatable := true }
  | .fdot4F8a rd ra rb fe g => { base g fe with srcs := [.a ra 1, .b rb 1, .d rd 1], dsts := [.d rd 1], lead := false, repeatable := true }
  | .fdot4F8b rd ra rb fe g => { base g fe with srcs := [.a ra 1, .b rb 1, .d rd 1], dsts := [.d rd 1], lead := false, repeatable := true }
  | .ld rd ra sz _ _ g => { base (g1 g) false with srcs := [.a ra 2], dsts := [.d rd (sizeRegs sz)], mem := true }
  | .st rd ra sz _ _ g => { base (g1 g) false with srcs := [.a ra 2, .d rd (sizeRegs sz)], mem := true }
  | .ldl rd ra sz _ _ g => { base (g1 g) false with srcs := [.a ra 2], dsts := [.d rd (sizeRegs sz)], lead := false, coll := true, mem := true }
  | .stl rd ra sz _ _ g => { base (g1 g) false with srcs := [.a ra 2, .d rd (sizeRegs sz)], lead := false, coll := true, mem := true }
  | .ldt rd ra sz _ _ g => { base (g1 g) false with srcs := [.a ra 2], dsts := [.d rd (sizeRegs sz)], mem := true }
  | .stt rd ra sz _ _ g => { base (g1 g) false with srcs := [.a ra 2, .d rd (sizeRegs sz)], mem := true }
  | .lde rd ra rb fe g => { base g fe with srcs := [.a ra 2, .b rb 1], dsts := [.d rd 1], mem := true, repeatable := true }
  | .pref ra _ g => { base (g1 g) false with srcs := [.a ra 2] }
  | .cflush rd ra _ g => { base (g1 g) false with srcs := [.a ra 2, .d rd 1], mem := true }
  | .cinv rd ra _ g => { base (g1 g) false with srcs := [.a ra 2, .d rd 1], mem := true }
  | .fence _ _ g => { base (g1 g) false with mem := true }
  | .acasRelaxed rd ra rb _ => { base .always false with srcs := [.a ra 2, .b rb 1, .d rd 1], dsts := [.d rd 1], mem := true }
  | .acasAcqRel rd ra rb _ => { base .always false with srcs := [.a ra 2, .b rb 1, .d rd 1], dsts := [.d rd 1], mem := true }
  | .atomRelaxed _ rd ra rb _ => { base .always false with srcs := [.a ra 2, .b rb 1], dsts := [.d rd 1], mem := true }
  | .atomAcqRel _ rd ra rb _ => { base .always false with srcs := [.a ra 2, .b rb 1], dsts := [.d rd 1], mem := true }
  | .red _ ra rb _ => { base .always false with srcs := [.a ra 2, .b rb 1], mem := true }
  | .enq ra rb fe g => { base g fe with srcs := [.a ra 2], names := [.b rb 1], mem := true }
  | .enqt rd ra rb fe g => { base g fe with srcs := [.a ra 2], dsts := [.d rd 1], names := [.b rb 1], mem := true }
  | .deq rd ra fe g => { base g fe with srcs := [.a ra 2], names := [.d rd 1], mem := true }
  | .deqt rd ra rb fe g => { base g fe with srcs := [.a ra 2], dsts := [.d rd 1], names := [.b rb 1], mem := true }
  | .qinit rd ra rb fe g => { base g fe with srcs := [.a ra 2, .b rb 4], dsts := [.d rd 1], mem := true }
  | .qstat rd ra fe g => { base g fe with srcs := [.a ra 2], dsts := [.d rd 4], mem := true }
  | .bari ra rb fe g => { base g fe with srcs := [.a ra 1, .b rb 1] }
  | .bara rd ra rb fe g => { base g fe with srcs := [.a ra 1, .b rb 1], dsts := [.d rd 1] }
  | .barw ra fe g => { base g fe with srcs := [.a ra 1] }
  | .cpy rd ra _ g => { base (g1 g) false with srcs := [.a ra 2, .d rd 2], lead := false, mem := true }
  | .cpyb rd ra rb fe g => { base g fe with srcs := [.a ra 2, .d rd 2], names := [.b rb 1], fibre := false, mem := true }
  | .cpys rd ra rb fe g => { base g fe with srcs := [.a ra 2, .d rd 2], names := [.b rb 1], fibre := false, mem := true }
  | .mma ra fe g => { base g fe with srcs := [.a ra 2], fibre := false }
  | .mzero ra fe g => { base g fe with srcs := [.a ra 2], fibre := false }
  | .mldb rd ra rb fe g => { base g fe with srcs := [.a ra 2, .d rd 2], names := [.b rb 1], fibre := false, mem := true }
  | .mdrain ra fe g => { base g fe with srcs := [.a ra 4], fibre := false, mem := true }
  | .mdrst rd ra rb fe g => { base g fe with srcs := [.a ra 2, .d rd 2], names := [.b rb 1], fibre := false, mem := true }
  | .afeed ra rb fe g => { base g fe with srcs := [.a ra 1, .b rb 4], lead := false }
  | .adrn rd ra fe g => { base g fe with srcs := [.a ra 1], dsts := [.d rd 4], lead := false }
  | .hread rd ra rb fe g => { base g fe with srcs := [.a ra 2, .b rb 1], dsts := [.d rd 1], super := true }
  | .hwrite rd ra rb fe g => { base g fe with srcs := [.a ra 2, .b rb 1, .d rd 1], super := true }
  | .hstep rd ra fe g => { base g fe with srcs := [.a ra 2], dsts := [.d rd 1], super := true }
  | .hrun ra rb fe g => { base g fe with srcs := [.a ra 2, .b rb 1], super := true }
  | .wset ra rb fe g => { base g fe with srcs := [.a ra 1, .b rb 2], super := true, mem := true }
  | .wclr ra fe g => { base g fe with srcs := [.a ra 1], super := true }
  | .deviceReset _ => base .always false
  | .bundleReformation _ => base .always false
  | .readyAgeOverride _ => base .always false
  | .producerComplete _ _ _ => base .always false
  | .fibreEnded _ _ => base .always false
  | .blockRetire _ => base .always false
  | .releaseAckComplete _ _ => base .always false
  | .pageWalkComplete _ _ => base .always false
  | .l1Eviction _ _ => base .always false
  | .queueEnqAtHome _ => base .always false
  | .queueEnqWriteAck _ => base .always false
  | .queueDeqAtHome _ => base .always false
  | .queueDeqReadDone _ => base .always false
  | .rollBusyResend _ => base .always false
  | .taggedAccessAtHome _ => base .always false
  | .cpyComplete _ => base .always false
  | .engineTriggerDeq _ => base .always false
  | .operandsConsumedEvent _ => base .always false
  | .engineUnitWrite _ => base .always false
  | .engineOperationEnd _ => base .always false
  | .bSliceLoadComplete _ => base .always false
  | .matrixCommandStart _ => base .always false
  | .matrixCommandComplete _ => base .always false
  | .mdrainReadoutDone _ => base .always false
  | .summitContributionArrive _ => base .always false
  | .summitDelivery _ => base .always false
  | .launchAccept _ => base .always false
  | .blockSeat _ => base .always false
  | .launchComplete _ => base .always false
  | .preemptPriority _ => base .always false
  | .preemptHost _ => base .always false
  | .preemptGovernor _ => base .always false
  | .blockSave _ => base .always false
  | .preemptRetry _ => base .always false
  | .blockResume _ => base .always false
  | .resumeRetry => base .always false
  | .resumeSkip => base .always false
  | .resumeAbort => base .always false
  | .checkpointSeal _ => base .always false
  | .signatureCompare _ => base .always false
  | .trialStart _ => base .always false
  | .trialWindowEnd => base .always false
  | .trialDelayExpire _ => base .always false
  | .governorStep _ _ => base .always false
  | .governorEmergencyBegin _ _ => base .always false
  | .governorEmergencyEnd _ => base .always false
  | .dramRequestService _ => base .always false
  | .deadlineUrgent _ => base .always false
  | .bankBackoffEnd _ _ => base .always false
  | .actselClear _ _ => base .always false
  | .amapCommit _ _ => base .always false
  | .launchQueueEnable _ _ => base .always false
  | .registerWrite _ _ _ => base .always false
  | .hifence _ _ => base .always false
  | .hifenceComplete _ => base .always false
  | .hifenceTimeout _ => base .always false
  | .qwHandle _ _ _ => base .always false
  | .qwEnq _ _ _ => base .always false
  | .qwStagingEnqueue _ _ => base .always false
  | .qwDeq _ _ => base .always false
  | .hostApertureRead _ _ _ => base .always false
  | .hostApertureWrite _ _ _ => base .always false
  | .peerFlitReceive _ _ => base .always false
  | .laneRepair _ _ => base .always false
  | .remoteRequestAtTarget _ => base .always false
  | .remoteResend _ => base .always false
  | .remoteTimeout _ => base .always false
  | .deadMarkClear _ => base .always false
  | .extentRelease _ _ => base .always false
  | .ridgeMessageDeliver _ _ _ => base .always false
  | .ridgeInjectionReserve _ _ => base .always false
  | .attestationRequest _ => base .always false
  | .expertUnlock _ _ => base .always false
  | .ordinaryRefresh _ _ => base .always false
  | .linkRetrainComplete _ => base .always false
  | .amapCommitComplete _ => base .always false
  | .unassignedOpcode _ => base .always false
  | .instructionFetchFault _ => base .always false

/-- A signed step of REP (14 R271). -/
def stepOf (x : BitVec 3) : Int := x.toInt

/-- A field value stepped for iteration i (14 R284): 126 and 127 are never stepped. -/
def stepReg (reg : Nat) (step : Int) (i : Nat) : Int := if reg ≥ 126 then reg else (reg : Int) + i * step

/-- The step of a field's role. -/
def Rep.stepFor (r : Rep) (role : OpRole) : Int :=
  match role with
  | .d => stepOf r.sd
  | .a => stepOf r.sa
  | .b => stepOf r.sb
  | .link => 0

/-- A field as the current iteration of a repeat names it (14 R284). -/
def Fld.stepped (f : Fld) (r : Rep) : Fld :=
  if r.active then { f with reg := (stepReg f.reg (r.stepFor f.role) r.index).toNat } else f

/-- A form with its fields stepped. -/
def Form.stepped (f : Form) (r : Rep) : Form :=
  { f with srcs := f.srcs.map (fun x => x.stepped r), dsts := f.dsts.map (fun x => x.stepped r),
           names := f.names.map (fun x => x.stepped r) }

/-- Whether a field is legal (03 R48, R50, R54, R56): zr always; uq only as a single fibre source where it is allowed;
alignment, the end of the field range and the allocation bound. -/
def Fld.legal (f : Fld) (lead : Bool) (wb alloc : Nat) (uqOk : Bool) : Bool :=
  if f.reg = 126 then true
  else if f.reg ≥ 127 then !lead && uqOk && decide (f.wide = 1) && decide (f.reg = 127)
  else if lead then (if f.wide = 4 then decide (f.reg % 2 = 0 ∧ f.reg + 1 ≤ 125) else true)
  else decide (f.reg % f.wide = 0) && decide (f.reg + f.wide ≤ 126) && decide (wb + f.reg + f.wide ≤ alloc)

/-- Checks of an encoding that need wb or the allocation beside the fields: WAITF's range, WIN and WINADD (03 R52, 18 R398). -/
def extraLegal (i : Instr) (lead : Bool) (wb alloc : Nat) : Bool :=
  match i with
  | .waitf ra rb _ => lead || decide (wb + ra.toNat + rb.toNat + 1 ≤ alloc)
  | .win imm _ => decide (imm.toNat % 2 = 0 ∧ imm.toNat < alloc)
  | .winadd imm _ =>
    let t : Int := (wb : Int) + imm.toInt
    decide (t % 2 = 0 ∧ 0 ≤ t ∧ t < alloc)
  | _ => true

/-- Step 4 of 14 R274: codes, register bounds, uq, alignment. -/
def Form.legal (f : Form) (i : Instr) (lead : Bool) (wb alloc : Nat) : Bool :=
  i.wellFormed && extraLegal i lead wb alloc && f.srcs.all (fun x => x.legal lead wb alloc (!f.coll)) &&
    f.dsts.all (fun x => x.legal lead wb alloc false) && f.names.all (fun x => x.legal lead wb alloc false)

/-- The register cells of a field: none for zr and uq. -/
def Fld.cells (f : Fld) (lead : Bool) (wb : Nat) : List Nat :=
  if f.reg ≥ 126 then []
  else if lead then span (2 * f.reg) (if f.wide = 4 then 4 else 2)
  else span (wb + f.reg) f.wide

/-- The full/empty bits of a field, by allocation index or a-register number. -/
def Fld.fullBits (f : Fld) (lead : Bool) (wb : Nat) : List Nat :=
  if f.reg ≥ 126 then []
  else if lead then span f.reg (if f.wide = 4 then 2 else 1)
  else span (wb + f.reg) f.wide

/-- Whether the guard holds (14 R272). -/
def guardHolds (g : Guard) (c : Ctx) : Bool :=
  match g with
  | .always => true
  | .p0 => c.pred 0
  | .notP0 => !c.pred 0
  | .p1 => c.pred 1

/-- The number of uq pops of a form (03 R62). -/
def Form.pops (f : Form) : Nat := (f.srcs.filter (fun x => x.reg == 127)).length

/-- The first empty bit of a list. -/
def Ctx.firstEmpty (c : Ctx) (bs : List Nat) : Option Nat := bs.find? (fun b => c.empties.contains b)

/-- Unread entries of the uniform queue for a fibre (03 R62). -/
def Env.unread (e : Env) : Nat := e.blk.body.uqBase + e.blk.body.uq.length - e.ctx.uqPos

/-- What stands in the way of a source: an empty register's bit, or a missing uq entry (03 R59, R64). -/
inductive Missing where
  | reg (bit : Nat)
  | uq
deriving DecidableEq, Repr

/-- The first source that cannot be read, with k uq entries already spoken for. -/
def firstMissing (e : Env) (srcs : List Fld) (k : Nat) : Option Missing :=
  match srcs with
  | [] => none
  | f :: rest =>
    if f.reg = 127 then (if e.unread ≤ k then some .uq else firstMissing e rest (k + 1))
    else match e.ctx.firstEmpty (f.fullBits e.lead e.ctx.wb.toNat) with
      | some b => some (.reg b)
      | none => firstMissing e rest k

/-- The values of the sources in order (14 R295): registers, zero for zr, the next entries of the uniform queue. -/
def readSrcs (e : Env) (srcs : List Fld) (k : Nat) : List Nat :=
  match srcs with
  | [] => []
  | f :: rest =>
    if f.reg = 127 then
      ((e.blk.body.uq.getD (e.ctx.uqPos + k - e.blk.body.uqBase) 0).toNat) :: readSrcs e rest (k + 1)
    else e.ctx.cellsValue (f.cells e.lead e.ctx.wb.toNat) :: readSrcs e rest k

/-- The words that a result of a field takes: its registers on a fibre, two for each a-register on the lead. -/
def Fld.words (f : Fld) (lead : Bool) (v : Nat) : List Word :=
  wordsOfNat (if lead then (if f.wide = 4 then 4 else 2) else f.wide) v

/-- Write results to destinations in order and mark them full (03 R58); a write to zr is discarded. -/
def writeDsts (e : Env) (c : Ctx) (dsts : List Fld) (vals : List Nat) : Ctx :=
  match dsts, vals with
  | f :: fs, v :: vs =>
    writeDsts e (c.writeReg (f.cells e.lead e.ctx.wb.toNat) (f.fullBits e.lead e.ctx.wb.toNat) (f.words e.lead v)) fs vs
  | _, _ => c

/-- Free the entries of the uniform queue that every live fibre has popped (03 R63). -/
def Block.freeUq (b : Block) : Block :=
  let top := b.body.uqBase + b.body.uq.length
  let low := b.liveFibres.foldl (fun m e => if e.2.uqPos < m then e.2.uqPos else m) top
  if low ≤ b.body.uqBase then b
  else { b with body := { b.body with uq := b.body.uq.drop (low - b.body.uqBase), uqBase := low } }

end Sys2Proof.Machine
end

