-- ==== Sys2Proof/Machine/Proctor.lean ====
section
/-!
DEFINITION. Proctors (12 R238 to R246, R252): what an instruction shows to the watch slots, which slots match, counting,
tracing and halting.
-/
namespace Sys2Proof.Machine

/-- A value with the 32-bit words a nan comparison tests: none for byte and half-word data (12 R242). -/
structure SeenValue where
  value : Nat
  words : List Nat
deriving DecidableEq, Repr

/-- What an instruction shows to proctors. -/
structure Seen where
  pc : Option Nat
  loads : List (Nat × Nat)
  stores : List (Nat × Nat)
  stored : Option SeenValue
  loaded : Option SeenValue
  queue : Option Nat
  raised : Option FpFlags
deriving DecidableEq, Repr

/-- An instruction that shows only its PC. -/
def Seen.at (pc : DWord) : Seen :=
  { pc := some pc.toNat, loads := [], stores := [], stored := none, loaded := none, queue := none, raised := none }

/-- A register value of a size code as kinds 4 and 5 compare it (12 R242): sign-extended for bs and hs, the low 8 bytes. -/
def seenValue (sz : BitVec 3) (v : Nat) : SeenValue :=
  let n := sizeBytes sz
  let x := v % 2 ^ (8 * n)
  let s := if sz.toNat = 1 ∨ sz.toNat = 3 then wrap 64 (signed (8 * n) x) else x % 2 ^ 64
  { value := s, words := if n < 4 then [] else (List.range (n / 4)).map (fun i => bits x (32 * i) 32) }

/-- What an instruction shows before it is performed, from the values of its full leading sources in the order of its form
(12 R242). PREF, CFLUSH and CINV are never watched. -/
def seenBefore (i : Instr) (pc : DWord) (vals : List Nat) : Seen :=
  let s := Seen.at pc
  let at_ (k n : Nat) : List (Nat × Nat) := (vals[k]?).toList.map (fun a => (a, n))
  let stored (sz : BitVec 3) : Option SeenValue := (vals[1]?).map (seenValue sz)
  let queue := (vals[0]?).map handleAddr
  match i with
  | .ld _ _ sz _ _ _ => { s with loads := at_ 0 (sizeBytes sz) }
  | .ldl _ _ sz _ _ _ => { s with loads := at_ 0 (sizeBytes sz) }
  | .ldt _ _ sz _ _ _ => { s with loads := at_ 0 (sizeBytes sz) }
  | .st _ _ sz _ _ _ => { s with stores := at_ 0 (sizeBytes sz), stored := stored sz }
  | .stl _ _ sz _ _ _ => { s with stores := at_ 0 (sizeBytes sz), stored := stored sz }
  | .stt _ _ sz _ _ _ => { s with stores := at_ 0 (sizeBytes sz), stored := stored sz }
  | .cpy _ _ sz _ => { s with loads := at_ 0 (sizeBytes sz), stores := at_ 1 (sizeBytes sz) }
  | .acasRelaxed _ _ _ _ => { s with loads := at_ 0 4, stores := at_ 0 4 }
  | .acasAcqRel _ _ _ _ => { s with loads := at_ 0 4, stores := at_ 0 4 }
  | .atomRelaxed _ _ _ _ _ => { s with loads := at_ 0 4, stores := at_ 0 4 }
  | .atomAcqRel _ _ _ _ _ => { s with loads := at_ 0 4, stores := at_ 0 4 }
  | .red _ _ _ _ => { s with stores := at_ 0 4 }
  | .enq _ _ _ _ => { s with queue := queue }
  | .enqt _ _ _ _ _ => { s with queue := queue }
  | .deq _ _ _ _ => { s with queue := queue }
  | .deqt _ _ _ _ _ => { s with queue := queue }
  | .qinit _ _ _ _ _ => { s with queue := queue }
  | .qstat _ _ _ _ => { s with queue := queue }
  | .pref .. => { s with pc := none }
  | .cflush .. => { s with pc := none }
  | .cinv .. => { s with pc := none }
  | _ => s

/-- Elements per 64 KiB unit of a formatted page (05 R96). -/
def unitElems (fmt geom : Nat) : Nat :=
  match fmt, geom with
  | 1, 0 => 131072
  | 1, _ => 114688
  | _, 0 => 65536
  | _, _ => 63488

/-- The address of an element of a formatted page (17 R348): its format, its number within its unit and the address of its byte. -/
def State.elemAddr (s : State) (sp : Space) (b n : Nat) : State × Except Trap (Nat × Nat × Nat) :=
  let need : Need := { r := true, w := false, x := false }
  if b % 65536 ≠ 0 then (s, .error (Trap.plain .illopd))
  else
    let r := s.pieces sp b 1 need
    match r.2 with
    | .error t => (r.1, .error t)
    | .ok [] => (r.1, .error (Trap.plain .illopd))
    | .ok (p :: _) =>
      let f := p.fmt
      let geom := pteGeom p.entry
      if f = 0 ∨ f > 3 then (r.1, .error (Trap.at .fmtmis (f * 16 + 15) b))
      else
        let i := n % unitElems f geom
        let u := (b + 65536 * (n / unitElems f geom)) % 2 ^ 64
        let q := r.1.pieces sp u 1 need
        match q.2 with
        | .error t => (q.1, .error t)
        | .ok [] => (q.1, .error (Trap.plain .illopd))
        | .ok (p :: _) =>
          if p.fmt ≠ f then (q.1, .error (Trap.at .fmtmis (p.fmt * 16 + f) u))
          else if pteGeom p.entry ≠ geom then (q.1, .error (Trap.at .fmtmis (p.fmt * 16 + f + 0x200) u))
          else (q.1, .ok (f, i, u + (if f = 1 then i / 2 else i)))

/-- What an instruction of an issuer shows before it is performed: of LDE the address of its element, once it is generated. -/
def State.seenBefore (s : State) (e : Env) (i : Instr) (vals : List Nat) : Seen :=
  let x := Sys2Proof.Machine.seenBefore i e.ctx.pc vals
  match i, vals with
  | .lde .., b :: n :: _ =>
    match (s.elemAddr e.blk.space b (n % 2 ^ 32)).2 with
    | .ok q => { x with loads := [(q.2.2, 1)] }
    | .error _ => x
  | _, _ => x

/-- A value with its low bits cleared (12 R241, MSK). -/
def maskLow (m x : Nat) : Nat := x / 2 ^ m * 2 ^ m

/-- An FP32 NaN word. -/
def isNan32 (w : Nat) : Bool := decide (fpDecode f32 w = .nan)

/-- The comparison of a slot on a value (12 R242): nan tests the words of the data. -/
def Watch.compare (w : Watch) (v : Nat) (words : List Nat) : Bool :=
  let x := maskLow w.msk v
  let lo := maskLow w.msk w.lo.toNat
  let hi := maskLow w.msk w.hi.toNat
  match w.cmp with
  | 0 => decide (x = lo)
  | 1 => decide (x ≠ lo)
  | 2 => decide (x < lo)
  | 3 => decide (lo < x)
  | 4 => decide (signed 64 x < signed 64 lo)
  | 5 => decide (signed 64 lo < signed 64 x)
  | 6 => words.any isNan32
  | _ => decide (lo ≤ x ∧ x ≤ hi)

/-- The comparison on an access of n bytes, which may wrap at 2^64: in-range matches when any byte lies in the range (12 R242). -/
def Watch.access (w : Watch) (p : Nat × Nat) : Bool :=
  if w.cmp = 7 then
    let lo := maskLow w.msk w.lo.toNat
    let hi := maskLow w.msk w.hi.toNat
    let last := p.1 + p.2 - 1
    if last < 2 ^ 64 then decide (lo ≤ hi) && decide (maskLow w.msk p.1 ≤ hi) && decide (lo ≤ maskLow w.msk last)
    else decide (lo ≤ hi) && (decide (maskLow w.msk p.1 ≤ hi) || decide (lo ≤ maskLow w.msk (last - 2 ^ 64)))
  else w.compare p.1 []

/-- The value at which a slot matches what is seen, if it does. -/
def Watch.sees (w : Watch) (x : Seen) : Option Nat :=
  match w.kind with
  | 1 => (x.loads.find? w.access).map (·.1)
  | 2 => (x.stores.find? w.access).map (·.1)
  | 3 => ((x.loads ++ x.stores).find? w.access).map (·.1)
  | 4 => match x.stored with
    | some v => if w.compare v.value v.words then some v.value else none
    | none => none
  | 5 => match x.loaded with
    | some v => if w.compare v.value v.words then some v.value else none
    | none => none
  | 6 => match x.raised with
    | some r => if r &&& w.fpx ≠ 0 then some 0 else none
    | none => none
  | 7 => match x.pc with
    | some v => if w.compare v [] then some v else none
    | none => none
  | 8 => match x.queue with
    | some a => if w.compare a [] then some a else none
    | none => none
  | _ => none

/-- Whether a slot's filters let a fibre through (12 R243). -/
def Watch.admits (w : Watch) (lid blk fid : Nat) : Bool :=
  (!w.liden || decide (w.lidf = lid)) && (!w.blken || decide (w.blkf = blk)) && (!w.fiden || decide (w.fidf = fid))

/-- The slots of the given kinds that match, with the value each saw: those in force when the instruction issued (12 R240).
Leads, supervisor ranges and trailing copies are never watched (12 R238, R246). -/
def State.matches (s : State) (e : Env) (x : Seen) (kinds : List Nat) : List (Nat × Watch × Nat) :=
  if e.lead || e.blk.params.supervisor || decide (e.blk.role = .trailing) then []
  else (e.ctx.slots.getD s.proctors.slots).filterMap (fun p =>
    if kinds.contains p.2.kind && p.2.admits e.blk.params.lid e.blk.index e.who.fid then
      (p.2.sees x).map (fun v => (p.1, p.2, v))
    else none)

/-- Whether a slot of kind 5 may watch a load of an issuer, which then is held at its load until its data has come and its match has been
evaluated (12 R242). -/
def State.holdsLoad (s : State) (e : Env) : Bool :=
  !(e.lead || e.blk.params.supervisor || decide (e.blk.role = .trailing)) &&
    (e.ctx.slots.getD s.proctors.slots).any (fun p => decide (p.2.kind = 5) && p.2.admits e.blk.params.lid e.blk.index e.who.fid)

/-- The hit counter of a slot on a core. -/
def State.hits (s : State) (core slot : Nat) : Nat := sget 0 s.proctors.hits (core * 64 + slot)

/-- The acting match: the widest action, then the lowest slot (12 R243), unless the instruction is exempt (12 R251). -/
def State.acting (s : State) (e : Env) (ms : List (Nat × Watch × Nat)) : Option (Nat × Nat × Nat) :=
  if e.ctx.halt.exempt then none
  else
    ms.foldl (fun acc m =>
      if m.2.1.action < 3 && decide (min (s.hits e.core m.1 + 1) 0xFFFFFFFF > m.2.1.count) then
        match acc with
        | none => some (m.1, m.2.1.action, m.2.2)
        | some a => if m.2.1.action > a.2.1 then some (m.1, m.2.1.action, m.2.2) else acc
      else acc) none

/-- Emit a trace record for a match, after a release over the block's committed writes (12 R252; 06 R126). -/
def State.traceRecord (s0 : State) (e : Env) : State :=
  let h := s0.dean.trq
  if h = 0 then s0
  else if bits h.toNat 0 6 ≠ 2 then { s0 with dean := { s0.dean with trdrop := s0.dean.trdrop + 1 } }
  else
    let s := s0.pushCore e.core
    let payload := toBytes 8 (fibreHandle e.blk.params.lid e.blk.index e.who) ++ toBytes 8 e.ctx.pc.toNat
    let q : QReq := { rid := s.fresh, from_ := .trace, enq := true, try_ := true, pa := 0,
                      va := BitVec.ofNat 64 (handleAddr h.toNat), handle := some (h, s.dean.svq),
                      code := 2, payload := payload, parked := false, busy := false, src := agentStop .trace s.dean.svq, unc := false }
    { s with qreqs := s.qreqs ++ [q], fresh := s.fresh + 1 }

/-- Count and trace every match (12 R243). -/
def State.countMatches (s : State) (e : Env) (ms : List (Nat × Watch × Nat)) : State :=
  ms.foldl (fun t m =>
    let k := e.core * 64 + m.1
    let n := sget 0 t.proctors.hits k
    let t1 := { t with proctors := { t.proctors with hits := sput 0 t.proctors.hits k (min (n + 1) 0xFFFFFFFF) } }
    if m.2.1.trace then t1.traceRecord e else t1) s

/-- Core cycles within which a skid of a bound of instructions ends (12 R245). -/
def skidCycles (bound : Nat) : Nat := if bound ≤ 4 then 16 else 2000

/-- Halt one issuer where it stands, or let it skid for at most a bound of instructions (12 R245): one that waits halts at
once, an ending one is not halted, and one that skids already keeps its count and its bound. How far it skids is free.
(DEDUCED, log entry 45.) -/
def Ctx.haltSoon (c : Ctx) (slot bound seed now : Nat) : Ctx :=
  if c.life ≠ .live ∨ c.halt.halted then c
  else if c.wait.isSome || c.parked.isSome then { c with halt := { c.halt with halted := true, slot := slot, skid := 0, left := none } }
  else
    match c.halt.left with
    | some k => { c with halt := { c.halt with left := some (min k bound),
                                               limit := min c.halt.limit (now + cycleTime * skidCycles bound) } }
    | none => { c with halt := { c.halt with slot := slot, skid := 0, left := some (Config.choice seed % (bound + 1)),
                                             limit := now + cycleTime * skidCycles bound } }

/-- Halt every issuer of a block but those exempted. -/
def State.haltBlock (s : State) (bid slot bound : Nat) (skip : Option Who) : State :=
  (s.modBlock bid (fun b => b.mapCtx (fun w c =>
    if skip = some w then c else c.haltSoon slot bound (2 ^ 64 + s.fresh * 2048 + (if w.isLead then 1024 else w.fid)) s.time))).tick1

/-- An acting match halts (12 R244 to R246): its fibre precisely, its instruction withdrawn, then the block or the range; a WATCH
record is sent. -/
def State.haltBy (s : State) (e : Env) (slot action v : Nat) : State :=
  let t : Trap := { code := .watch, detail := slot, addr := BitVec.ofNat 64 v }
  let s1 := s.blockRecord e.blk (e.blk.faultRec e.who e.ctx.pc t false)
  let s2 := s1.modMe e (fun c =>
    let skid := if c.halt.left.isSome then c.halt.skid else 0
    { c.undone with halt := { c.halt with halted := true, slot := slot, skid := skid, left := none } })
  let act := if e.blk.role = .single then action else max action 1
  let s3 := if act ≥ 1 then s2.haltBlock e.bid slot (if act = 2 then 64 else 4) (some e.who) else s2
  let s4 := if act ≥ 1 ∧ e.blk.role ≠ .single then s3.haltBlock e.blk.partner slot 4 none else s3
  if act = 2 then
    let others := s4.blocks.filter (fun b => decide (b.params.lid = e.blk.params.lid) && b.core.isSome && b.bid != e.bid)
    (others.foldl (fun u b => u.haltBlock b.bid slot 64 none) s4).modLaunch e.blk.params.lid
      (fun l => { l with held := true })
  else s4

end Sys2Proof.Machine
end

