-- ==== Sys2Proof/Machine/Issue.lean ====
section
/-!
DEFINITION. Issuing an instruction word: the checks of 14 R274 in their order, then the instruction's own operation, then its
retirement, wait or trap. Every meaning of a word is this one operation over its own body.
-/
namespace Sys2Proof.Machine

/-- What an instruction that goes on leaves: the state it changed, the values of its destinations, the exceptions it raised,
new predicates, window base and PC where it writes them, whether it is a long-latency producer, the acquire that its
completion brings, whether a checkpoint follows it, what it shows to proctors late, the repeat it arms, when its issuer is ready
again if not now, and, of a producer, the sectors that it reads, the number it takes and what it still awaits. -/
structure Done where
  state : State
  vals : List Nat := []
  flags : FpFlags := fNone
  preds : Option (BitVec 16) := none
  wb : Option (BitVec 12) := none
  pc : Option DWord := none
  long : Bool := false
  acquire : Option Nat := none
  cells : List Nat := []
  fills : List Nat := []
  words : List Word := []
  reads : Option Nat := none
  sealed : Bool := false
  loaded : Option SeenValue := none
  rep : Option Rep := none
  ready : Option Nat := none
  since : Option Nat := none
  src : List (Nat × DWord) := []
  pid : Option Nat := none
  late : Option Late := none
deriving DecidableEq, Repr

/-- What the operation of an instruction comes to. -/
inductive Act where
  | done (d : Done)
  | wait (s : State) (w : Wait)
  | trap (s : State) (t : Trap)
deriving DecidableEq, Repr

/-- An instruction that only writes its destinations. -/
def Act.write (s : State) (vals : List Nat) : Act := .done { state := s, vals := vals }

/-- Turn a gate into the operation that follows it. -/
def Gate.act (g : Gate) (f : State → Act) : Act :=
  match g with
  | .go s => f s
  | .wait s w => .wait s w
  | .trap s t => .trap s t

/-- The instructions that are long-latency producers (03 R57). -/
def isLong (i : Instr) : Bool :=
  match i with
  | .ld .. => true
  | .ldl .. => true
  | .ldt .. => true
  | .lde .. => true
  | .deq .. => true
  | .deqt .. => true
  | .div .. => true
  | .divu .. => true
  | .frcp .. => true
  | .frsq .. => true
  | .fexp2 .. => true
  | .flog2 .. => true
  | .adrn .. => true
  | .xlane .. => true
  | .xshf .. => true
  | .vote .. => true
  | .atomRelaxed .. => true
  | .atomAcqRel .. => true
  | .acasRelaxed .. => true
  | .acasAcqRel .. => true
  | .movx .. => true
  | .hread .. => true
  | _ => false

/-- The instructions of opcodes 0x50 to 0x73, whose exceptions proctors of kind 6 watch (12 R242). -/
def isFp (i : Instr) : Bool :=
  match i with
  | .faddF32 .. => true
  | .faddBf16x2 .. => true
  | .faddF16x2 .. => true
  | .fsubF32 .. => true
  | .fsubBf16x2 .. => true
  | .fsubF16x2 .. => true
  | .fmulF32 .. => true
  | .fmulBf16x2 .. => true
  | .fmulF16x2 .. => true
  | .fmaF32 .. => true
  | .fmaBf16x2 .. => true
  | .fmaF16x2 .. => true
  | .fminF32 .. => true
  | .fminBf16x2 .. => true
  | .fminF16x2 .. => true
  | .fmaxF32 .. => true
  | .fmaxBf16x2 .. => true
  | .fmaxF16x2 .. => true
  | .fcmpF32 .. => true
  | .fcmpBf16x2 .. => true
  | .fcmpF16x2 .. => true
  | .fabs .. => true
  | .fneg .. => true
  | .fcvt .. => true
  | .fcvti .. => true
  | .icvtf .. => true
  | .frcp .. => true
  | .frsq .. => true
  | .fexp2 .. => true
  | .flog2 .. => true
  | .frnd .. => true
  | .fclass .. => true
  | .fdot2Bf16 .. => true
  | .fdot2F16 .. => true
  | .fdot4F8a .. => true
  | .fdot4F8b .. => true
  | _ => false

/-- The form of an instruction as its issuer executes it, its fields stepped under a repeat (14 R284). -/
def Env.form (e : Env) (i : Instr) : Form := (Sys2Proof.Machine.form i).stepped e.ctx.rep

/-- What the checks of 14 R274 steps 3 to 8 come to: a trap, a guarded-false instruction, a halting match, a wait, or the
source values and the matches with which the operation goes on. -/
inductive Ready where
  | trap (t : Trap)
  | skip
  | halt (ms : List (Nat × Watch × Nat)) (slot action v : Nat)
  | wait (w : Wait)
  | go (vals : List Nat) (ms : List (Nat × Watch × Nat))
deriving DecidableEq, Repr

/-- Steps 3 to 5 of 14 R274: executor, encoding, privilege. -/
def staticCheck (i : Instr) (f : Form) (e : Env) : Option TrapCode :=
  if !(if e.lead then f.lead else f.fibre) then some .illop
  else if !f.legal i e.lead e.ctx.wb.toNat e.alloc then some .illopd
  else if f.super && !e.blk.params.supervisor then some .priv
  else none

/-- Step 8 of 14 R274: every source, then every destination, full (03 R59, R64). -/
def operandCheck (f : Form) (e : Env) : Option Ready :=
  match firstMissing e f.srcs 0 with
  | some (.reg b) => if f.fe then some (.trap { code := .emptyt, detail := b, addr := 0 }) else some (.wait .sourceEmpty)
  | some .uq =>
    if f.fe || decide (e.blk.body.lead.life ≠ .live) then some (.trap { code := .emptyt, detail := 0x1000, addr := 0 })
    else some (.wait .uqEmpty)
  | none =>
    match e.ctx.firstEmpty (f.dsts.flatMap (fun x => x.fullBits e.lead e.ctx.wb.toNat)) with
    | some _ => some (.wait .sourceEmpty)
    | none => none

/-- Whether an acquire of the issuer is still to be performed, which holds its later accesses (06 R124). -/
def Ctx.acquiring (c : Ctx) : Bool := c.producers.any (fun p => p.acquire.isSome)

/-- Whether an instruction comes after an acquire of its issuer: a memory instruction, and an arrival at a barrier or a FORK, which
release (06 R124, R126, R134). -/
def ordersAfter (i : Instr) (f : Form) : Bool :=
  f.mem || match i with
    | .bara .. => true
    | .fork .. => true
    | _ => false

/-- Whether a fence acquires, so that the reads before it come first (06 R125, R128). -/
def fenceAcquires (i : Instr) : Bool :=
  match i with
  | .fence ord _ _ => ord != 1#2
  | _ => false

/-- Whether an instruction has to wait for reads of its issuer that other devices have still to answer: for an acquire (06 R124), and,
of a fence that acquires, for every read (06 R125). -/
def ordered (i : Instr) (f : Form) (c : Ctx) : Bool :=
  (ordersAfter i f && c.acquiring) || (fenceAcquires i && c.producers.any (fun p => p.late.isSome))

/-- The number of leading sources that are full. -/
def knownSrcs (f : Form) (e : Env) : Nat :=
  (((List.range (f.srcs.length + 1)).filter (fun k => (firstMissing e (f.srcs.take k) 0).isNone)).getLast?).getD 0

/-- Whether the instruction at the PC has issued already and waits or goes on: its matches have been evaluated under the slots then in
force, and counted (12 R240, R243). -/
def Ctx.issued (c : Ctx) : Bool := c.slots.isSome

/-- Steps 3 to 8 of 14 R274. Matches come before the operands are looked at, each as far as the operands that are full show what
it compares. -/
def checkIssue (s : State) (i : Instr) (f : Form) (e : Env) : Ready :=
  match staticCheck i f e with
  | some c => .trap (Trap.plain c)
  | none =>
    if !guardHolds f.guard e.ctx then .skip
    else
      let vals := readSrcs e (f.srcs.take (knownSrcs f e)) 0
      let ms := if e.ctx.issued then [] else s.matches e (s.seenBefore e i vals) [1, 2, 3, 4, 7, 8]
      match s.acting e ms with
      | some (slot, action, v) => .halt ms slot action v
      | none =>
        match operandCheck f e with
        | some r => r
        | none => if ordered i f e.ctx then .wait .acquire else .go vals ms

/-- Write the status of a step to the debugger that waits for it (12 R249). -/
def State.endStep (s : State) (e : Env) (status : Nat) : State :=
  match e.ctx.halt.stepper with
  | none => s
  | some (bid, who) =>
    (s.modMe e (fun c => { c with halt := { c.halt with stepper := none } })).modCtx bid who
      (fun c => { c with phase := { c.phase with answer := .got [BitVec.ofNat 32 status] } })

/-- The PC and repeat state after an instruction (14 R270, R287). -/
def Ctx.advance (c : Ctx) (target : Option DWord) : Ctx :=
  match target with
  | some pc => { c with pc := pc, rep := Rep.idle }
  | none =>
    if c.rep.active && decide (c.rep.index < c.rep.count) then { c with rep := { c.rep with index := c.rep.index + 1 } }
    else { c with pc := c.pc + 4, rep := Rep.idle }

/-- Skid, exemption and halt bookkeeping of a retired instruction (12 R245, R249, R251): what retires after the halt request
without a step adds to the skid. -/
def Halt.afterRetire (h : Halt) : Halt :=
  let h1 := match h.left with
    | some (k + 1) => { h with left := some k, skid := h.skid + 1 }
    | _ => if h.halted && h.stepper.isNone then { h with skid := h.skid + 1 } else h
  { h1 with exempt := false, halted := h.halted || h.again, again := false }

/-- Count an issued instruction in its block's cost (10 R206). (DEDUCED, log entry 17.) -/
def State.charge (s : State) (bid : Nat) : State := s.modBlock bid (fun b => { b with cost := b.cost + 1 })

/-- Count an instruction that ends, unless it was counted when it issued and had to wait. -/
def State.chargeOnce (s : State) (bid : Nat) (c : Ctx) : State := if c.counted then s else s.charge bid

/-- A retirement inside the range of a causal trial adds the delay to its core's pending delay (12 R254). -/
def State.trialRetire (s : State) (e : Env) : State :=
  let t := s.trial
  if t.run && t.delayed && decide (t.lid = e.blk.params.lid) && decide (t.lo.toNat ≤ e.ctx.pc.toNat) &&
      decide (e.ctx.pc.toNat ≤ t.hi.toNat) then
    { s with trial := { t with pending := sput 0 t.pending e.core (sget 0 t.pending e.core + t.delay) } }
  else s

/-- The context of an issuer after an instruction: uq entries popped, destinations written, or marked empty with their
producer outstanding (03 R57, R58), flags, which later instructions see even of a producer (02 R23), predicates, window base,
PC. -/
def Ctx.retired (c : Ctx) (e : Env) (f : Form) (d : Done) (pid now : Nat) : Ctx :=
  let w := e.ctx.wb.toNat
  let c1 := { c with uqPos := c.uqPos + f.pops }
  let c2 :=
    if d.long then
      let cells := f.dsts.flatMap (fun x => x.cells e.lead w) ++ d.cells
      let fills := f.dsts.flatMap (fun x => x.fullBits e.lead w) ++ d.fills
      let words := (f.dsts.zip d.vals).flatMap (fun p => if p.1.reg ≥ 126 then [] else p.1.words e.lead p.2) ++ d.words
      let p : Producer := { pid := d.pid.getD pid, since := d.since.getD pid, upto := pid, src := d.src,
                            pc := e.ctx.pc, cells := cells, bits := fills,
                            value := words, reads := d.reads, acquire := d.acquire, late := d.late }
      let c2 := c1.markEmpty fills
      { c2 with producers := c2.producers ++ [p] }
    else writeDsts e c1 f.dsts d.vals
  let c3 := { c2 with preds := d.preds.getD c2.preds, wb := d.wb.getD c2.wb, wait := none, fps := c2.fps ||| d.flags, slots := none, counted := false,
                      phase := { Phase.idle with sealing := if d.sealed then .awaiting else .none },
                      halt := c2.halt.afterRetire, readySince := d.ready.getD now }
  let c4 := c3.advance d.pc
  match d.rep with
  | some r => { c4 with rep := r }
  | none => c4

/-- The acquire of a producer that has been performed: what its core holds of other issuers' data goes now, so that nothing the
issuer or its barriers order after it reads it (06 R121, R124). -/
def Done.acquired (d : Done) (core : Nat) : State :=
  match d.acquire, d.late with
  | some sc, none => if d.long then d.state.acquire core sc else d.state
  | _, _ => d.state

/-- RETIRE an instruction: its issuer's context, freed uq entries, the matches counted, the charge, a step's status. -/
def retire (e : Env) (f : Form) (ms : List (Nat × Watch × Nat)) (d : Done) : State :=
  let s := d.acquired e.core
  let s1 := s.modBlock e.bid (fun b => (b.modCtx e.who (fun c => c.retired e f d s.fresh s.time)).freeUq)
  let s2 := (s1.tick1).chargeOnce e.bid e.ctx
  ((s2.countMatches e ms).trialRetire e).endStep e 0

/-- A guarded-false instruction (14 R272): no effect but the PC, and it counts as issued. -/
def State.skipped (s : State) (e : Env) : State := retire e (base .always false) [] { state := s }

/-- The waits in which a stepped instruction has not begun (12 R250). -/
def Wait.untouched (w : Wait) : Bool :=
  match w with
  | .acks => false
  | .answer => false
  | .checkpoint => false
  | .pair => false
  | .watch => false
  | _ => true

/-- The waits before an instruction issues: at its operands or its condition, for room or for the trailing copy (02 R40). -/
def Wait.unissued (w : Wait) : Bool :=
  match w with
  | .sourceEmpty => true
  | .condition => true
  | .uqEmpty => true
  | .uqFull => true
  | .classFull => true
  | .commandQueue => true
  | .slack => true
  | .trial => true
  | .acquire => true
  | _ => false

/-- Whether an issuer has asked a home and awaits its answer. -/
def State.hasAsked (s : State) (e : Env) : Bool := decide ((e.again s).ctx.phase.answer ≠ .none)

/-- Whether an instruction that waits has issued: not one that waits to issue, nor one whose step gives NOTREADY back (12 R250). -/
def State.begun (s : State) (e : Env) (w : Wait) : Bool :=
  !w.unissued && !(w.untouched && e.ctx.halt.stepper.isSome && !s.hasAsked e)

/-- The matches of an instruction that has issued and waits are counted now (12 R243). -/
def State.countBegun (s : State) (e : Env) (ms : List (Nat × Watch × Nat)) (w : Wait) : State :=
  if s.begun e w then s.countMatches e ms else s

/-- The issuer waits at its instruction (02 R40). A long-latency producer that is held keeps its destinations empty. A skid ends
where its issuer begins to wait (12 R245). A step that cannot issue returns NOTREADY (12 R250). An instruction that has issued is
counted now (10 R206), and the watch slots in force stay in force for it (12 R240). -/
def State.stay (s : State) (i : Instr) (e : Env) (f : Form) (w : Wait) : State :=
  let held := if isLong i && !w.untouched || decide (w = .roll ∨ w = .tag) && isLong i then
      f.dsts.flatMap (fun x => x.fullBits e.lead e.ctx.wb.toNat) else []
  let s1 := s.modMe e (fun c =>
    let c1 := c.markEmpty held
    let h := if c1.halt.left.isSome then { c1.halt with halted := true, left := none } else c1.halt
    { c1 with wait := some w, heldBits := held.foldl sins c1.heldBits, halt := h, counted := c1.counted || s.begun e w,
              slots := if s.begun e w then some (c1.slots.getD s.proctors.slots) else c1.slots })
  let s2 := if s.begun e w then s1.chargeOnce e.bid e.ctx else s1
  if w.untouched && !s.hasAsked e then s2.endStep e 1 else s2

/-- The issuer takes a trap (14 R274). A parked producer leaves its destinations empty (05 R100), and a comparison of a pair that
came before stands (11 R235); a step that traps ends with TRAPPED or PARKED (12 R249). -/
def State.issueTrap (s : State) (i : Instr) (e : Env) (f : Form) (t : Trap) : State :=
  let parks := decide (t.code = .xlate)
  let held := if parks && isLong i then f.dsts.flatMap (fun x => x.fullBits e.lead e.ctx.wb.toNat) else []
  let stepped := e.ctx.halt.stepper.isSome
  let s1 := s.modMe e (fun c =>
    let c1 := c.markEmpty held
    { c1 with wait := none, phase := { Phase.idle with compare := if parks then c1.phase.compare else .none }, slots := none,
              counted := false, heldBits := held.foldl sins c1.heldBits,
              halt := if stepped && parks then { c1.halt with halted := false, again := true } else c1.halt })
  let s2 := (s1.chargeOnce e.bid e.ctx).takeTrap e.bid e.who e.ctx.pc t
  s2.endStep e (if parks then 5 else 4)

/-- Refill what a held or parked instruction had emptied, before it issues again (03 R61). -/
def State.unhold (s : State) (e : Env) : State :=
  if e.ctx.heldBits.isEmpty then s
  else s.modMe e (fun c => { c with empties := c.empties.filter (fun b => !c.heldBits.contains b), heldBits := [] })

/-- Whether a wait is one for acknowledgements or for the end of a migration's hold, in which a step does nothing at all (12 R250). -/
def Wait.stalls (w : Wait) : Bool := decide (w = .acks) || decide (w = .mig)

/-- A step that would wait for acknowledgements or a migration's hold gives NOTREADY back, and nothing of it stands (12 R250). -/
def State.stepStalls (s : State) (i : Instr) (e : Env) (f : Form) (w : Wait) : State :=
  if e.ctx.issued then (s.stay i e f w).endStep e 1 else s.stay i e f .condition

/-- Settle what an operation came to: late matches (load values and exceptions) may still halt it without effect. A match of an
instruction that takes a trap in its own operation, such as one of its translation, is not counted: 12 R243 does not say whether it is.
(DESIGN CHOICE, log entry 66.) -/
def State.settle (s : State) (i : Instr) (e : Env) (f : Form) (ms : List (Nat × Watch × Nat)) (a : Act) : State :=
  let fresh := s.fresh
  match a with
  | .wait s1 w => if e.ctx.halt.stepper.isSome && w.stalls then s.stepStalls i e f w else (s1.countBegun e ms w).stay i e f w
  | .trap s1 t => s1.issueTrap i e f t
  | .done d =>
    let seen := { Seen.at e.ctx.pc with loaded := d.loaded, raised := if isFp i then some d.flags else none }
    let late := s.matches e seen [5, 6]
    match s.acting e (ms ++ late) with
    | some (slot, action, v) => (s.countMatches e (ms ++ late)).haltBy e slot action v
    | none => retire e f (ms ++ late) { d with since := some fresh }

/-- Perform an instruction for an issuer. -/
def State.perform (s : State) (i : Instr) (body : Env → List Nat → State → Act) (e : Env) : State :=
  let f := e.form i
  match checkIssue s i f e with
  | .trap t => s.issueTrap i e f t
  | .skip => s.skipped e
  | .halt ms slot action v => (s.countMatches e ms).haltBy e slot action v
  | .wait w => s.stay i e f w
  | .go vals ms => s.settle i e f ms (body e vals s)

/-- ISSUE an instruction word with its own operation. Without an issuer nothing happens. -/
def issue (i : Instr) (body : Env → List Nat → State → Act) (s : State) : Host.Outcome State Fault Refusal :=
  match s.env? with
  | none => .next s
  | some e0 =>
    let s1 := s.unhold e0
    .next (s1.perform i body (e0.again s1))

/-- ISSUE an instruction whose encoding step (14 R274 step 4) has more to check than its word: what comes before the matches and
operands, once its executor, its own encoding and its privilege have passed. -/
def issueChecked (i : Instr) (more : Env → State → State × Option Trap) (body : Env → List Nat → State → Act) (s : State) :
    Host.Outcome State Fault Refusal :=
  match s.env? with
  | none => .next s
  | some e =>
    match staticCheck i (e.form i) e with
    | some _ => issue i body s
    | none =>
      let r := more e s
      match r.2 with
      | some t => .next (r.1.issueTrap i e (e.form i) t)
      | none => issue i body r.1

/-- The outcome of an event, which always gives a next state. -/
def event (s : State) : Host.Outcome State Fault Refusal := .next s

end Sys2Proof.Machine
end

