-- ==== Sys2Proof/Machine/Fetch.lean ====
section
/-!
DEFINITION. Instruction fetch (02 R21, 06 R138, 14 R274 step 1) and what the word that follows a REP must be (14 R285, R286).
-/
namespace Sys2Proof.Machine

/-- Read a word of code through the instruction cache of a core, which keeps what it has read (06 R138). -/
def State.codeRead (s : State) (core : Nat) (p : Piece) : State × Except FetchFault Word :=
  match s.icache.find? (fun c => c.core == core && c.pa == p.pa) with
  | some c => (s, .ok c.word)
  | none =>
    let r := if p.unc then s.readPiece core p else s.readHome core [p] .normal
    match r.2 with
    | .error t => (r.1, .error (.poison t.detail t.addr))
    | .ok bs =>
      let w : Word := BitVec.ofNat 32 (ofBytes bs)
      let c : CodeWord := { core := core, pa := p.pa, word := w }
      ({ r.1 with icache := c :: r.1.icache }, .ok w)

/-- Fetch the word at a PC: a legal PC, its translation, U before X, then poison (14 R274 step 1). -/
def State.fetch (s : State) (sp : Space) (pc : DWord) : State × Except FetchFault Word :=
  if !goodPc pc then (s, .error .badPc)
  else
    let r := s.pieces sp pc.toNat 4 { r := false, w := false, x := true }
    match r.2 with
    | .error t => (r.1, .error (if t.code = .xlate then .xlate t.detail t.addr else .perm t.detail t.addr))
    | .ok [] => (r.1, .error .badPc)
    | .ok (p :: _) => r.1.codeRead sp.core p

/-- A word of code that another device holds and the core's instruction cache lacks is asked for, once; its issuer waits for it (05
R89; 06 R138; 17 R344 step 7). -/
def State.askCode (s : State) (e : Env) (pc : DWord) : Option State :=
  if !goodPc pc then none
  else
    let r := s.pieces e.blk.space pc.toNat 4 { r := false, w := false, x := true }
    match r.2 with
    | .ok (p :: _) =>
      if !r.1.away p.pa || r.1.icache.any (fun c => c.core == e.core && c.pa == p.pa) then none
      else if r.1.peers.outstanding.any (fun o => decide (o.use = .code e.core p.pa)) then some r.1
      else some (r.1.remoteSend p.pa (.read 4) (.code e.core p.pa) (some (e.bid, e.who, pc)) pc)
    | _ => none

/-- The trap of a failed fetch (02 R21). -/
def fetchTrap (f : FetchFault) : Trap :=
  match f with
  | .badPc => Trap.plain .illopd
  | .xlate d a => { code := .xlate, detail := d, addr := a }
  | .perm d a => { code := .perm, detail := d, addr := a }
  | .poison o a => { code := .poison, detail := o, addr := a }

/-- Opcodes that only fibres execute (14 R276, R277). -/
def fibreOnly (w : Word) : Bool :=
  let op := bits w.toNat 24 8
  op == 0x0B || (0x3A ≤ op && op ≤ 0x3F) || op == 0x46 || op == 0x67 || (0x70 ≤ op && op ≤ 0x73) || op == 0x82 || op == 0x83 ||
    op == 0xC9 || op == 0xD5 || op == 0xD6 ||
    ((0x50 ≤ op && op ≤ 0x64) && (op - 0x50) % 3 != 0) || ((op == 0x65 || op == 0x66) && bits w.toNat 3 7 != 0)

/-- Opcodes that only the lead executes (14 R276). -/
def leadOnly (w : Word) : Bool :=
  let op := bits w.toNat 24 8
  op == 0x0C || op == 0xCA || op == 0xCB || (0xD0 ≤ op && op ≤ 0xD4)

/-- The trap of a word that gives no instruction (14 R274 steps 2 to 4). -/
def badWordTrap (w : Word) (lead : Bool) : Trap :=
  if !assignedOpcode (bits w.toNat 24 8) then Trap.plain .illop
  else if (if lead then fibreOnly w else leadOnly w) then Trap.plain .illop
  else Trap.plain .illopd

/-- The opcodes of the repeatable instructions (14 R285). -/
def repeatableOp (op : Nat) : Bool :=
  op == 0x0D || (0x10 ≤ op && op ≤ 0x3B) || (0x40 ≤ op && op ≤ 0x45) || op == 0x47 || (0x50 ≤ op && op ≤ 0x73) || op == 0x86

/-- Whether a field keeps to 0 to 125 in an iteration (14 R286). -/
def Fld.stepsInRange (f : Fld) (r : Rep) : Bool :=
  let v := stepReg f.reg (r.stepFor f.role) r.index
  decide (f.reg ≥ 126) || (decide (0 ≤ v) && decide (v ≤ 125))

/-- Whether one iteration of a repeated instruction passes (14 R286). -/
def Form.iterationOk (f : Form) (i : Instr) (r : Rep) (lead : Bool) (wb alloc : Nat) : Bool :=
  (f.srcs ++ f.dsts).all (fun x => x.stepsInRange r) && (f.stepped r).legal i lead wb alloc

/-- Whether every nonzero step applies to a field that the repeated instruction uses as a register (14 R286). -/
def Form.stepsUsed (f : Form) (r : Rep) : Bool :=
  let roles := (f.srcs ++ f.dsts).map (·.role)
  (decide (r.sd = 0) || roles.contains .d) && (decide (r.sa = 0) || roles.contains .a) &&
    (decide (r.sb = 0) || roles.contains .b)

/-- The trap of a REP whose following word is w, if it has one (14 R285, R286). -/
def repTrap (w : Word) (r : Rep) (e : Env) : Option Trap :=
  if !repeatableOp (bits w.toNat 24 8) then some (Trap.plain .illop)
  else
    match decodeWord w with
    | .error _ => some (Trap.plain .illopd)
    | .ok i =>
      let f := Sys2Proof.Machine.form i
      if !f.stepsUsed r then some (Trap.plain .illopd)
      else if (List.range (r.count + 1)).all (fun k =>
          f.iterationOk i { r with index := k } e.lead e.ctx.wb.toNat e.alloc) then none
      else some (Trap.plain .illopd)

end Sys2Proof.Machine
end

