-- ==== Sys2Proof/Machine/Flags.lean ====
section
/-!
DEFINITION. Results of the integer instructions (04 R87; 15 R319 to R321; 16 R339 to R341; 18 R380), the conditions of ICMP and
ICMPU (14 R280), and how a result, a predicate or an exception becomes the outcome of an instruction.
-/
namespace Sys2Proof.Machine

/-- Source value k as a 32-bit word: on the lead bits [31:0] of its a-register (03 R56). -/
def word (v : List Nat) (k : Nat) : Word := BitVec.ofNat 32 (v.getD k 0)

/-- An instruction of one source. -/
def alu1 (f : Word → Word) : Env → List Nat → State → Act := fun _ v s => .write s [(f (word v 0)).toNat]

/-- An instruction of the sources ra and rb. -/
def alu2 (f : Word → Word → Word) : Env → List Nat → State → Act := fun _ v s => .write s [(f (word v 0) (word v 1)).toNat]

/-- An instruction of the sources ra, rb and rd. -/
def alu3 (f : Word → Word → Word → Word) : Env → List Nat → State → Act :=
  fun _ v s => .write s [(f (word v 0) (word v 1) (word v 2)).toNat]

/-- A floating-point instruction: its result and exceptions. -/
def fpResult (r : Nat × FpFlags) (s : State) : Act := .done { state := s, vals := [r.1], flags := r.2 }

/-- An instruction that writes predicates only. -/
def predResult (p : BitVec 16) (s : State) : Act := .done { state := s, preds := some p }

/-- High word of the exact signed product. -/
def mulHigh (a b : Word) : Word := BitVec.ofNat 32 (wrap 64 (a.toInt * b.toInt) / 2 ^ 32)

/-- High word of the exact unsigned product. -/
def mulHighU (a b : Word) : Word := BitVec.ofNat 32 (a.toNat * b.toNat / 2 ^ 32)

/-- Signed quotient with the cases of 04 R87. -/
def divSigned (a b : Word) : Word :=
  if b = 0#32 then 0xFFFFFFFF#32 else BitVec.ofInt 32 (a.toInt.tdiv b.toInt)

/-- Unsigned quotient with the case of 04 R87. -/
def divUnsigned (a b : Word) : Word := if b = 0#32 then 0xFFFFFFFF#32 else BitVec.ofNat 32 (a.toNat / b.toNat)

/-- Shift left by a full amount: 0 from 32 upward. -/
def shiftLeft (a : Word) (n : Nat) : Word := if n ≥ 32 then 0#32 else a <<< n

/-- Logical shift right by a full amount: 0 from 32 upward. -/
def shiftRight (a : Word) (n : Nat) : Word := if n ≥ 32 then 0#32 else a >>> n

/-- Arithmetic shift right by a full amount: copies of bit 31 from 32 upward. -/
def shiftArith (a : Word) (n : Nat) : Word := a.sshiftRight (if n ≥ 32 then 31 else n)

/-- Signed minimum. -/
def minSigned (a b : Word) : Word := if b.slt a then b else a
/-- Signed maximum. -/
def maxSigned (a b : Word) : Word := if a.slt b then b else a
/-- Unsigned minimum. -/
def minUnsigned (a b : Word) : Word := if b.ult a then b else a
/-- Unsigned maximum. -/
def maxUnsigned (a b : Word) : Word := if a.ult b then b else a

/-- Signed sum saturated to the 32-bit range (04 R87). -/
def addSat (a b : Word) : Word :=
  let v := a.toInt + b.toInt
  if v < -(2 ^ 31) then 0x80000000#32 else if v > 2 ^ 31 - 1 then 0x7FFFFFFF#32 else a + b

/-- The width of a bit-field control value: [13:8], at most 32 (15 R321). -/
def fieldWidth (c : Word) : Nat := min (bits c.toNat 8 6) 32

/-- BFX (15 R321). -/
def extractField (a c : Word) : Word := BitVec.ofNat 32 (bits a.toNat (bits c.toNat 0 5) (fieldWidth c))

/-- BFI (15 R321): a inserted into d. -/
def insertField (a c d : Word) : Word :=
  let pos := bits c.toNat 0 5
  let m : Word := BitVec.ofNat 32 (maskOf pos (fieldWidth c))
  (d &&& ~~~m) ||| ((a <<< pos) &&& m)

/-- Absolute value, 0x8000_0000 unchanged (04 R87). -/
def absolute (a : Word) : Word := if a.msb then -a else a

/-- The number of one bits. -/
def onesOf (a : Word) : Word := BitVec.ofNat 32 (popCount 32 a.toNat)

/-- Leading zero bits, 32 for 0. -/
def leadingZeros (a : Word) : Word := BitVec.ofNat 32 (if a = 0#32 then 32 else 31 - Nat.log2 a.toNat)

/-- The bits in reverse order. -/
def reversed (a : Word) : Word := BitVec.ofNat 32 ((List.range 32).foldl (fun acc i => 2 * acc + bits a.toNat i 1) 0)

/-- An 8-bit immediate as a signed 32-bit word. -/
def imm32 (i : BitVec 8) : Word := i.signExtend 32

/-- The condition of an integer compare (14 R280); codes 6 and 7 are illegal and never reach it. -/
def intCond (cond : BitVec 3) (uns : Bool) (a b : Word) : Bool :=
  let lt := if uns then a.ult b else a.slt b
  let gt := if uns then b.ult a else b.slt a
  match cond.toNat with
  | 0 => decide (a = b)
  | 1 => decide (a ≠ b)
  | 2 => lt
  | 3 => lt || decide (a = b)
  | 4 => gt
  | _ => gt || decide (a = b)

/-- The two 16-bit elements of a packed word, element 0 first (04 R70). -/
def halves (a : Nat) : Nat × Nat := (bits a 0 16, bits a 16 16)

/-- A packed operation on both elements; its exceptions are those of both (04 R76). -/
def packed2 (f : Nat → Nat → Nat × FpFlags) (a b : Nat) : Nat × FpFlags :=
  let lo := f (halves a).1 (halves b).1
  let hi := f (halves a).2 (halves b).2
  (lo.1 + 2 ^ 16 * hi.1, lo.2 ||| hi.2)

/-- A packed operation of three operands. -/
def packed3 (f : Nat → Nat → Nat → Nat × FpFlags) (c a b : Nat) : Nat × FpFlags :=
  let lo := f (halves c).1 (halves a).1 (halves b).1
  let hi := f (halves c).2 (halves a).2 (halves b).2
  (lo.1 + 2 ^ 16 * hi.1, lo.2 ||| hi.2)

/-- The low 32 bits of source k. -/
def low (v : List Nat) (k : Nat) : Nat := v.getD k 0 % 2 ^ 32

end Sys2Proof.Machine
end

