-- ==== Sys2Proof/Machine/Home.lean ====
section
/-!
DEFINITION. What loads, stores, atomics, cache operations and fences share: extension of loaded data (17 R343), reads at the
home (05 R102, R103), scopes as sets of cores (00 R6, 01 R8), cache maintenance of a line (15 R310), and commit points that
stand after their instruction (11 R230).
-/
namespace Sys2Proof.Machine

/-- Need of a read (05 R94). -/
def needR : Need := { r := true, w := false, x := false }
/-- Need of a write. -/
def needW : Need := { r := false, w := true, x := false }
/-- Need of a read and a write. -/
def needRW : Need := { r := true, w := true, x := false }

/-- Loaded bytes as they are written to the destination (17 R343). -/
def loadValue (sz : BitVec 3) (bs : List Byte) : Nat :=
  match sz.toNat with
  | 1 => wrap 32 (signed 8 (ofBytes bs))
  | 3 => wrap 32 (signed 16 (ofBytes bs))
  | _ => ofBytes bs

/-- The scope of an acquire that a load or atomic performs when it completes: none at .fib alone, which orders nothing (06 R124,
R127). At .blk it has no cache action, and the issuer's later accesses wait for it all the same. -/
def acquireScope (on : Bool) (sc : Nat) : Option Nat := if on && decide (sc ≥ 1) then some sc else none

/-- The FP32 value of the byte that holds an element (17 R348). -/
def ldeValue (fmt i : Nat) (b : Byte) : Nat :=
  let x := if fmt = 1 then nq4Decode (if i % 2 = 0 then b.toNat % 16 else b.toNat / 16)
    else fpDecode (if fmt = 2 then f8a else f8b) b.toNat
  (fpEncode f32 x).1

/-- A producer that its answer has reached (03 R57): the words it will write. -/
def Producer.answered (p : Producer) (ws : List Word) : Producer :=
  match p.late with
  | none => p
  | some .element =>
    { p with late := none, value := p.value ++ (List.range (p.cells.length - p.value.length)).map (fun i => ws.getD i 0) }
  | some (.atom _ _) => { p with late := none, value := wordsOfNat p.cells.length (ws.getD 0 0).toNat }
  | some _ => p

/-- A load's producer that bytes from another device have reached, the first of them byte `first` of the load (17 R343, R344 step
7). Bytes known already stand: they are the block's own. -/
def Producer.filled (p : Producer) (first : Nat) (bs : List Byte) : Producer :=
  match p.late with
  | some (.load sz known) =>
    let k := (List.range bs.length).foldl (fun m i =>
      if (aget m (first + i)).isSome then m else aput m (first + i) (bs.getD i 0)) known
    if k.length < sizeBytes sz then { p with late := some (.load sz k) }
    else
      let all := (List.range (sizeBytes sz)).map (fun i => (aget k i).getD 0)
      { p with late := none, value := wordsOfNat p.cells.length (loadValue sz all) }
  | some (.lde fmt i) => { p with late := none, value := wordsOfNat p.cells.length (ldeValue fmt i (bs.getD 0 0)) }
  | _ => p

/-- The exceptions that a late answer raises: an fadd that another device performed (07 R160). -/
def Producer.lateFlags (p : Producer) (ws : List Word) : FpFlags :=
  match p.late with
  | some (.atom (some op) v) => (op.apply (ws.getD 0 0) v).2
  | _ => fNone

/-- The answer of a context's producer arrives; of a dequeue that has waited it may come before the instruction goes on. -/
def Ctx.deliver (c : Ctx) (pid : Nat) (ws : List Word) : Ctx :=
  if c.phase.answer = .granted pid none then { c with phase := { c.phase with answer := .granted pid (some ws) } }
  else
    match c.producers.find? (fun p => p.pid == pid) with
    | none => c
    | some p => { c with fps := c.fps ||| p.lateFlags ws,
                         producers := c.producers.map (fun q => if q.pid = pid then q.answered ws else q) }

/-- A DEQT that has gone on finds nothing (07 R151): it writes 0, acquires nothing, and its payload registers are full with what they
held. -/
def Producer.foundNone (p : Producer) : Producer :=
  { p with late := none, acquire := none, cells := p.cells.take p.value.length, value := p.value.map (fun _ => 0#32) }

/-- A DEQT of a context finds nothing. -/
def Ctx.emptyHanded (c : Ctx) (pid : Nat) : Ctx :=
  { c with producers := c.producers.map (fun p => if p.pid = pid then p.foundNone else p) }

/-- Bytes from another device reach a load of a context. -/
def Ctx.fill (c : Ctx) (pid first : Nat) (bs : List Byte) : Ctx :=
  { c with producers := c.producers.map (fun q => if q.pid = pid then q.filled first bs else q) }

/-- Whether an issuer has a producer whose answer has not come. -/
def Ctx.lateLeft (c : Ctx) : Bool :=
  c.producers.any (fun p => p.late.isSome) || match c.phase.answer with
    | .granted _ _ => true
    | _ => false

/-- A producer fails after its issuer has gone on: its destinations are full again with what they held (11 R214). -/
def State.failProducer (s : State) (bid : Nat) (who : Who) (pid : Nat) (t : Trap) : State :=
  match (s.ctx? bid who).bind (fun c => c.producers.find? (fun p => p.pid == pid)) with
  | none => s
  | some p =>
    (s.modCtx bid who (fun c =>
      { c with producers := c.producers.filter (fun q => q.pid != pid),
               empties := c.empties.filter (fun b => !p.bits.contains b) })).takeTrap bid who p.pc t

/-- An uncorrectable error in sectors that producers of issuers read: those whose own requests met it fault POISON (05 R117). -/
def State.poisonReaders (s : State) (own : Producer → Bool) (hit : Nat → Bool) (origin : Nat) : State :=
  s.blocks.foldl (fun t b => b.whos.foldl (fun t w => match b.ctx? w with
    | none => t
    | some c => c.producers.foldl (fun u p => match if own p then p.src.find? (fun x => hit x.1) else none with
      | none => u
      | some x => u.failProducer b.bid w p.pid { code := .poison, detail := origin, addr := x.2 }) t) t) s

/-- Whether a request of the channel controllers is one of a producer's own. -/
def Producer.owns (p : Producer) (did : Nat) : Bool := decide (p.since ≤ did) && decide (did < p.upto)

/-- The element of a dequeue has come from its slot: the sectors that its producer reads, and the requests that bring them (05 R117;
07 R151). -/
def State.readFor (s : State) (f : QFrom) (since slot : Nat) (cells : List (Nat × Nat)) : State :=
  match f with
  | .producer bid who pid => s.modCtx bid who (fun c => { c with producers := c.producers.map (fun p =>
      if p.pid = pid then { p with since := since, upto := s.fresh,
                                   src := cells.flatMap (fun x => (sectors x.1 x.2).map (fun k => (k, BitVec.ofNat 64 slot))) }
      else p) })
  | _ => s

/-- Poison the copies of a sector in one L1 (05 R117): of the bytes that it has taken from the home. -/
def State.poisonCopy (s : State) (core sector : Nat) : State :=
  { s with l1 := s.l1.map (fun l =>
      if l.core ≠ core ∨ l.red.isSome then l
      else
        { l with poison := (List.range 4).foldl (fun acc k =>
            if s.paCell (l.tag * 128 + 32 * k) = some (sector * 32) && bits l.valid (32 * k) 32 != 0 &&
              bits l.dirty (32 * k) 32 != 2 ^ 32 - 1 then acc ||| 2 ^ k
            else acc) l.poison }) }

/-- The n bytes that have been gathered, if all have. -/
def gathered (known : List (Nat × Byte)) (n : Nat) : Option (List Byte) :=
  let bs := (List.range n).filterMap (fun i => aget known i)
  if bs.length < n then none else some bs

/-- A load that a proctor match holds (12 R242) and whose bytes other devices send: it goes on when it has them all. -/
def heldLoad (sz : BitVec 3) (acq : Option Nat) (known : List (Nat × Byte)) (s : State) : Act :=
  match gathered known (sizeBytes sz) with
  | none => .wait s .watch
  | some bs =>
    .done { state := s, vals := [loadValue sz bs], long := true, acquire := acq, loaded := some (seenValue sz (ofBytes bs)) }

/-- Ask other devices for bytes of an access at a virtual address that its issuer awaits at the instruction, those known listed; what an
instruction of the issuer that was withdrawn has asked for nobody awaits. -/
def State.askHeld (s : State) (e : Env) (va : Nat) (ps : List Piece) (known : List (Nat × Byte)) : State :=
  let mine (o : RemoteOp) : Bool := decide (o.owner.map (fun x => (x.1, x.2.1)) = some (e.bid, e.who)) && match o.use with
    | .held _ => true
    | _ => false
  let s0 := s.modPeers (fun p => { p with outstanding := p.outstanding.filter (fun o => !mine o) })
  ((ps.filter (fun p => s.away p.pa)).foldl (fun t p =>
    t.remoteSend p.pa (.read p.len) (.held ((p.va + 2 ^ 64 - va) % 2 ^ 64)) (some (e.bid, e.who, e.ctx.pc))
      (BitVec.ofNat 64 p.va)) s0).setPhase e (fun p => { p with answer := .loading known })

/-- An instruction whose commit point stands after it: it takes a commit ordinal and, in checkpoint mode, its checkpoint is
sealed before the issuer goes on (11 R230). -/
def Done.point (d : Done) (e : Env) : Done := { d with state := d.state.takeOrdinal e, sealed := e.blk.ckptMode }

/-- Whether n bytes at a virtual address touch an uncommitted RED of the block, through any mapping (18 R376). -/
def State.touchesRed (s : State) (e : Env) (va n : Nat) : Bool :=
  let ps := match (s.pieces e.blk.space va n { r := false, w := false, x := false }).2 with
    | .ok ps => ps
    | .error _ => []
  bufferRed (s.bufferSeen e.blk ps) va n

/-- Commit before reads of n bytes at addresses that touch an uncommitted RED of the block (18 R376, 11 R229). -/
def State.beforeReads (s : State) (e : Env) (vas : List Nat) (n : Nat) : Gate :=
  if vas.any (fun va => s.touchesRed e va n) then s.commitBefore e else .go s

/-- Commit before a read that touches an uncommitted RED of the block. -/
def State.beforeRead (s : State) (e : Env) (va n : Nat) : Gate := s.beforeReads e [va] n

/-- Read a piece at its home for an access performed there: the issuing core's line is written back and dropped first (05
R102, R103). Poison is left to the caller. -/
def State.readAtHome (s : State) (core : Nat) (p : Piece) : State × List Byte :=
  let s1 := s.evictFor core p.pa
  s1.homeGet p.unc core (s1.pieceCells p) .normal

/-- Write a piece at its home for an access performed there. -/
def State.writeAtHome (s : State) (core : Nat) (p : Piece) (bs : List Byte) : State :=
  let s1 := s.evictFor core p.pa
  s1.homeSet p.unc core (s1.pieceCells p) bs .normal

/-- The poison origin of a piece at its home (05 R117). -/
def State.piecePoison (s : State) (p : Piece) : Option Nat := s.poisonAny (s.pieceCells p)

/-- The cores in a scope relative to a core (00 R6, 01 R8); .fib and .blk act as .core. -/
def scopeCores (core sc : Nat) : List Nat :=
  if sc ≤ 2 then [core]
  else if sc = 3 then span (core / 4 * 4) 4
  else if sc = 4 then span (core / 16 * 16) 16
  else if sc = 5 then span (core / 64 * 64) 64
  else List.range 128

/-- Write back (CFLUSH) or discard (CINV) one line in the L1s of some cores; gathered contributions go home (15 R310). -/
def State.maintainL1 (s : State) (cores : List Nat) (tag : Nat) (discard : Bool) : State :=
  cores.foldl (fun t core =>
    match t.l1Find core tag with
    | none => t
    | some l =>
      match l.red with
      | some _ => t.pushLine l
      | none => if discard then t.l1Drop core tag else t.writeBack l) s

/-- Write back (CFLUSH) or write back and invalidate (CINV) the two units of a line in its home stack cache (15 R310). -/
def State.maintainHome (s : State) (tag : Nat) (discard : Bool) : State :=
  [tag * 128, tag * 128 + 64].foldl (fun t pa =>
    match t.paCell pa with
    | none => t
    | some c =>
      match t.scFind (c / 64) with
      | none => t
      | some l => if discard then t.scDrop l else t.scClean l) s

/-- The lines that a base and a length name (15 R310). -/
def lineAddrs (base len : Nat) : List Nat :=
  let first := base / 128 * 128
  let n := if len = 0 then 1 else (base % 128 + len - 1) / 128 + 1
  (List.range n).map (fun i => (first + 128 * i) % 2 ^ 64)

/-- Maintain lines in ascending order up to the first that faults (15 R310, R311). No L1 of this package holds a line of another
device, whose home acts on it below. (DEDUCED, log entry 22.) -/
def State.maintain (s : State) (e : Env) (sc : Nat) (discard : Bool) (lines : List Nat) : State × Option Trap :=
  match lines with
  | [] => (s, none)
  | va :: rest =>
    let r := s.pieces e.blk.space va 128 needR
    match r.2 with
    | .error t => (r.1, some t)
    | .ok [] => r.1.maintain e sc discard rest
    | .ok (p :: _) =>
      if p.unc then r.1.maintain e sc discard rest
      else if r.1.away p.pa then
        (if sc ≥ 7 then r.1.remoteSend p.pa (.upkeep discard) .ack (some (e.bid, e.who, e.ctx.pc)) (BitVec.ofNat 64 va)
        else r.1).maintain e sc discard rest
      else
        let s1 := r.1.maintainL1 (scopeCores e.core (if sc ≥ 7 then 6 else sc)) (p.pa / 128) discard
        let s2 := if sc ≥ 7 then s1.maintainHome (p.pa / 128) discard else s1
        s2.maintain e sc discard rest

/-- Discard the instruction caches of some cores, and what they have asked other devices for and not yet got (06 R138): that is asked for
again. -/
def State.dropCode (s : State) (cores : List Nat) : State :=
  ({ s with icache := s.icache.filter (fun c => !cores.contains c.core) } : State).modPeers (fun p =>
    { p with outstanding := p.outstanding.filter (fun o => match o.use with
        | .code core _ => !cores.contains core
        | _ => true) })

/-- An instruction whose own requests to other devices have to be acknowledged: it waits for those numbered from since on, as a
fence does (15 R310; 16 R338). -/
def State.abroadGate (s : State) (e : Env) (since : Nat) : Gate :=
  if s.peers.outstanding.any (fun o => decide (o.use = .ack) && decide (since ≤ o.rid)) then
    .wait (s.setPhase e (fun p => { p with release := .abroad s.fresh })) .acks
  else .go s

/-- The store event of a store (11 R233). -/
def storeBytes (va szbyte : Nat) (data : List Byte) : List Byte := toBytes 8 va ++ toBytes 1 szbyte ++ data

/-- Bytes by virtual address, which wraps at 2^64. -/
def placeBytes (va : Nat) (data : List Byte) : List (Nat × Byte) :=
  (List.range data.length).map (fun i => ((va + i) % 2 ^ 64, data.getD i 0))

/-- The answer of a releasing store whose entry has entered the buffer and whose second commit is under way (18 R386). -/
def Phase.entered (p : Phase) : Bool := decide (p.answer = .got [])

/-- The second commit of a releasing store (18 R386), after which the store is itself performed at its home: what the core's L1
gathered is written back (DEDUCED, log entry 8), and a home on another device acknowledges it first. -/
def State.commitAgain (s : State) (e : Env) : Gate :=
  (s.commit e).andThen (fun t =>
    let u := t.pushCore e.core
    if u.peers.outstanding.any (fun o => o.use.acknowledged && decide (o.owner = some (e.bid, e.who, e.ctx.pc))) then
      .wait (u.setPhase e (fun p => { p with release := .abroad u.fresh })) .acks
    else .go u)

/-- Enter the second commit of a releasing store. -/
def State.secondCommit (s : State) (e : Env) : Gate := (s.setPhase e (fun p => { p with answer := .got [] })).commitAgain e

end Sys2Proof.Machine
end

