-- ==== Sys2Proof/Machine/Atomic.lean ====
section
/-!
DEFINITION. Atomics and reductions (06 R126, R131; 07 R160, R161; 15 R298, R299, R302, R303; 18 R375, R376).
-/
namespace Sys2Proof.Machine

/-- The scope of an sc3 code (14 R279). -/
def sc3Scope (c : BitVec 3) : Nat := [1, 2, 3, 4, 6, 7, 9, 10].getD c.toNat 10

/-- The operation of an ATOM by its index (15 R302). -/
def atomOpOf (i : BitVec 4) : AtomOp :=
  match i.toNat with
  | 0 => .add
  | 1 => .min
  | 2 => .max
  | 3 => .minu
  | 4 => .maxu
  | 5 => .and
  | 6 => .or
  | 7 => .xor
  | 8 => .xchg
  | _ => .fadd

/-- The operation of a RED by its index (18 R375). -/
def redOpOf (i : BitVec 4) : AtomOp := if i.toNat ≥ 8 then .fadd else atomOpOf i

/-- The store event of an atomic or reduction (11 R233). -/
def atomBytes (va opcode : Nat) (words : List Word) : List Byte :=
  toBytes 8 va ++ [0x80, BitVec.ofNat 8 opcode] ++ bytesOf words

/-- The read-modify-write of an atomic as one event at the home (07 R160): the old word, and the word written if any. -/
def State.atHome (s : State) (core : Nat) (p : Piece) (f : Word → Option Word) : State × Word :=
  let r := s.readAtHome core p
  let old : Word := BitVec.ofNat 32 (ofBytes r.2)
  match f old with
  | none => (r.1, old)
  | some w => (r.1.scatterAs p.unc (r.1.pieceCells p) (toBytes 4 w.toNat), old)

/-- An atomic (07 R160): address checks, the commit point, Release at its scope, the event at the home, then the old word and
the acquire. The trailing copy of a pair takes the forwarded result (11 R236). Toward another device it is performed there, exactly
once, and its answer completes the producer (13 R264; 15 R299, R303). -/
def atomicAct (ordered : Bool) (sc : Nat) (opcode : Nat) (operands : List Word) (f : Word → Option Word)
    (raises : Word → FpFlags) (kind : RemoteKind) (late : Late) (e : Env) (a : Nat) (s : State) : Act :=
  if a % 4 ≠ 0 then .trap s (Trap.plain .illopd)
  else
    let r := s.pieces e.blk.space a 4 needRW
    match r.2 with
    | .error t => .trap r.1 t
    | .ok [] => .trap r.1 (Trap.plain .illopd)
    | .ok (p :: _) =>
      let fin (t : State) (old : Word) (fl : FpFlags) : Act :=
        .done ({ state := t, vals := [old.toNat], flags := fl, long := true, src := t.readSpan e.blk.space a 4,
                 acquire := acquireScope ordered sc : Done }.point e)
      ((r.1.pairPoint e (atomBytes a opcode operands)).andThen (fun t =>
        if ordered && decide (sc ≥ 2) then t.release e sc else t.commit e)).act (fun t =>
          if e.blk.role = .trailing then
            match t.takeForwarded (e.again t).blk e.who with
            | none => .wait t .pair
            | some (u, ws) => fin u (ws.getD 0 0) (BitVec.ofNat 5 (ws.getD 1 0).toNat)
          else if p.mig then .wait t .mig
          else if t.away p.pa then
            let u := (t.mark e.bid).tick1.remoteSend p.pa kind (.atom t.fresh) (some (e.bid, e.who, e.ctx.pc)) (BitVec.ofNat 64 a)
            .done ({ state := u, long := true, acquire := acquireScope ordered sc, pid := some t.fresh,
                     late := some late : Done }.point e)
          else
            let t1 := t.evictFor e.core p.pa
            match t1.piecePoison p with
            | some o => .trap t1 (Trap.at .poison o a)
            | none =>
              let q := t1.atHome e.core p f
              let u := (q.1.mark e.bid).forward e.blk e.who [q.2, BitVec.ofNat 32 (raises q.2).toNat]
              fin u q.2 (raises q.2))

/-- The word an ACAS writes, if it swaps. -/
def swapIf (expected v old : Word) : Option Word := if old = expected then some v else none

/-- ACAS, relaxed (15 R298, R299). -/
def execAcasRelaxed (rd ra rb : Reg) (sc3 : BitVec 3) (s : State) : Host.Outcome State Fault Refusal :=
  issue (.acasRelaxed rd ra rb sc3) (fun e v s =>
    atomicAct false 0 0x8B [word v 2, word v 1] (swapIf (word v 2) (word v 1)) (fun _ => fNone)
      (.acas (word v 2) (word v 1)) (.atom none 0) e (v.getD 0 0) s) s

/-- ACAS with acquire and release (15 R298, R299). -/
def execAcasAcqRel (rd ra rb : Reg) (sc3 : BitVec 3) (s : State) : Host.Outcome State Fault Refusal :=
  issue (.acasAcqRel rd ra rb sc3) (fun e v s =>
    atomicAct true (sc3Scope sc3) 0x8C [word v 2, word v 1] (swapIf (word v 2) (word v 1)) (fun _ => fNone)
      (.acas (word v 2) (word v 1)) (.atom none 0) e (v.getD 0 0) s) s

/-- ATOM, relaxed (15 R302, R303). -/
def execAtomRelaxed (op : BitVec 4) (rd ra rb : Reg) (sc3 : BitVec 3) (s : State) : Host.Outcome State Fault Refusal :=
  issue (.atomRelaxed op rd ra rb sc3) (fun e v s =>
    atomicAct false 0 (0x90 + op.toNat) [word v 1] (fun old => some ((atomOpOf op).apply old (word v 1)).1)
      (fun old => ((atomOpOf op).apply old (word v 1)).2) (.atom op.toNat (word v 1)) (.atom (some (atomOpOf op)) (word v 1)) e
      (v.getD 0 0) s) s

/-- ATOM with acquire and release (15 R302, R303). -/
def execAtomAcqRel (op : BitVec 4) (rd ra rb : Reg) (sc3 : BitVec 3) (s : State) : Host.Outcome State Fault Refusal :=
  issue (.atomAcqRel op rd ra rb sc3) (fun e v s =>
    atomicAct true (sc3Scope sc3) (0xA0 + op.toNat) [word v 1] (fun old => some ((atomOpOf op).apply old (word v 1)).1)
      (fun old => ((atomOpOf op).apply old (word v 1)).2) (.atom op.toNat (word v 1)) (.atom (some (atomOpOf op)) (word v 1)) e
      (v.getD 0 0) s) s

/-- RED (18 R376): its contribution enters the store buffer. -/
def execRed (op : BitVec 4) (ra rb : Reg) (sc3 : BitVec 3) (s : State) : Host.Outcome State Fault Refusal :=
  issue (.red op ra rb sc3) (fun e v s =>
    let a := v.getD 0 0
    if a % 4 ≠ 0 then .trap s (Trap.plain .illopd)
    else
      let r := s.pieces e.blk.space a 4 needRW
      match r.2 with
      | .error t => .trap r.1 t
      | .ok _ =>
        let data := toBytes 4 (word v 1).toNat
        let x : SbEntry := { kind := .red (redOpOf op), va := BitVec.ofNat 64 a, szcode := 4, who := e.who, pc := e.ctx.pc,
                             bytes := placeBytes a data }
        ((r.1.roomFor e 4).andThen (fun t => t.slackGate e (atomBytes a (0xB0 + op.toNat) [word v 1]))).act
          (fun t => .write (t.enterBuffer e x) [])) s

end Sys2Proof.Machine
end

