-- ==== Sys2Proof/Machine/Report.lean ====
section
/-!
DEFINITION. What agents outside the cores do for launches and blocks: access memory for the dean and the ports (10 R199, R438),
log errors (11 R216), count finished blocks (10 R200, R206), abort a block (11 R218), answer issuers, end engine operations.
-/
namespace Sys2Proof.Machine

/-- Append to the service firmware's error log (11 R216). -/
def State.logErr (s : State) (x : LogEntry) : State := { s with errlog := s.errlog ++ [x] }

/-- The number under which the I/O die that serves a launch queue accesses memory: no core, but a place on the Ridge. -/
def agentCore (queue : Nat) : Nat := if queue < 32 then 128 else 132

/-- Forget the translations an I/O die has made: each use translates through the tables as they stand (10 R438). -/
def State.forgetAgent (s : State) : State :=
  { s with tlb := s.tlb.filter (fun t => decide (t.core < 128)), walkc := s.walkc.filter (fun w => decide (w.stack < 32)) }

/-- A look at a queue that takes nothing asks nothing of the channel controllers or the Ridge. (DEDUCED, log entry 47.) -/
def State.quiet (t s : State) : State := { t.forgetAgent with channels := s.channels, ridge := s.ridge }

/-- The space in which the dean accesses what belongs to a launch (10 R198, R202). -/
def LaunchParams.space (p : LaunchParams) : Space :=
  { core := agentCore p.queue, asn := p.asn, root := p.root, user := !p.supervisor }

/-- Check and translate an access of an I/O die. -/
def State.agentReach (s : State) (sp : Space) (va n : Nat) (need : Need) : State × Except Trap (List Piece) :=
  let r := s.pieces sp va n need
  (r.1.forgetAgent, r.2)

/-- Check and translate an access of an I/O die to this package's memory: a successor's TCB is refused on another device (10 R201). -/
def State.agentPieces (s : State) (sp : Space) (va n : Nat) (need : Need) : State × Except Trap (List Piece) :=
  let r := s.agentReach sp va n need
  match r.2 with
  | .ok ps => match ps.find? (fun p => s.away p.pa) with
    | some p => (r.1, .error (Trap.at .perm 6 p.va))
    | none => r
  | .error _ => r

/-- Read bytes of this package's memory for an I/O die at their home. -/
def State.agentRead (s : State) (sp : Space) (va n : Nat) : State × Except Trap (List Byte) :=
  let r := s.agentPieces sp va n needR
  match r.2 with
  | .error t => (r.1, .error t)
  | .ok ps => r.1.readHome sp.core ps .normal

/-- Write bytes for an I/O die at their home, if they translate: those of another device leave by its link (05 R89). -/
def State.agentWrite (s : State) (sp : Space) (va : Nat) (bs : List Byte) : State :=
  let r := s.agentReach sp va bs.length needW
  match r.2 with
  | .error _ => r.1
  | .ok ps =>
    if ps.all (fun p => !s.away p.pa) then r.1.writeHome sp.core ps bs .normal
    else
      ps.foldl (fun t p =>
        let mine := (bs.drop ((p.va + 2 ^ 64 - va) % 2 ^ 64)).take p.len
        if s.away p.pa then t.remoteSend p.pa (.write p.len (offsetBytes mine) false false) .store none (BitVec.ofNat 64 p.va)
        else t.writeHome sp.core [p] mine .normal) r.1

/-- Read bytes for the dean: none where they cannot be read. Where other devices hold some, these are asked for them, and the dean goes on
with its task when they have come (05 R89). -/
def State.agentFetch (s : State) (sp : Space) (va n : Nat) (task : DeanTask) : State × Option (Option (List Byte)) :=
  let r := s.agentReach sp va n needR
  match r.2 with
  | .error _ => (r.1, some none)
  | .ok ps =>
    let here := r.1.readHome sp.core (ps.filter (fun p => !s.away p.pa)) .normal
    match here.2 with
    | .error _ => (here.1, some none)
    | .ok bs =>
      if ps.all (fun p => !s.away p.pa) then (here.1, some (some bs))
      else
        let off (p : Piece) : Nat := (p.va + 2 ^ 64 - va) % 2 ^ 64
        let offs := (ps.filter (fun p => !s.away p.pa)).flatMap (fun p => span (off p) p.len)
        let id := here.1.fresh
        let u : State := { here.1 with fresh := id + 1, dean := { here.1.dean with reads := here.1.dean.reads ++
          [{ id := id, task := task, known := offs.zip bs, len := n }] } }
        ((ps.filter (fun p => s.away p.pa)).foldl (fun t p =>
          t.remoteSend p.pa (.read p.len) (.dean id (off p)) none (BitVec.ofNat 64 p.va)) u, none)

/-- Read 8 bytes of a launch's TCB (10 R200). -/
def State.tcbGet (s : State) (p : LaunchParams) (off : Nat) : State × Option Nat :=
  let r := s.agentRead p.space (p.tcb.toNat + off) 8
  match r.2 with
  | .error _ => (r.1, none)
  | .ok bs => (r.1, some (ofBytes bs))

/-- Write bytes of a launch's TCB as one event (10 R199). -/
def State.tcbPut (s : State) (p : LaunchParams) (off : Nat) (bs : List Byte) : State := s.agentWrite p.space (p.tcb.toNat + off) bs

/-- Replace STATUS of a TCB (10 R199). -/
def State.tcbStatus (s : State) (p : LaunchParams) (v : Nat) : State := s.tcbPut p 0 (toBytes 1 v)

/-- A record that the dean writes about a launch as a whole (10 R198, R201, R202). -/
def LaunchParams.deanRec (p : LaunchParams) (t : Trap) : FaultRec :=
  { lid := p.lid, blk := 0, who := .fibre 0, pc := 0, addr := t.addr, image := 0, trunc := false, cont := false, eng := true,
    replay := false, detail := t.detail, code := t.code }

/-- Send a record about a launch as a whole, which names no block (10 R198, R201, R202). -/
def State.sendLaunchRec (s : State) (queue : Nat) (r : FaultRec) : State :=
  s.sendAgent (.launchRec r) (s.lq queue).faultq queue r.encode

/-- Count a block that has retired or aborted, with its cost, in its launch, its TCB and its queue (10 R200, R206).
(DEDUCED, log entry 17.) -/
def State.countBlock (s : State) (b : Block) (aborted : Bool) : State :=
  match s.launch? b.params.lid with
  | none => s
  | some l =>
    let l1 := if aborted then { l with abortedBlocks := l.abortedBlocks + 1 } else { l with retired := l.retired + 1 }
    let l2 := { l1 with cyc := l1.cyc + b.cost }
    let q := s.lq b.params.queue
    let q1 := match b.est with
      | some e => { q with deficit := q.deficit + e - b.cost }
      | none => q
    let s1 := (s.modLaunch b.params.lid (fun _ => l2)).setLq b.params.queue
      (if aborted then q1 else { q1 with lastCost := some b.cost })
    (s1.tcbPut b.params 40 (toBytes 8 l2.cyc)).tcbPut b.params 48 (toBytes 8 (l2.abortedBlocks * 2 ^ 32 + l2.retired))

/-- Give an issuer the answer it awaits: an STT has been performed (18 R390). -/
def State.answer (s : State) (bid : Nat) (who : Who) (ws : List Word) : State :=
  (s.modCtx bid who (fun c => { c with wait := none, phase := { c.phase with answer := .got ws } })).leaveStt bid who

/-- End the step of an issuer that a debugger awaits (12 R249). -/
def State.endStepOf (s : State) (bid : Nat) (who : Who) (status : Nat) : State :=
  match s.envOf bid who with
  | none => s
  | some e => s.endStep e status

/-- End every step that a debugger awaits of a block's issuers. -/
def State.endSteps (s : State) (bid status : Nat) : State :=
  match s.block? bid with
  | none => s
  | some b => b.whos.foldl (fun t w => t.endStepOf bid w status) s

/-- Free the save-pool extent that starts at an address (11 R218, R220). -/
def State.freeExtent (s : State) (start : Nat) : State :=
  { s with dean := { s.dean with pool := s.dean.pool.filter (fun e => e.2.1 != start) } }

/-- Whether a queue request was made for an engine operation of a block. -/
def State.reqOfOps (s : State) (bid : Nat) (q : QReq) : Bool :=
  match q.from_ with
  | .engine k => s.ops.any (fun o => o.oid == k && o.bid == bid)
  | .trigger k => s.ops.any (fun o => o.oid == k && o.bid == bid)
  | _ => false

/-- Remove a block and all that acts for it. The image of a saved one stays for reading (11 R218). -/
def State.discardBlock (s : State) (bid : Nat) : State :=
  match s.block? bid with
  | none => s
  | some b =>
    let s1 := ((s.endSteps bid 4).unseat bid).withdrawReqs (s.reqOfOps bid)
    let s2 := { s1 with ops := s1.ops.filter (fun o => o.bid != bid), xrecs := s1.xrecs.filter (fun x => x.bid != bid),
                        blocks := s1.blocks.filter (fun x => x.bid != bid) }
    let s3 := s2.freeExtent b.ckptExtent
    match b.saved with
    | some im => { s3 with images := s3.images ++ [im] }
    | none => s3.freeExtent b.extent

/-- ABORT A BLOCK, both copies of a pair: its buffer is dropped, its grains are released, BLKABT grows (11 R218, R235). -/
def State.abortBlock (s : State) (bid : Nat) : State :=
  match s.block? bid with
  | none => s
  | some b =>
    let lead := if b.role = .trailing then (s.block? b.partner).getD b else b
    (b.copies.foldl (fun t k => t.discardBlock k) s).countBlock lead true

/-- Lower the counter of an engine operation's class and drop the operation (06 R135, R136). -/
def State.endOp (s : State) (o : EngOp) : State :=
  (s.modCtx o.bid o.who (fun c => c.setCounter o.kind.cls (c.counter o.kind.cls - 1))).dropOp o.oid

/-- Write a record of an engine operation, naming its issuer and PC, which does not stop it (08 R169). -/
def State.opRecord (s : State) (o : EngOp) (t : Trap) : State :=
  match s.block? o.bid with
  | none => s
  | some b => s.blockRecord b (b.faultRec o.who o.pc t true)

/-- Park an operation on the record of its block and page (05 R100, 08 R163, R170): at its trigger, its units or its record. -/
def State.parkOp (s : State) (b : Block) (o : EngOp) (t : Trap) : State :=
  ((s.recordFor b o.who o.pc t true).1).modOp o.oid (fun x =>
    { x with phase := match x.phase with
               | .waitTrigger => .triggerParked
               | .reporting => .recordParked
               | _ => .parked,
             page := t.addr.toNat / 2 ^ 16, faddr := t.addr })

/-- Tell the trailing copy of a pair that the leading copy has performed an operation of an issuer: its class, or 16 more
for its trigger (08 R168; 11 R236). -/
def State.tellPartner (s : State) (b : Block) (who : Who) (key : Nat) : State :=
  if b.role = .leading then s.modBlock b.partner (fun p => { p with performed := p.performed ++ [(who, key)] }) else s

/-- Take what the leading copy told of an operation, if it has. -/
def State.takeTold (s : State) (b : Block) (who : Who) (key : Nat) : Option State :=
  if b.performed.contains (who, key) then
    some (s.modBlock b.bid (fun p => { p with performed := p.performed.erase (who, key) }))
  else none

/-- A fault record that names a contributing lead of the summit (09 R189). -/
def State.memberRecord (s : State) (p : LaunchParams) (m : Nat × Nat × DWord) (f : TrapCode × Nat) (addr : DWord) : State :=
  s.sendRecord p.queue
    { lid := p.lid, blk := m.1, who := .lead, pc := m.2.2, addr := addr, image := 0, trunc := false, cont := false,
      eng := true, replay := false, detail := f.2, code := f.1 }

/-- Fail a closed instance at its delivery: one record for each contributing lead, and the instance ends (09 R189). -/
def State.failInstance (s : State) (iid : Nat) (f : TrapCode × Nat) (addr : DWord) : State :=
  match s.instances.find? (fun i => i.iid == iid) with
  | none => s
  | some i =>
    let s1 := i.members.foldl (fun t m => t.memberRecord i.params m f addr) s
    { s1 with instances := s1.instances.filter (fun x => x.iid != iid) }

end Sys2Proof.Machine
end

