-- ==== Sys2Proof/Machine/QueueHome.lean ====
section
/-!
DEFINITION. Queues at their home (07 R143, R145, R148 to R155): the control block, its checks, allocation, the roll, completion
in index order, and what becomes of an operation for whoever made it. Tagged granules at theirs (07 R157).
-/
namespace Sys2Proof.Machine

/-- The fields of a queue control block (07 R143). -/
structure QCtl where
  head : Nat
  tail : Nat
  free : Nat
  conf : Nat
  area : Nat
  wait : Nat
  enqcnt : Nat
  deqcnt : Nat
  zero : Nat
  check : Nat
  magic : Nat
deriving DecidableEq, Repr

/-- A little-endian field of bytes. -/
def fieldAt (bs : List Byte) (off n : Nat) : Nat := ofBytes ((bs.drop off).take n)

/-- The control block in 64 bytes (07 R143). -/
def QCtl.of (bs : List Byte) : QCtl :=
  { head := fieldAt bs 0 4, tail := fieldAt bs 4 4, free := fieldAt bs 8 4, conf := fieldAt bs 12 4, area := fieldAt bs 16 8,
    wait := fieldAt bs 24 8, enqcnt := fieldAt bs 32 8, deqcnt := fieldAt bs 40 8, zero := fieldAt bs 48 8,
    check := fieldAt bs 56 4, magic := fieldAt bs 60 4 }

/-- LSIZE (07 R143). -/
def QCtl.lsize (c : QCtl) : Nat := bits c.conf 0 4
/-- LCAP. -/
def QCtl.lcap (c : QCtl) : Nat := bits c.conf 4 5
/-- SCOPE. -/
def QCtl.scope (c : QCtl) : Nat := bits c.conf 9 4
/-- BROKEN. -/
def QCtl.broken (c : QCtl) : Bool := bitAt c.conf 13
/-- Occupancy (07 R145). -/
def QCtl.occupied (c : QCtl) : Nat := (c.tail + 2 ^ 32 - c.head) % 2 ^ 32
/-- Physical address of the slot of an index. -/
def QCtl.slot (c : QCtl) (i : Nat) : Nat := c.area + i % 2 ^ c.lcap * 2 ^ c.lsize

/-- MAGIC of a control block (07 R143). -/
def queueMagic : Nat := 0x9E7A1C05

/-- The checks of 07 R145 in order; without a code the last is skipped (18 R374). -/
def queueCheck (bs : List Byte) (code : Option Nat) : Option (TrapCode × Nat) :=
  let c := QCtl.of bs
  if c.broken then some (.qbroken, 0)
  else if c.magic ≠ queueMagic then some (.qcorrupt, 1)
  else if c.conf / 2 ^ 15 ≠ 0 ∨ c.area / 2 ^ 52 ≠ 0 ∨ c.zero ≠ 0 then some (.qcorrupt, 2)
  else if c.lsize < 2 ∨ 8 < c.lsize ∨ c.lcap < 1 ∨ 24 < c.lcap ∨ c.scope < 1 ∨ 10 < c.scope ∨ c.area % 2 ^ c.lsize ≠ 0 then
    some (.qcorrupt, 3)
  else if c.occupied > 2 ^ c.lcap then some (.qcorrupt, 4)
  else if c.free ≠ 2 ^ c.lcap - c.occupied then some (.qcorrupt, 5)
  else if c.check ≠ crc32c (bs.take 24) then some (.qcorrupt, 6)
  else
    match code with
    | none => none
    | some k => if k = c.lsize - 2 then none else some (.fmtmis, 0x100 + 16 * c.lsize + k)

/-- The bytes of a control block at its home, after update-only copies have been recalled. -/
def State.ctlBytes (s : State) (pa : Nat) : State × List Byte :=
  match s.paCell pa with
  | none => (s, [])
  | some c => s.homeGet (s.queueUnc pa) (4 * stackOfCell c) [(c, 64)] .normal

/-- The control block at its home. -/
def State.ctl (s : State) (pa : Nat) : QCtl := QCtl.of (s.ctlLook pa 0 64)

/-- Scope of the queue as the issuer of a release finds it (06 R132); a scope that the checks refuse widens to .sys. How an issuer
learns the scope the spec does not say: of a queue on this device the model reads it in the control block; one on another device it
cannot see, and takes .sys, which covers every scope. (DESIGN CHOICE, log entry 57.) -/
def State.queueScope (s : State) (pa : Nat) : Nat :=
  let k := (s.ctl pa).scope
  if 1 ≤ k ∧ k ≤ 10 then k else 10

/-- The 24 bytes that CHECK covers (07 R143). -/
def QCtl.first (c : QCtl) : List Byte :=
  toBytes 4 c.head ++ toBytes 4 c.tail ++ toBytes 4 c.free ++ toBytes 4 c.conf ++ toBytes 8 c.area

/-- HEAD, TAIL, FREE and CHECK rewritten together with a count (07 R145). CHECK follows the change of the bytes that it covers: where
it did not match them, because a program has stored there while the operation was in flight, it does not match them after, and the
next operation finds it. (DEDUCED, log entry 67.) -/
def State.ctlUpdate (s : State) (pa : Nat) (c : QCtl) : State :=
  let old := s.ctl pa
  let s1 := s.ctlWrite pa 0 (c.first.take 12)
  let s2 := s1.ctlWrite pa 32 (toBytes 8 c.enqcnt ++ toBytes 8 c.deqcnt)
  s2.ctlWrite pa 56 (toBytes 4 (old.check ^^^ crc32c old.first ^^^ crc32c c.first))

/-- The hidden counts of a queue (07 R150). -/
def State.qhome (s : State) (pa : Nat) : QHome :=
  (s.queues.find? (fun q => q.pa == pa)).getD { pa := pa, unc := false, enqs := [], deqs := [] }

/-- Replace the hidden counts of a queue; a queue without any has no entry. -/
def State.setQhome (s : State) (h : QHome) : State :=
  let rest := s.queues.filter (fun q => q.pa != h.pa)
  { s with queues := if h.enqs.isEmpty && h.deqs.isEmpty && !h.unc then rest else h :: rest }

/-- An operation reaches the control block of a queue cached or uncached, as its page says (05 R104). -/
def State.reachQueue (s : State) (pa : Nat) (unc : Bool) : State :=
  if s.queueUnc pa = unc then s else s.setQhome { s.qhome pa with unc := unc }

/-- Remove a queue request. -/
def State.dropReq (s : State) (rid : Nat) : State := { s with qreqs := s.qreqs.filter (fun q => q.rid != rid) }

/-- A host port's registers. -/
def State.port (s : State) (n : Nat) : Port := (aget s.ports n).getD Port.reset

/-- Replace a host port's registers: there are ports 0 and 1 alone (01 R9). -/
def State.setPort (s : State) (n : Nat) (p : Port) : State := { s with ports := if n < 2 then aput s.ports n p else s.ports }

/-- A queue window of a host port (13 R259). -/
def State.window (s : State) (port w : Nat) : Window := (aget (s.port port).windows w).getD Window.reset

/-- Change a queue window of a host port (13 R259): each has windows 0 to 63. -/
def State.modWindow (s : State) (port w : Nat) (f : Window → Window) : State :=
  if w < 64 then s.setPort port { s.port port with windows := aput (s.port port).windows w (f (s.window port w)) } else s

/-- A remote operation that this package has applied: its result is kept for repeats, at most 4,096 a source, and its
response is sent (13 R264). -/
def State.respond (s : State) (source seq : Nat) (ok : Bool) (ws : List Word) : State :=
  let mine := s.peers.applied.filter (fun a => a.1 == source)
  let old := if mine.length ≥ 4096 then mine.take 1 else []
  let kept := s.peers.applied.filter (fun a => !old.contains a)
  let done : List (Nat × Nat × List Word) := [(source, seq, ws)]
  (s.modPeers (fun p => { p with applied := if ok then kept ++ done else p.applied })).reply source seq true
    (if ok then 0 else 1) (bytesOf ws)

/-- A queue operation of an issuer ends in a fault (07 R145, R151). -/
def State.failActor (s : State) (bid : Nat) (who : Who) (t : Trap) : State :=
  match s.ctx? bid who with
  | none => s
  | some c =>
    let s1 := s.undo bid who
    ((s1.chargeOnce bid c).takeTrap bid who c.pc t).endStepOf bid who 4

/-- A window operation fails: ERR is set, what is staged is discarded, the firmware logs it (13 R259). -/
def State.failWindow (s : State) (port w code : Nat) : State :=
  (s.modWindow port w (fun x => { x with err := code, fifo := [], sending := none, result := 0 })).logErr
    (.windowFailed port w code)

/-- A read of QW_DEQ that fails a check (13 R259): it returns 0 and sets ERR. -/
def State.failDeq (s : State) (port w code : Nat) : State :=
  (s.modWindow port w (fun x => { x with err := code, result := 0 })).logErr (.windowFailed port w code)

/-- A completion record of a refused launch cannot be enqueued (10 R198): one fault record says so, unless the refusal's reason, 3, has
brought that record already. -/
def State.failRefusal (s : State) (q : QReq) : State :=
  if fieldAt q.payload 9 1 = 3 then s else
  let queue := (q.handle.map (·.2)).getD 0
  let tcb : DWord := BitVec.ofNat 64 (fieldAt q.payload 0 8)
  s.sendLaunchRec queue
    { lid := 0, blk := 0, who := .fibre 0, pc := 0, addr := tcb, image := 0, trunc := false, cont := false, eng := true,
      replay := false, detail := 8, code := .perm }

/-- The completion record of a launch cannot be enqueued (10 R202): the check's code, or PERM and FMTMIS with the TCB. -/
def State.failCompletion (s : State) (lid : Nat) (t : Trap) : State :=
  match s.launch? lid with
  | none => s
  | some l =>
    let u : Trap :=
      if t.code = .xlate ∨ t.code = .perm then { code := .perm, detail := 8, addr := l.params.tcb }
      else if t.code = .fmtmis ∧ t.detail < 0x100 then { t with addr := l.params.tcb }
      else t
    (s.sendLaunchRec l.params.queue (l.params.deanRec u)).modLaunch lid (fun l => { l with reportDone := true })

/-- A queue operation of an engine operation misses its translation: the operation parks (08 R170). -/
def State.parkEngine (s : State) (oid : Nat) (t : Trap) : Option State :=
  if t.code ≠ .xlate then none
  else
    match s.op? oid with
    | none => none
    | some o => (s.block? o.bid).map (fun b => s.parkOp b o t)

/-- A trigger DEQ fails: its operation ends with the fault (08 R170). In a pair the trailing copy's operation is told nothing of it: it
waits for its trigger's token. (DESIGN CHOICE, log entry 66.) -/
def State.failTrigger (s : State) (oid : Nat) (t : Trap) : State :=
  s.modOp oid (fun o => { o with phase := .ended, status := 1, code := some t.code, detail := t.detail, faddr := t.addr })

/-- What a failed queue operation does to whoever made it (07 R145, R155). (DEDUCED, log entry 16.) A delivery of the summit whose
queue handle does not translate, lacks a permission, has FMT other than 0 or nonzero bits [5:3] fails as one whose checks fail. (DESIGN
CHOICE, log entry 66.) -/
def State.queueFail (s : State) (q : QReq) (t0 : Trap) : State :=
  let t := if t0.addr = 0 then { t0 with addr := q.va } else t0
  match q.from_ with
  | .actor bid who => s.failActor bid who t
  | .producer bid who pid =>
    if (s.ctx? bid who).any (fun c => c.phase.answer = .granted pid none) then s.failActor bid who t
    else s.failProducer bid who pid t
  | .engine oid => match s.op? oid with
    | none => s
    | some o => (s.parkEngine oid t).getD ((s.opRecord o t).endOp o)
  | .trigger oid => (s.parkEngine oid t).getD (s.failTrigger oid t)
  | .faultRec r =>
    let s1 := s.logErr (.faultRecord r)
    match s1.blocks.find? (fun b => b.params.lid == r.lid && b.index == r.blk) with
    | none => s1
    | some b => s1.abortBlock b.bid
  | .launchRec r => s.logErr (.faultRecord r)
  | .launch lid => s.failCompletion lid t
  | .refusal => s.failRefusal q
  | .summit iid => s.failInstance iid (t.code, t.detail) t.addr
  | .window port w k =>
    if !q.enq then s.failDeq port w t.code.num
    else if (s.window port w).sending = some k then s.failWindow port w t.code.num else s
  | .trace => { s with dean := { s.dean with trdrop := s.dean.trdrop + 1 } }
  | .dean _ => s
  | .remote src seq => s.reply src seq true 4 (toBytes 1 t.code.num ++ toBytes 4 t.detail)

/-- What an enqueue does for whoever made it once it is complete (07 R150). -/
def State.enqDone (s : State) (f : QFrom) : State :=
  match f with
  | .engine oid => match s.op? oid with
    | none => s
    | some o => s.endOp o
  | .launch lid => s.modLaunch lid (fun l => { l with reportDone := true })
  | .summit iid =>
    { s with instances := s.instances.map (fun i => if i.iid = iid then { i with sent := i.sent + 1 } else i) }
  | .window port w k =>
    s.modWindow port w (fun x => if x.sending = some k then { x with fifo := x.fifo.drop 1, sending := none } else x)
  | .remote src seq => s.respond src seq true []
  | _ => s

/-- The issuer of an enqueue goes on once its index is allocated (07 R150); the other copy of a pair is told (11 R236). -/
def State.enqAnswer (s : State) (q : QReq) : State :=
  match q.from_ with
  | .actor bid who => match s.block? bid with
    | none => s
    | some b =>
      let s1 := s.mark bid
      (s1.forward b who [1#32]).answer bid who [1#32]
  | _ => s

/-- The class of the channel controllers' requests that a queue operation's element makes (05 R112). -/
def QFrom.dramClass (f : QFrom) : DramClass :=
  match f with
  | .summit _ => .deadline
  | _ => .normal

/-- Before an element is read or written for an issuer, its core writes back and discards its copies of the slot's lines (05
R102). -/
def State.evictSlot (s : State) (f : QFrom) (slot n : Nat) : State :=
  match (f.block?.bind s.block?).bind (fun b => b.core) with
  | none => s
  | some core => (span (slot / 128) ((slot % 128 + n - 1) / 128 + 1)).foldl (fun t k => t.evictFor core (k * 128)) s

/-- Before a queue operation of an issuer acts on its control block at the home, its core gives up its copy of the block's line (05
R102). -/
def State.evictCtl (s : State) (f : QFrom) (pa : Nat) : State :=
  match (f.block?.bind s.block?).bind (fun b => b.core) with
  | none => s
  | some core => s.evictFor core pa

/-- Allocate an index and write the element to its slot (07 R150); a slot that no cell backs fails. (DESIGN CHOICE, log
entry 10.) -/
def State.putElement (s : State) (pa : Nat) (f : QFrom) (payload : List Byte) : State × Option Trap :=
  let c := s.ctl pa
  let h := s.qhome pa
  let n := 2 ^ c.lsize
  let slot := c.slot ((c.tail + h.enqs.length) % 2 ^ 32)
  let home := (s.paCell pa).getD 0
  match s.cellsOf slot n with
  | none => (s, some (Trap.at .perm 6 slot))
  | some cells =>
    let s1 := (s.evictSlot f slot n).homeStore (4 * stackOfCell home) cells (payload.take n) f.dramClass
    (s1.setQhome { h with enqs := h.enqs ++ [f] }, none)

/-- Allocate an enqueue (07 R150): its element is written to its slot; its issuer goes on. -/
def State.allocEnq (s : State) (q : QReq) : State :=
  let r := (s.dropReq q.rid).putElement q.pa q.from_ q.payload
  match r.2 with
  | some t => r.1.queueFail q t
  | none => r.1.enqAnswer q

/-- Allocate a dequeue (07 R151). An issuer that has waited takes it under a number, goes on with its instruction, and gets the
element under that number. -/
def State.allocDeq (s : State) (q : QReq) : State :=
  let h := s.qhome q.pa
  match q.from_ with
  | .actor bid who =>
    let k := s.fresh
    (((s.dropReq q.rid).setQhome { h with deqs := h.deqs ++ [.producer bid who k] }).modCtx bid who (fun c =>
      { c with wait := some .answer, phase := { c.phase with answer := .granted k none } })).tick1
  | _ => (s.dropReq q.rid).setQhome { h with deqs := h.deqs ++ [q.from_] }

/-- Visible elements that no dequeue has been allocated (07 R151). -/
def State.unclaimed (s : State) (pa : Nat) : Nat := (s.ctl pa).occupied - (s.qhome pa).deqs.length

/-- Free slots that no enqueue has been allocated (07 R150). -/
def State.room (s : State) (pa : Nat) : Nat := (s.ctl pa).free - (s.qhome pa).enqs.length

/-- SERVE THE ROLL (07 R152): parked ENQs while a slot is free, then parked DEQs while an element is unclaimed. -/
def State.serveRoll (fuel : Nat) (s : State) (pa : Nat) : State :=
  match fuel with
  | 0 => s.noteWaiters pa
  | fuel + 1 =>
    match s.parkedAt pa true, s.parkedAt pa false with
    | q :: _, ds =>
      if s.room pa > 0 then (s.allocEnq q).serveRoll fuel pa
      else
        match ds with
        | d :: _ => if s.unclaimed pa > 0 then (s.allocDeq d).serveRoll fuel pa else s.noteWaiters pa
        | [] => s.noteWaiters pa
    | [], d :: _ => if s.unclaimed pa > 0 then (s.allocDeq d).serveRoll fuel pa else s.noteWaiters pa
    | [], [] => s.noteWaiters pa

/-- Serve the roll of a queue if anything is parked on it. -/
def State.serve (s : State) (pa : Nat) : State :=
  let n := (s.parkedAt pa true).length + (s.parkedAt pa false).length
  if n = 0 then s else State.serveRoll n s pa

/-- Set BROKEN, every other byte as found, and fail every parked operation with QBROKEN (07 R145). -/
def State.breakQueue (s : State) (pa : Nat) : State :=
  match s.paCell pa with
  | none => s
  | some _ =>
    let s1 := s.ctlWrite pa 13 [BitVec.ofNat 8 (ofBytes (s.ctlLook pa 13 1)) ||| 0x20#8]
    let parked := s1.parkedAt pa true ++ s1.parkedAt pa false
    let s2 := { s1 with qreqs := s1.qreqs.filter (fun q => !(q.parked && q.pa == pa)) }
    parked.foldl (fun t q => t.queueFail q (Trap.plain .qbroken)) s2

/-- What the checks at the home come to: the trap of a failure, with the queue broken where it is corrupt (07 R145); a
poisoned control block faults POISON (05 R117). -/
def State.checkHome (s : State) (pa : Nat) (code : Option Nat) : State × Option Trap :=
  let r := s.ctlBytes pa
  match (r.1.paCell pa).bind (fun c => r.1.poisonIn c 64) with
  | some o => (r.1, some { code := .poison, detail := o, addr := 0 })
  | none =>
    match queueCheck r.2 code with
    | none => (r.1, none)
    | some (c, d) => (if c = .qcorrupt then r.1.breakQueue pa else r.1, some { code := c, detail := d, addr := 0 })

/-- Roll entries in use on a stack die, those of granule lists among them (07 R152, R157). -/
def State.rollUsed (s : State) (stack : Nat) : Nat :=
  (s.qreqs.filter (fun q => q.parked && decide (((s.paCell q.pa).map stackOfCell) = some stack))).length +
    (s.treqs.filter (fun q => q.waiting && decide (((s.paCell q.pa).map stackOfCell) = some stack))).length

/-- Whether a roll entry is free at the home of a physical address. -/
def State.rollFree (s : State) (pa : Nat) : Bool :=
  match s.paCell pa with
  | none => false
  | some c => decide (s.rollUsed (stackOfCell c) < 65536)

/-- Whether a debugger steps an issuer, whose instruction then must not wait (12 R250). -/
def State.stepped (s : State) (bid : Nat) (who : Who) : Bool :=
  match s.ctx? bid who with
  | none => false
  | some c => c.halt.stepper.isSome

/-- Give back a stepped instruction that would wait: nothing of it stands, NOTREADY is returned (12 R250). -/
def State.stepNotReady (s : State) (bid : Nat) (who : Who) : State :=
  (s.undo bid who).endStepOf bid who 1

/-- The issuer of a queue operation waits in the roll (02 R40). -/
def State.rollWait (s : State) (f : QFrom) : State :=
  match f with
  | .actor bid who => s.modCtx bid who (fun c => { c with wait := some .roll })
  | _ => s

/-- Whether a request's issuer is being stepped. -/
def State.reqStepped (s : State) (f : QFrom) : Option (Nat × Who) :=
  match f with
  | .actor bid who => if s.stepped bid who then some (bid, who) else none
  | _ => none

/-- PARK a queue operation at the back of its roll, or answer busy when no entry is free (07 R152). -/
def State.parkReq (s : State) (q : QReq) : State :=
  let s0 := s.dropReq q.rid
  match s.reqStepped q.from_ with
  | some (bid, who) => s0.stepNotReady bid who
  | none =>
    if s.rollFree q.pa then
      let s1 : State := { s0 with qreqs := s0.qreqs ++ [{ q with parked := true, busy := false }] }
      (s1.noteWaiters q.pa).rollWait q.from_
    else
      let s1 : State := { s0 with qreqs := s0.qreqs ++ [{ q with busy := true }] }
      s1.rollWait q.from_

/-- A try form that fails: it writes 0 and nothing else (07 R150 to R152). -/
def State.tryFails (s : State) (q : QReq) : State :=
  let s0 := s.dropReq q.rid
  match q.from_ with
  | .actor bid who => match s0.block? bid with
    | none => s0
    | some b => (s0.forward b who [0#32]).answer bid who [0#32]
  | .producer bid who pid => match s0.block? bid with
    | none => s0
    | some b => (s0.forward b who [0#32]).modCtx bid who (fun c => c.emptyHanded pid)
  | .window port w _ => s0.modWindow port w (fun x => { x with result := 0 })
  | .trace => { s0 with dean := { s0.dean with trdrop := s0.dean.trdrop + 1 } }
  | .remote src seq => s0.respond src seq true [0#32]
  | _ => s0

/-- The space in which a request of an agent is translated (10 R438, R198, R202; 08 R169; 09 R188). -/
def State.reqSpace (s : State) (q : QReq) (queue : Nat) : Space :=
  let dev := s.queueSpace queue (agentCore queue)
  match q.from_ with
  | .engine oid => match (s.op? oid).bind (fun o => s.block? o.bid) with
    | some b => { b.space with core := b.core.getD (agentCore queue) }
    | none => dev
  | .trigger oid => match (s.op? oid).bind (fun o => s.block? o.bid) with
    | some b => { b.space with core := b.core.getD (agentCore queue) }
    | none => dev
  | .launch lid => match s.launch? lid with
    | some l => l.params.space
    | none => dev
  | .summit iid => match s.instances.find? (fun i => i.iid == iid) with
    | some i => i.params.space
    | none => dev
  | .refusal => { dev with user := !(s.lq queue).priv }
  | _ => dev

/-- Resolve the control block of a request: an issuer's was translated when it issued; an agent's handle is translated now.
A control block on a page that is locked for migration holds the request (05 R101). -/
def State.resolve (s : State) (q : QReq) : State × Except Trap (Option QReq) :=
  match q.handle with
  | none => (s, .ok (some q))
  | some (h, queue) =>
    if !handleOk h.toNat then (s, .error (Trap.plain .illopd))
    else
      let r := s.controlBlock (s.reqSpace q queue) h.toNat needRW
      match r.2 with
      | .error t => (r.1.forgetAgent, .error t)
      | .ok p => (r.1.forgetAgent, .ok (if p.mig then none else some { q with pa := p.pa, unc := p.unc }))

/-- The Ridge stop of the home of a request on its way, once its control block can be translated. -/
def State.reqStop (s : State) (q : QReq) : Option Nat :=
  match (s.resolve q).2 with
  | .ok (some q1) => some (s.homeStop q1.pa)
  | _ => none

/-- Whether queue requests that left one stop for another earlier than a given one are still on their way: the Ridge delivers
those of one class and one pair of stops in the order they were sent (01 R13). -/
def State.queueAhead (s : State) (src dst : Nat) (before : Option Nat) : Bool :=
  let earlier : List QReq := match before with
    | none => s.qreqs
    | some rid => s.qreqs.takeWhile (fun q => q.rid != rid)
  (earlier.filter (fun q => !q.parked && !q.busy && q.src == src)).any (fun q => s.reqStop q = some dst)

/-- Whether an operation that an agent has asked for is under way: on its way or parked, allocated at its home, or asked of another
device. -/
def State.inFlight (s : State) (f : QFrom) : Bool :=
  s.qreqs.any (fun q => decide (q.from_ = f)) || s.queues.any (fun q => q.enqs.contains f || q.deqs.contains f) ||
    s.peers.outstanding.any (fun o => match o.use with
      | .queue q => decide (q.from_ = f)
      | _ => false)

/-- The issuer of a queue request, with the PC at which it stands. -/
def State.reqOwner (s : State) (q : QReq) : Option (Nat × Who × DWord) :=
  match q.from_ with
  | .actor bid who => (s.ctx? bid who).map (fun c => (bid, who, c.pc))
  | .producer bid who pid => (s.ctx? bid who).map (fun c =>
      (bid, who, ((c.producers.find? (fun p => p.pid == pid)).map (·.pc)).getD c.pc))
  | _ => none

/-- An instruction that is stepped must not wait at another device's home: its request is followed by its withdrawal, which finds it only
if it waits (12 R250). -/
def State.notWaiting (s : State) (stepped : Bool) : State :=
  match s.peers.outstanding.getLast? with
  | none => s
  | some o => if stepped then s.cancelOp o else s

/-- A queue operation whose home is on another device leaves by its link (05 R89; 13 R264). -/
def State.queueAway (s : State) (q : QReq) : State :=
  ((s.dropReq q.rid).remoteSend q.pa
    (if q.enq then .enq (q.payload.take (codeSize q.code)) q.try_ else .deq q.code q.try_) (.queue q) (s.reqOwner q) q.va).notWaiting
    (s.reqStepped q.from_).isSome

/-- What a record's enqueue releases before it is performed (06 R126; 11 R216): the committed writes of the blocks that a fault record
names. -/
def State.recordRelease (s : State) (f : QFrom) : State :=
  match f with
  | .faultRec r => (s.blocks.filter (fun b => b.params.lid == r.lid && b.index == r.blk)).foldl (fun t b => t.pushOf b.bid) s
  | _ => s

/-- Whether a record's enqueue waits for writes to other devices that it releases at its queue's scope (06 R123, R126; 10 R202; 11
R216). -/
def State.owesRelease (s : State) (q : QReq) : Bool :=
  (match q.from_ with
    | .faultRec _ => true
    | .launch _ => true
    | _ => false) && decide (s.queueScope q.pa ≥ 8) && s.unacknowledged s.fresh

/-- The part of an operation at the home that both kinds share: it is resolved and checked, then goes on, or fails. -/
def State.takeUp (s : State) (rid : Nat) (enq : Bool) (go : State → QReq → State) : State :=
  match s.qreqs.find? (fun q => q.rid == rid) with
  | none => s
  | some q =>
    if q.enq != enq || q.parked || q.busy then s
    else
      let r := s.resolve q
      match r.2 with
      | .error t => (r.1.dropReq rid).queueFail q t
      | .ok none => r.1
      | .ok (some q1) =>
        if s.queueAhead q.src (s.homeStop q1.pa) (some rid) then s
        else if s.away q1.pa then
          let t := r.1.recordRelease q1.from_
          if t.owesRelease q1 then t else t.queueAway q1
        else
        let k := ((r.1.evictCtl q1.from_ q1.pa).reachQueue q1.pa q1.unc).checkHome q1.pa (some q1.code)
        match k.2 with
        | some t => (k.1.dropReq rid).queueFail q1 t
        | none => go k.1 q1

/-- AN ENQUEUE REACHES THE HOME (07 R150). -/
def State.enqHome (s : State) (rid : Nat) : State :=
  s.takeUp rid true (fun t0 q =>
    let t := t0.recordRelease q.from_
    if t.owesRelease q then t
    else if t.room q.pa = 0 || !(t.parkedAt q.pa true).isEmpty then (if q.try_ then t.tryFails q else t.parkReq q)
    else t.allocEnq q)

/-- A DEQUEUE REACHES THE HOME (07 R151). -/
def State.deqHome (s : State) (rid : Nat) : State :=
  s.takeUp rid false (fun t q =>
    if t.unclaimed q.pa = 0 || !(t.parkedAt q.pa false).isEmpty then (if q.try_ then t.tryFails q else t.parkReq q)
    else t.allocDeq q)

/-- What leaves a stop for a home comes after the queue requests that left that stop for it earlier (01 R13): these reach the home
first, in their order, wherever they are on their way. When a message arrives is free. (DEDUCED, log entry 53.) -/
def State.queueFirst (s : State) (src dst : Nat) : State :=
  (s.qreqs.filter (fun q => !q.parked && !q.busy && q.src == src && decide (s.reqStop q = some dst))).foldl
    (fun t q => if q.enq then t.enqHome q.rid else t.deqHome q.rid) s

/-- THE OLDEST ALLOCATED WRITE IS ACKNOWLEDGED (07 R150, R153): TAIL, FREE, ENQCNT and CHECK, then the roll. -/
def State.enqAck (s : State) (pa : Nat) : State :=
  let h := s.qhome pa
  match h.enqs with
  | [] => s
  | f :: rest =>
    let s0 := ((s.evictCtl f pa).ctlBytes pa).1
    let c := s0.ctl pa
    let c1 : QCtl :=
      { c with tail := (c.tail + 1) % 2 ^ 32, free := (c.free + 2 ^ 32 - 1) % 2 ^ 32, enqcnt := (c.enqcnt + 1) % 2 ^ 64 }
    let s1 := s0.ctlUpdate pa c1
    ((s1.setQhome { h with enqs := rest }).enqDone f).serve pa

/-- What a dequeued element does for whoever asked for it (07 R151). -/
def State.deqDone (s : State) (f : QFrom) (data : List Byte) : State :=
  let ws := wordsOf (data.length / 4) data
  match f with
  | .producer bid who pid => match s.block? bid with
    | none => s
    | some b => ((s.mark bid).forward b who ws).modCtx bid who (fun c => c.deliver pid ws)
  | .trigger oid => match (s.op? oid).bind (fun o => (s.block? o.bid).map (fun b => (o, b))) with
    | none => s
    | some (o, b) => ((s.mark b.bid).modOp oid (fun o => { o with phase := .running })).tellPartner b o.who (16 + o.kind.cls)
  | .window port w _ => s.modWindow port w (fun x => { x with hold := data, result := 1 })
  | .dean n => { s with dean := { s.dean with taken := s.dean.taken ++ [(n, data)] } }
  | .remote src seq => s.respond src seq true (1#32 :: ws)
  | _ => s

/-- The request that a fault of an allocated dequeue is reported against. -/
def QFrom.asReq (f : QFrom) (pa : Nat) : QReq :=
  { rid := 0, from_ := f, enq := false, try_ := false, pa := pa, va := 0, handle := none, code := 0, payload := [],
    parked := false, busy := false, src := 0, unc := false }

/-- The bytes of a slot that the block of a dequeue's issuer holds uncommitted, by their offset: the read half of a dequeue is a read by
its issuer (06 R120, R122). -/
def State.slotOwn (s : State) (f : Option QFrom) (slot n i : Nat) : Option Byte :=
  match (f.bind QFrom.block?).bind s.block? with
  | none => none
  | some b =>
    if b.body.buffer.isEmpty then none
    else bufferByte (s.bufferSeen b [{ va := 2 ^ 64 + slot, pa := slot, len := n, entry := 0 }]) (2 ^ 64 + slot + i)

/-- Read the element of the oldest allocated dequeue, its block's own uncommitted bytes first: its data, or its poison origin with the
slot's address (07 R151; 06 R122). (DESIGN CHOICE, log entry 10.) -/
def State.readSlot (s : State) (f : Option QFrom) (c : QCtl) (home i : Nat) : State × Except Trap (List Byte) :=
  let slot := c.slot i
  let own (i : Nat) : Option Byte := s.slotOwn f slot (2 ^ c.lsize) i
  match s.cellsOf slot (2 ^ c.lsize) with
  | none => (s, .error (Trap.at .perm 6 slot))
  | some cells =>
    match s.poisonAny cells with
    | some o => (s, .error (Trap.at .poison o slot))
    | none =>
      let s0 := match f with
        | some f => s.evictSlot f slot (2 ^ c.lsize)
        | none => s
      let r := s0.homeRead home cells .normal
      (r.1, .ok ((List.range r.2.length).map (fun i => (own i).getD (r.2.getD i 0))))

/-- A control block after a dequeue (07 R151). -/
def QCtl.popped (c : QCtl) : QCtl :=
  { c with head := (c.head + 1) % 2 ^ 32, free := (c.free + 1) % 2 ^ 32, deqcnt := (c.deqcnt + 1) % 2 ^ 64 }

/-- THE OLDEST ALLOCATED READ IS PERFORMED (07 R151, R153): HEAD, FREE, DEQCNT and CHECK, the data to its issuer, then the
roll. A poisoned slot faults and stays at the head. -/
def State.deqRead (s : State) (pa : Nat) : State :=
  let h := s.qhome pa
  match h.deqs with
  | [] => s
  | f :: rest =>
    if s.beforeCommit f then s
    else
      let s0 := ((s.evictCtl f pa).ctlBytes pa).1
      let c := s0.ctl pa
      let r := s0.readSlot (some f) c (4 * stackOfCell ((s0.paCell pa).getD 0)) c.head
      let s1 := r.1.setQhome { h with deqs := rest }
      match r.2 with
      | .error t => (s1.queueFail (f.asReq pa) t).serve pa
      | .ok data =>
        let s2 := s1.ctlUpdate pa c.popped
        ((s2.deqDone f data).readFor f s.fresh (c.slot c.head) ((s2.cellsOf (c.slot c.head) (2 ^ c.lsize)).getD [])).serve pa

/-- Complete dequeues that were allocated before a QINIT from the old area, without effect on the new block (07 R148). -/
def State.flushDeqs (s : State) (c : QCtl) (pa : Nat) (i : Nat) (fs : List QFrom) : State :=
  match fs with
  | [] => s
  | f :: rest =>
    let r := s.readSlot (some f) c (4 * stackOfCell ((s.paCell pa).getD 0)) i
    match r.2 with
    | .error t => (r.1.queueFail (f.asReq pa) t).flushDeqs c pa (i + 1) rest
    | .ok data => (r.1.deqDone f data).flushDeqs c pa (i + 1) rest

/-- QINIT AT THE HOME (07 R148, 18 R373): status 5 while an operation is parked, else all 64 bytes are written as one event.
Where the page of the area spreads over several stacks, MDIE tells whether slot 0's stack is not the control block's (07 R143; DESIGN
CHOICE, log entry 57). -/
def State.initHome (s : State) (pa area lcap code scope : Nat) : State × Nat :=
  if !(s.parkedAt pa true).isEmpty || !(s.parkedAt pa false).isEmpty then (s, 5)
  else
    match s.paCell pa with
    | none => (s, 5)
    | some c =>
      let s0 := s.recall (c / 64)
      let h := s0.qhome pa
      let old := s0.ctl pa
      let s1 := s0.setQhome { h with enqs := [], deqs := [] }
      let s2 := h.enqs.foldl (fun t f => t.enqDone f) s1
      let s3 := s2.flushDeqs old pa old.head h.deqs
      let far := decide ((s3.paCell area).map stackOfCell ≠ some (stackOfCell c))
      let conf := code + 2 + lcap * 2 ^ 4 + scope * 2 ^ 9 + bit01 far * 2 ^ 14
      let first := toBytes 4 0 ++ toBytes 4 0 ++ toBytes 4 (2 ^ lcap) ++ toBytes 4 conf ++ toBytes 8 area
      let all := first ++ toBytes 32 0 ++ toBytes 4 (crc32c first) ++ toBytes 4 queueMagic
      ((s3.note (4 * stackOfCell c) c 64 .normal .memory).ctlWrite pa 0 all, 0)

/-- QSTAT AT THE HOME (07 R149): a failed check sets BROKEN and fails what is parked; the four words. -/
def State.statHome (s : State) (pa : Nat) : State × Except Trap (List Word) :=
  let r := s.ctlBytes pa
  match (r.1.paCell pa).bind (fun c => r.1.poisonIn c 64) with
  | some o => (r.1, .error { code := .poison, detail := o, addr := 0 })
  | none =>
    let s1 := match queueCheck r.2 none with
      | none => r.1
      | some _ => r.1.breakQueue pa
    let c := s1.ctl pa
    (s1, .ok [BitVec.ofNat 32 c.occupied, BitVec.ofNat 32 c.free, BitVec.ofNat 32 c.conf, BitVec.ofNat 32 c.wait])

/-- Perform the reads of the dequeues allocated so far (07 R151), as far as none waits for its block's commit. -/
def State.performReads (fuel : Nat) (s : State) (pa : Nat) : State :=
  match fuel with
  | 0 => s
  | fuel + 1 => (s.deqRead pa).performReads fuel pa

/-- Whether a dequeue of a queue waits for its block's commit, which holds those behind it (07 R153). -/
def State.readsHeld (s : State) (pa : Nat) : Bool := (s.qhome pa).deqs.any (fun f => s.beforeCommit f)

/-- A dequeue that the dean or a window makes from a stop and that is performed at once: the first element that is visible and
unclaimed, if nobody waits for it. Requests of its pair of stops come first (01 R13), and the reads allocated before it are performed
first, in index order (07 R151, R153; 10 R193). -/
def State.takeNow (s : State) (src pa code : Nat) : State × Except Trap (Option (List Byte)) :=
  let k := (s.queueFirst src (s.homeStop pa)).checkHome pa (some code)
  match k.2 with
  | some t => (k.1, .error t)
  | none =>
    if k.1.unclaimed pa = 0 || !(k.1.parkedAt pa false).isEmpty || k.1.readsHeld pa then (k.1, .ok none)
    else
      let s1 := State.performReads (k.1.qhome pa).deqs.length k.1 pa
      let c := s1.ctl pa
      let r := s1.readSlot none c (4 * stackOfCell ((s1.paCell pa).getD 0)) c.head
      match r.2 with
      | .error t => (r.1, .error t)
      | .ok data =>
        let s2 := r.1.ctlUpdate pa c.popped
        (s2.serve pa, .ok (some data))

/-- Whether the tag of the granule of a cell is full (05 R116). -/
def State.tagFull (s : State) (c : Nat) : Bool := s.tags.contains (c / 16)

/-- Set or clear the tag of the granule of a cell. -/
def State.setTag (s : State) (c : Nat) (full : Bool) : State :=
  { s with tags := if full then sins s.tags (c / 16) else sdel s.tags (c / 16) }

/-- A tagged access as a piece. -/
def TagReq.piece (q : TagReq) : Piece := { va := q.va.toNat, pa := q.pa, len := q.size, entry := 0 }

/-- Bytes read at a home, each replaced by the youngest uncommitted write of it in the block's store buffer (06 R122). -/
def overlay (buf : List SbEntry) (va : Nat) (bs : List Byte) : List Byte :=
  (List.range bs.length).map (fun i => (bufferByte buf ((va + i) % 2 ^ 64)).getD (bs.getD i 0))

/-- The core of a block that makes an access, before which its L1 gives up the line (05 R102). -/
def State.evictOf (s : State) (bid pa : Nat) : State :=
  match (s.block? bid).bind (fun b => b.core) with
  | none => s
  | some core => s.evictFor core pa

/-- The read of an LDT whose tag is full, as one event (07 R156; 17 R352): what the home holds under the block's own uncommitted
bytes, and with consume the tag is empty. -/
def State.tagRead (s : State) (q : TagReq) (c : Nat) : State × List Word :=
  let s0 := if q.remote.isSome then s else s.evictOf q.bid q.pa
  let r := s0.homeGet q.unc (4 * stackOfCell c) [(c, q.size)] .normal
  let buf := match q.remote, s.block? q.bid with
    | none, some b => s.bufferSeen b [q.piece]
    | _, _ => []
  let ws := wordsOf ((q.size + 3) / 4) (overlay buf q.va.toNat r.2)
  let s1 := if q.condition then r.1.setTag c false else r.1
  (if q.condition && q.remote.isNone then s1.mark q.bid else s1, ws)

/-- An LDT or STT has been performed: its issuer goes on, another device is answered, and the other copy of a pair is told of a
consuming load (11 R236; 13 R264). -/
def State.tagAnswer (s : State) (q : TagReq) (ws : List Word) : State :=
  match q.remote with
  | some (src, n) => s.respond src n true ws
  | none =>
    let s1 := match s.block? q.bid with
      | some b => if q.load && q.condition then s.forward b q.who ws else s
      | none => s
    s1.answer q.bid q.who ws

/-- An LDT meets poison (05 R117). -/
def State.tagPoison (s : State) (q : TagReq) (origin : Nat) : State :=
  match q.remote with
  | some (src, n) => s.reply src n true 2 []
  | none => s.failActor q.bid q.who { code := .poison, detail := origin, addr := q.va }

/-- Perform an LDT or STT whose condition holds, as one event (07 R156): the new state and whether its tag changed. -/
def State.tagPerform (s : State) (q : TagReq) (c : Nat) : State × Bool :=
  let s0 : State := { s with treqs := s.treqs.filter (fun x => x.rid != q.rid) }
  if q.load then
    match s0.poisonIn c q.size with
    | some o => (s0.tagPoison q o, false)
    | none =>
      let r := s0.tagRead q c
      (r.1.tagAnswer q r.2, q.condition)
  else
    let s1 := if q.remote.isSome then s0 else s0.evictOf q.bid q.pa
    let s2 := (s1.homeSet q.unc (4 * stackOfCell c) [(c, q.size)] q.data .normal).setTag c true
    ((if q.remote.isSome then s2 else s2.mark q.bid).tagAnswer q [], !s.tagFull c)

/-- Whether the condition of a tagged access holds (07 R156). -/
def State.tagReady (s : State) (q : TagReq) (c : Nat) : Bool :=
  if q.load then s.tagFull c else !q.condition || !s.tagFull c

/-- After a change of a granule's tag, perform its waiters in arrival order, each whose condition then holds, until none
does (07 R157). -/
def State.serveTags (fuel : Nat) (s : State) (g : Nat) : State :=
  match fuel with
  | 0 => s
  | fuel + 1 =>
    match s.treqs.find? (fun q => q.waiting && match s.paCell q.pa with
        | some c => decide (c / 16 = g) && s.tagReady q c
        | none => false) with
    | none => s
    | some q =>
      let c := (s.paCell q.pa).getD 0
      (s.tagPerform q c).1.serveTags fuel g

/-- Serve the waiters of a granule. -/
def State.tagChanged (s : State) (g : Nat) : State := State.serveTags s.treqs.length s g

/-- Whether tagged accesses that left one stop for another earlier than a given one are still on their way (01 R13). -/
def State.tagAhead (s : State) (src dst : Nat) (before : Option Nat) : Bool :=
  let earlier : List TagReq := match before with
    | none => s.treqs
    | some rid => s.treqs.takeWhile (fun x => x.rid != rid)
  earlier.any (fun x => !x.waiting && !x.busy && x.src == src && s.homeStop x.pa == dst)

/-- A tagged access toward another device leaves by its link (05 R89; 13 R264). -/
def State.tagAway (s : State) (q : TagReq) : State :=
  let s0 : State := { s with treqs := s.treqs.filter (fun x => x.rid != q.rid) }
  let owner := (s.ctx? q.bid q.who).map (fun c => (q.bid, q.who, c.pc))
  (s0.remoteSend q.pa (if q.load then .ldt q.size q.condition else .stt q.data q.condition)
    (.answer (!q.load || q.condition) (q.load && q.condition)) owner q.va).notWaiting (s.stepped q.bid q.who)

/-- AN LDT OR STT REACHES ITS GRANULE'S HOME (07 R157): it is performed, or waits in the granule's list. An LDT of a poisoned
sector does not wait: the check comes first (17 R344 step 6, R352; DEDUCED, log entry 41). One that finds no entry of the roll is answered
busy (07 R152). -/
def State.tagHome (s : State) (rid : Nat) : State :=
  match s.treqs.find? (fun q => q.rid == rid) with
  | none => s
  | some q =>
    match s.paCell q.pa with
    | none => if q.waiting || q.busy || !s.away q.pa || s.tagAhead q.src (s.homeStop q.pa) (some rid) then s else s.tagAway q
    | some c =>
      if q.waiting || q.busy || s.tagAhead q.src (s.homeStop q.pa) (some rid) then s
      else if s.tagReady q c || (q.load && (s.poisonIn c q.size).isSome) then
        let r := (s.recall (c / 64)).tagPerform q c
        if r.2 then r.1.tagChanged (c / 16) else r.1
      else if q.remote.isNone && s.stepped q.bid q.who then
        let s1 : State := { s with treqs := s.treqs.filter (fun x => x.rid != rid) }
        s1.stepNotReady q.bid q.who
      else if s.rollFree q.pa then
        let s1 : State := { s with treqs := s.treqs.filter (fun x => x.rid != rid) ++ [{ q with waiting := true }] }
        if q.remote.isSome then s1 else s1.modCtx q.bid q.who (fun c => { c with wait := some .tag })
      else { s with treqs := s.treqs.map (fun x => if x.rid = rid then { x with busy := true } else x) }

/-- What leaves a stop comes after the tagged accesses that left it earlier (01 R13): these reach their homes first, in their order. When
a message arrives is free. (DEDUCED, log entry 53.) -/
def State.tagsFirst (s : State) (src : Nat) : State :=
  (s.treqs.filter (fun q => !q.waiting && !q.busy && q.src == src)).foldl (fun t q => t.tagHome q.rid) s

end Sys2Proof.Machine
end

