-- ==== Sys2Proof/Machine/MemoryAccess.lean ====
section
/-!
DEFINITION. Loads, stores, tagged accesses, prefetch, cache maintenance and fences of one issuer (06 R120 to R131, R138; 07
R156, R157; 15 R309 to R311; 16 R338; 17 R343 to R352, R368, R369; 18 R385 to R390).
-/
namespace Sys2Proof.Machine

/-- The bytes of a load of which a part lies on another device, as far as they are known when it issues: the block's own uncommitted
ones and those of this package, by their offset (06 R122; 17 R344). -/
def State.knownBytes (s : State) (core : Nat) (buf : List SbEntry) (va : Nat) (ps : List Piece) :
    State × Except Trap (List (Nat × Byte)) :=
  match ps with
  | [] => (s, .ok [])
  | p :: rest =>
    let off := (p.va + 2 ^ 64 - va) % 2 ^ 64
    let own : List (Nat × Byte) := (List.range p.len).filterMap (fun i => (bufferByte buf (p.va + i)).map (fun b => (off + i, b)))
    let r := if s.away p.pa then (s, Except.ok own)
      else
        let q := s.readPieces core buf [p]
        (q.1, q.2.map (fun bs => (List.range p.len).map (fun i => (off + i, bs.getD i 0))))
    match r.2 with
    | .error t => (r.1, .error t)
    | .ok xs =>
      let q := r.1.knownBytes core buf va rest
      (q.1, q.2.map (fun more => xs ++ more))

/-- Ask other devices for the bytes of a load that lie there, as producer pid. -/
def State.askBytes (s : State) (e : Env) (pid va : Nat) (ps : List Piece) : State :=
  (ps.filter (fun p => s.away p.pa)).foldl (fun t p =>
    t.remoteSend p.pa (.read p.len) (.loads [(e.who, pid, 0, p.len, (p.va + 2 ^ 64 - va) % 2 ^ 64)])
      (some (e.bid, e.who, e.ctx.pc)) (BitVec.ofNat 64 p.va)) s

/-- Read n bytes that an instruction uses as it issues, as a load by its issuer (08 R165; 12 R240): what lies on another device is asked
for, and the instruction waits for it. -/
def awayRead (e : Env) (va n : Nat) (ps : List Piece) (go : State → List Byte → Act) (s : State) : Act :=
  match e.ctx.phase.answer with
  | .loading known => match gathered known n with
    | some bs => go s bs
    | none => .wait s .answer
  | _ =>
    if s.anyAway ps then
      let k := s.knownBytes e.core (s.bufferFor e ps) va ps
      match k.2 with
      | .error t => .trap k.1 t
      | .ok known => match gathered known n with
        | some bs => go k.1 bs
        | none => .wait (k.1.askHeld e va ps known) .answer
    else
      let q := s.readPieces e.core (s.bufferFor e ps) ps
      match q.2 with
      | .error t => .trap q.1 t
      | .ok bs => go q.1 bs

/-- A load of which a part lies on another device (17 R344 step 7): a producer that completes when its bytes have come; one that a
proctor match may hold waits for them (12 R242). The block's own bytes alone need no request. -/
def loadAway (e : Env) (a : Nat) (sz : BitVec 3) (acq : Option Nat) (ps : List Piece) (s : State) : Act :=
  let k := s.knownBytes e.core (s.bufferFor e ps) a ps
  match k.2 with
  | .error t => .trap k.1 t
  | .ok known =>
    if known.length ≥ sizeBytes sz then
      let bs := (List.range (sizeBytes sz)).map (fun i => (aget known i).getD 0)
      .done { state := k.1, vals := [loadValue sz bs], long := true, acquire := acq,
              src := k.1.readSpan e.blk.space a (sizeBytes sz),
              loaded := some (seenValue sz (ofBytes bs)) }
    else if k.1.holdsLoad e then .wait (k.1.askHeld e a ps known) .watch
    else
      let pid := k.1.fresh
      .done { state := k.1.tick1.askBytes e pid a ps, long := true, acquire := acq, pid := some pid,
              src := k.1.readSpan e.blk.space a (sizeBytes sz), late := some (.load sz known) }

/-- LD (17 R346). The data is read as the load issues and reaches the destination when the producer completes.
(DEDUCED, log entry 5.) -/
def execLd (rd ra : Reg) (sz : BitVec 3) (ord : BitVec 2) (sc : BitVec 4) (g : Bool) (s : State) :
    Host.Outcome State Fault Refusal :=
  issue (.ld rd ra sz ord sc g) (fun e v s =>
    match e.ctx.phase.answer with
    | .loading known => heldLoad sz (acquireScope (decide (ord = 1)) sc.toNat) known s
    | _ =>
    let a := v.getD 0 0
    let r := s.pieces e.blk.space a (sizeBytes sz) needR
    match r.2 with
    | .error t => .trap r.1 t
    | .ok ps => (r.1.beforeRead e a (sizeBytes sz)).act (fun s1 =>
        if s1.anyAway ps then loadAway e a sz (acquireScope (decide (ord = 1)) sc.toNat) ps s1
        else
        let q := s1.readPieces e.core (s1.bufferFor e ps) ps
        match q.2 with
        | .error t => .trap q.1 t
        | .ok bs => .done { state := q.1, vals := [loadValue sz bs], long := true,
                            acquire := acquireScope (decide (ord = 1)) sc.toNat,
                            src := q.1.readSpan e.blk.space a (sizeBytes sz),
                            loaded := some (seenValue sz (ofBytes bs)) })) s

/-- A store enters the buffer; a releasing one at .core or wider first releases and then commits again (18 R386). -/
def storeAct (e : Env) (a : Nat) (sz : BitVec 3) (sc : Nat) (data : List Byte) (s : State) : Act :=
  let x : SbEntry := { kind := .st, va := BitVec.ofNat 64 a, szcode := sz.toNat, who := e.who, pc := e.ctx.pc,
                       bytes := placeBytes a data }
  let ev := storeBytes a sz.toNat data
  if sc ≥ 2 then
    if e.ctx.phase.entered then (s.commitAgain e).act (fun t => .done ({ state := t : Done }.point e))
    else (s.releasePoint e ev sc).act (fun t =>
      ((t.enterBuffer e x).secondCommit e).act (fun u => .done ({ state := u : Done }.point e)))
  else ((s.roomFor e data.length).andThen (fun t => t.slackGate e ev)).act (fun t => .write (t.enterBuffer e x) [])

/-- ST (18 R386). -/
def execSt (rd ra : Reg) (sz : BitVec 3) (ord : BitVec 2) (sc : BitVec 4) (g : Bool) (s : State) :
    Host.Outcome State Fault Refusal :=
  issue (.st rd ra sz ord sc g) (fun e v s =>
    let a := v.getD 0 0
    let n := sizeBytes sz
    let r := s.pieces e.blk.space a n needW
    match r.2 with
    | .error t => .trap r.1 t
    | .ok _ => storeAct e a sz (if ord = 1 then sc.toNat else 0) (toBytes n (v.getD 1 0)) r.1) s

/-- Translate a tagged access (07 R156, 17 R352, 18 R390): aligned, then the page, then FMT = 4. -/
def State.tagPiece (s : State) (e : Env) (a n : Nat) (need : Need) : State × Except Trap Piece :=
  if a % n ≠ 0 then (s, .error (Trap.plain .illopd))
  else
    let r := s.pieces e.blk.space a n need
    match r.2 with
    | .error t => (r.1, .error t)
    | .ok [] => (r.1, .error (Trap.plain .illopd))
    | .ok (p :: _) => if p.fmt = 4 then (r.1, .ok p) else (r.1, .error (Trap.at .fmtmis (p.fmt * 16 + 4) a))

/-- A tagged access of an issuer (07 R156). -/
def State.tagReq (s : State) (e : Env) (p : Piece) (load cond : Bool) (data : List Byte) : TagReq :=
  { rid := s.fresh, bid := e.bid, who := e.who, pa := p.pa, va := BitVec.ofNat 64 p.va, load := load, condition := cond,
    size := p.len, data := data, waiting := false, busy := false, src := e.stop, unc := p.unc, remote := none }

/-- Whether a tagged access that reaches its home now waits for its tag (07 R157). -/
def State.tagWaits (s : State) (q : TagReq) : Bool :=
  match s.paCell q.pa with
  | none => false
  | some c => !s.tagReady q c && !(q.load && (s.poisonIn c q.size).isSome)

/-- An LDT that need not wait for its tag is performed as it issues (03 R57; DEDUCED, log entry 53): its data, with the waiters of
the tag that it has changed served. -/
def State.ldtNow (s : State) (e : Env) (p : Piece) (cond : Bool) : State × Except Trap (List Word) :=
  let q := s.tagReq e p true cond []
  match s.paCell p.pa with
  | none => (s, .error (Trap.at .perm 6 p.va))
  | some c =>
    match s.poisonIn c q.size with
    | some o => (s, .error (Trap.at .poison o p.va))
    | none =>
      let r := (s.recall (c / 64)).tagRead q c
      let s1 := if cond then r.1.forward e.blk e.who r.2 else r.1
      (if cond then s1.tagChanged (c / 16) else s1, .ok r.2)

/-- The store-buffer entry of an STT (18 R390). -/
def Env.sttEntry (e : Env) (p : Piece) (data : List Byte) : SbEntry :=
  { kind := .stt, va := BitVec.ofNat 64 p.va, szcode := if p.len ≤ 2 then 2 * (p.len - 1) else Nat.log2 p.len + 2, who := e.who,
    pc := e.ctx.pc, bytes := placeBytes p.va data }

/-- Send a tagged access to its granule's home and await its event there (07 R157). An STT stays in the store buffer until its home has
performed it (18 R390). -/
def State.askTag (s : State) (e : Env) (p : Piece) (load cond : Bool) (data : List Byte) : State :=
  let s0 := (s.evictFor e.core p.pa).ridgeSend .memory e.stop (s.homeStop p.pa) []
  let q := s0.tagReq e p load cond data
  let s1 := if load then s0 else s0.enterBuffer e (e.sttEntry p data)
  ({ s1 with treqs := s1.treqs ++ [q], fresh := s1.fresh + 1 }).asking e

/-- LDT (17 R352). A consuming one is a commit point in checkpoint and paired mode and is performed by the leading copy
alone (11 R229, R236). -/
def execLdt (rd ra : Reg) (sz : BitVec 3) (ord : BitVec 2) (sc : BitVec 4) (g : Bool) (s : State) :
    Host.Outcome State Fault Refusal :=
  issue (.ldt rd ra sz ord sc g) (fun e v s =>
    let a := v.getD 0 0
    let cons := decide (ord = 1)
    let fin (t : State) (ws : List Word) : Act :=
      let bs := (bytesOf ws).take (sizeBytes sz)
      let d : Done := { state := t, vals := [loadValue sz bs], long := true, acquire := acquireScope true sc.toNat,
                        src := t.readSpan e.blk.space a (sizeBytes sz),
                        loaded := if cons then none else some (seenValue sz (ofBytes bs)) }
      .done (if cons && e.blk.ckptMode then d.point e else d)
    match e.ctx.phase.answer with
    | .got ws => fin s ws
    | .awaiting => .wait s .tag
    | .granted _ _ => fin s []
    | .loading _ => .wait s .tag
    | .none =>
      let r := s.tagPiece e a (sizeBytes sz) needR
      match r.2 with
      | .error t => .trap r.1 t
      | .ok p =>
        if e.ctx.halt.stepper.isSome && r.1.tagWaits (r.1.tagReq e p true cons []) then .wait r.1 .tag
        else
        (if cons && e.blk.ckptMode then r.1.commitPoint e [] else .go r.1).act (fun t =>
          if cons && decide (e.blk.role = .trailing) then
            match t.takeForwarded (e.again t).blk e.who with
            | none => .wait t .pair
            | some (u, ws) => fin u ws
          else (t.beforeRead e a (sizeBytes sz)).act (fun u =>
            if u.away p.pa || u.tagWaits (u.tagReq e p true cons []) || u.tagAhead e.stop (u.homeStop p.pa) none then
              .wait (u.askTag e p true cons []) .tag
            else
              let n := u.ldtNow e p cons
              match n.2 with
              | .error x => .trap n.1 x
              | .ok ws => fin n.1 ws))) s

/-- STT (18 R390): a commit point; its entry enters the store buffer, drains last, as one event at the home, and the issuer waits for it.
Until then the block's reads take its bytes from the buffer (06 R122). The trailing copy of a pair neither waits on the tag nor writes.
(DEDUCED, log entry 65.) -/
def execStt (rd ra : Reg) (sz : BitVec 3) (ord : BitVec 2) (sc : BitVec 4) (g : Bool) (s : State) :
    Host.Outcome State Fault Refusal :=
  issue (.stt rd ra sz ord sc g) (fun e v s =>
    let a := v.getD 0 0
    let data := toBytes (sizeBytes sz) (v.getD 1 0)
    match e.ctx.phase.answer with
    | .got _ => .done ({ state := s.mark e.bid : Done }.point e)
    | .awaiting => .wait s .answer
    | .granted _ _ => .wait s .answer
    | .loading _ => .wait s .answer
    | .none =>
      let r := s.tagPiece e a (sizeBytes sz) needW
      match r.2 with
      | .error t => .trap r.1 t
      | .ok p =>
        if e.ctx.halt.stepper.isSome && r.1.tagWaits (r.1.tagReq e p false (decide (ord = 1)) data) then .wait r.1 .tag
        else
        let ev := storeBytes a (sz.toNat + 0x40) data
        ((r.1.pairPoint e ev).andThen (fun t => if sc.toNat ≥ 2 then t.release e sc.toNat else t.commit e)).act (fun t =>
          if e.blk.role = .trailing then .done ({ state := t : Done }.point e)
          else if p.mig then .wait t .mig
          else if !t.fits e (sizeBytes sz) then .wait t .condition
          else .wait (t.askTag e p false (decide (ord = 1)) data) .answer)) s

/-- LDE (17 R348): the element's address is generated, which proctors see (12 R242), then its byte is read. -/
def execLde (rd ra rb : Reg) (fe : Bool) (g : Guard) (s : State) : Host.Outcome State Fault Refusal :=
  issue (.lde rd ra rb fe g) (fun e v s =>
    let r := s.elemAddr e.blk.space (v.getD 0 0) (low v 1)
    match r.2 with
    | .error t => .trap r.1 t
    | .ok (f, i, a) =>
      let q := r.1.pieces e.blk.space a 1 needR
      match q.2, e.ctx.phase.answer with
      | .error t, _ => .trap q.1 t
      | .ok _, .loading known => match gathered known 1 with
        | none => .wait q.1 .watch
        | some bs =>
          let x := ldeValue f i (bs.getD 0 0)
          .done { state := q.1, vals := [x], long := true, loaded := some { value := x, words := [x] } }
      | .ok ps, _ => (q.1.beforeRead e a 1).act (fun t =>
          let own := (bufferByte (t.bufferFor e ps) a).isSome
          if t.anyAway ps && !own then
            if t.holdsLoad e then .wait (t.askHeld e a ps []) .watch else
            .done { state := t.tick1.askBytes e t.fresh a ps, long := true, pid := some t.fresh, late := some (.lde f i) }
          else
          let z := t.readPieces e.core (t.bufferFor e ps) ps
          match z.2 with
          | .error x => .trap z.1 x
          | .ok bs =>
            let x := ldeValue f i (bs.getD 0 0)
            .done { state := z.1, vals := [x], long := true, src := z.1.readSpan e.blk.space a 1,
                    loaded := some { value := x, words := [x] } })) s

/-- PREF (17 R368, R369): fetches a line or is dropped, never with a fault; no cache of this package holds a line of another
device. -/
def execPref (ra : Reg) (sc : BitVec 4) (g : Bool) (s : State) : Host.Outcome State Fault Refusal :=
  issue (.pref ra sc g) (fun e v s =>
    let r := s.pieces e.blk.space (v.getD 0 0) 1 needR
    match r.2 with
    | .error _ => .write r.1 []
    | .ok [] => .write r.1 []
    | .ok (p :: _) =>
      if p.unc || r.1.away p.pa then .write r.1 []
      else
        let tag := p.pa / 128
        let fill (t : State) (pa : Nat) : State :=
          match t.paCell pa with
          | none => t
          | some c => t.scFill (c / 64)
        let s1 := fill (fill r.1 (tag * 128)) (tag * 128 + 64)
        .write (if sc.toNat ≤ 2 then s1.l1Fill e.core tag else s1) []) s

/-- CFLUSH (15 R310, R311). -/
def execCflush (rd ra : Reg) (sc : BitVec 4) (g : Bool) (s : State) : Host.Outcome State Fault Refusal :=
  issue (.cflush rd ra sc g) (fun e v s =>
    if e.ctx.phase.release ≠ .none then (s.release e 10).act (fun t => .write t [])
    else
    let r := s.maintain e sc.toNat false (lineAddrs (v.getD 0 0) (low v 1))
    match r.2 with
    | some t => .trap r.1 t
    | none => (r.1.abroadGate e s.fresh).act (fun t => .write t [])) s

/-- CINV (15 R310, R311). -/
def execCinv (rd ra : Reg) (sc : BitVec 4) (g : Bool) (s : State) : Host.Outcome State Fault Refusal :=
  issue (.cinv rd ra sc g) (fun e v s =>
    if e.ctx.phase.release ≠ .none then (s.release e 10).act (fun t => .write t [])
    else
    let r := s.maintain e sc.toNat true (lineAddrs (v.getD 0 0) (low v 1))
    match r.2 with
    | some t => .trap r.1 t
    | none => (r.1.abroadGate e s.fresh).act (fun t => .write t [])) s

/-- FENCE (06 R128): ord 0 both, 1 release only, 2 acquire only. -/
def execFence (ord : BitVec 2) (sc : BitVec 4) (g : Bool) (s : State) : Host.Outcome State Fault Refusal :=
  issue (.fence ord sc g) (fun e _ s =>
    if ord = 2#2 then .write (s.acquire e.core sc.toNat) []
    else if sc.toNat ≤ 1 then .write s []
    else (s.releasePoint e [] sc.toNat).act (fun t =>
      .done ({ state := if ord = 0#2 then t.acquire e.core sc.toNat else t : Done }.point e))) s

/-- IFENCE (06 R138, 16 R338): .fib and .blk act as .core, .peer as .pod. At .pod and .sys every member of the pod discards its
instruction caches and acknowledges. -/
def execIfence (sc : BitVec 4) (g : Bool) (s : State) : Host.Outcome State Fault Refusal :=
  issue (.ifence sc g) (fun e _ s =>
    let k := if sc.toNat ≤ 1 then 2 else if sc.toNat = 8 then 9 else sc.toNat
    let fin (t : State) : Act := .done ({ state := t : Done }.point e)
    (s.releasePoint e [] k).act (fun t =>
      if e.ctx.phase.answer = .awaiting then fin t
      else
        let t1 := t.dropCode (scopeCores e.core k)
        if k < 9 then fin t1
        else
          let u := t1.members.foldl (fun u d =>
            u.remoteSend (d * 2 ^ 42) .codeFence .ack (some (e.bid, e.who, e.ctx.pc)) e.ctx.pc) t1
          ((u.setPhase e (fun p => { p with answer := .awaiting })).abroadGate e t1.fresh).act fin)) s

end Sys2Proof.Machine
end

