-- ==== Sys2Proof/Machine/Engine.lean ====
section
/-!
DEFINITION. The copy engine (08 R162 to R173; 15 R313 to R316; 17 R356, R357): tensor shape records and their checks, grains,
CPY, CPYB, CPYS, MLDB and MDRST, and the events by which their operations go on.
-/
namespace Sys2Proof.Machine

/-- A grain that an instruction names, with the unit number its fault reports (09 R175). -/
structure Named where
  unit : MUnit
  index : Nat
  number : Nat
deriving DecidableEq, Repr

/-- Check and claim the grains an instruction names (09 R175; 11 R214, R220). (DEDUCED, log entry 15.) -/
def State.claim (s : State) (e : Env) (gs : List Named) : Except Trap State :=
  if !e.blk.hasLead then .error { code := .perm, detail := 9, addr := 0 }
  else
    match gs.find? (fun g => match s.grainOwner e.core g.unit g.index with
        | some b => b != e.bid
        | none => false) with
    | some g => .error { code := .perm, detail := 7, addr := BitVec.ofNat 64 g.number }
    | none =>
      .ok (gs.foldl (fun t g => match t.grainOwner e.core g.unit g.index with
        | some _ => t
        | none => { t with matrix := { t.matrix with
            grains := t.matrix.grains ++ [{ core := e.core, unit := g.unit, index := g.index, bid := e.bid }] } }) s)

/-- The grains of accumulator rows (09 R174). -/
def rowGrains (first count : Nat) : List Named :=
  if count = 0 then [] else
    (span (first / 32) ((first + count - 1) / 32 - first / 32 + 1)).map (fun i => ⟨.acc, i, max first (32 * i)⟩)

/-- The grains of bytes of scale memory (09 R174). -/
def scaleGrains (off count : Nat) : List Named :=
  if count = 0 then [] else
    (span (off / 8192) ((off + count - 1) / 8192 - off / 8192 + 1)).map (fun i => ⟨.scale, i, max off (8192 * i)⟩)

/-- A 64-bit field of a tensor shape record. -/
def shapeWord (bs : List Byte) : Nat := fieldAt bs 16 8

/-- Whether dimension d of a record is used (08 R164). -/
def usedDim (ndim d : Nat) : Bool := decide (d ≤ ndim)

/-- The tensor shape record in 64 bytes (08 R164); unused dimensions count as 1 with stride 0. -/
def Shape.of (bs : List Byte) : Shape :=
  let w := shapeWord bs
  let n := bits w 14 2
  let dim (d sh : Nat) : Nat := if usedDim n d then bits (fieldAt bs (24 + 4 * d) 4) sh 16 else 1
  let str (off j : Nat) : Int := if usedDim n (j + 1) then signed 32 (fieldAt bs (off + 4 * j) 4) else 0
  { src := BitVec.ofNat 64 (fieldAt bs 0 8), dst := BitVec.ofNat 64 (fieldAt bs 8 8), ticket := bits w 32 32,
    addm := bitAt w 26, tbuf := bits w 23 3, trig := bits w 21 2, dec := bitAt w 20, dfmt := bits w 16 4, ndim := n,
    esize := bits w 11 3, dkind := bits w 4 4, skind := bits w 0 4,
    box := (List.range 4).map (fun d => dim d 0), valid := (List.range 4).map (fun d => dim d 16),
    sstr := (List.range 3).map (str 40), dstr := (List.range 3).map (str 52) }

/-- Whether the Z fields of a record are zero (08 R164). -/
def shapeZeros (bs : List Byte) : Bool :=
  let w := shapeWord bs
  let n := bits w 14 2
  decide (bits w 27 5 = 0) && decide (bits w 8 3 = 0) &&
    (List.range 4).all (fun d => usedDim n d || decide (fieldAt bs (24 + 4 * d) 4 = 0)) &&
    (List.range 3).all (fun j => usedDim n (j + 1) ||
      (decide (fieldAt bs (40 + 4 * j) 4 = 0) && decide (fieldAt bs (52 + 4 * j) 4 = 0)))

/-- Index of an on-core destination (08 R164). -/
def Shape.dindex (h : Shape) : Nat := bits h.dst.toNat 18 7
/-- Byte offset of an on-core destination. -/
def Shape.doffset (h : Shape) : Nat := bits h.dst.toNat 0 18
/-- First accumulator row of a source of kind 1. -/
def Shape.srow (h : Shape) : Nat := bits h.src.toNat 0 10
/-- First accumulator column of a source of kind 1. -/
def Shape.scol (h : Shape) : Nat := bits h.src.toNat 10 9

/-- Bytes of the on-core unit that a kind of destination names (08 R165). -/
def onCoreSize (dkind : Nat) : Nat := if dkind = 1 then 65536 else if dkind = 2 then 98304 else 262144

/-- Whether the codes of a record are in range (08 R164, R165). -/
def Shape.codesOk (h : Shape) : Bool :=
  decide (h.trig ≤ 2) && (decide (h.trig = 1) || decide (h.tbuf = 0)) && decide (h.dfmt ≤ 4) && decide (h.esize ≤ 4) &&
    decide (h.dkind ≤ 3) && decide (h.skind ≤ 1) && h.box.all (· != 0) &&
    (decide (h.dkind = 0) || (decide (h.dst.toNat / 2 ^ 25 = 0) &&
      decide (h.dindex ≤ if h.dkind = 1 then 7 else if h.dkind = 2 then 127 else 0))) &&
    (decide (h.skind = 0) || (decide (h.src.toNat / 2 ^ 19 = 0) && decide (h.scol ≤ 383)))

/-- The remaining checks of 08 R165 that no operation's own rules state. -/
def Shape.shapeOk (h : Shape) : Bool :=
  let z := h.size
  (decide (h.dkind = 0) || (h.dstr.all (· == 0) && decide (h.doffset + h.total * z ≤ onCoreSize h.dkind))) &&
    (!h.dec || (decide (h.skind = 0) && h.sstr.all (· == 0))) &&
    (!h.addm || (decide (h.dkind = 0) && decide (h.esize = 2))) &&
    (decide (h.skind = 0) || decide (h.esize = 2)) &&
    (decide (h.skind = 1) || (decide (h.src.toNat % z = 0) && h.sstr.all (fun x => decide (x % z = 0)))) &&
    (decide (h.dkind ≠ 0) || (decide (h.dst.toNat % z = 0) && h.dstr.all (fun x => decide (x % z = 0))))

/-- What each operation requires of its record beside (08 R165; 15 R315; 17 R356, R357). -/
def Shape.kindOk (h : Shape) (k : EngKind) : Bool :=
  match k with
  | .cpyb => decide (h.skind = 0) && decide (h.dkind ≤ 1)
  | .cpys => decide (h.skind = 0) && decide (h.dkind = 3)
  | .mldb => decide (h.skind = 0) && decide (h.dkind = 2)
  | .mdrst =>
    decide (h.skind = 1) && decide (h.dkind = 0) && decide (h.esize = 2) && decide (h.ndim ≤ 1) && !h.dec &&
      decide (h.trig ≠ 1) && h.sstr.all (· == 0) && decide (h.scol + h.box.getD 0 1 ≤ 384) &&
      decide (h.srow + h.box.getD 1 1 ≤ 1024)
  | _ => true

/-- The box coordinates of a linear index (08 R166). -/
def Shape.coords (h : Shape) (i : Nat) : List Nat :=
  (h.box.foldl (fun (acc : List Nat × Nat) b => (acc.1 ++ [acc.2 % b], acc.2 / b)) ([], i)).1

/-- Whether an element is in bounds (08 R166). -/
def Shape.inBounds (h : Shape) (i : Nat) : Bool := ((h.coords i).zip h.valid).all (fun p => decide (p.1 < p.2))

/-- The address of an element in memory (08 R166). -/
def strided (base : DWord) (size : Nat) (strides : List Int) (cs : List Nat) : Nat :=
  let off := ((cs.drop 1).zip strides).foldl (fun (acc : Int) p => acc + p.1 * p.2) (cs.getD 0 0 * size)
  wrap 64 (base.toNat + off)

/-- Source address of an element. -/
def Shape.srcAt (h : Shape) (i : Nat) : Nat := strided h.src h.size h.sstr (h.coords i)

/-- Where an element goes: its address, or its offset in an on-core unit (08 R166). -/
def Shape.dstAt (h : Shape) (i : Nat) : Nat :=
  if h.dkind = 0 then strided h.dst h.size h.dstr (h.coords i) else h.doffset + i * h.size

/-- Whether an element is written: on-core every element, in memory those in bounds (08 R166). -/
def Shape.writes (h : Shape) (i : Nat) : Bool := decide (h.dkind ≠ 0) || h.inBounds i

/-- Elements of the unit that starts at an element (08 R167): consecutive ones whose destination bytes are contiguous in one
32-byte sector; of a compressed source, within one decoded sector too. -/
def Shape.unitFrom (h : Shape) (i : Nat) (fuel n : Nat) : Nat :=
  match fuel with
  | 0 => n
  | fuel + 1 =>
    let j := i + n
    let z := h.size
    if j ≥ h.total then n
    else if h.writes j ≠ h.writes i then n
    else if h.writes i && (decide (h.dstAt j ≠ h.dstAt i + n * z) || decide (h.dstAt j / 32 ≠ h.dstAt i / 32)) then n
    else if h.dec && decide (j * z / 32 ≠ i * z / 32) then n
    else h.unitFrom i fuel (n + 1)

/-- Length of the unit that starts at an element. -/
def Shape.unitLen (h : Shape) (i : Nat) : Nat := h.unitFrom i (32 / h.size - 1) 1

/-- The number of units before the one that starts at element stop, counted from element i on (08 R167): elements that are not written
form none. -/
def Shape.unitNumber (h : Shape) (fuel i stop : Nat) : Nat :=
  match fuel with
  | 0 => 0
  | fuel + 1 => if i ≥ stop then 0 else bit01 (h.writes i) + h.unitNumber fuel (i + h.unitLen i) stop

/-- What a unit's reads or writes came to: bytes with the origin and the address of the first poisoned one if they pass poison, a
fault, or a hold: by MIG, or until another device has sent the bytes. -/
inductive UnitData where
  | ok (bs : List Byte) (poison : Option (Nat × Nat))
  | fault (t : Trap)
  | held

/-- The origin and the virtual address of the first poisoned byte of a piece (05 R117). -/
def State.poisonAt (s : State) (p : Piece) : Option (Nat × Nat) :=
  match s.pieceCells p with
  | [] => none
  | (c, n) :: _ => (sectors c n).findSome? (fun k => (aget s.poison k).map (fun o => (o, p.va + (k * 32 - c))))

/-- The bytes of a piece that another device has sent for an operation's unit, if all have come; poison from there has come over a
link (05 R117). -/
def EngOp.sent (o : EngOp) (p : Piece) : Option (List Byte × Option (Nat × Nat)) :=
  let got := (span p.pa p.len).map (aget o.fetched)
  if got.all Option.isSome then
    some (got.map (fun x => (x.getD (0, false)).1),
      ((List.range p.len).find? (fun i => ((got.getD i none).getD (0, false)).2)).map (fun i => (5, p.va + i)))
  else none

/-- Read a piece for an engine: at its home or, on an uncached page, past the caches; of another device, once it has sent the
bytes (05 R89, R103, R104; 13 R264). -/
def State.engPiece (s : State) (core : Nat) (o : EngOp) (p : Piece) : State × UnitData :=
  if s.away p.pa then
    match o.sent p with
    | some (bs, x) => (s, .ok bs x)
    | none =>
      (if s.peers.outstanding.any (fun x => decide (x.use = .unitRead o.oid p.pa)) then s
       else s.remoteSend p.pa (.read p.len) (.unitRead o.oid p.pa) (some (o.bid, o.who, o.pc)) (BitVec.ofNat 64 p.va), .held)
  else
    let q := s.homeGet p.unc core (s.pieceCells p) .bulk
    (q.1, .ok q.2 (q.1.poisonAt p))

/-- Read pieces for an engine. -/
def State.engPieces (s : State) (core : Nat) (o : EngOp) (ps : List Piece) : State × UnitData :=
  match ps with
  | [] => (s, .ok [] none)
  | p :: rest =>
    let r := s.engPiece core o p
    match r.2 with
    | .ok bs x =>
      let q := r.1.engPieces core o rest
      match q.2 with
      | .ok more y => (q.1, .ok (bs ++ more) (x.or y))
      | z => (q.1, z)
    | z => (r.1, z)

/-- Translate an access of an engine, on pages of a declared format (08 R166). -/
def State.engTranslate (s : State) (sp : Space) (va n : Nat) (need : Need) (fmt : Option Nat) :
    State × Except Trap (List Piece) :=
  let r := s.pieces sp va n need
  match r.2 with
  | .error t => (r.1, .error t)
  | .ok ps =>
    match ps.find? (fun p => decide (fmt ≠ none ∧ fmt ≠ some p.fmt)) with
    | some p => (r.1, .error (Trap.at .fmtmis (p.fmt * 16 + fmt.getD 0) p.va))
    | none => (r.1, .ok ps)

/-- Read bytes for an engine; poison travels along (05 R117, 08 R166). -/
def State.engRead (s : State) (sp : Space) (o : EngOp) (va n : Nat) (fmt : Option Nat) : State × UnitData :=
  let r := s.engTranslate sp va n needR fmt
  match r.2 with
  | .error t => (r.1, .fault t)
  | .ok ps => r.1.engPieces sp.core o ps

/-- Set the tags of the granules that a write of an engine covers wholly on a page of format 4 (05 R116; 08 R162). 05 R95 says of
CPY that it never changes a tag, which 05 R116 and 08 R162 contradict for such a write: these two are followed. (DESIGN CHOICE, log
entry 56.) -/
def State.tagWrite (s : State) (cells : List (Nat × Nat)) : State :=
  cells.foldl (fun t p =>
    (span (p.1 / 16) (p.2 / 16 + 2)).foldl (fun u g =>
      if p.1 ≤ g * 16 ∧ g * 16 + 16 ≤ p.1 + p.2 then
        (if u.tagFull (g * 16) then u else (u.setTag (g * 16) true).tagChanged g)
      else u) t) s

/-- Write one piece for an engine (05 R103, R104, R116, R117); to another device the write leaves by its link (05 R89). -/
def State.engPut (s : State) (core : Nat) (o : EngOp) (p : Piece) (bs : List Byte) (poison : Option Nat) : State :=
  if s.away p.pa then
    s.remoteSend p.pa (.write p.len (offsetBytes bs) poison.isSome (decide (p.fmt = 4))) (.unitWrite o.oid)
      (some (o.bid, o.who, o.pc)) (BitVec.ofNat 64 p.va)
  else
    let cells := s.pieceCells p
    let s1 := s.homeSet p.unc core cells bs .bulk
    let s2 := match poison with
      | some k => cells.foldl (fun t c => t.addPoison c.1 c.2 k) s1
      | none => s1
    if p.fmt = 4 then s2.tagWrite cells else s2

/-- Write pieces for an engine. -/
def State.engPuts (s : State) (core : Nat) (o : EngOp) (ps : List Piece) (bs : List Byte) (poison : Option Nat) : State :=
  match ps with
  | [] => s
  | p :: rest => (s.engPut core o p (bs.take p.len) poison).engPuts core o rest (bs.drop p.len) poison

/-- Write bytes for an engine: format, tags, poison, a hold by MIG (05 R101, R116, R117; 08 R166). -/
def State.engWrite (s : State) (sp : Space) (o : EngOp) (va : Nat) (bs : List Byte) (fmt : Option Nat) (poison : Option Nat) :
    State × UnitData :=
  let r := s.engTranslate sp va bs.length needW fmt
  match r.2 with
  | .error t => (r.1, .fault t)
  | .ok ps => if ps.any (fun p => p.mig) then (r.1, .held) else (r.1.engPuts sp.core o ps bs poison, .ok [] none)

/-- A POISON record for each element of an addition that meets a poisoned sector, with its issuer and PC; nothing stops (05
R117; 08 R166). -/
def State.addRecords (s : State) (o : EngOp) (va n origin : Nat) : State :=
  (List.range n).foldl (fun t i => t.opRecord o { code := .poison, detail := origin, addr := BitVec.ofNat 64 (va + 4 * i) }) s

/-- Bytes of a unit with those that a rule leaves undefined replaced by free ones. -/
def freed (free : Nat → Option Byte) (va : Nat) (bs : List Byte) : List Byte :=
  (List.range bs.length).map (fun k => (free (va + k)).getD (bs.getD k 0))

/-- Add FP32 words in one piece toward another device (08 R166): each word is a reduction of its own at its home there, and one request
sets the tags of the granules that the addition covers wholly. A poisoned source poisons the sector instead. A word that overlaps the
source is written free. -/
def State.engSumAway (s : State) (o : EngOp) (p : Piece) (ws : List Word) (poison : Option Nat) (free : Nat → Option Byte) : State :=
  let send (t : State) (off : Nat) (k : RemoteKind) : State :=
    t.remoteSend (p.pa + off) k (.unitWrite o.oid) (some (o.bid, o.who, o.pc)) (BitVec.ofNat 64 (p.va + off))
  match poison with
  | some _ => send s 0 (.write p.len [] true false)
  | none =>
    let s1 := ws.zipIdx.foldl (fun t w =>
      if (span (p.va + 4 * w.2) 4).any (fun a => (free a).isSome) then
        send t (4 * w.2) (.write 4 (offsetBytes ((span (p.va + 4 * w.2) 4).map (fun a => (free a).getD 0))) false false)
      else send t (4 * w.2) (.red AtomOp.fadd.num w.1)) s
    if p.fmt = 4 then send s1 0 (.write p.len [] false true) else s1

/-- Add FP32 words in one piece at their home as RED.fadd does: a poisoned sector discards them (05 R117; 07 R161; 08 R166). A
poisoned source poisons the sector instead. The bytes that it writes are counted; those toward another device once they are
acknowledged. Whether additions set tags the spec says in two ways: 08 R166 has an engine's writes follow 05 R116, and combines each
element as RED does, which never changes a tag (05 R95); the model sets the tag of each granule that a unit covers wholly. (DESIGN
CHOICE, log entry 56.) -/
def State.engSum (s : State) (core : Nat) (o : EngOp) (p : Piece) (ws : List Word) (poison : Option Nat) (free : Nat → Option Byte) :
    State × Nat :=
  if s.away p.pa then (s.engSumAway o p ws poison free, 0)
  else
    let cells := s.pieceCells p
    let q := s.homeGet p.unc core cells .bulk
    match poison, q.1.poisonAt p with
    | some k, _ => (cells.foldl (fun t c => t.addPoison c.1 c.2 k) q.1, p.len)
    | none, some (k, _) => (q.1.addRecords o p.va ws.length k, 0)
    | none, none =>
      let new := ((wordsOf ws.length q.2).zip ws).map (fun x => (AtomOp.fadd.apply x.1 x.2).1)
      let s1 := q.1.scatterAs p.unc cells (freed free p.va (bytesOf new))
      (if p.fmt = 4 then s1.tagWrite cells else s1, p.len)

/-- Add FP32 words in pieces. -/
def State.engSums (s : State) (core : Nat) (o : EngOp) (ps : List Piece) (ws : List Word) (poison : Option Nat)
    (free : Nat → Option Byte) : State × Nat :=
  match ps with
  | [] => (s, 0)
  | p :: rest =>
    let r := s.engSum core o p (ws.take (p.len / 4)) poison free
    let q := r.1.engSums core o rest (ws.drop (p.len / 4)) poison free
    (q.1, r.2 + q.2)

/-- Add FP32 elements at their homes (08 R166): the bytes written, or a fault or a hold. -/
def State.engAdd (s : State) (sp : Space) (o : EngOp) (va : Nat) (ws : List Word) (fmt : Nat) (poison : Option Nat)
    (free : Nat → Option Byte) : State × Except UnitData Nat :=
  let r := s.engTranslate sp va (4 * ws.length) needRW (some fmt)
  match r.2 with
  | .error t => (r.1, .error (.fault t))
  | .ok ps =>
    if ps.any (fun p => p.mig) then (r.1, .error .held)
    else
      let q := r.1.engSums sp.core o ps ws poison free
      (q.1, .ok q.2)

/-- The value an accumulator element holds. -/
def State.accAt (s : State) (core row col : Nat) : Word := sget 0 s.matrix.acc ((core * 1024 + row) * 384 + col)

/-- Write bytes into an on-core unit (08 R166). A copy of a slice that the array has latched is stale from then on (09 R184). -/
def State.coreWrite (s : State) (core dkind index off : Nat) (bs : List Byte) : State :=
  let m := s.matrix
  match dkind with
  | 1 => { s with matrix := { m with abuf := writeSparse m.abuf (grainBase core .abuf index + off) bs } }
  | 2 =>
    ({ s with matrix := { m with bslice := writeSparse m.bslice (grainBase core .bslice index + off) bs } } : State).staleLatch
      core index
  | _ => { s with matrix := { m with scale := writeSparse m.scale (grainBase core .scale 0 + off) bs } }

/-- Decode one zero-mask sector (08 R171): its 32 bytes and what is left of the payload; a set bit that names a zero byte is
broken. -/
def maskSector (mask : Nat) (j : Nat) (left : List Byte) (fuel : Nat) : Option (List Byte × List Byte) :=
  match fuel with
  | 0 => some ([], left)
  | fuel + 1 =>
    if bitAt mask j then
      match left with
      | [] => none
      | b :: rest => if b = 0 then none else (maskSector mask (j + 1) rest fuel).map (fun r => (b :: r.1, r.2))
    else (maskSector mask (j + 1) left fuel).map (fun r => (0#8 :: r.1, r.2))

/-- Payload bytes of a zero-mask block: 4 and the bits of the mask for each sector (08 R172 detail 4); none if it is short. -/
def maskLen (sect : Nat) (bs : List Byte) : Nat :=
  match sect with
  | 0 => 0
  | sect + 1 =>
    let k := 4 + popCount 32 (fieldAt bs 0 4)
    k + maskLen sect (bs.drop k)

/-- Decode zero-mask sectors. -/
def maskSectors (sect : Nat) (bs : List Byte) : Option (List Byte) :=
  match sect with
  | 0 => some []
  | sect + 1 =>
    match maskSector (fieldAt bs 0 4) 0 (bs.drop 4) 32 with
    | none => none
    | some r => (maskSectors sect r.2).map (fun more => r.1 ++ more)

/-- Decode repeat-word pairs (08 R171); none where a count is 0. -/
def repeatWords (pairs : Nat) (bs : List Byte) : Option (List Byte) :=
  match pairs with
  | 0 => some []
  | pairs + 1 =>
    let n := fieldAt bs 0 1
    if n = 0 then none
    else
      match repeatWords pairs (bs.drop 5) with
      | none => none
      | some more => some ((List.replicate n ((bs.drop 1).take 4)).flatten ++ more)

/-- What the header of a compressed block alone breaks of 08 R171 (08 R172). Where several causes hold, METH, SECT, bits [63:32], LEN
and the end of the box are tested in this order, before the payload is read. (DESIGN CHOICE, log entry 56.) -/
def headerBad (header room : Nat) : Option Nat :=
  let meth := bits header 0 4
  let sect := bits header 4 8
  let len := bits header 12 20
  if meth > 2 then some 1
  else if sect = 0 ∨ sect > 128 then some 2
  else if header / 2 ^ 32 ≠ 0 then some 3
  else if (meth = 0 ∧ len ≠ 32 * sect) ∨ (meth = 1 ∧ (len < 4 * sect ∨ len > 36 * sect)) ∨ (meth = 2 ∧ len % 5 ≠ 0) then some 4
  else if sect > room then some 6
  else none

/-- Decode a compressed block from its payload and a header that breaks nothing (08 R171, R172). A repeat-word block whose counts do
not add up to 8 × SECT words has no row of its own among the causes: it gets detail 4. (DESIGN CHOICE, log entry 56.) -/
def decodeBlock (header : Nat) (payload : List Byte) : Except Nat (List Byte) :=
  let sect := bits header 4 8
  let len := bits header 12 20
  match bits header 0 4 with
  | 0 => .ok payload
  | 1 =>
    if len ≠ maskLen sect payload then .error 4
    else match maskSectors sect payload with
      | none => .error 5
      | some bs => .ok bs
  | _ =>
    match repeatWords (len / 5) payload with
    | none => .error 5
    | some bs => if bs.length ≠ 32 * sect then .error 4 else .ok bs

/-- Raise the class counter of an issuer and pass an operation to its engine (06 R135, R136). What an MDRST of a pair reads follows its
event in the CRC of its issuer (11 R233). -/
def State.startOp (s : State) (e : Env) (o : EngOp) : State :=
  let s1 := { s with ops := s.ops ++ [o], fresh := s.fresh + 1 }
  let s2 := s1.modMe e (fun c => c.setCounter o.kind.cls (c.counter o.kind.cls + 1))
  if o.kind = .mdrst ∧ e.blk.role ≠ .single then
    s2.modBlock e.bid (fun b => b.modBody (fun y => { y with drains := y.drains ++ [(some o.oid, [])] }))
  else s2

/-- Whether an issuer's class counter stands at its limit (06 R136). -/
def Env.classFull (e : Env) (cls : Nat) : Bool := decide (e.ctx.counter cls ≥ 255)

/-- An operation that writes memory is a commit point in checkpoint and paired mode, with its store event (11 R229, R233). -/
def State.enginePoint (s : State) (e : Env) (ev : List Byte) : Gate :=
  if e.blk.ckptMode then s.commitPoint e ev else .go s

/-- CPY (08 R162; 15 R313). -/
def execCpy (rd ra : Reg) (sz : BitVec 3) (g : Bool) (s : State) : Host.Outcome State Fault Refusal :=
  issue (.cpy rd ra sz g) (fun e v s =>
    let src := v.getD 0 0
    let dst := v.getD 1 0
    let n := sizeBytes sz
    if src % n ≠ 0 ∨ dst % n ≠ 0 then .trap s (Trap.plain .illopd)
    else if e.classFull 0 then .wait s .classFull
    else (s.enginePoint e (toBytes 8 dst ++ [0xC0, 0xC9])).act (fun t =>
      let h : Shape := { src := BitVec.ofNat 64 src, dst := BitVec.ofNat 64 dst, ticket := 0, addm := false, tbuf := 0,
                         trig := 0, dec := false, dfmt := 0, ndim := 0, esize := 0, dkind := 0, skind := 0, box := [],
                         valid := [], sstr := [], dstr := [] }
      let o : EngOp := { oid := t.fresh, bid := e.bid, who := e.who, pc := e.ctx.pc, kind := .cpy, shape := h, size := n,
                         cq := 0, tq := 0, phase := .running, done := 0, bytes := 0, readers := [], status := 0, code := none,
                         detail := 0, faddr := 0, srcOff := 0, desc := 0, page := 0, fetched := [], sending := false }
      let d : Done := { state := t.startOp e o }
      .done (if e.blk.ckptMode then d.point e else d))) s

/-- The grains that a record's on-core box or accumulator rows touch (15 R315, 17 R356). -/
def Shape.grains (h : Shape) (k : EngKind) : List Named :=
  match k with
  | .mdrst => rowGrains h.srow (h.box.getD 1 1)
  | _ =>
    match h.dkind with
    | 1 => [⟨.abuf, h.dindex, h.dindex⟩]
    | 2 => [⟨.bslice, h.dindex, h.dindex⟩]
    | 3 => scaleGrains h.doffset (h.total * h.size)
    | _ => []

/-- MMAs of an issuer that name a buffer and have not finished reading it (08 R168). -/
def State.pendingReaders (s : State) (core bid buf : Nat) : List Nat :=
  let a := s.array core
  let cmds := a.queue ++ (match a.running with
    | some (c, _) => [c]
    | none => [])
  (cmds.filter (fun c => c.bid == bid && !c.zero && bits c.word.toNat 0 3 == buf)).map (·.mid)

/-- The store event of an operation that writes memory (11 R233); what an MDRST reads follows when it reads it. -/
def engineEvent (addr opcode : Nat) : List Byte := toBytes 8 addr ++ [0xC0, BitVec.ofNat 8 opcode]

/-- The trigger handle of a record with TRIG = 2: its value, a wait or a trap for its register (15 R314, R315). -/
def triggerHandle (e : Env) (rb : Reg) (fe : Bool) : Except (Except Trap Wait) Nat :=
  let f := Fld.b rb 1
  match e.ctx.firstEmpty (f.fullBits e.lead e.ctx.wb.toNat) with
  | some b => .error (if fe then .error { code := .emptyt, detail := b, addr := 0 } else .ok .sourceEmpty)
  | none =>
    let tq := e.ctx.cellsValue (f.cells e.lead e.ctx.wb.toNat)
    if tq = 0 ∨ !handleOk tq then .error (.error (Trap.plain .illopd)) else .ok tq

/-- A bulk operation whose record and handles have passed the checks (08 R165) issues once its class has room (06 R136); only then are
its grains checked and claimed (09 R175). -/
def bulkStart (k : EngKind) (opcode a cq tq : Nat) (h : Shape) (e : Env) (s : State) : Act :=
  if e.classFull k.cls then .wait s .classFull
  else
    match (if h.dkind = 0 ∧ k ≠ .mdrst then .ok s else s.claim e (h.grains k)) with
    | .error t => .trap s t
    | .ok s2 =>
      let mem := decide (h.dkind = 0)
      (if mem then s2.enginePoint e (engineEvent a opcode) else .go s2).act (fun t =>
        let t1 := if k = .mldb then t.unlatch e.core h.dindex else t
        let readers := if h.trig = 1 then t1.pendingReaders e.core e.bid h.tbuf else []
        let o : EngOp := { oid := t1.fresh, bid := e.bid, who := e.who, pc := e.ctx.pc, kind := k, shape := h,
                           size := 0, cq := BitVec.ofNat 64 cq, tq := BitVec.ofNat 64 tq,
                           phase := if h.trig = 0 then .running else .waitTrigger, done := 0, bytes := 0,
                           readers := readers, status := 0, code := none, detail := 0, faddr := 0, srcOff := 0,
                           desc := 0, page := 0, fetched := [], sending := false }
        let d : Done := { state := t1.startOp e o }
        .done (if mem && e.blk.ckptMode then d.point e else d))

/-- Start a bulk operation from its record, which is read as a load by the lead, from another device too (08 R165; 15 R315; 17 R356,
R357). -/
def bulkAct (k : EngKind) (opcode : Nat) (rb : Reg) (fe : Bool) (e : Env) (v : List Nat) (s : State) : Act :=
  let a := v.getD 0 0
  let cq := v.getD 1 0
  if a % 64 ≠ 0 then .trap s (Trap.plain .illopd)
  else
    let r := s.pieces e.blk.space a 64 needR
    match r.2 with
    | .error t => .trap r.1 t
    | .ok ps => (r.1.beforeRead e a 64).act (awayRead e a 64 ps (fun q bs =>
        let h := Shape.of bs
        if !shapeZeros bs || !h.codesOk || !h.shapeOk || !h.kindOk k then .trap q (Trap.plain .illopd)
        else if cq ≠ 0 ∧ (bits cq 3 3 ≠ 0 ∨ bits cq 0 3 ≠ 3) then .trap q (Trap.plain .illopd)
        else
          match (if h.trig = 2 then triggerHandle e rb fe else .ok 0) with
          | .error (.error t) => .trap q t
          | .error (.ok w) => .wait q w
          | .ok tq => bulkStart k opcode a cq tq h e q))

/-- CPYB (15 R314 to R316). -/
def execCpyb (rd ra rb : Reg) (fe : Bool) (g : Guard) (s : State) : Host.Outcome State Fault Refusal :=
  issue (.cpyb rd ra rb fe g) (fun e v s => bulkAct .cpyb 0xCA rb fe e v s) s

/-- CPYS (15 R314 to R316). -/
def execCpys (rd ra rb : Reg) (fe : Bool) (g : Guard) (s : State) : Host.Outcome State Fault Refusal :=
  issue (.cpys rd ra rb fe g) (fun e v s => bulkAct .cpys 0xCB rb fe e v s) s

/-- MLDB (17 R357). -/
def execMldb (rd ra rb : Reg) (fe : Bool) (g : Guard) (s : State) : Host.Outcome State Fault Refusal :=
  issue (.mldb rd ra rb fe g) (fun e v s => bulkAct .mldb 0xD2 rb fe e v s) s

/-- MDRST (17 R356). -/
def execMdrst (rd ra rb : Reg) (fe : Bool) (g : Guard) (s : State) : Host.Outcome State Fault Refusal :=
  issue (.mdrst rd ra rb fe g) (fun e v s => bulkAct .mdrst 0xD4 rb fe e v s) s

/-- Whether an operation is the oldest of its issuer's class that has not yet taken effect, writes to other devices among it (06 R135). -/
def State.opFirst (s : State) (o : EngOp) : Bool :=
  let mine := s.ops.filter (fun x => x.bid == o.bid && decide (x.who = o.who) && x.kind.cls == o.kind.cls &&
    (s.writesAbroad x.oid || !(decide (x.phase = .ended ∨ x.phase = .reporting ∨ x.phase = .recordParked))))
  decide (mine.head?.map (·.oid) = some o.oid)

/-- Whether an operation is the oldest of its issuer's class: it alone may complete, so that the counter tells which have (06
R137). -/
def State.opOldest (s : State) (o : EngOp) : Bool :=
  let mine := s.ops.filter (fun x => x.bid == o.bid && decide (x.who = o.who) && x.kind.cls == o.kind.cls)
  decide (mine.head?.map (·.oid) = some o.oid)

/-- Finish a CPY (08 R162, R163): its counter falls; a pair's trailing copy is told. -/
def State.copyDone (s : State) (b : Block) (o : EngOp) : State := (s.tellPartner b o.who o.kind.cls).endOp o

/-- A fault of an engine operation stops its issuer (08 R163, R170). The operation ends; in a pair it stays until it is known whether the
copies run again from a checkpoint, where it then goes on (11 R235; DEDUCED, log entry 12). -/
def State.faultOp (s : State) (b : Block) (o : EngOp) (t : Trap) : State :=
  let s1 := s.engineTrap b o.who o.pc t
  match s1.op? o.oid with
  | none => s1
  | some x =>
    if b.role = .single then s1.endOp x
    else s1.modOp o.oid (fun x => { x with phase := .faulted, sending := false, code := some t.code, detail := t.detail, faddr := t.addr })

/-- An operation meets a fault (08 R163, R170): XLATE parks it, any other ends it; of a CPY it stops the issuer. -/
def State.opFault (s : State) (b : Block) (o : EngOp) (t : Trap) : State :=
  if t.code = .xlate then s.parkOp b o t
  else if o.kind = .cpy then s.faultOp b o t
  else s.modOp o.oid (fun x =>
    { x with phase := .ended, sending := false, status := 1, code := some t.code, detail := t.detail, faddr := t.addr })

/-- Perform a CPY: one read at the source's home, one write at the destination's (08 R162, R163). The trailing copy of a pair
waits for the leading copy's (15 R313). A write that has left for another device is performed when that has acknowledged it. -/
def State.performCopy (s : State) (b : Block) (o : EngOp) : State :=
  if b.role = .trailing then
    match s.takeTold b o.who o.kind.cls with
    | none => s
    | some t => t.endOp o
  else if o.done ≠ 0 then (if s.writesAbroad o.oid then s else s.copyDone b o)
  else
    let sp := b.space
    let r := s.engRead sp o o.shape.src.toNat o.size none
    match r.2 with
    | .held => r.1
    | .fault f => r.1.opFault b o f
    | .ok bs origin =>
      let w := r.1.engWrite sp o o.shape.dst.toNat bs none (origin.map (·.1))
      match w.2 with
      | .held => w.1
      | .fault f => w.1.opFault b o f
      | .ok _ _ =>
        if w.1.writesAbroad o.oid then (w.1.mark b.bid).modOp o.oid (fun x => { x with done := 1 })
        else (w.1.mark b.bid).copyDone b o

/-- What an engine has read since a request number goes into n bytes of memory: an error that is still found in it, in DRAM or by a hop
link, poisons these (05 R117). -/
def State.landed (s : State) (b : Block) (since va n : Nat) : State :=
  let ks := (s.readSpan b.space va n).map (·.1)
  { s with
      ridge := s.ridge.map (fun m => if m.brings && decide (since ≤ m.req) then { m with lands := ks } else m),
      channels := s.channels.map (fun c => (c.1, { c.2 with reqs := c.2.reqs.map (fun r =>
        if r.reading && decide (since ≤ r.did) then { r with lands := ks } else r) })) }

/-- CPY_COMPLETE (08 R162, R163). -/
def execCpyComplete (op : Nat) (s : State) : Host.Outcome State Fault Refusal :=
  event (match s.op? op with
  | none => s
  | some o =>
    match s.block? o.bid with
    | none => s
    | some b =>
      if o.kind = .cpy ∧ o.phase = .running ∧ b.core.isSome ∧ s.opFirst o then (s.performCopy b o).landed b s.fresh o.shape.dst.toNat o.size
      else s)

/-- ENGINE_TRIGGER_DEQ (08 R168): the engine asks the trigger queue for an element; a pair's trailing copy waits for the
leading copy's. -/
def execEngineTriggerDeq (op : Nat) (s : State) : Host.Outcome State Fault Refusal :=
  event (match s.op? op with
  | none => s
  | some o =>
    match s.block? o.bid with
    | none => s
    | some b =>
      if o.phase ≠ .waitTrigger ∨ o.shape.trig ≠ 2 ∨ b.core.isNone then s
      else if b.role = .trailing then
        match s.takeTold b o.who (16 + o.kind.cls) with
        | none => s
        | some t => t.modOp op (fun x => { x with phase := .running })
      else if s.inFlight (.trigger op) then s
      else
        { s with qreqs := s.qreqs ++ [{ rid := s.fresh, from_ := .trigger op, enq := false, try_ := false, pa := 0,
                                        va := BitVec.ofNat 64 (handleAddr o.tq.toNat), handle := some (o.tq, b.params.queue),
                                        code := bits o.tq.toNat 0 3, payload := [], parked := false, busy := false,
                                        src := stopOf (stackOf (b.core.getD 0)), unc := false }],
                 fresh := s.fresh + 1 })

/-- OPERANDS_CONSUMED_EVENT (08 R168): no MMA that holds the operation back is still queued or running. -/
def execOperandsConsumedEvent (op : Nat) (s : State) : Host.Outcome State Fault Refusal :=
  event (match s.op? op with
  | none => s
  | some o =>
    match (s.block? o.bid).bind (fun b => b.core) with
    | none => s
    | some core =>
      let left := (s.pendingReaders core o.bid o.shape.tbuf).filter (fun m => o.readers.contains m)
      if o.phase = .waitTrigger ∧ o.shape.trig = 1 ∧ left.isEmpty then s.modOp op (fun x => { x with phase := .running }) else s)

/-- The bytes of a unit from a raw source (08 R166): each in-bounds element from its address, zeros for the others. -/
def State.gather (s : State) (sp : Space) (o : EngOp) (i n : Nat) : State × UnitData :=
  match n with
  | 0 => (s, .ok [] none)
  | n + 1 =>
    let h := o.shape
    let r := if h.inBounds i then s.engRead sp o (h.srcAt i) h.size (some h.dfmt)
      else (s, .ok (List.replicate h.size 0) none)
    match r.2 with
    | .held => (r.1, .held)
    | .fault t => (r.1, .fault t)
    | .ok bs x =>
      let q := r.1.gather sp o (i + 1) n
      match q.2 with
      | .ok more y => (q.1, .ok (bs ++ more) (x.or y))
      | z => (q.1, z)

/-- The bytes of a unit from accumulator rows (09 R191). -/
def State.gatherRows (s : State) (core : Nat) (h : Shape) (i n : Nat) : List Byte :=
  (span i n).flatMap (fun j =>
    let c := h.coords j
    toBytes 4 (s.accAt core (h.srow + c.getD 1 0) (h.scol + c.getD 0 0)).toNat)

/-- What the current compressed block holds for a unit (08 R171 to R173): its bytes, the next block with the
number of its first sector, a cause of 08 R172, a fault, or a hold. -/
inductive Stream where
  | ok (bs : List Byte) (poison : Option (Nat × Nat))
  | next (off first : Nat)
  | bad (reason : Nat)
  | fault (t : Trap)
  | held

/-- Where the next header stands after a block of len payload bytes (08 R171): at the first 8-byte-aligned address after them, as an
offset from SRC. Nothing checks that SRC, where the first stands, is aligned. (DESIGN CHOICE, log entry 56.) -/
def Shape.headerAfter (h : Shape) (off len : Nat) : Nat :=
  let stop := h.src.toNat + off + 8 + len
  off + 8 + len + (8 - stop % 8) % 8

/-- Read and decode the compressed block of an operation for its unit at element i (08 R171, R172). The block's header lies at
srcOff from SRC and its first sector is the number in size. Every unit of a block carries what poison its header and payload hold; a
block that breaks 08 R171 ends the operation as 08 R172 says whether poisoned or not. (DESIGN CHOICE, log entry 56.) -/
def State.stream (s : State) (sp : Space) (o : EngOp) (i n : Nat) : State × Stream :=
  let h := o.shape
  let base := (h.src.toNat + o.srcOff) % 2 ^ 64
  let r := s.engRead sp o base 8 (some h.dfmt)
  match r.2 with
  | .held => (r.1, .held)
  | .fault t => (r.1, .fault t)
  | .ok hb p1 =>
    let header := ofBytes hb
    match headerBad header ((h.total * h.size + 31) / 32 - o.size) with
    | some k => (r.1, .bad k)
    | none =>
      let len := bits header 12 20
      let q := r.1.engRead sp o ((base + 8) % 2 ^ 64) len (some h.dfmt)
      match q.2 with
      | .held => (q.1, .held)
      | .fault t => (q.1, .fault t)
      | .ok payload p2 =>
        match decodeBlock header payload with
        | .error k => (q.1, .bad k)
        | .ok bs =>
          let off := i * h.size - o.size * 32
          if off ≥ bs.length then (q.1, .next (h.headerAfter o.srcOff len) (o.size + bs.length / 32))
          else (q.1, .ok ((bs.drop off).take (n * h.size)) (p1.or p2))

/-- Where a compressed stream ends, as an offset from SRC, found from its headers one after another; at a header that cannot be read now,
or that breaks 08 R171, it ends there. -/
def State.streamStop (s : State) (sp : Space) (o : EngOp) (fuel off sect : Nat) : Nat :=
  match fuel with
  | 0 => off
  | fuel + 1 =>
    let h := o.shape
    let all := (h.total * h.size + 31) / 32
    if sect ≥ all then off
    else
      match (s.engRead sp o ((h.src.toNat + off) % 2 ^ 64) 8 (some h.dfmt)).2 with
      | .ok hb _ =>
        let header := ofBytes hb
        let len := bits header 12 20
        if (headerBad header (all - sect)).isSome then off + 8
        else if sect + bits header 4 8 ≥ all then off + 8 + len
        else s.streamStop sp o fuel (h.headerAfter off len) (sect + bits header 4 8)
      | _ => off

/-- The bytes from SRC on that an operation's compressed stream takes; of a raw source none are needed. -/
def State.streamBytes (s : State) (sp : Space) (o : EngOp) : Nat :=
  if o.shape.dec then s.streamStop sp o ((o.shape.total * o.shape.size + 31) / 32) o.srcOff o.size else 0

/-- Whether a byte of memory is one of an operation's source (08 R167): of a raw one a byte of an element in bounds, of a compressed
one a byte of its stream. Addresses are compared as virtual ones. (DEDUCED, log entry 63.) -/
def EngOp.sources (o : EngOp) (stop va : Nat) : Bool :=
  let h := o.shape
  if h.skind = 1 then false
  else if h.dec then decide ((va + 2 ^ 64 - h.src.toNat) % 2 ^ 64 < stop)
  else (List.range h.total).any (fun j => h.inBounds j && decide ((va + 2 ^ 64 - h.srcAt j) % 2 ^ 64 < h.size))

/-- The undefined value of a destination byte that overlaps the operation's source (08 R167). -/
def EngOp.freeAt (o : EngOp) (fresh stop va : Nat) : Option Byte :=
  if o.sources stop va then some (Config.freeByte fresh (va % 2 ^ 64)) else none

/-- A unit's bytes as they are written to memory: where its destination overlaps the operation's source they are undefined (08
R167). -/
def EngOp.blurred (o : EngOp) (fresh stop va : Nat) (bs : List Byte) : List Byte := freed (o.freeAt fresh stop) va bs

/-- What an MDRST has read follows its event in the CRC of its issuer (11 R233). -/
def State.drainEvent (s : State) (b : Block) (o : EngOp) (bs : List Byte) : State :=
  if b.role = .single ∨ o.kind ≠ .mdrst then s
  else s.modBlock b.bid (fun x => x.modBody (fun y =>
    { y with drains := y.drains.map (fun d => if d.1 = some o.oid then (d.1, d.2 ++ bs) else d) }))

/-- An operation passes a unit of n elements, of which it wrote some bytes (08 R167). -/
def State.passUnit (s : State) (o : EngOp) (n written : Nat) : State :=
  s.modOp o.oid (fun x => { x with done := o.done + n, bytes := x.bytes + written, fetched := [], sending := false,
                                   phase := if o.done + n ≥ o.shape.total then .ended else x.phase })

/-- A unit has been written, all but what has left for another device, whose acknowledgement it waits for (08 R167): it is performed
then, and its bytes there are counted then. -/
def State.unitDone (s : State) (o : EngOp) (n written : Nat) : State :=
  if s.writesAbroad o.oid then s.modOp o.oid (fun x => { x with bytes := x.bytes + written, sending := true })
  else s.passUnit o n written

/-- Deliver a unit's bytes: to an on-core unit, which poison does not enter, or to memory (05 R117; 08 R166, R167). -/
def State.deliver (s : State) (b : Block) (o : EngOp) (n stop : Nat) (bs : List Byte) (poison : Option (Nat × Nat)) : State :=
  let h := o.shape
  let va := h.dstAt o.done
  if h.dkind ≠ 0 then
    match poison with
    | some (k, at_) => s.opFault b o { code := .poison, detail := k, addr := BitVec.ofNat 64 at_ }
    | none => (s.coreWrite (b.core.getD 0) h.dkind h.dindex va bs).passUnit o n bs.length
  else if h.addm then
    let w := s.tick1.engAdd b.space o va (wordsOf n bs) h.dfmt (poison.map (·.1)) (o.freeAt s.fresh stop)
    match w.2 with
    | .error (.fault t) => w.1.opFault b o t
    | .error _ => w.1
    | .ok k => (((w.1.mark b.bid).drainEvent b o bs).unitDone o n k)
  else
    let w := s.tick1.engWrite b.space o va (o.blurred s.fresh stop va bs) (some h.dfmt) (poison.map (·.1))
    match w.2 with
    | .held => w.1
    | .fault t => w.1.opFault b o t
    | .ok _ _ => ((w.1.mark b.bid).drainEvent b o bs).unitDone o n (if w.1.writesAbroad o.oid then 0 else bs.length)

/-- A compressed unit as it is delivered: on-core, zeros for the elements out of bounds (08 R166). -/
def Shape.zeroed (h : Shape) (i n : Nat) (bs : List Byte) : List Byte :=
  (List.range n).flatMap (fun j =>
    if h.inBounds (i + j) then (bs.drop (j * h.size)).take h.size else List.replicate h.size 0)

/-- Perform the next unit of a bulk operation (08 R167). Of a compressed stream the elements that are not written are decoded too,
so that a block that breaks 08 R171 ends the operation there. -/
def State.engineUnit (s : State) (b : Block) (o : EngOp) : State :=
  let h := o.shape
  let i := o.done
  if o.sending then (if s.writesAbroad o.oid then s else s.passUnit o (h.unitLen i) 0)
  else if i ≥ h.total then s.modOp o.oid (fun x => { x with phase := .ended })
  else
    let n := h.unitLen i
    if h.dec then
      let r := s.stream b.space o i n
      match r.2 with
      | .held => r.1
      | .fault t => r.1.opFault b o t
      | .bad k => r.1.modOp o.oid (fun x =>
          { x with phase := .ended, status := 2, code := some .decomp, detail := k, faddr := 0 })
      | .next off first => r.1.modOp o.oid (fun x => { x with srcOff := off, size := first, fetched := [] })
      | .ok bs p => if h.writes i then r.1.deliver b o n (s.streamBytes b.space o) (h.zeroed i n bs) p else r.1.passUnit o n 0
    else if !h.writes i then s.passUnit o n 0
    else if h.skind = 1 then s.deliver b o n 0 (s.gatherRows (b.core.getD 0) h i n) none
    else
      let r := s.gather b.space o i n
      match r.2 with
      | .held => r.1
      | .fault t => r.1.opFault b o t
      | .ok bs p => r.1.deliver b o n 0 bs p

/-- The trailing copy of a pair reads the rows of its MDRST and writes nothing (11 R233; 15 R316). -/
def State.trailingUnit (s : State) (b : Block) (o : EngOp) : State :=
  let h := o.shape
  let n := h.unitLen o.done
  (if h.writes o.done then s.drainEvent b o (s.gatherRows (b.core.getD 0) h o.done n) else s).modOp o.oid
    (fun x => { x with done := o.done + n })

/-- ENGINE_UNIT_WRITE (08 R167). The trailing copy of a pair writes no memory: its operation ends when the leading copy's
has (15 R316). -/
def execEngineUnitWrite (op : Nat) (s : State) : Host.Outcome State Fault Refusal :=
  event (match s.op? op with
  | none => s
  | some o =>
    match s.block? o.bid with
    | none => s
    | some b =>
      if o.kind = .cpy ∨ o.kind = .mdrain ∨ o.phase ≠ .running ∨ b.core.isNone ∨ !s.opFirst o then s
      else if b.role = .trailing ∧ o.shape.dkind = 0 then
        if o.kind = .mdrst ∧ o.done < o.shape.total then s.trailingUnit b o
        else
          match s.takeTold b o.who o.kind.cls with
          | none => s
          | some t => t.modOp op (fun x => { x with phase := .ended })
      else if o.shape.dkind ≠ 0 then s.engineUnit b o
      else (s.engineUnit b o).landed b s.fresh (o.shape.dstAt o.done) (o.shape.unitLen o.done * o.shape.size))

/-- Whether an MDRST of a copy still reads rows that belong before a comparison: it has been triggered, and nothing before it in its
class waits for its trigger (11 R233, R235). (DEDUCED, log entry 11.) -/
def State.rowsUnread (s : State) (b : Block) : Bool :=
  let mine := s.ops.filter (fun o => o.bid == b.bid && o.kind.cls == 3)
  (mine.takeWhile (fun o => !(decide (o.phase = .waitTrigger ∨ o.phase = .triggerParked)) ||
      b.performed.contains (o.who, 16 + o.kind.cls))).any (fun o => decide (o.kind = .mdrst) && decide (o.done < o.shape.total) &&
    !(decide (o.phase = .ended ∨ o.phase = .reporting ∨ o.phase = .recordParked ∨ o.phase = .faulted)))

/-- The completion record of a bulk operation (08 R169). -/
def EngOp.record (o : EngOp) : List Byte :=
  let fcode := (o.code.map TrapCode.num).getD 0
  let x := if o.status = 0 then 0 else o.detail % 2 ^ 24
  toBytes 4 o.shape.ticket ++ toBytes 4 (o.status + fcode * 2 ^ 16 + x % 256 * 2 ^ 24) ++ toBytes 8 o.bytes ++
    toBytes 8 (if o.status = 0 then 0 else o.faddr.toNat) ++ toBytes 8 x

/-- The trap of an operation that ended in a fault. -/
def EngOp.trap? (o : EngOp) : Option Trap := o.code.map (fun c => { code := c, detail := o.detail, addr := o.faddr })

/-- Send the completion record of an operation to its queue (08 R169). -/
def State.sendDone (s : State) (b : Block) (o : EngOp) : State :=
  { s with qreqs := s.qreqs ++ [{ rid := s.fresh, from_ := .engine o.oid, enq := true, try_ := false, pa := 0,
                                  va := BitVec.ofNat 64 (handleAddr o.cq.toNat), handle := some (o.cq, b.params.queue),
                                  code := bits o.cq.toNat 0 3, payload := o.record, parked := false, busy := false,
                                  src := stopOf (stackOf (b.core.getD 0)), unc := false }],
           fresh := s.fresh + 1 }

/-- ENGINE_OPERATION_END (08 R169, R170; 06 R137): once every write has been performed and the older ones of its class have
completed, the completion record is enqueued, or without a queue the counter falls, after a fault with the issuer stopped. -/
def execEngineOperationEnd (op : Nat) (s : State) : Host.Outcome State Fault Refusal :=
  event (match s.op? op with
  | none => s
  | some o =>
    match s.block? o.bid with
    | none => s
    | some b =>
      if b.core.isNone ∨ !s.opOldest o ∨ s.writesAbroad op then s
      else if o.phase = .reporting then (if s.inFlight (.engine op) then s else s.sendDone b o)
      else if o.phase ≠ .ended then s
      else
        let s1 := if o.shape.dkind = 0 then s.tellPartner b o.who o.kind.cls else s
        if o.cq = 0 then
          match o.trap? with
          | some t => s1.faultOp b o t
          | none => s1.endOp o
        else if b.role = .trailing then s1.endOp o
        else (s1.modOp op (fun x => { x with phase := .reporting })).sendDone b o)

end Sys2Proof.Machine
end

