-- ==== Sys2Proof/Machine/Mapping.lean ====
section
/-!
DEFINITION. The address-mapping block (05 R107, R108, R110) as SYSR, SYSW and the management registers reach it, and the
commit of a region.
-/
namespace Sys2Proof.Machine

/-- Read the register at an offset of the address-mapping block; an offset without one reads 0 (18 R391). -/
def State.amapRead (s : State) (off : Nat) : Nat :=
  if off = 0x2000 then s.apwin
  else if off ≥ 0x2000 then 0
  else
    let r := s.region (off / 0x400)
    let rel := off % 0x400
    if rel = 0 then r.status * 4 + bit01 r.staged.en
    else if rel = 8 then r.staged.base * 2 ^ 21
    else if rel = 0x10 then r.staged.limit * 2 ^ 21
    else if 0x100 ≤ rel ∧ rel % 8 = 0 then r.staged.masks.getD ((rel - 0x100) / 8) 0
    else 0

/-- Whether 35 masks are invertible over GF(2). -/
def invertible (masks : List Nat) : Bool := (gfSolve masks 0).isSome

/-- Whether masks keep the halves of a line together (05 R108). -/
def keepsLines (masks : List Nat) : Bool :=
  decide (masks.getD 0 0 = 1) && (masks.drop 1).all (fun m => !bitAt m 0)

/-- Start the commit of a region (05 R108): the two checks on the staged masks, then BUSY. -/
def State.amapStart (s : State) (n : Nat) : State :=
  let r := s.region n
  if r.status = 3 then s
  else if !invertible r.staged.masks then s.setRegion n { r with status := 1 }
  else if !keepsLines r.staged.masks then s.setRegion n { r with status := 2 }
  else s.setRegion n { r with status := 3, checked := r.staged.masks, starting := r.staged.en }

/-- Write AMAP_CTL of a region: EN is staged, then COMMIT starts a commit; a COMMIT while BUSY is ignored (05 R107, R108).
(DEDUCED, log entry 48.) -/
def State.amapCtl (s : State) (n v : Nat) : State :=
  let r := s.region n
  let s1 := s.setRegion n { r with staged := { r.staged with en := bitAt v 0 } }
  if bitAt v 1 then s1.amapStart n else s1

/-- Write the register at an offset of the address-mapping block under its access codes (05 R107, R110; 00 R4). -/
def State.amapWrite (s : State) (off v : Nat) : State :=
  if off = 0x2000 then { s with apwin := v % 64 }
  else if off ≥ 0x2000 then s
  else
    let n := off / 0x400
    let r := s.region n
    let rel := off % 0x400
    if rel = 0 then s.amapCtl n v
    else if rel = 8 then s.setRegion n { r with staged := { r.staged with base := bits v 21 20 } }
    else if rel = 0x10 then s.setRegion n { r with staged := { r.staged with limit := min (bits v 21 21) 0x100000 } }
    else if 0x100 ≤ rel ∧ rel % 8 = 0 ∧ (rel - 0x100) / 8 < 35 then
      s.setRegion n { r with staged := { r.staged with masks := r.staged.masks.set ((rel - 0x100) / 8) (bits v 0 35) } }
    else s

/-- Finish the commit of a region (05 R107, R108), with the masks and the EN with which it has started: the stack-cache and
memory-side-cache lines of the old and new extents are written back and invalidated, the staged mapping becomes active, and the
bytes at addresses whose cells changed are undefined. -/
def State.amapFinish (s : State) (n : Nat) : State :=
  let r := s.region n
  if r.status ≠ 3 then s
  else
    let m : Mapping := { r.staged with masks := r.checked, en := r.starting }
    let gone (unit : Nat) : Bool := r.active.names unit || m.names unit
    let s0 := (s.scache.filter (fun l => gone l.tag)).foldl (fun t l => t.scDrop l) s
    let s1 : State := { s0 with mside := s0.mside.map (fun e => (e.1, e.2.filter (fun u => !gone u))) }
    let old := s1.maps
    let s2 := s1.setRegion n { r with active := m, status := 0, checked := [] }
    let x : Extent := { lo := 0, hi := 0, epoch := s2.fresh, remap := some (old, s2.maps), written := [] }
    { s2 with blur := x :: s2.blur, fresh := s2.fresh + 1 }

end Sys2Proof.Machine
end

