-- ==== Sys2Proof/Machine/System.lean ====
section
/-!
DEFINITION. Reads of state, system registers, translation maintenance, signature, checkpoint and trial counters (05 R98; 06
R139; 12 R255; 14 R282; 15 R312; 17 R370; 18 R383, R384, R391 to R393).
-/
namespace Sys2Proof.Machine

/-- The governor of a stack die (13 R267). -/
def State.governor (s : State) (stack : Nat) : Governor := (aget s.governors stack).getD Governor.reset

/-- Eighths of the cycles in which a core may issue in a throttle state (13 R267). -/
def issueEighths (t : Nat) : Nat := [8, 8, 7, 6, 6, 4, 2, 1].getD t 8

/-- Whether the throttle state of a core's stack lets it issue in this cycle (10 R211). -/
def State.mayIssue (s : State) (core : Nat) : Bool :=
  decide (s.cycle % 8 < issueEighths (s.governor (stackOf core)).throttle)

/-- The number of allowed cycles before cycle n. -/
def allowedBefore (k n : Nat) : Nat := n / 8 * k + min (n % 8) k

/-- The allowed cycles from one time to another of a governor in a throttle state, with the states it has left before. -/
def allowedSpan (throttle : Nat) (left : List (Nat × Nat)) (since upto : Nat) : Nat :=
  let count (k a b : Nat) : Nat := allowedBefore k (b / cycleTime) - allowedBefore k (a / cycleTime)
  match left with
  | [] => count (issueEighths throttle) since upto
  | (t, before) :: rest =>
    if t ≤ since then count (issueEighths throttle) since upto
    else count (issueEighths throttle) t upto + allowedSpan before rest since t

/-- The number of cycles since a time in which a core's stack has let it issue, each under the throttle state of its time (10 R211). -/
def State.allowedSince (s : State) (core since : Nat) : Nat :=
  let g := s.governor (stackOf core)
  allowedSpan g.throttle g.history since s.time

/-- The value of an SREAD number for an issuer (14 R282). -/
def State.sreadValue (s : State) (e : Env) (n : Nat) : Nat :=
  let p := e.blk.params
  let g := s.governor (stackOf e.core)
  match n with
  | 0 => if e.lead then 0xFFFFFFFF else e.who.fid
  | 1 => if e.lead then 0xFFFFFFFF else e.who.fid % 32
  | 2 => e.blk.bx
  | 3 => e.blk.by_
  | 4 => e.blk.bz
  | 5 => e.blk.stage
  | 6 => p.fibreCount
  | 7 => p.dimX
  | 8 => p.dimY
  | 9 => p.dimZ
  | 10 => e.core
  | 11 => stackOf e.core
  | 12 => s.cycle % 2 ^ 32
  | 13 => e.ctx.latch.toNat
  | 14 => if e.lead then 0 else e.ctx.wb.toNat
  | 15 => g.throttle + 8 * bit01 g.emergency
  | 16 => match e.blk.role with
    | .single => 0
    | .leading => 1
    | .trailing => 2
  | 17 => p.lid
  | 18 => e.ctx.fps.toNat
  | _ => p.allocation

/-- SREAD (18 R384); number 12 latches the upper half of the cycle counter. -/
def execSread (rd : Reg) (imm : BitVec 8) (g : Guard) (s : State) : Host.Outcome State Fault Refusal :=
  issue (.sread rd imm g) (fun e _ s =>
    let v := s.sreadValue e imm.toNat
    .write (if imm = 12#8 then s.modMe e (fun c => { c with latch := BitVec.ofNat 32 (s.cycle / 2 ^ 32) }) else s) [v]) s

/-- The sum of a slot's hit counters over every core, saturated (12 R238). -/
def State.hitSum (s : State) (slot : Nat) : Nat :=
  min (s.proctors.hits.foldl (fun n e => if e.1 % 64 = slot then n + e.2 else n) 0) 0xFFFFFFFF

/-- The value of a system register (18 R391). -/
def State.sysValue (s : State) (e : Env) (n : Nat) : Nat :=
  if n = 18 then e.ctx.fps.toNat
  else if n < 0x1000 then s.hitSum (n - 0x200)
  else s.amapRead (8 * (n - 0x1000))

/-- SYSR (18 R391). -/
def execSysr (rd : Reg) (imm : BitVec 15) (g : Guard) (s : State) : Host.Outcome State Fault Refusal :=
  issue (.sysr rd imm g) (fun e _ s => .write s [s.sysValue e imm.toNat]) s

/-- SYSW (18 R391). -/
def execSysw (rd : Reg) (imm : BitVec 15) (g : Guard) (s : State) : Host.Outcome State Fault Refusal :=
  issue (.sysw rd imm g) (fun e v s =>
    let x := v.getD 0 0
    if imm = 18#15 then .write (s.modMe e (fun c => { c with fps := BitVec.ofNat 5 x })) []
    else .write (s.outside e (s.amapWrite (8 * (imm.toNat - 0x1000)) x)) []) s

/-- Whether a request to a home was made by an issuer, which stands at its instruction until it is answered. -/
def QReq.issuer? (q : QReq) : Option (Nat × Who) :=
  match q.from_ with
  | .actor bid who => some (bid, who)
  | _ => none

/-- Whether a TLB entry is global. -/
def TlbEntry.global (t : TlbEntry) : Bool := bitAt t.entry.toNat 5

/-- Whether a removal of translations takes in the page of an access of a block: one that a TLB holds, or one that no TLB holds any more. -/
def State.pageGone (s : State) (gone : TlbEntry → Bool) (bid : Option Nat) (va pa : Nat) : Bool :=
  s.tlb.any (fun t => gone t && decide (pteAddr t.entry.toNat ≤ pa) && decide (pa < pteAddr t.entry.toNat + t.size)) ||
    match bid.bind s.block? with
    | none => false
    | some b => gone { core := 0, asn := b.space.asn, base := va / 2 ^ 16 * 2 ^ 16, size := 2 ^ 16, entry := 0 }

/-- Requests to a page whose translation is removed and that have not been performed are given back (06 R139, R140): an issuer's
instruction executes again from its translation, an agent's parked request is on its way again, and what may wait at another device is
withdrawn there. (DEDUCED, log entry 54.) -/
def State.giveBack (s : State) (gone : TlbEntry → Bool) : State :=
  let mine (q : QReq) : Bool := s.pageGone gone (q.issuer?.map (·.1)) q.va.toNat q.pa
  let tagged (q : TagReq) : Bool := q.remote.isNone && s.pageGone gone (some q.bid) q.va.toNat q.pa
  let who := (s.qreqs.filter mine).filterMap QReq.issuer? ++ (s.treqs.filter tagged).map (fun q => (q.bid, q.who))
  let agents := (s.qreqs.filter (fun q => mine q && q.parked && q.handle.isSome)).map (fun q => { q with parked := false })
  let away := s.peers.outstanding.filter (fun o => s.pageGone gone (o.owner.map (·.1)) o.va.toNat (o.target * 2 ^ 42 + o.addr))
  let s1 := s.withdrawReqs (fun q => mine q && (q.issuer?.isSome || (q.parked && q.handle.isSome)))
  let s2 : State := { s1 with qreqs := s1.qreqs ++ agents, treqs := s1.treqs.filter (fun q => !tagged q) }
  away.foldl (fun t o => t.cancelOp o) (who.foldl (fun t w => t.undo w.1 w.2) s2)

/-- The issuers whose allocated dequeue of a queue waits for their commit. -/
def State.heldAt (s : State) (pa : Nat) : List (Nat × Who) :=
  (s.qhome pa).deqs.filterMap (fun f => match f with
    | .producer bid who _ => if s.beforeCommit f then some (bid, who) else none
    | _ => none)

/-- The operations that a queue has allocated are performed (07 R150, R151); those that wait for their block's commit, on a page whose
translation is removed, are given back first. -/
def State.settleQueue (s : State) (gone : Bool) (pa : Nat) : State :=
  let h := s.qhome pa
  let s1 := if gone then (s.heldAt pa).foldl (fun t w => t.undo w.1 w.2)
      (s.setQhome { h with deqs := h.deqs.filter (fun f => !s.beforeCommit f) }) else s
  let s2 := h.enqs.foldl (fun t _ => t.enqAck pa) s1
  State.performReads (s2.qhome pa).deqs.length s2 pa

/-- Every L1 writes back its dirty bytes and gathered contributions, those of a removed page among them (06 R139). -/
def State.pushAll (s : State) : State := s.l1.foldl (fun t l => t.pushLine l) s

/-- Remove TLB entries on every core and empty the walkers' caches (18 R393), after the write-back of every L1 and once no write
by a removed translation is under way at a home (06 R139, R140). (DEDUCED, log entry 22.) -/
def State.tlbi (s : State) (gone : TlbEntry → Bool) : State :=
  let s1 := s.pushAll.giveBack gone
  let s2 := (s.queues.map (·.pa)).foldl (fun t pa => t.settleQueue (s.pageGone gone none 0 pa) pa) s1
  { s2 with tlb := s.tlb.filter (fun x => !gone x), walkc := [] }

/-- The operation of TLBI (18 R393): its issuer waits until no write by a removed translation is on its way to another device (06
R140). -/
def tlbiAct (e : Env) (gone : TlbEntry → Bool) (s : State) : Act :=
  match e.ctx.phase.release with
  | .done => .write s []
  | .none =>
    let t := s.outside e (s.tlbi gone)
    if e.blk.role ≠ .trailing ∧ t.undrained t.fresh then .wait (t.setPhase e (fun p => { p with release := .drained t.fresh })) .acks
    else .write t []
  | _ => .wait s .acks

/-- TLBI.page (18 R392, R393). -/
def execTlbiPage (ra rb : Reg) (fe : Bool) (g : Guard) (s : State) : Host.Outcome State Fault Refusal :=
  issue (.tlbiPage ra rb fe g) (fun e v s =>
    let a := v.getD 0 0
    let asn := v.getD 1 0 % 2 ^ 16
    tlbiAct e (fun t => (t.asn == asn || t.global) && decide (t.base ≤ a) && decide (a < t.base + t.size)) s) s

/-- TLBI.asn (18 R392, R393). -/
def execTlbiAsn (rb : Reg) (fe : Bool) (g : Guard) (s : State) : Host.Outcome State Fault Refusal :=
  issue (.tlbiAsn rb fe g) (fun e v s => tlbiAct e (fun t => t.asn == v.getD 0 0 % 2 ^ 16 && !t.global) s) s

/-- TLBI.all (18 R392, R393). -/
def execTlbiAll (g : Guard) (s : State) : Host.Outcome State Fault Refusal :=
  issue (.tlbiAll g) (fun e _ s => tlbiAct e (fun _ => true) s) s

/-- SIGR (18 R383): 0 outside paired mode. -/
def execSigr (rd : Reg) (g : Guard) (s : State) : Host.Outcome State Fault Refusal :=
  issue (.sigr rd g) (fun e _ s =>
    .write s [if e.blk.role = .single then 0 else (e.again (s.flushCrc e.bid)).ctx.crc.toNat]) s

/-- CHKPT (15 R312). -/
def execChkpt (g : Guard) (s : State) : Host.Outcome State Fault Refusal :=
  issue (.chkpt g) (fun e _ s => (s.commitPoint e []).act (fun t => .done ({ state := t : Done }.point e))) s

/-- Add 1 to counter k of the window that a running trial is in (12 R255). -/
def Trial.progress (t : Trial) (k : Nat) : Trial :=
  if t.delayed then { t with pd := sput 0 t.pd k ((sget 0 t.pd k + 1) % 2 ^ 64) }
  else { t with pb := sput 0 t.pb k ((sget 0 t.pb k + 1) % 2 ^ 64) }

/-- PROG (12 R255, 17 R370): only the leading copy of a pair counts. -/
def execProg (imm : BitVec 8) (g : Guard) (s : State) : Host.Outcome State Fault Refusal :=
  issue (.prog imm g) (fun e _ s =>
    if s.trial.run && decide (s.trial.lid = e.blk.params.lid) && decide (e.blk.role ≠ .trailing) then
      .write { s with trial := s.trial.progress imm.toNat } []
    else .write s []) s

end Sys2Proof.Machine
end

