-- ==== Sys2Proof/Machine/Matrix.lean ====
section
/-!
DEFINITION. The matrix array (09 R174 to R185; 04 R83 to R86): MMA, MZERO, AFEED, ADRN, the command queue, the latched slices
and the arithmetic of one command.
-/
namespace Sys2Proof.Machine

/-- Whether a format code of an MMA is INT8 (09 R180). -/
def isInt8 (fmt : Nat) : Bool := fmt == 3

/-- The A format of an MMA command word (09 R180). -/
def cmdAfmt (w : Nat) : Nat := bits w 29 3
/-- The B format. -/
def cmdBfmt (w : Nat) : Nat := bits w 32 3
/-- The B slice. -/
def cmdSlice (w : Nat) : Nat := bits w 4 7
/-- The A buffer. -/
def cmdBuf (w : Nat) : Nat := bits w 0 3
/-- The first accumulator row. -/
def cmdRow (w : Nat) : Nat := bits w 11 10
/-- The number of rows M. -/
def cmdM (w : Nat) : Nat := bits w 21 8 + 1
/-- Whether scales are on. -/
def cmdScl (w : Nat) : Bool := bitAt w 36
/-- Whether the command accumulates. -/
def cmdAcc (w : Nat) : Bool := bitAt w 35
/-- First byte of the scale extent (09 R178). -/
def cmdScale (w : Nat) : Nat := 16 * bits w 37 14
/-- Bytes of the scale extent. -/
def cmdExtent (w : Nat) : Nat := if cmdBfmt w = 4 then 11264 else 5120
/-- K_MMA (09 R177). -/
def cmdK (w : Nat) : Nat := if cmdAfmt w = 2 ∨ cmdBfmt w = 2 then 128 else 256
/-- The group size G (04 R83). -/
def cmdG (w : Nat) : Nat := if cmdAfmt w = 2 ∨ cmdBfmt w = 2 then 16 else 32

/-- The checks of an MMA command word (09 R181, 04 R86). -/
def cmdOk (w : Nat) : Bool :=
  !bitAt w 3 && decide (bits w 51 13 = 0) && decide (cmdAfmt w ≤ 3) && decide (cmdBfmt w ≤ 4) &&
    decide (cmdRow w + cmdM w ≤ 1024) && (isInt8 (cmdAfmt w) == isInt8 (cmdBfmt w)) &&
    (!cmdScl w || decide (cmdScale w + cmdExtent w ≤ 262144))

/-- The grains of an MMA command (09 R181). -/
def cmdGrains (w : Nat) : List Named :=
  [⟨.abuf, cmdBuf w, cmdBuf w⟩, ⟨.bslice, cmdSlice w, cmdSlice w⟩] ++ rowGrains (cmdRow w) (cmdM w) ++
    (if cmdScl w then scaleGrains (cmdScale w) (cmdExtent w) else [])

/-- Register set k of an array. -/
def MArray.set (a : MArray) (k : Nat) : Latch :=
  a.latches.getD k { slice := 0, fmt := 0, valid := false, bytes := [] }

/-- Replace a register set. -/
def MArray.setSet (a : MArray) (k : Nat) (l : Latch) : MArray :=
  { a with latches := if k = 0 then [l, a.set 1] else [a.set 0, l] }

/-- Whether a register set holds the copy that a command uses. -/
def Latch.fits (l : Latch) (c : MatrixCmd) : Bool :=
  l.valid && l.slice == cmdSlice c.word.toNat && l.fmt == cmdBfmt c.word.toNat

/-- The register set from which a command can run: the one last used, else the other, loaded for it (09 R183). -/
def MArray.ready (a : MArray) (c : MatrixCmd) : Option Nat :=
  if (a.set a.lastUsed).fits c then some a.lastUsed
  else if (a.set (1 - a.lastUsed)).fits c then some (1 - a.lastUsed)
  else none

/-- The next command of an array (09 R183): leads with queued commands take turns in the order of their contexts, one command a
turn. -/
def MArray.next (a : MArray) : Option MatrixCmd :=
  let leads := (a.queue.map (·.lead)).foldl sins []
  match leads.find? (fun k => decide (k > a.lastLead)) with
  | some k => a.queue.find? (fun c => c.lead == k)
  | none => a.queue.find? (fun c => some c.lead == leads.head?)

/-- Start the slice load that the next command needs: at once if the array is idle, else 64 cycles after the running command
started or when that ends, if earlier; it takes 128 cycles (09 R183). (DEDUCED, log entry 23.) -/
def MArray.schedule (a : MArray) (now : Nat) : MArray :=
  match a.loading, a.next with
  | none, some c =>
    if c.zero || (a.ready c).isSome then a
    else
      let begin_ := match a.running with
        | some (_, t) => max now (t + 64 * cycleTime)
        | none => now
      { a with loading := some (cmdSlice c.word.toNat, cmdBfmt c.word.toNat, begin_ + 128 * cycleTime) }
  | some (k, f, t), _ => if a.running.isNone then { a with loading := some (k, f, min t (now + 128 * cycleTime)) } else a
  | _, _ => a

/-- Append a command to the lead's command queue (09 R181, R182). -/
def State.enqueueCmd (s : State) (e : Env) (zero : Bool) (w : DWord) : State :=
  let a := s.array e.core
  let c : MatrixCmd := { mid := s.fresh, bid := e.bid, lead := e.blk.context, zero := zero, word := w }
  let s1 := (s.setArray (({ a with queue := a.queue ++ [c] } : MArray).schedule s.time)).tick1
  s1.modMe e (fun x => x.setCounter 2 (x.counter 2 + 1))

/-- Whether the lead's command queue holds its eight entries (09 R183). -/
def State.queueFull (s : State) (e : Env) : Bool :=
  decide (((s.array e.core).queue.filter (fun c => c.bid == e.bid)).length ≥ 8)

/-- Issue a matrix command whose word is legal: once its queue and its class have room (06 R136; 09 R183), its grains are checked and
claimed (09 R175, R181, R182). -/
def State.issueCmd (s : State) (e : Env) (gs : List Named) (zero : Bool) (w : DWord) : Act :=
  if s.queueFull e then .wait s .commandQueue
  else if e.classFull 2 then .wait s .classFull
  else
    match s.claim e gs with
    | .error t => .trap s t
    | .ok s1 => .done { state := s1.enqueueCmd e zero w }

/-- MMA (09 R181). -/
def execMma (ra : Reg) (fe : Bool) (g : Guard) (s : State) : Host.Outcome State Fault Refusal :=
  issue (.mma ra fe g) (fun e v s =>
    let w := v.getD 0 0
    if !cmdOk w then .trap s (Trap.plain .illopd) else s.issueCmd e (cmdGrains w) false (BitVec.ofNat 64 w)) s

/-- First row of an MZERO (09 R182). -/
def zeroRow (w : Nat) : Nat := bits w 0 10
/-- Row count of an MZERO. -/
def zeroCount (w : Nat) : Nat := bits w 10 10 + 1

/-- MZERO (09 R182). -/
def execMzero (ra : Reg) (fe : Bool) (g : Guard) (s : State) : Host.Outcome State Fault Refusal :=
  issue (.mzero ra fe g) (fun e v s =>
    let w := v.getD 0 0
    if w / 2 ^ 20 ≠ 0 ∨ zeroRow w + zeroCount w > 1024 then .trap s (Trap.plain .illopd)
    else s.issueCmd e (rowGrains (zeroRow w) (zeroCount w)) true (BitVec.ofNat 64 w)) s

/-- AFEED (15 R301): a register quad into an A buffer. -/
def execAfeed (ra rb : Reg) (fe : Bool) (g : Guard) (s : State) : Host.Outcome State Fault Refusal :=
  issue (.afeed ra rb fe g) (fun e v s =>
    let loc := low v 0
    if bits loc 19 13 ≠ 0 ∨ bits loc 0 4 ≠ 0 then .trap s (Trap.plain .illopd)
    else
      let b := bits loc 16 3
      match s.claim e [⟨.abuf, b, b⟩] with
      | .error t => .trap s t
      | .ok s1 => .write (s1.coreWrite e.core 1 b (bits loc 0 16) (toBytes 16 (v.getD 1 0))) []) s

/-- ADRN (15 R300): the four elements are read when the producer completes. -/
def execAdrn (rd ra : Reg) (fe : Bool) (g : Guard) (s : State) : Host.Outcome State Fault Refusal :=
  issue (.adrn rd ra fe g) (fun e v s =>
    let loc := low v 0
    let r := bits loc 0 10
    let c := bits loc 10 9
    if bits loc 19 13 ≠ 0 ∨ c % 4 ≠ 0 ∨ c > 380 then .trap s (Trap.plain .illopd)
    else
      match s.claim e (rowGrains r 1) with
      | .error t => .trap s t
      | .ok s1 => .done { state := s1, vals := [0], long := true, reads := some (r * 384 + c) }) s

/-- Entries of a sparse memory in a range, for reading many bytes of it. -/
def within (m : Memory) (lo n : Nat) : Memory := m.filter (fun e => decide (lo ≤ e.1) && decide (e.1 < lo + n))

/-- Element k of a row of A or a column of B in its bytes (09 R177), as a value; an INT8 element is the exact integer. -/
def operandAt (fmt : Nat) (bs : List Byte) (k : Nat) : Fp :=
  let byte := (bs.getD k 0).toNat
  match fmt with
  | 0 => fpDecode f8a byte
  | 1 => fpDecode f8b byte
  | 2 => fpDecode bf16 (fieldAt bs (2 * k) 2)
  | 3 =>
    let v := signed 8 byte
    .fin (decide (v < 0)) v.natAbs 0
  | _ => nq4Decode (bits ((bs.getD (k / 2) 0).toNat) (k % 2 * 4) 4)

/-- The exact sum of a group's products and whether it raises invalid (04 R83 step 1, R84). Integer products have no negative
zero. -/
def groupSum (int : Bool) (ps : List (Fp × Fp)) : Fp × Bool :=
  let qs := ps.map (fun p => fpMul p.1 p.2)
  let r := fpSum (qs.map (·.1))
  if qs.any (·.2) then (.nan, true)
  else if int && r.1.isZero then (.fin false 0 0, false)
  else r

/-- A group's sum with its scales met in order (04 R83 step 2, R82). -/
def scaledSum (x : Fp × Bool) (scales : List Fp) : Fp × Bool :=
  scales.foldl (fun a sc =>
    let r := scaleMeet sc a.1
    (r.1, a.2 || r.2)) x

/-- Steps 3 and 4 of 04 R83: round once to FP32, then add to the accumulator with one rounding. -/
def accumulate (acc : Nat × FpFlags) (x : Fp × Bool) : Nat × FpFlags :=
  let r := fpEncode f32 x.1
  let t := fpAdd f32 acc.1 r.1
  (t.1, acc.2 ||| flagIf x.2 fInvalid ||| r.2 ||| t.2)

/-- The integer value of a finite value of exponent 0. -/
def Fp.toInt (x : Fp) : Int := x.scaled 0

/-- The scales of a group: the A scale, the B scale and, for NQ4, the super-scale (09 R178, 04 R83). -/
def groupScales (w : Nat) (scale : List Byte) (m n k : Nat) : List Fp :=
  let a := sf8Decode ((scale.getD (8 * m + k / 32) 0).toNat)
  let j := if cmdBfmt w = 4 then k / 64 else k / 32
  let b := sf8Decode ((scale.getD (2048 + 8 * n + j) 0).toNat)
  if cmdBfmt w = 4 then [a, b, fpDecode f32 (fieldAt scale (5120 + 16 * n + 4 * j) 4)] else [a, b]

/-- The products of the group that starts at k. -/
def groupPairs (w : Nat) (arow bcol : List Byte) (k : Nat) : List (Fp × Fp) :=
  (span k (cmdG w)).map (fun i => (operandAt (cmdAfmt w) arow i, operandAt (cmdBfmt w) bcol i))

/-- One output element of an MMA and its exceptions (04 R83 to R86), from its row of A, column of B, scale extent and old
accumulator value. -/
def mmaElement (w : Nat) (arow bcol scale : List Byte) (m n : Nat) (old : Nat) : Nat × FpFlags :=
  let ks := (List.range (cmdK w / cmdG w)).map (fun i => i * cmdG w)
  if isInt8 (cmdAfmt w) && !cmdScl w then
    let total := ks.foldl (fun (t : Int) k => (groupPairs w arow bcol k).foldl (fun u p => u + p.1.toInt * p.2.toInt) t)
      (if cmdAcc w then (old : Int) else 0)
    (wrap 32 total, fNone)
  else
    ks.foldl (fun acc k =>
      let x := groupSum (isInt8 (cmdAfmt w)) (groupPairs w arow bcol k)
      accumulate acc (if cmdScl w then scaledSum x (groupScales w scale m n k) else x))
      (if cmdAcc w then old else 0x80000000, fNone)

/-- The bytes of column n of a latched slice (09 R177). -/
def sliceColumn (fmt : Nat) (bytes : Memory) (n : Nat) : List Byte :=
  let len := if fmt = 4 then 128 else 256
  readSparse (within bytes (len * n) len) (len * n) len

/-- RUN AN MMA (09 R181): the accumulator cells and the exceptions it raises. -/
def State.runMma (s : State) (core w : Nat) (slice : Memory) : WordMap × FpFlags :=
  let a0 := grainBase core .abuf (cmdBuf w)
  let abuf := within s.matrix.abuf a0 65536
  let s0 := grainBase core .scale 0 + cmdScale w
  let scale := if cmdScl w then readSparse (within s.matrix.scale s0 (cmdExtent w)) s0 (cmdExtent w) else []
  let cols := (List.range 384).map (sliceColumn (cmdBfmt w) slice)
  (List.range (cmdM w)).foldl (fun acc m =>
    let arow := readSparse (within abuf (a0 + 256 * m) 256) (a0 + 256 * m) 256
    cols.zipIdx.foldl (fun acc c =>
      let key := (core * 1024 + cmdRow w + m) * 384 + c.2
      let r := mmaElement w arow c.1 scale m c.2 (sget 0 acc.1 key).toNat
      (sput 0 acc.1 key (BitVec.ofNat 32 r.1), acc.2 ||| r.2)) acc) (s.matrix.acc, fNone)

/-- B_SLICE_LOAD_COMPLETE (09 R183): the slice is latched in the idle set as it stands. (DEDUCED, log entry 23.) -/
def execBSliceLoadComplete (core : Nat) (s : State) : Host.Outcome State Fault Refusal :=
  event (
    let a := s.array core
    match a.loading with
    | none => s
    | some (slice, fmt, done) =>
      if s.time < done then s
      else
        let lo := grainBase core .bslice slice
        let bytes := (within s.matrix.bslice lo 98304).map (fun e => (e.1 - lo, e.2))
        let l : Latch := { slice := slice, fmt := fmt, valid := true, bytes := bytes }
        s.setArray ((({ a with loading := none } : MArray).setSet (1 - a.lastUsed) l).schedule s.time))

/-- MATRIX_COMMAND_START (09 R183): the next command takes the free array; the copy that it does not use is spent. -/
def execMatrixCommandStart (core : Nat) (s : State) : Host.Outcome State Fault Refusal :=
  event (
    let a := s.array core
    match a.running, a.next with
    | none, some c =>
      let run (b : MArray) : MArray :=
        { b with queue := b.queue.filter (fun x => x.mid != c.mid), running := some (c, s.time), lastLead := c.lead }
      if c.zero then s.setArray ((run a).schedule s.time)
      else
        match a.ready c with
        | none => s.setArray (a.schedule s.time)
        | some k =>
          let b := a.setSet (1 - k) { a.set (1 - k) with valid := false }
          s.setArray ((run { b with lastUsed := k }).schedule s.time)
    | _, _ => s)

/-- Cycles for which a command occupies the array (09 R183), counted as those in which the throttle state of its stack lets the core
issue: it scales the compute figures (01 R18). (DEDUCED, log entry 23.) -/
def cmdCycles (c : MatrixCmd) : Nat :=
  if c.zero then (zeroCount c.word.toNat + 3) / 4 + 8 else cmdM c.word.toNat + 64

/-- MATRIX_COMMAND_COMPLETE (09 R181, R182; 04 R85): rows written, exceptions to the lead, the counter falls.
(DEDUCED, log entry 23.) -/
def execMatrixCommandComplete (core : Nat) (s : State) : Host.Outcome State Fault Refusal :=
  event (
    let a := s.array core
    match a.running with
    | none => s
    | some (c, start) =>
      if s.allowedSince core start < cmdCycles c then s
      else
        let w := c.word.toNat
        let r := if c.zero then
            (outside ((core * 1024 + zeroRow w) * 384) (zeroCount w * 384) s.matrix.acc, fNone)
          else s.runMma core w (a.set a.lastUsed).bytes
        let s1 : State := { s with matrix := { s.matrix with acc := r.1 } }
        let s2 := s1.setArray (({ a with running := none } : MArray).schedule s.time)
        s2.modCtx c.bid .lead (fun x => { x.setCounter 2 (x.counter 2 - 1) with fps := x.fps ||| r.2 }))

end Sys2Proof.Machine
end

