-- ==== Sys2Proof/Machine/Summit.lean ====
section
/-!
DEFINITION. The summit (09 R186 to R190; 17 R355): MDRAIN, the arrival of contributions at their instances, and delivery.
-/
namespace Sys2Proof.Machine

/-- The collective descriptor in an a-register pair (09 R186). -/
def SummitDesc.of (v : Nat) : SummitDesc :=
  { iadd := bitAt v 54, dest := bitAt v 53, root := bits v 46 7, memb := bits v 38 8, group := bits v 30 8, drow := bits v 20 10,
    nrow := bits v 10 10, srow := bits v 0 10, qh := BitVec.ofNat 64 (v / 2 ^ 64) }

/-- The checks of a descriptor at issue (09 R186). -/
def descOk (v : Nat) : Bool :=
  let d := SummitDesc.of v
  let code := bits d.qh.toNat 0 3
  decide (bits v 55 9 = 0) && decide (d.srow + d.nrow + 1 ≤ 1024) &&
    (if d.dest then decide (d.drow = 0) && decide (code = 6)
     else decide (d.drow + d.nrow + 1 ≤ 1024) && (decide (d.qh = 0) || decide (code = 3)))

/-- Values of whole accumulator rows in ascending order. -/
def State.rowValues (s : State) (core row count : Nat) : List Byte :=
  (List.range (count * 384)).flatMap (fun i => toBytes 4 (sget 0 s.matrix.acc ((core * 1024 + row) * 384 + i)).toNat)

/-- MDRAIN (17 R355): a commit point in checkpoint and paired mode, whose event holds its rows (11 R233). -/
def execMdrain (ra : Reg) (fe : Bool) (g : Guard) (s : State) : Host.Outcome State Fault Refusal :=
  issue (.mdrain ra fe g) (fun e v s =>
    let x := v.getD 0 0
    let d := SummitDesc.of x
    if !descOk x then .trap s (Trap.plain .illopd)
    else
      if e.classFull 3 then .wait s .classFull
      else
        match s.claim e (rowGrains d.srow (d.nrow + 1)) with
        | .error t => .trap s t
        | .ok s1 =>
          let ev := if e.blk.role = .single then [] else [0xC0#8, 0xD3#8] ++ s1.rowValues e.core d.srow (d.nrow + 1)
          (s1.enginePoint e ev).act (fun t =>
            let h : Shape := { src := BitVec.ofNat 64 x, dst := 0, ticket := 0, addm := false, tbuf := 0, trig := 0, dec := false,
                               dfmt := 0, ndim := 0, esize := 0, dkind := 0, skind := 1, box := [], valid := [], sstr := [],
                               dstr := [] }
            let o : EngOp := { oid := t.fresh, bid := e.bid, who := e.who, pc := e.ctx.pc, kind := .mdrain, shape := h,
                               size := 0, cq := 0, tq := 0, phase := .running, done := 0, bytes := 0, readers := [],
                               status := 0, code := none, detail := 0, faddr := 0, srcOff := 0, desc := d.qh, page := 0,
                               fetched := [], sending := false }
            let r : Done := { state := t.startOp e o }
            .done (if e.blk.ckptMode then r.point e else r))) s

/-- The descriptor that an MDRAIN has taken. -/
def EngOp.summit (o : EngOp) : SummitDesc := SummitDesc.of (o.shape.src.toNat + o.desc.toNat * 2 ^ 64)

/-- Rows read out for the summit, by destination row × 384 + column (09 R187). (DEDUCED, log entry 31.) -/
def State.readRows (s : State) (core : Nat) (d : SummitDesc) : WordMap :=
  let lo := (core * 1024 + d.srow) * 384
  let n := (d.nrow + 1) * 384
  (s.matrix.acc.filter (fun e => decide (lo ≤ e.1) && decide (e.1 < lo + n))).map (fun e => (e.1 - lo, e.2))

/-- MDRAIN_READOUT_DONE (09 R186, R190; 17 R355): the rows leave for their instance and the counter falls; a pair's trailing
copy contributes nothing. -/
def execMdrainReadoutDone (op : Nat) (s : State) : Host.Outcome State Fault Refusal :=
  event (match s.op? op with
  | none => s
  | some o =>
    match s.block? o.bid with
    | none => s
    | some b =>
      match b.core with
      | none => s
      | some core =>
        if o.kind ≠ .mdrain ∨ o.phase ≠ .running ∨ !s.opFirst o then s
        else if b.role = .trailing then s.endOp o
        else
          let c : Contribution := { cid := s.fresh, src := stopOf (stackOf core), params := b.params, desc := o.summit,
                                    block := b.index, bid := b.bid, pc := o.pc, cells := s.readRows core o.summit }
          let s1 := s.ridgeSend .summit c.src (stopOf (stackOf c.desc.root)) []
          ((({ s1 with contribs := s1.contribs ++ [c], fresh := s1.fresh + 1 } : State).mark b.bid)).endOp o)

/-- Whether contributions that left the same stop for the same root's stop earlier are still on their way: the Ridge delivers those
of one pair of stops in the order they were sent, so one that waits to open an instance holds those behind it (01 R13; 09 R189). -/
def State.summitAhead (s : State) (c : Contribution) : Bool :=
  (s.contribs.takeWhile (fun x => x.cid != c.cid)).any (fun x =>
    x.src == c.src && stopOf (stackOf x.desc.root) == stopOf (stackOf c.desc.root))

/-- Whether two descriptors agree in what every contribution must share (09 R187). -/
def SummitDesc.agrees (a b : SummitDesc) : Bool := decide ({ a with srow := 0 } = { b with srow := 0 })

/-- Change one instance. -/
def State.modInstance (s : State) (iid : Nat) (f : Instance → Instance) : State :=
  { s with instances := s.instances.map (fun i => if i.iid = iid then f i else i) }

/-- The row grains of a core that an instance writes. -/
def Instance.rows (i : Instance) : List Named := rowGrains i.desc.drow (i.desc.nrow + 1)

/-- Whether a block of the launch that was pre-empted on the root core recorded a grain as owned (09 R190): one that has stopped, or has
returned to a checkpoint, has not. -/
def State.savedOwner (s : State) (i : Instance) (g : Named) : Bool :=
  s.blocks.any (fun b => decide (b.params.lid = i.params.lid) && b.core.isNone && b.lastCore == i.desc.root &&
    match b.saved with
    | some im => decide (im.kind = 0) && im.grains.any (fun x => decide (x.unit = g.unit) && x.index == g.index)
    | none => false)

/-- The first destination row that refuses delivery (09 R188, R190): owned by a block of another launch, or by a block of this
one that is not resident. (DEDUCED, log entry 15.) -/
def State.refusedRow (s : State) (i : Instance) : Option Nat :=
  if i.desc.dest then none
  else
    (i.rows.find? (fun g =>
      match s.grainOwner i.desc.root g.unit g.index with
      | some bid => match s.block? bid with
        | some b => decide (b.params.lid ≠ i.params.lid ∨ b.core ≠ some i.desc.root)
        | none => true
      | none => s.savedOwner i g)).map (·.number)

/-- Records of a failed instance, one for each contributing lead so far (09 R189). -/
def State.memberRecords (s : State) (i : Instance) (f : TrapCode × Nat) : State :=
  i.members.foldl (fun t m => t.memberRecord i.params m f 0) s

/-- Close an instance that has all its members: a failed one ends; a root block that is not resident fails it (09 R187, R189,
R190). -/
def State.closeInstance (s : State) (iid : Nat) : State :=
  match s.instances.find? (fun i => i.iid == iid) with
  | none => s
  | some i =>
    if i.count ≤ i.desc.memb then s
    else if i.failed.isSome then { s with instances := s.instances.filter (fun x => x.iid != iid) }
    else
      match s.refusedRow i with
      | some row => s.failInstance iid (.perm, 7) (BitVec.ofNat 64 row)
      | none => s.modInstance iid (fun x => { x with closed := true })

/-- Add a contribution to an open instance (09 R187, R189). -/
def State.joinInstance (s : State) (i : Instance) (c : Contribution) : State :=
  let m := (c.block, c.bid, c.pc)
  let ok := i.desc.agrees c.desc
  let i1 := { i with count := i.count + 1, members := i.members ++ [m], parts := i.parts ++ [c.cells] }
  let s1 := match i.failed, ok with
    | none, true => s.modInstance i.iid (fun _ => i1)
    | none, false =>
      (s.modInstance i.iid (fun _ => { i1 with failed := some (.barerr, 1) })).memberRecords i1 (.barerr, 1)
    | some f, true => (s.modInstance i.iid (fun _ => i1)).memberRecord i.params m f 0
    | some _, false => (s.modInstance i.iid (fun _ => i1)).memberRecord i.params m (.barerr, 1) 0
  s1.closeInstance i.iid

/-- Whether an instance is open: it has not yet had all its members (09 R187). -/
def Instance.isOpen (i : Instance) : Bool := !i.closed

/-- SUMMIT_CONTRIBUTION_ARRIVE (09 R187, R189): it joins the open instance of its launch and group, or opens one, at most
1,024 at once. -/
def execSummitContributionArrive (contrib : Nat) (s : State) : Host.Outcome State Fault Refusal :=
  event (match s.contribs.find? (fun c => c.cid == contrib) with
  | none => s
  | some c =>
    let s1 : State := { s with contribs := s.contribs.filter (fun x => x.cid != contrib) }
    if s.summitAhead c then s
    else match s.instances.find? (fun i => i.params.lid == c.params.lid && i.desc.group == c.desc.group && i.isOpen) with
    | some i => s1.joinInstance i c
    | none =>
      if (s.instances.filter Instance.isOpen).length ≥ 1024 then s
      else
        let i : Instance := { iid := s.fresh, params := c.params, desc := c.desc, count := 0, parts := [], members := [],
                              failed := none, closed := false, sent := 0 }
        ({ s1 with instances := s1.instances ++ [i], fresh := s1.fresh + 1 } : State).joinInstance i c)

/-- Sum values in an order that the Ridge fixes and programs do not know (09 R187): some two meet, then two of the rest.
(DEDUCED, log entry 18.) -/
def treeSum (add : Word → Word → Word) (fuel seed : Nat) (ws : List Word) : Word :=
  match fuel with
  | 0 => ws.getD 0 0
  | fuel + 1 =>
    match ws with
    | [] => 0
    | [x] => x
    | _ =>
      let i := Config.choice seed % ws.length
      let rest := ws.eraseIdx i
      let j := Config.choice (seed + 1) % rest.length
      treeSum add fuel (seed + 2) (add (ws.getD i 0) (rest.getD j 0) :: rest.eraseIdx j)

/-- One element of an instance's result (09 R187): the FP32 or wrapping sum of the members' values. -/
def Instance.element (i : Instance) (k : Nat) : Word :=
  let add : Word → Word → Word := fun a b =>
    if i.desc.iadd then a + b else BitVec.ofNat 32 (fpAdd f32 a.toNat b.toNat).1
  treeSum add i.parts.length (2 ^ 96 + (i.iid * 2 ^ 19 + k) * 2 ^ 9) (i.parts.map (fun p => sget 0 p k))

/-- Enqueue for the summit (09 R188). -/
def State.summitSend (s : State) (i : Instance) (payload : List Byte) : State :=
  { s with qreqs := s.qreqs ++ [{ rid := s.fresh, from_ := .summit i.iid, enq := true, try_ := false, pa := 0,
                                  va := BitVec.ofNat 64 (handleAddr i.desc.qh.toNat), handle := some (i.desc.qh, i.params.queue),
                                  code := bits i.desc.qh.toNat 0 3, payload := payload, parked := false, busy := false,
                                  src := agentStop (.summit i.iid) i.params.queue, unc := false }],
           fresh := s.fresh + 1 }

/-- The notification record of a delivery into accumulator rows (09 R188). -/
def Instance.note (i : Instance) : List Byte :=
  toBytes 4 i.desc.group ++ toBytes 4 0 ++ toBytes 8 (1536 * (i.desc.nrow + 1)) ++ toBytes 16 0

/-- Deliver one row into the root core's accumulators, as one write (09 R188). -/
def State.deliverRow (s : State) (i : Instance) : State :=
  let base_ := (i.desc.root * 1024 + i.desc.drow + i.sent) * 384
  let acc := (List.range 384).foldl (fun m c => sput 0 m (base_ + c) (i.element (i.sent * 384 + c))) s.matrix.acc
  ({ s with matrix := { s.matrix with acc := acc } } : State).modInstance i.iid (fun x => { x with sent := x.sent + 1 })

/-- The element of a delivery into a queue: 64 columns of a row (09 R188). -/
def Instance.chunk (i : Instance) : List Byte :=
  (List.range 64).flatMap (fun c => toBytes 4 (i.element (i.sent / 6 * 384 + i.sent % 6 * 64 + c)).toNat)

/-- End an instance. -/
def State.endInstance (s : State) (iid : Nat) : State := { s with instances := s.instances.filter (fun x => x.iid != iid) }

/-- SUMMIT_DELIVERY (09 R188, R189): the next row is written, or the next element or the notification is enqueued. -/
def execSummitDelivery (inst : Nat) (s : State) : Host.Outcome State Fault Refusal :=
  event (match s.instances.find? (fun i => i.iid == inst) with
  | none => s
  | some i =>
    if !i.closed || s.inFlight (.summit inst) then s
    else if i.desc.dest then
      if i.sent ≥ 6 * (i.desc.nrow + 1) then s.endInstance inst else s.summitSend i i.chunk
    else if i.sent ≤ i.desc.nrow then
      match s.refusedRow i with
      | some row => s.failInstance inst (.perm, 7) (BitVec.ofNat 64 row)
      | none => s.deliverRow i
    else if i.desc.qh = 0 ∨ i.sent > i.desc.nrow + 1 then s.endInstance inst
    else s.summitSend i i.note)

end Sys2Proof.Machine
end

