-- ==== Sys2Proof/Machine/Block.lean ====
section
/-!
DEFINITION. Events in the life of a block's issuers (02 R31, R33; 03 R57; 05 R97; 06 R123; 07 R161): completion of producers,
the end of fibres, retirement, acknowledgements, walks and evictions.
-/
namespace Sys2Proof.Machine

/-- The words that a producer writes: captured at its issue, or of ADRN the four accumulator elements now (15 R300). -/
def State.producerWords (s : State) (core : Nat) (p : Producer) : List Word :=
  match p.reads with
  | none => p.value
  | some k => if p.cells.isEmpty then [] else (span k 4).map (fun i => sget 0 s.matrix.acc (core * 1024 * 384 + i))

/-- Whether the channel controllers have served a producer's requests and the Ridge has delivered what they bring: a bank in back-off
holds them (01 R12; 05 R112, R114). (DEDUCED, log entry 42.) -/
def State.served (s : State) (p : Producer) : Bool :=
  decide (p.since = p.upto) || (s.channels.all (fun c => c.2.reqs.all (fun r => !p.owns r.did)) && s.ridge.all (fun m => !p.owns m.req))

/-- An uncorrectable error is detected in what a producer reads (05 R117): its core's copies of the sectors are poisoned, beyond an L1
those at the home too, and it faults POISON. -/
def State.readError (s : State) (core : Nat) (p : Producer) (origin : Nat) : State :=
  let s1 := p.src.foldl (fun t x => t.poisonCopy core x.1) s
  let s2 := if origin ≤ 3 then p.src.foldl (fun t x => t.addPoison (x.1 * 32) 32 origin) s1 else s1
  s2.poisonReaders (fun q => q.pid == p.pid) (fun _ => true) origin

/-- PRODUCER_COMPLETE (03 R57, R58): its requests served and its answer come, destinations are written and full and its acquire
takes effect; or an uncorrectable error is detected in what it reads (05 R117). -/
def execProducerComplete (bid : Nat) (who : Who) (pid : ProducerEnd) (s : State) : Host.Outcome State Fault Refusal :=
  event (match s.envOf bid who with
  | none => s
  | some e =>
    match e.blk.core, e.ctx.producers.find? (fun p => p.pid == pid.pid) with
    | some core, some p =>
      if !s.served p || p.late.isSome then s
      else if !p.src.isEmpty && pid.error.isSome then s.readError core p (pid.error.getD 0)
      else
      let ws := s.producerWords core p
      let s1 := s.modCtx bid who (fun c =>
        { c.writeReg p.cells p.bits ws with
            producers := c.producers.filter (fun q => q.pid != pid.pid) })
      match p.acquire with
      | some sc => s1.acquire core sc
      | none => s1
    | _, _ => s)

/-- Whether an ending issuer has nothing outstanding (02 R31). -/
def Ctx.finished (c : Ctx) : Bool :=
  decide (c.life = .ending) && c.cnt0 == 0 && c.cnt1 == 0 && c.cnt2 == 0 && c.cnt3 == 0 && c.producers.isEmpty

/-- End an issuer: a fibre's id becomes free and its CRC stays in the block's signature (11 R233); the lead is ended. -/
def Block.endIssuer (b : Block) (who : Who) : Block :=
  match b.ctx? who, who with
  | some c, .fibre k =>
    b.modBody (fun y => { y with fibres := adel y.fibres k, endedCrc := y.endedCrc ^^^ c.crc })
  | some c, .lead => b.setCtx .lead { c with life := .ended, wait := none }
  | none, _ => b

/-- FIBRE_ENDED (02 R31): the id is free, unless a fault has stopped the block, which keeps its ending issuers; entries of the
uniform queue that only it held back are freed (03 R63). -/
def execFibreEnded (bid : Nat) (who : Who) (s : State) : Host.Outcome State Fault Refusal :=
  event (match s.envOf bid who with
  | none => s
  | some e =>
    if e.blk.core.isNone || e.blk.primary.isSome || !e.ctx.finished then s
    else s.modBlock bid (fun b => (b.endIssuer who).freeUq))

/-- Whether every fibre of a block and its lead have ended (02 R33). -/
def Block.allEnded (b : Block) : Bool := b.body.fibres.isEmpty && decide (b.body.lead.life = .ended)

/-- Remove a block that has retired, both copies of a pair, and tell the dean (02 R33; 09 R176). -/
def State.retireBlock (s : State) (b : Block) : State :=
  (b.copies.foldl (fun t k => t.discardBlock k) s).countBlock b false

/-- BLOCK_RETIRE (02 R33): the store buffer commits, a release at .pkg, resources are freed. It is a commit point, so the
copies of a pair retire together once their signatures have been compared (11 R229, R235). -/
def execBlockRetire (bid : Nat) (s : State) : Host.Outcome State Fault Refusal :=
  event (match s.envOf bid .lead with
  | none => s
  | some e =>
    if !e.blk.allEnded || !e.blk.running || decide (e.blk.role = .trailing) then s
    else
      match s.commitPoint e [] with
      | .wait t _ => t
      | .trap t _ => t
      | .go t => (t.pushCore e.core).retireBlock e.blk)

/-- Whether the homes that a release waits for have acknowledged: those on other devices have once no request that it covers is
outstanding (06 R123; 13 R264); of a TLBI, whether no write by a translation that it removes is on its way (18 R393). -/
def State.ackReady (s : State) (a : Ack) : Bool :=
  match a with
  | .awaiting => true
  | .abroad upto => !s.unacknowledged upto
  | .drained upto => !s.undrained upto
  | _ => false

/-- RELEASE_ACK_COMPLETE (06 R123): the homes have acknowledged. -/
def execReleaseAckComplete (bid : Nat) (who : Who) (s : State) : Host.Outcome State Fault Refusal :=
  event (s.modCtx bid who (fun c =>
    if s.ackReady c.phase.release then { c with wait := none, phase := { c.phase with release := .done } } else c))

/-- PAGE_WALK_COMPLETE (05 R97): a walk fills the TLB; a walk that fails leaves the fault to its access. -/
def execPageWalkComplete (bid : Nat) (va : DWord) (s : State) : Host.Outcome State Fault Refusal :=
  event (match s.block? bid with
  | none => s
  | some b => if b.core.isNone || !canonical va then s else (s.translate b.space va.toNat).1)

/-- L1_EVICTION (05 R102, 07 R161): dirty bytes and gathered contributions go home and the line is dropped. -/
def execL1Eviction (core : Nat) (line : Nat) (s : State) : Host.Outcome State Fault Refusal :=
  event (match s.l1Find core line with
  | none => s
  | some l => (s.pushLine l).l1Drop core line)

end Sys2Proof.Machine
end

