-- ==== Sys2Proof/Machine/Schedule.lean ====
section
/-!
DEFINITION. Who may issue, and the scheduling events (02 R28, R40; 10 R211; 12 R254; 13 R267): re-formation of bundles, the
choice of the issue ports, the age override.
-/
namespace Sys2Proof.Machine

/-- Whether an issuer of the traced launch is held by its core's pending delay (12 R254). -/
def State.trialHolds (s : State) (b : Block) (c : Ctx) : Bool :=
  let t := s.trial
  t.run && t.delayed && decide (t.lid = b.params.lid) && decide (sget 0 t.pending (b.core.getD 0) ≠ 0) &&
    !(decide (t.lo.toNat ≤ c.pc.toNat) && decide (c.pc.toNat ≤ t.hi.toNat))

/-- Whether an issuer has an answer that it has not yet taken, so that its instruction still has to end (07 R154). -/
def Ctx.answered (c : Ctx) : Bool :=
  match c.phase.answer with
  | .got [] => decide (c.wait ≠ some .acks)
  | .got _ => true
  | .granted _ _ => true
  | _ => false

/-- Whether a checkpoint of a block is due. -/
def Block.sealDue (b : Block) : Bool :=
  b.whos.any (fun w => match b.ctx? w with
    | some c => decide (c.phase.sealing = .awaiting)
    | none => false)

/-- Whether an issuer of a copy stands past a comparison that matched, with its instruction still to end by itself: it does not
wait for a queue, a tag, an answer to its record or a result of the other copy (11 R235, R236). -/
def Block.passing (b : Block) : Bool :=
  b.primary.isNone && b.whos.any (fun w => match b.ctx? w with
    | none => false
    | some c => decide (c.phase.compare = .done) && c.parked.isNone &&
        !(if b.role = .trailing then decide (c.wait = some .pair) && !b.forwarded.any (fun x => decide (x.1 = w))
          else decide (c.phase.answer = .awaiting)))

/-- Whether a block stands at a commit point that it, or its other copy, has yet to end: between the drain and the sealing of its
checkpoint no other issuer of it issues (11 R230, R235). -/
def State.frozen (s : State) (b : Block) : Bool :=
  b.sealDue || (decide (b.role ≠ .single) && (b.passing || match s.block? b.partner with
    | some p => p.sealDue || p.passing
    | none => false))

/-- Whether an issuer that does not wait may issue: live, not parked, not halted, none of its steps under way, not held by a
trial or by a commit point of the block. -/
def State.canIssue (s : State) (b : Block) (c : Ctx) : Bool :=
  c.isLive && c.parked.isNone && (!c.halt.halted || c.halt.stepper.isSome) && decide (c.halt.left ≠ some 0) &&
    !(c.halt.left.isSome && decide (s.time ≥ c.halt.limit)) &&
    decide (c.phase.sealing ≠ .awaiting) && !s.trialHolds b c &&
    (!s.frozen b || decide (c.phase.compare = .done) || c.answered)

/-- Whether the instruction at the PC has issued and now goes on by itself: what it waited for has come. -/
def Ctx.midway (c : Ctx) : Bool := c.wait.isNone && (c.counted || c.answered)

/-- Whether an issuer is ready: it may issue, does not wait (02 R40), has no instruction under way and has not yielded this cycle
(18 R405). -/
def State.isReady (s : State) (b : Block) (c : Ctx) : Bool :=
  s.canIssue b c && decide (c.readySince ≤ s.time) && c.wait.isNone && c.arrival.isNone && !c.midway

/-- What an issuer waited for before issuing has come: it is ready from now on, and issues from a bundle (02 R28). -/
def Ctx.woken (c : Ctx) (now : Nat) : Ctx := { c with wait := none, readySince := now }

/-- The PC at which an issuer of a block stands. -/
def Block.pcOf (b : Block) (who : Who) : DWord :=
  match b.ctx? who with
  | some c => c.pc
  | none => 0

/-- Put a ready fibre into the first bundle at its PC in which its lane is free, or into a new one (02 R28). -/
def placeFibre (b : Block) (core : Nat) (fid : Nat) (bs : List Bundle) : List Bundle :=
  match bs with
  | [] => [{ core := core, bid := b.bid, members := [.fibre fid] }]
  | x :: rest =>
    let free := x.members.all (fun w => match w with
      | .fibre k => decide (k % 32 ≠ fid % 32) && decide (b.pcOf (.fibre k) = b.pcOf (.fibre fid))
      | .lead => false)
    if free then { x with members := x.members ++ [.fibre fid] } :: rest else x :: placeFibre b core fid rest

/-- The bundles of a block's ready fibres, and its lead by itself. -/
def State.blockBundles (s : State) (b : Block) (core : Nat) : List Bundle :=
  let fs := (b.body.fibres.filter (fun e => s.isReady b e.2)).foldl (fun acc e => placeFibre b core e.1 acc) []
  if s.isReady b b.body.lead then { core := core, bid := b.bid, members := [.lead] } :: fs else fs

/-- The blocks that run on a core. -/
def State.runningOn (s : State) (core : Nat) : List Block := s.blocks.filter (fun b => decide (b.core = some core) && b.running)

/-- Whether an issuer that has been ready since a time has been so for 32,768 allowed cycles (10 R211). -/
def State.agedSince (s : State) (core since : Nat) : Bool :=
  decide (s.allowedSince core since ≥ 32768)

/-- The members of a bundle that can issue together: ready, at the PC of the first of them, since members may have parted since the
bundle was formed (02 R28). (DEDUCED, log entry 30.) -/
def State.together (s : State) (x : Bundle) : List (Who × Ctx) :=
  match s.block? x.bid with
  | none => []
  | some b =>
    if !b.running || decide (b.core ≠ some x.core) then []
    else
      let ready := x.members.filterMap (fun w => (b.ctx? w).bind (fun c => if s.isReady b c then some (w, c) else none))
      match ready with
      | [] => []
      | m :: _ => ready.filter (fun n => n.2.pc == m.2.pc)

/-- When the oldest of a bundle's members that can issue became ready, if one can. -/
def State.bundleReady (s : State) (x : Bundle) : Option Nat :=
  match s.together x with
  | [] => none
  | m :: rest => some (rest.foldl (fun t n => min t n.2.readySince) m.2.readySince)

/-- The key of a bundle (10 R211): the cycle at which its oldest fibre became ready plus 64 for each stage, then the lead context,
then the fibre; a bundle with a fibre that has been ready for 32,768 allowed cycles comes before every other, the oldest first.
(DEDUCED, log entry 30.) -/
def State.bundleKey (s : State) (x : Bundle) (since : Nat) : Nat × Nat × Nat :=
  let stage := ((s.block? x.bid).map (·.stage)).getD 0
  let ctx := ((s.block? x.bid).map (·.context)).getD 0
  let fid := ((x.members.map Who.fid).head?).getD 0
  if s.agedSince x.core since then (0, since, fid) else (1 + since / cycleTime + 64 * stage, ctx, fid)

/-- Lexicographic order of keys. -/
def keyLess (a b : Nat × Nat × Nat) : Bool :=
  decide (a.1 < b.1) || (decide (a.1 = b.1) && (decide (a.2.1 < b.2.1) || (decide (a.2.1 = b.2.1) && decide (a.2.2 < b.2.2))))

/-- Insert a bundle by its key. -/
def insertKeyed (p : (Nat × Nat × Nat) × Bundle) (l : List ((Nat × Nat × Nat) × Bundle)) : List ((Nat × Nat × Nat) × Bundle) :=
  match l with
  | [] => [p]
  | q :: rest => if keyLess p.1 q.1 then p :: q :: rest else q :: insertKeyed p rest

/-- Bundles of which a member can issue, lowest key first. -/
def State.byKey (s : State) (xs : List Bundle) : List Bundle :=
  let ready := xs.filterMap (fun x => (s.bundleReady x).map (fun t => (s.bundleKey x t, x)))
  (ready.foldl (fun acc p => insertKeyed p acc) []).map (·.2)

/-- Whether an issuer stands ready at its instruction, so that it keeps its place in its bundle (02 R28, R40). -/
def Ctx.standing (c : Ctx) : Bool := c.isLive && c.wait.isNone && c.parked.isNone && c.arrival.isNone && !c.halt.halted

/-- Issuers that wait lose their places: what becomes ready between two re-formations joins a bundle from the next one (02 R28). -/
def State.leaveBundles (s : State) : State :=
  { s with bundles := s.bundles.map (fun x => { x with members := x.members.filter (fun w => match s.ctx? x.bid w with
      | some c => c.standing
      | none => false) }) }

/-- Form the bundles of a core from its ready fibres (02 R28, 10 R211), at most 1,024 (01 R15): those of lowest key. -/
def State.reform (s : State) (core : Nat) : State :=
  let made := (s.runningOn core).flatMap (fun b => s.blockBundles b core)
  { s with bundles := s.bundles.filter (fun x => x.core != core) ++ (s.byKey made).take 1024 }

/-- BUNDLE_REFORMATION (02 R28): at each core cycle whose count is a multiple of 4. -/
def execBundleReformation (core : Nat) (s : State) : Host.Outcome State Fault Refusal :=
  event (if s.cycle % 4 = 0 then s.reform core else s)

/-- The bundles that the four issue ports of a core take in a cycle, lowest key first (10 R211). -/
def State.portPicks (s : State) (core : Nat) : List Bundle :=
  if !s.mayIssue core then [] else (s.byKey (s.bundles.filter (fun x => x.core == core))).take 4

/-- Insert an issuer's turn in ascending order of fibre ids. -/
def insertTurn (p : Nat × Who) (l : List (Nat × Who)) : List (Nat × Who) :=
  match l with
  | [] => [p]
  | q :: rest => if p.2.fid < q.2.fid then p :: q :: rest else q :: insertTurn p rest

/-- The turns of the issuers that a core's ports take in a cycle. They follow one another in ascending order of fibre ids, in which
the FORKs of a cycle take ids (02 R30). -/
def State.portTurns (s : State) (core : Nat) : List Turn :=
  let ws := (s.portPicks core).flatMap (fun x => (s.together x).map (fun m => (x.bid, m.1)))
  (ws.foldl (fun acc p => insertTurn p acc) []).map (fun p => Turn.issue p.1 p.2)

/-- The issuers of a core that have been ready for 32,768 allowed cycles, with the time since when. -/
def State.aged (s : State) (core : Nat) : List (Nat × Nat × Who) :=
  (s.runningOn core).flatMap (fun b => b.whos.filterMap (fun w => match b.ctx? w with
    | none => none
    | some c => if s.isReady b c && s.agedSince core c.readySince then some (c.readySince, b.bid, w) else none))

/-- READY_AGE_OVERRIDE (10 R211): the ports choose, the fibre that has waited longest first among them; their turns come next. -/
def execReadyAgeOverride (core : Nat) (s : State) : Host.Outcome State Fault Refusal :=
  event (if (s.aged core).isEmpty then s
    else { s with agenda := s.portTurns core ++ s.agenda.filter (fun t => !(s.portTurns core).contains t) })

end Sys2Proof.Machine
end

