-- ==== Sys2Proof/Machine/Place.lean ====
section
/-!
DEFINITION. Where blocks go (02 R25; 09 R176; 10 R207 to R210; 11 R220, R223, R231): resources of a core, the seating plan, the
order of stacks, the choice of a core, and extents of the save pool.
-/
namespace Sys2Proof.Machine

/-- Registers that a block reserves (02 R25). -/
def LaunchParams.regs (p : LaunchParams) : Nat := p.fibreCount * p.allocation
/-- Fibre places that a block reserves. -/
def LaunchParams.places (p : LaunchParams) : Nat := (p.fibreCount + 31) / 32 * 32

/-- Blocks resident on a core. -/
def State.residents (s : State) (core : Nat) : List Block := s.blocks.filter (fun b => decide (b.core = some core))

/-- The lead context that a block gets on a core (02 R25): the lowest free one. (DESIGN CHOICE, log entry 60.) -/
def State.freeContext (s : State) (core : Nat) : Nat :=
  ((List.range 64).find? (fun k => (s.residents core).all (fun b => b.context != k))).getD 0

/-- Registers in use on a core. -/
def State.regsUsed (s : State) (core : Nat) : Nat := (s.residents core).foldl (fun n b => n + b.params.regs) 0

/-- What has to be seated: the launch's demands, cores it may not use, the grains it owned (09 R176, 11 R231), and the bytes of its
store buffer (01 R15). -/
structure Seatee where
  params : LaunchParams
  avoid : List Nat
  grains : List (MUnit × Nat)
  uncommitted : Nat
deriving DecidableEq, Repr

/-- What a block that is not resident needs. -/
def Block.seatee (b : Block) : Seatee :=
  { params := b.params, avoid := b.avoid,
    grains := match b.saved with
      | some im => im.grains.map (fun g => (g.unit, g.index))
      | none => [],
    uncommitted := match b.saved with
      | some im => bufferSize im.body.buffer
      | none => 0 }

/-- Whether a core can seat a block under 01 R15, 02 R25, 09 R176, 10 R212 and 11 R231, given blocks that are to be removed first: its
store buffers hold what the block comes with. -/
def State.ableOn (s : State) (x : Seatee) (without : List Nat) (core : Nat) : Bool :=
  let rs := (s.residents core).filter (fun b => !without.contains b.bid)
  let regs := rs.foldl (fun n b => n + b.params.regs) 0
  let places := rs.foldl (fun n b => n + b.params.places) 0
  !(s.governor (stackOf core)).emergency && decide (regs + x.params.regs ≤ 1048576) &&
    decide (places + x.params.places ≤ 32768) && decide (rs.length < 64) && !x.avoid.contains core &&
    decide (rs.foldl (fun n b => n + bufferSize b.body.buffer) x.uncommitted ≤ 2 ^ 21) &&
    x.grains.all (fun g => match s.grainOwner core g.1 g.2 with
      | none => true
      | some b => without.contains b)

/-- Blocks resident on a stack. -/
def State.stackLoad (s : State) (stack : Nat) : Nat :=
  (s.blocks.filter (fun b => decide (b.core.map stackOf = some stack))).length

/-- The able core of a stack that a block goes to (10 R208): fewest blocks, then most free registers, then lowest index. -/
def State.coreIn (s : State) (x : Seatee) (without : List Nat) (stack : Nat) : Option Nat :=
  ((span (stack * 4) 4).filter (s.ableOn x without)).foldl (fun (acc : Option Nat) c => match acc with
    | none => some c
    | some d =>
      if keyLess ((s.residents c).length, s.regsUsed c, c) ((s.residents d).length, s.regsUsed d, d) then some c else acc) none

/-- The first stack of an order with an able core, leaving one stack out (10 R208, R209): the core. -/
def State.pickCore (s : State) (x : Seatee) (without : List Nat) (skip : Option Nat) (order : List Nat) : Option Nat :=
  match order with
  | [] => none
  | k :: rest =>
    if skip = some k then s.pickCore x without skip rest
    else
      match s.coreIn x without k with
      | some c => some c
      | none => s.pickCore x without skip rest

/-- A byte of a seating plan at its home, or none where it is unreadable (10 R210). -/
def State.planByte (s : State) (pa : Nat) : Option Nat :=
  match s.paCell pa with
  | none => none
  | some c => if (s.poisonIn c 1).isSome then none else some (s.homeByte c).toNat

/-- The bytes of the seating plan that name the granules of one footprint (10 R207): the address of the first and how many. -/
def planSpan (q : LaunchQueue) (b : Nat × Nat × Nat) (f : Nat × Int × Int × Int × Int) : Nat × Nat :=
  let at_ : Int := f.2.1 + b.1 * f.2.2.1 + b.2.1 * f.2.2.2.1 + b.2.2 * f.2.2.2.2
  let org : Int := signed 64 q.sporg.toNat
  let first := (at_ * 2 ^ 16 - org) / 2 ^ 21
  let last := ((at_ + f.1) * 2 ^ 16 - 1 - org) / 2 ^ 21
  let lo := first.toNat
  let hi := if last < 0 then 0 else min (last.toNat + 1) q.spn
  (q.spbase.toNat + lo, if f.1 = 0 then 0 else hi - lo)

/-- Count the granules of one footprint by stack (10 R207): the new counts and the plan addresses that were unreadable. -/
def State.countFootprint (s : State) (q : LaunchQueue) (b : Nat × Nat × Nat) (f : Nat × Int × Int × Int × Int)
    (acc : List Nat × List Nat) : List Nat × List Nat :=
  let p := planSpan q b f
  (span p.1 p.2).foldl (fun a pa => match s.planByte pa with
    | none => (a.1, a.2 ++ [pa])
    | some k => if k < 32 then (a.1.set k (a.1.getD k 0 + 1), a.2) else a) acc

/-- Counts of a block's granules by stack, with the unreadable plan addresses (10 R207, R210). -/
def State.planCounts (s : State) (l : Launch) (b : Nat × Nat × Nat) : List Nat × List Nat :=
  l.footprints.foldl (fun acc f => s.countFootprint (s.lq l.params.queue) b f acc) (List.replicate 32 0, [])

/-- Insert a stack by greatest count, then fewest blocks, then lowest id (10 R208). -/
def insertStack (key : Nat → Nat × Nat × Nat) (k : Nat) (l : List Nat) : List Nat :=
  match l with
  | [] => [k]
  | j :: rest => if keyLess (key k) (key j) then k :: j :: rest else j :: insertStack key k rest

/-- The order in which stacks are tried (10 R208): by the plan, or round-robin from the unit's pointer where it counts
nothing. -/
def State.stackOrder (s : State) (unit : Nat) (counts : List Nat) : List Nat :=
  if counts.all (· == 0) then
    let p := sget 0 s.dean.rrStack unit
    (List.range 32).map (fun i => (p + i) % 32)
  else
    let top := counts.foldl max 0
    (List.range 32).foldl (fun acc k => insertStack (fun j => (top - counts.getD j 0, s.stackLoad j, j)) k acc) []

/-- A place for a block, or for both copies of a pair on different stacks (10 R208, R209): the cores, and whether their stacks are
taken round-robin. -/
def State.place (s : State) (l : Launch) (coords : Nat × Nat × Nat) (lead : Seatee) (trail : Option Seatee)
    (without : List Nat) : Option (List Nat × Bool) :=
  let counts := (s.planCounts l coords).1
  let order := s.stackOrder (l.params.queue / 32) counts
  match s.pickCore lead without none order with
  | none => none
  | some c =>
    let rr := counts.all (· == 0)
    match trail with
    | none => some ([c], rr)
    | some t =>
      match s.pickCore t without (some (stackOf c)) order with
      | none => none
      | some d => some ([c, d], rr)

/-- The reads of the plan by which a block is seated, at the channel controllers (05 R112; 10 R207). -/
def State.notePlan (s : State) (l : Launch) (coords : Nat × Nat × Nat) : State :=
  l.footprints.foldl (fun t f =>
    let p := planSpan (s.lq l.params.queue) coords f
    (chunks p.1 p.2).foldl (fun u x => match u.paCell x.1 with
      | none => u
      | some c => u.noteRead (agentCore l.params.queue) c x.2 .normal) t) s

/-- The plan has been read (10 R207), and its bytes that could not be read are logged (10 R210). -/
def State.logPlan (s : State) (l : Launch) (coords : Nat × Nat × Nat) : State :=
  (s.planCounts l coords).2.foldl (fun t pa => t.logErr (.planUnreadable pa)) (s.notePlan l coords)

/-- Note where a top unit has its work seated: its round-robin pointer moves past each stack taken so (10 R208), and each stack's
dean has served it last (10 R194). -/
def State.noteSeat (s : State) (unit : Nat) (cores : List Nat) (rr : Bool) : State :=
  cores.foldl (fun u c =>
    let t := u.ridgeSend .dean (if unit = 0 then 0 else 17) (stopOf (stackOf c)) []
    { t with dean := { t.dean with lastUnit := aput t.dean.lastUnit (stackOf c) unit,
                                   rrStack := if rr then sput 0 t.dean.rrStack unit ((stackOf c + 1) % 32) else t.dean.rrStack } }) s

/-- Take a queue's estimate for a seating (10 R206). (DEDUCED, log entry 29.) -/
def State.takeEstimate (s : State) (n : Nat) : State × Nat :=
  let q := s.lq n
  let e := q.lastCost.getD (max 1 q.quant)
  (s.setLq n { q with deficit := q.deficit - e }, e)

/-- Bill a queue for a block of it that has been seated: its pass grows by its stride in 64 bits (10 R205), or its estimate is taken
and goes with the block (10 R206). -/
def State.bill (s : State) (n bid : Nat) : State :=
  if s.dean.drr then
    let e := s.takeEstimate n
    e.1.modBlock bid (fun b => { b with est := some (b.est.getD 0 + e.2) })
  else
    let q := s.lq n
    let pass := (q.pass + 2 ^ 24 / (max 1 q.tickets)) % 2 ^ 64
    let s1 := s.setLq n { q with pass := pass }
    { s1 with dean := { s1.dean with lastPass := sput 0 s1.dean.lastPass (n / 32) pass } }

/-- A launch has a block seated: the block's period of waiting is over (10 R212). -/
def Launch.seatedBlock (l : Launch) (index : Nat) : Launch :=
  { l with status := .running, unseatedSince := adel l.unseatedSince index }

/-- Bytes reserved for each section of an image, kinds 1 to 10 (11 R223). -/
def LaunchParams.reserve (p : LaunchParams) : List Nat :=
  let f := p.fibreCount
  let a := p.allocation
  [f * (64 + 16 * ((a + 127) / 128) + 4 * a), 2048, 512, 256, 256 * f, 65536, 131072, 4096, 64 + 8 * (f + 1),
    if p.lead = 0 then 0 else 14942208]

/-- Bytes of an image extent (11 R220). -/
def LaunchParams.extent (p : LaunchParams) : Nat := roundUp (p.reserve.foldl (· + ·) 0) 65536

/-- The extents of the save pool that are in use, by their start. -/
def State.poolUsed (s : State) : List (Nat × Nat) :=
  s.dean.pool.foldl (fun acc e => aput acc e.2.1 e.2.2) []

/-- First fit of n bytes among used extents, from an address on, below an end. (DESIGN CHOICE, log entry 24.) -/
def firstFit (n at_ end_ : Nat) (used : List (Nat × Nat)) : Option Nat :=
  match used with
  | [] => if at_ + n ≤ end_ then some at_ else none
  | (p, len) :: rest =>
    if at_ + n ≤ p then (if at_ + n ≤ end_ then some at_ else none) else firstFit n (max at_ (p + len)) end_ rest

/-- Take free pool space of n bytes for a block, aligned to 64 KiB (11 R220): the state and the start. -/
def State.takeExtent (s : State) (bid n : Nat) : Option (State × Nat) :=
  let base_ := s.dean.svbase.toNat
  match firstFit n base_ (base_ + s.dean.svsize * 65536) s.poolUsed with
  | none => none
  | some at_ => some ({ s with dean := { s.dean with pool := s.dean.pool ++ [(bid, at_, n)] } }, at_)

/-- An address that no extent of the pool has: it is not a multiple of 64 KiB. -/
def noExtent : Nat := 1

/-- Reserve the extents of one block (11 R220): one for its image and one for checkpoints. -/
def State.reserveFor (s : State) (bid : Nat) (p : LaunchParams) : Option (State × Nat × Nat) :=
  match s.takeExtent bid p.extent with
  | none => none
  | some (s1, a) =>
    if p.ckpt || p.paired then (s1.takeExtent bid p.extent).map (fun r => (r.1, a, r.2)) else some (s1, a, noExtent)

end Sys2Proof.Machine
end

