-- ==== Sys2Proof/Machine/Image.lean ====
section
/-!
DEFINITION. Save images as bytes in the save pool (11 R222, R223, R225, R226, R228): sections, header and index, writing an
image, and reading back what a supervisor may have edited. Parts whose layout the spec does not give are undefined bytes.
-/
namespace Sys2Proof.Machine

/-- Bytes of the full/empty bits of n registers, bit i for register i, full as 1 (11 R225). -/
def fullBytes (empties : List Nat) (n : Nat) : List Byte :=
  let v := (List.range n).foldr (fun i acc => bit01 (!empties.contains i) + 2 * acc) 0
  toBytes (16 * ((n + 127) / 128)) v

/-- STATE of a fibre record (11 R225). -/
def Ctx.stateCode (c : Ctx) : Nat :=
  if c.life = .ending then 2 else if c.parked.isSome then 4 else if c.halt.halted then 3 else 1

/-- The state part of a fibre record (11 R225). -/
def Ctx.stateBytes (c : Ctx) : List Byte :=
  let w := c.preds.toNat + c.wb.toNat * 2 ^ 16 + bit01 c.rep.active * 2 ^ 30 + c.rep.count % 64 * 2 ^ 31 +
    c.rep.index % 64 * 2 ^ 37 + c.fps.toNat * 2 ^ 43 + c.stateCode * 2 ^ 48
  toBytes 8 c.pc.toNat ++ toBytes 8 w ++ toBytes 8 c.uqPos ++ toBytes 2 c.cnt0 ++ toBytes 2 c.cnt1 ++ toBytes 2 c.cnt2 ++
    toBytes 2 c.cnt3 ++ toBytes 8 0 ++ toBytes 8 c.halt.skid ++ toBytes 16 0

/-- The values of n register cells as bytes. -/
def Ctx.regBytes (c : Ctx) (n : Nat) : List Byte := bytesOf ((List.range n).map (sget 0 c.regs))

/-- A fibre record (11 R225). -/
def Ctx.fibreRecord (c : Ctx) (a : Nat) : List Byte := c.stateBytes ++ fullBytes c.empties a ++ c.regBytes a

/-- Length of a fibre record. -/
def recordLen (a : Nat) : Nat := 64 + 16 * ((a + 127) / 128) + 4 * a

/-- The lead's section, its items in the order of 11 R223 kind 2 (PRESUMED, log entry 14). -/
def Ctx.leadRecord (c : Ctx) : List Byte :=
  toBytes 8 c.pc.toNat ++ toBytes 8 c.preds.toNat ++ toBytes 8 c.fps.toNat ++ toBytes 2 c.cnt0 ++ toBytes 2 c.cnt1 ++
    toBytes 2 c.cnt2 ++ toBytes 2 c.cnt3 ++ fullBytes c.empties 126 ++ c.regBytes 252

/-- A store-buffer entry as saved: its head and its data padded to 16 bytes (11 R223 kind 7; the order of the head's items is
that of the table, PRESUMED, log entry 14). -/
def SbEntry.saved (e : SbEntry) : List Byte :=
  let kind := match e.kind with
    | .st => 0
    | .stl => 1
    | .stt => 2
    | .red op => 3 + 16 * (match op with
      | .add => 0 | .min => 1 | .max => 2 | .minu => 3 | .maxu => 4 | .and => 5 | .or => 6 | .xor => 7 | .xchg => 8 | .fadd => 9)
  let fid := if e.who.isLead then 0xFFFF else e.who.fid
  let data := e.bytes.map (·.2)
  toBytes 8 e.va.toNat ++ toBytes 2 e.szcode ++ toBytes 4 kind ++ toBytes 2 fid ++ data ++
    List.replicate (roundUp data.length 16 - data.length) 0

/-- A section of an image: its kind and its bytes. -/
structure Section where
  kind : Nat
  bytes : List Byte
deriving DecidableEq, Repr

/-- The content of a saved grain as bytes (11 R223 kind 10). -/
def GrainSave.content (g : GrainSave) : List Byte :=
  match g.unit with
  | .acc => bytesOf ((List.range (grainSize .acc)).map (sget 0 g.cells))
  | _ => (List.range (grainSize g.unit)).map (sget 0 g.bytes)

/-- Whether an operation is a producer's kind of entry (CPY) rather than a remainder (11 R223 kinds 5 and 6). -/
def EngOp.isCopy (o : EngOp) : Bool := decide (o.kind = .cpy)

/-- An issuer's number in a section of an image (11 R223). -/
def whoNum (w : Who) : Nat := if w.isLead then 0xFFFF else w.fid

/-- A tensor shape record as software wrote it (08 R164). -/
def Shape.encode (h : Shape) : List Byte :=
  let w := h.ticket * 2 ^ 32 + bit01 h.addm * 2 ^ 26 + h.tbuf * 2 ^ 23 + h.trig * 2 ^ 21 + bit01 h.dec * 2 ^ 20 + h.dfmt * 2 ^ 16 +
    h.ndim * 2 ^ 14 + h.esize * 2 ^ 11 + h.dkind * 2 ^ 4 + h.skind
  let dim (d : Nat) : List Byte := if usedDim h.ndim d then toBytes 2 (h.box.getD d 0) ++ toBytes 2 (h.valid.getD d 0) else toBytes 4 0
  let str (x : List Int) (j : Nat) : List Byte :=
    if usedDim h.ndim (j + 1) then toBytes 4 (BitVec.ofInt 32 (x.getD j 0)).toNat else toBytes 4 0
  toBytes 8 h.src.toNat ++ toBytes 8 h.dst.toNat ++ toBytes 8 w ++ (List.range 4).flatMap dim ++
    (List.range 3).flatMap (str h.sstr) ++ (List.range 3).flatMap (str h.dstr)

/-- The state of an operation's trigger in a remainder: 0 it waits, 1 its DEQ or event has come (08 R173). -/
def EngPhase.triggered (p : EngPhase) : Nat :=
  match p with
  | .waitTrigger => 0
  | .triggerParked => 0
  | _ => 1

/-- A remainder, its items in the order of 11 R223 kind 6 (PRESUMED, log entry 14): the progress as the number of its unit, and of a
compressed stream the current block's header and its first unwritten sector (08 R173). -/
def EngOp.remainderBytes (o : EngOp) : List Byte :=
  o.shape.encode ++ toBytes 8 o.pc.toNat ++ toBytes 8 (whoNum o.who) ++ toBytes 8 (o.shape.unitNumber o.done 0 o.done) ++
    toBytes 8 o.bytes ++ toBytes 8 o.phase.triggered ++ toBytes 8 o.cq.toNat ++
    toBytes 8 (if o.shape.dec then (o.shape.src.toNat + o.srcOff) % 2 ^ 64 else 0) ++
    toBytes 8 (if o.shape.dec then o.done * o.shape.size / 32 - o.size else 0)

/-- An outstanding operation, its items in the order of 11 R223 kind 5 (PRESUMED, log entry 14). -/
def parkedEntry (who : Who) (pc : DWord) (cls : List Byte) (dest : Nat) (addr : DWord) : List Byte :=
  toBytes 8 (whoNum who) ++ toBytes 8 pc.toNat ++ cls ++ toBytes 4 dest ++ toBytes 8 addr.toNat

/-- The entries of kind 5: the issuers parked on a record, then the copies that have not completed. The class of a producer that is
no copy is not given: its bytes are free. -/
def BlockBody.parkedBytes (y : BlockBody) (ops : List EngOp) (epoch : Nat) : List Byte :=
  let one (w : Who) (c : Ctx) : List Byte := match c.parked with
    | none => []
    | some x => parkedEntry w c.pc ((List.range 4).map (Config.freeByte epoch)) (c.heldBits.headD 0) x.2
  y.fibres.flatMap (fun e => one (.fibre e.1) e.2) ++ one .lead y.lead ++
    (ops.filter EngOp.isCopy).flatMap (fun o => parkedEntry o.who o.pc (toBytes 4 0) 0 o.faddr)

/-- A watch record as it lies in memory (12 R241). -/
def Watch.encode (w : Watch) : List Byte :=
  let a := w.lidf * 2 ^ 48 + w.blkf * 2 ^ 24 + w.fidf * 2 ^ 14 + bit01 w.liden * 4 + bit01 w.blken * 2 + bit01 w.fiden
  let b := w.count * 2 ^ 32 + w.fpx.toNat * 2 ^ 21 + w.msk * 2 ^ 15 + w.cmp * 2 ^ 12 + w.action * 2 ^ 10 + bit01 w.trace * 2 ^ 9 + w.kind
  toBytes 8 w.lo.toNat ++ toBytes 8 w.hi.toNat ++ toBytes 8 a ++ toBytes 8 b

/-- Proctor state: two bytes for each id, bit 15 the halt and the skid count below, then the slots that filter on the block; nothing
where there is none (11 R223 kind 8; PRESUMED, log entry 14). -/
def BlockBody.proctorBytes (y : BlockBody) (fibres : Nat) (slots : List Watch) : List Byte :=
  if slots.isEmpty && y.fibres.all (fun e => !e.2.halt.halted && e.2.halt.skid == 0) then []
  else
    (List.range fibres).flatMap (fun k => match aget y.fibres k with
      | some c => toBytes 2 (c.halt.skid + bit01 c.halt.halted * 2 ^ 15)
      | none => toBytes 2 0) ++ slots.flatMap Watch.encode

/-- Signature state of a copy: the CRCs by id and the lead's, the commit ordinal, the count of store events, the role (11 R223 kind
9; PRESUMED, log entry 14). -/
def BlockBody.signatureBytes (y : BlockBody) (fibres : Nat) (role : Role) : List Byte :=
  let crc (k : Nat) : Nat := match aget y.fibres k with
    | some c => c.crc.toNat
    | none => 0
  (List.range fibres).flatMap (fun k => toBytes 8 (crc k)) ++ toBytes 8 y.lead.crc.toNat ++ toBytes 8 y.ordinal ++
    toBytes 8 y.storeEvents ++ toBytes 8 (match role with
      | .single => 0
      | .leading => 1
      | .trailing => 2) ++ toBytes 8 y.endedCrc.toNat ++
    toBytes 8 (crc64 0 (y.drains.flatMap (·.2))).toNat

/-- The bytes of the sections that only the hardware writes, by kind (11 R223; the order of items is that of the table, PRESUMED, log
entry 14). -/
def State.otherSections (s : State) (b : Block) (y : BlockBody) (ops : List EngOp) : List (Nat × List Byte) :=
  let slots := (s.proctors.slots.map (·.2)).filter (fun w => w.blken && w.blkf == b.index && (!w.liden || w.lidf == b.params.lid))
  [(3, if y.uq.isEmpty && y.uqBase == 0 then [] else bytesOf y.uq ++ toBytes 8 y.uq.length ++ toBytes 8 y.uqBase),
   (4, y.barriers.flatMap (fun x => toBytes 4 x.expected ++ toBytes 4 x.arrived ++ toBytes 8 x.phase)),
   (5, y.parkedBytes ops s.fresh),
   (6, (ops.filter (fun o => !o.isCopy)).flatMap EngOp.remainderBytes),
   (8, y.proctorBytes b.params.fibreCount slots),
   (9, if b.role = .single then [] else y.signatureBytes b.params.fibreCount b.role)]

/-- The ten sections of an image (11 R223). -/
def Image.sections (im : Image) (p : LaunchParams) : List Section :=
  let fibres := (List.range p.fibreCount).flatMap (fun k => match aget im.body.fibres k with
    | some c => c.fibreRecord p.allocation
    | none => List.replicate (recordLen p.allocation) 0)
  let other (k : Nat) : Section := ⟨k, (aget im.others k).getD []⟩
  [⟨1, fibres⟩, ⟨2, im.body.lead.leadRecord⟩, other 3, other 4, other 5, other 6, ⟨7, im.body.buffer.flatMap SbEntry.saved⟩,
   other 8, other 9, ⟨10, im.grains.flatMap GrainSave.content⟩]

/-- One part of an image to be written: its kind, offset from the image start and bytes. -/
structure Part where
  kind : Nat
  off : Nat
  bytes : List Byte
deriving DecidableEq, Repr

/-- Bytes of a section that lie in the extent: kinds 5 and 6 at most their reservation (11 R223). -/
def Section.inside (x : Section) (reserve : List Nat) : Nat :=
  if x.kind = 5 ∨ x.kind = 6 then min x.bytes.length (reserve.getD (x.kind - 1) 0) else x.bytes.length

/-- Lay the sections out one after another from an offset, each 16-byte aligned. A store buffer of many small stores can take more than
the 128 KiB reserved for its section, and of kinds 5 and 6 alone the spec says where an excess goes: the sections after it lie so much
further up. (DESIGN CHOICE, log entry 66.) -/
def layParts (reserve : List Nat) (off : Nat) (xs : List Section) : List Part :=
  match xs with
  | [] => []
  | x :: rest =>
    let n := x.inside reserve
    ⟨x.kind, off, x.bytes.take n⟩ :: layParts reserve (off + roundUp n 16) rest

/-- The excess of kinds 5 and 6 over their reservation (11 R223). -/
def excessOf (reserve : List Nat) (xs : List Section) : List (Nat × List Byte) :=
  xs.filterMap (fun x => if x.bytes.length > x.inside reserve then some (x.kind, x.bytes.drop (x.inside reserve)) else none)

/-- Take pool space for the excess above the image start: the state and the parts, or none where there is no room (11 R224). -/
def State.takeExcess (s : State) (bid base_ : Nat) (xs : List (Nat × List Byte)) : Option (State × List Part) :=
  match xs with
  | [] => some (s, [])
  | (k, bs) :: rest =>
    let need := roundUp bs.length 65536
    let end_ := min (s.dean.svbase.toNat + s.dean.svsize * 65536) (base_ + 2 ^ 32)
    match firstFit need base_ end_ s.poolUsed with
    | none => none
    | some at_ =>
      let s1 : State := { s with dean := { s.dean with pool := s.dean.pool ++ [(bid, at_, need)] } }
      (s1.takeExcess bid base_ rest).map (fun r => (r.1, ⟨k, at_ - base_, bs⟩ :: r.2))

/-- Write bytes at a physical address of the pool, or none where they meet poison or an error response (11 R228). -/
def State.poolWrite (s : State) (core pa : Nat) (bs : List Byte) : Option State :=
  match s.cellsOf pa bs.length with
  | none => none
  | some cells => if (s.poisonAny cells).isSome then none else some (s.homeStore core cells bs .deadline)

/-- Write one part of an image. -/
def State.writePart (s : State) (core base_ : Nat) (p : Part) : Option State :=
  if p.bytes.isEmpty then some s else s.poolWrite core (base_ + p.off) p.bytes

/-- Write parts in order up to the first that fails: the state and how many are complete. -/
def State.writeParts (s : State) (core base_ : Nat) (ps : List Part) : State × Nat :=
  match ps with
  | [] => (s, 0)
  | p :: rest =>
    match s.writePart core base_ p with
    | none => (s, 0)
    | some t =>
      let r := t.writeParts core base_ rest
      (r.1, r.2 + 1)

/-- Index entries of the parts, 32 in all, the first n of them complete (11 R223). -/
def indexBytes (ps : List Part) (n : Nat) : List Byte :=
  (ps.zipIdx.flatMap (fun p =>
    toBytes 4 p.1.off ++ toBytes 4 p.1.bytes.length ++ toBytes 8 (p.1.kind + bit01 (decide (p.2 < n)) * 2 ^ 8))) ++
    List.replicate (16 * (32 - ps.length)) 0

/-- LENGTH of an image of whose parts the first n are complete: up to the end of the last that lies in the extent, and what lies in
excess (11 R222). (DEDUCED, log entry 64.) -/
def writtenLength (ps : List Part) (n : Nat) : Nat :=
  (((ps.take n).drop 10).map (fun p => p.bytes.length)).sum +
    ((ps.take n).take 10).foldl (fun m p => max m (p.off + p.bytes.length)) 1024

/-- The header of an image (11 R222) and its index. -/
def Image.header (im : Image) (blk : Nat) (ps : List Part) (done : Nat) : List Byte :=
  let len := writtenLength ps done
  let flags := 1 + bit01 im.truncated * 2 ^ 16 + bit01 im.overflow * 2 ^ 17 + bit01 im.truncated * 2 ^ 18
  let primary := match im.primary with
    | some r => r.encode
    | none => toBytes 32 0
  let seconds := (List.range 4).flatMap (fun i => match im.seconds[i]? with
    | some r => r.encode
    | none => toBytes 32 0)
  toBytes 4 0x5A1ED0C5 ++ toBytes 4 flags ++ toBytes 8 (blockHandle im.lid blk) ++
    toBytes 8 (ps.length + (min im.seconds.length 4) * 2 ^ 8 + im.kind * 2 ^ 16 + len * 2 ^ 32) ++ toBytes 8 im.cause ++
    primary ++ seconds ++ indexBytes ps done

/-- What writing an image came to: sealed whole, sealed truncated, or without a header (11 R228). -/
inductive Sealed where
  | whole | truncated | unwritten
deriving DecidableEq, Repr

/-- WRITE AND SEAL an image (11 R221 steps 6 and 7, R228); short truncates it after its first sections for want of room. -/
def State.writeImage (s : State) (core : Nat) (b : Block) (im : Image) (extra : List Part) (short : Bool) :
    State × Image × Sealed :=
  let reserve := b.params.reserve
  let ps := layParts reserve 1024 (im.sections b.params) ++ extra
  let todo := if short then ps.takeWhile (fun p => p.kind < 5) else ps
  let r := s.writeParts core im.base todo
  let whole := decide (r.2 = ps.length)
  let im1 := { im with truncated := !whole, excess := extra.map (fun p => im.base + p.off) }
  match r.1.poolWrite core im.base (im1.header b.index ps r.2) with
  | none => (r.1, im1, .unwritten)
  | some t => (t, im1, if whole then .whole else .truncated)

/-- Read bytes of the pool at their home. -/
def State.poolRead (s : State) (pa n : Nat) : List Byte :=
  match s.cellsOf pa n with
  | none => []
  | some cells => cells.flatMap (fun p => s.homeBytes p.1 p.2)

/-- A fibre's context with what a supervisor may edit taken from its record: PC, PRED, FPS and registers (11 R226). -/
def Ctx.edited (c : Ctx) (a : Nat) (bs : List Byte) : Ctx :=
  let w := fieldAt bs 8 8
  let regs := (List.range a).foldl (fun m i =>
    sput 0 m i (BitVec.ofNat 32 (fieldAt bs (recordLen a - 4 * a + 4 * i) 4))) (c.regs.filter (fun e => decide (e.1 ≥ a)))
  { c with pc := BitVec.ofNat 64 (fieldAt bs 0 8), preds := BitVec.ofNat 16 w, fps := BitVec.ofNat 5 (bits w 43 5), regs := regs }

/-- The lead's context with what a supervisor may edit taken from its section (11 R226, PRESUMED, log entry 14). -/
def Ctx.leadEdited (c : Ctx) (bs : List Byte) : Ctx :=
  let regs := (List.range 252).foldl (fun m i => sput 0 m i (BitVec.ofNat 32 (fieldAt bs (48 + 4 * i) 4)))
    (c.regs.filter (fun e => decide (e.1 ≥ 252)))
  { c with pc := BitVec.ofNat 64 (fieldAt bs 0 8), preds := BitVec.ofNat 16 (fieldAt bs 8 8),
           fps := BitVec.ofNat 5 (fieldAt bs 16 8), regs := regs }

/-- Store-buffer entries with their data taken from the image (11 R226). -/
def editBuffer (buf : List SbEntry) (bs : List Byte) : List SbEntry :=
  match buf with
  | [] => []
  | e :: rest =>
    let n := e.bytes.length
    { e with bytes := e.bytes.zipIdx.map (fun p => (p.1.1, (bs.getD (16 + p.2) 0))) } :: editBuffer rest (bs.drop (16 + roundUp n 16))

/-- All parts of an image as it was sealed whole: those in its extent, then its excess. -/
def Image.parts (im : Image) (p : LaunchParams) : List Part :=
  let xs := im.sections p
  layParts p.reserve 1024 xs ++ (im.excess.zip (excessOf p.reserve xs)).map (fun e => ⟨e.2.1, e.1 - im.base, e.2.2⟩)

/-- The reads of an image that is restored on a core, at the channel controllers (05 R112; 11 R221). -/
def State.noteImage (s : State) (core : Nat) (p : LaunchParams) (im : Image) : State :=
  (im.parts p).foldl (fun t q => match t.cellsOf (im.base + q.off) q.bytes.length with
    | none => t
    | some cells => cells.foldl (fun u c => u.noteRead core c.1 c.2 .normal) t) s

/-- The body of an image with the edits that 11 R226 allows, or none where anything else was changed: the image is read back
and must be what the edited body writes. -/
def State.editedBody (s : State) (p : LaunchParams) (blk : Nat) (im : Image) : Option BlockBody :=
  let ps := im.parts p
  let bytesAt (k : Nat) : List Byte := match ps[k - 1]? with
    | some q => s.poolRead (im.base + q.off) q.bytes.length
    | none => []
  let y := im.body
  let recs := bytesAt 1
  let len := recordLen p.allocation
  let y1 : BlockBody :=
    if im.kind = 1 then
      { y with fibres := y.fibres.map (fun e => (e.1, e.2.edited p.allocation ((recs.drop (e.1 * len)).take len))),
               lead := y.lead.leadEdited (bytesAt 2) }
    else y
  let y2 : BlockBody := { y1 with buffer := editBuffer y1.buffer (bytesAt 7) }
  let im2 := { im with body := y2 }
  let hdr := im.header blk ps ps.length
  let same := (im2.parts p).all (fun q => decide (s.poolRead (im.base + q.off) q.bytes.length = q.bytes)) &&
    decide (s.poolRead im.base hdr.length = hdr)
  if same then some y2 else none

/-- The poison origin of the first poisoned sector of an image (11 R231). -/
def State.imagePoison (s : State) (p : LaunchParams) (im : Image) : Option Nat :=
  (im.parts p).foldl (fun acc q =>
    acc.or ((s.cellsOf (im.base + q.off) q.bytes.length).bind s.poisonAny)) none

end Sys2Proof.Machine
end

