-- ==== Sys2Proof/Machine/Row.lean ====
section
/-!
DEFINITION. Row collectives (02 R38, R39; 03 R65, R66; 06 R130; 12 R250; 17 R350; 18 R388, R396, R397, R402, R404): a fibre
arrives; when every live fibre of the row has arrived at one PC, the collective completes for all of them at once.
-/
namespace Sys2Proof.Machine

/-- The live fibres of the row of a fibre id, in rising order (02 R26, R38). -/
def Block.rowMates (b : Block) (fid : Nat) : List (Nat × Ctx) := b.liveFibres.filter (fun m => m.1 / 32 == fid / 32)

/-- What a fibre brings to a collective: the operation, its source value and its predicate. -/
structure Bring where
  op : CollOp
  value : Word
  pred : Bool
deriving DecidableEq, Repr

/-- Record the arrival of a fibre (02 R38). The destinations of one that will write are empty while it waits (03 R57). -/
def State.arrive (s : State) (e : Env) (f : Form) (long active : Bool) (x : Bring) : State :=
  let w := e.ctx.wb.toNat
  let held := if long && active then f.dsts.flatMap (fun d => d.fullBits e.lead w) else []
  (s.chargeOnce e.bid e.ctx).modMe e (fun c =>
    let c1 := c.markEmpty held
    { c1 with wait := some .collective, heldBits := held, counted := true,
              slots := some (c.slots.getD s.proctors.slots),
              arrival := some { pc := c.pc, op := x.op, active := active, value := x.value, pred := x.pred,
                                cells := f.dsts.flatMap (fun d => d.cells e.lead w),
                                bits := f.dsts.flatMap (fun d => d.fullBits e.lead w), before := none } })

/-- Withdraw an arrival without effect (02 R39). -/
def Ctx.withdraw (c : Ctx) : Ctx :=
  { c with arrival := none, wait := none, phase := Phase.idle, heldBits := [], slots := none,
           empties := c.empties.filter (fun b => !c.heldBits.contains b) }

/-- A context without the store event that its arrival has made (11 R233, R234). -/
def Ctx.uneventful (c : Ctx) : Ctx :=
  match c.arrival.bind (fun a => a.before) with
  | some x => { c with crc := x }
  | none => c

/-- A body without the store events that arrivals of some fibres have made. -/
def BlockBody.uneventful (y : BlockBody) (mine : Nat → Bool) : BlockBody :=
  let made := y.fibres.filter (fun e => mine e.1 && (e.2.arrival.bind (fun a => a.before)).isSome)
  { y with storeEvents := y.storeEvents - made.length,
           fibres := y.fibres.map (fun e => (e.1, if mine e.1 then e.2.uneventful else e.2)) }

/-- Withdraw every arrival of a row, with the store events that they have made. -/
def State.withdrawRow (s : State) (bid fid : Nat) : State :=
  s.modBlock bid (fun b => (b.modBody (fun y => y.uneventful (fun k => k / 32 == fid / 32))).mapCtx (fun w c =>
    if w.isLead || decide (w.fid / 32 ≠ fid / 32) || c.arrival.isNone then c else { c.withdraw with counted := false }))

/-- Retire one fibre of a completed collective with what it receives. -/
def State.retireMate (s : State) (bid fid : Nat) (ms : List (Nat × Watch × Nat)) (d : State → Done) : State :=
  match (s.modCtx bid (.fibre fid) Ctx.withdraw).envOf bid (.fibre fid) with
  | none => s
  | some e => retire e (base .always false) ms (d (s.modCtx bid (.fibre fid) Ctx.withdraw))

/-- A trap of a collective names one fibre; every arrival is withdrawn (02 R39). -/
def State.trapMate (s : State) (e : Env) (fid : Nat) (t : Trap) : State :=
  let pc := match s.ctx? e.bid (.fibre fid) with
    | some c => c.pc
    | none => e.ctx.pc
  ((s.withdrawRow e.bid fid).takeTrap e.bid (.fibre fid) pc t).endStep e 4

/-- Make the lowest contributing fibre wait for the collective, whose arrivals stand. -/
def State.rowWait (s : State) (e : Env) (fid : Nat) (w : Wait) : State :=
  let s1 := s.modCtx e.bid (.fibre fid) (fun c => { c with wait := some w })
  if w.untouched then s1.endStep e 1 else s1

/-- What a reader receives from a source position of its row: the value if the source is valid (03 R66). -/
def pickLane (as : List (Nat × Arrival)) (row : Nat) (pos : Int) : Option Word :=
  if pos < 0 ∨ pos > 31 then none else (aget as (32 * row + pos.toNat)).map (·.value)

/-- The ballot of a row (18 R397). -/
def ballot (as : List (Nat × Arrival)) : Nat := as.foldl (fun n a => n + bit01 a.2.pred * 2 ^ (a.1 % 32)) 0

/-- The result of XLANE, XSHF or VOTE for one reader: the word if it gets one, and its p1. -/
def laneResult (as : List (Nat × Arrival)) (fid : Nat) (op : CollOp) : Option Word × Bool :=
  let one (r : Option Word) : Option Word × Bool := (r, r.isSome)
  match op with
  | .xlane j => one (pickLane as (fid / 32) j)
  | .xshf k => one (pickLane as (fid / 32) ((fid % 32 : Nat) + k))
  | .vote mode =>
    let v : Word := match mode with
      | 0 => if ballot as ≠ 0 then 1 else 0
      | 1 => if as.all (fun a => a.2.pred) then 1 else 0
      | _ => BitVec.ofNat 32 (ballot as)
    (some v, decide (as.length = 32))
  | _ => (none, false)

/-- Complete XLANE, XSHF or VOTE for every arrived fibre (03 R66). -/
def State.completeLanes (s : State) (bid : Nat) (as todo : List (Nat × Arrival)) : State :=
  match todo with
  | [] => s
  | (fid, a) :: rest =>
    let s1 := s.retireMate bid fid [] (fun t =>
      if !a.active then { state := t }
      else
        let r := laneResult as fid a.op
        let p := (t.ctx? bid (.fibre fid)).map (fun c => setPred c.preds 1 r.2)
        match r.1 with
        | none => { state := t, preds := p }
        | some w => { state := t, preds := p, long := true, cells := a.cells, fills := a.bits,
                      words := if a.cells.isEmpty then [] else [w] })
    s1.completeLanes bid as rest

/-- Retire the other fibres of a collective that give and receive nothing. -/
def State.retireRest (s : State) (bid : Nat) (todo : List (Nat × Arrival)) (d : Nat → State → Done) : State :=
  todo.foldl (fun t a => t.retireMate bid a.1 [] (d a.1)) s

/-- The address that a contributing fibre names. -/
def CollOp.addr (op : CollOp) : Nat :=
  match op with
  | .ldl _ _ a => a.toNat
  | .stl _ _ a _ => a.toNat
  | _ => 0

/-- The size code of an LDL or STL. -/
def CollOp.sz (op : CollOp) : BitVec 3 :=
  match op with
  | .ldl z _ _ => z
  | .stl z _ _ _ => z
  | _ => 0

/-- The contributing fibre that breaks alignment or leaves the line, if any (17 R350, 18 R388). -/
def badLine (ts : List (Nat × Arrival)) : Option Nat :=
  match ts with
  | [] => none
  | (_, a0) :: _ =>
    match ts.find? (fun t => decide (t.2.op.addr % sizeBytes t.2.op.sz ≠ 0)) with
    | some t => some t.1
    | none => (ts.find? (fun t => decide (t.2.op.addr / 128 ≠ a0.op.addr / 128))).map (·.1)

/-- The cell of a virtual address within pieces. -/
def State.cellAt (s : State) (ps : List Piece) (va : Nat) : Option Nat :=
  match ps.find? (fun p => decide (p.va ≤ va ∧ va < p.va + p.len)) with
  | none => none
  | some p => ((s.pieceCells p).head?).map (fun c => c.1 + (va - p.va))

/-- A fault of the line of a collective: XLATE parks it on one record with its arrivals held, others withdraw it (17 R350). -/
def State.lineFault (s : State) (e : Env) (t0 : Nat) (t : Trap) : State :=
  if t.code = .xlate then
    let s1 := s.takeTrap e.bid (.fibre t0) e.ctx.pc t
    if e.ctx.halt.stepper.isSome then
      (s1.modMe e (fun c => { c with halt := { c.halt with halted := false, again := true } })).endStep e 5
    else s1
  else s.trapMate e t0 t

/-- Read a line for LDL (06 R130): past the caches on a UNC page, else at its home. -/
def State.readLine (s : State) (core : Nat) (ps : List Piece) : State × List Byte :=
  match ps with
  | [] => (s, [])
  | p :: rest =>
    let r := if p.unc then
        let cells := s.pieceCells p
        let s1 := cells.foldl (fun t q => t.noteRead core q.1 q.2 .normal) (s.recallAll cells)
        ({ s1 with fresh := s1.fresh + 1 }, cells.flatMap (fun q => (span q.1 q.2).map s1.uncByte))
      else s.readAtHome core p
    let q := r.1.readLine core rest
    (q.1, r.2 ++ q.2)

/-- The acquire that an LDL performs when it completes. -/
def CollOp.acquire (op : CollOp) : Option Nat :=
  match op with
  | .ldl _ acq _ => acq
  | _ => none

/-- A contributing fibre of an LDL whose load a proctor match may watch waits for its bytes, under the watch slots in force (12 R240,
R242). -/
def State.holdMate (s : State) (e : Env) (fid : Nat) (p : Piece) (line : Nat) (a : Arrival) (known : List (Nat × Byte)) : State :=
  (s.modCtx e.bid (.fibre fid) (fun c =>
    { c with arrival := none, wait := some .watch, phase := { Phase.idle with answer := .loading known },
             slots := some (c.slots.getD s.proctors.slots) })).remoteSend (p.pa + (a.op.addr - line)) (.read (sizeBytes a.op.sz)) (.held 0)
    (some (e.bid, .fibre fid, a.pc)) (BitVec.ofNat 64 a.op.addr)

/-- An LDL whose line lies on another device (06 R130; 17 R344 step 7, R350): one read of the line serves every contributing fibre
under a number of its own; the block's own uncommitted bytes alone need none. A fibre whose load a slot of kind 5 may watch is held
until its bytes have come (12 R242). -/
def State.ldlAway (s : State) (e e0 : Env) (p : Piece) (line : Nat) (as : List (Nat × Arrival)) : State :=
  let buf := s.bufferFor e0 [p]
  let known (a : Arrival) : List (Nat × Byte) :=
    (List.range (sizeBytes a.op.sz)).filterMap (fun i => (bufferByte buf (a.op.addr + i)).map (fun b => (i, b)))
  let late (a : Arrival) : Bool := a.active && decide ((known a).length < sizeBytes a.op.sz)
  let held (k : Nat) : Bool := match s.envOf e.bid (.fibre k) with
    | some ek => s.holdsLoad ek
    | none => false
  let readers := (as.filter (fun m => late m.2 && !held m.1)).map (fun m =>
    (Who.fibre m.1, s.fresh + m.1, m.2.op.addr - line, sizeBytes m.2.op.sz, 0))
  let s1 : State := { s with fresh := s.fresh + 1024 }
  let s2 := if readers.isEmpty then s1
    else s1.remoteSend p.pa (.read 128) (.loads readers) (some (e.bid, e0.who, e0.ctx.pc)) (BitVec.ofNat 64 line)
  as.foldl (fun t m =>
    let a := m.2
    if late a && held m.1 then t.holdMate e m.1 p line a (known a) else
    t.retireMate e.bid m.1 [] (fun x =>
      if !a.active then { state := x }
      else if late a then
        { state := x, long := true, cells := a.cells, fills := a.bits, acquire := a.op.acquire, pid := some (s.fresh + m.1),
          late := some (.load a.op.sz (known a)) }
      else
        { state := x, long := true, cells := a.cells, fills := a.bits, acquire := a.op.acquire,
          words := wordsOfNat a.cells.length (loadValue a.op.sz ((known a).map (·.2))) })) s2

/-- Complete LDL for every arrived fibre (17 R350). -/
def State.completeLdl (s : State) (e : Env) (as : List (Nat × Arrival)) : State :=
  let ts := as.filter (fun a => a.2.active)
  match ts with
  | [] => s.retireRest e.bid as (fun _ t => { state := t })
  | (t0, a0) :: _ =>
    match badLine ts, s.envOf e.bid (.fibre t0) with
    | some k, _ => s.trapMate e k (Trap.plain .illopd)
    | none, none => s
    | none, some e0 =>
      let line := a0.op.addr / 128 * 128
      let r := s.pieces e.blk.space line 128 needR
      match r.2 with
      | .error t => r.1.lineFault e t0 t
      | .ok ps =>
        match r.1.beforeReads e0 (ts.map (fun t => t.2.op.addr)) (sizeBytes a0.op.sz) with
        | .wait u w => u.rowWait e t0 w
        | .trap u t => u.trapMate e t0 t
        | .go u =>
          if u.anyAway ps then u.ldlAway e e0 (ps.headD { va := line, pa := 0, len := 0, entry := 0 }) line as
          else
          let buf := u.bufferFor e0 ps
          let vas (a : Arrival) : List Nat := span a.op.addr (sizeBytes a.op.sz)
          let u1 := ps.foldl (fun x p => x.evictFor e.core p.pa) u
          let bad := ts.filterMap (fun t =>
            ((vas t.2).filterMap (fun va =>
              if (bufferByte buf va).isSome then none else (u1.cellAt ps va).bind (fun c => u1.poisonIn c 1))).head?.map
              (fun o => (t.1, o, t.2.op.addr)))
          match bad with
          | (k, o, a) :: _ => u1.trapMate e k (Trap.at .poison o a)
          | [] =>
            let q := u1.readLine e.core ps
            let value (a : Arrival) : Nat :=
              loadValue a.op.sz ((vas a).map (fun va => (bufferByte buf va).getD (q.2.getD (va - line) 0)))
            let seen (k : Nat) (a : Arrival) : List (Nat × Watch × Nat) :=
              match q.1.envOf e.bid (.fibre k) with
              | none => []
              | some ek => q.1.matches ek { Seen.at ek.ctx.pc with loaded := some (seenValue a.op.sz (value a)) } [5]
            let halts := ts.filterMap (fun t => match q.1.envOf e.bid (.fibre t.1) with
              | none => none
              | some ek => (q.1.acting ek (seen t.1 t.2)).map (fun h => (t.1, t.2, h)))
            match halts with
            | (k, a, h) :: _ =>
              let v := q.1.modCtx e.bid (.fibre k) Ctx.withdraw
              match v.envOf e.bid (.fibre k) with
              | none => v
              | some ek => (v.countMatches ek (seen k a)).haltBy ek h.1 h.2.1 h.2.2
            | [] =>
              as.foldl (fun t m =>
                let a := m.2
                if a.active then
                  t.retireMate e.bid m.1 (seen m.1 a) (fun x =>
                    { state := x, long := true, cells := a.cells, fills := a.bits,
                      words := wordsOfNat a.cells.length (value a),
                      acquire := a.op.acquire, since := some s.fresh,
                      src := q.1.readSpan e.blk.space a.op.addr (sizeBytes a.op.sz) })
                else t.retireMate e.bid m.1 [] (fun x => { state := x })) q.1

/-- The store event of one contributing fibre of an STL, made once and noted in its arrival (11 R233). -/
def State.rowEvent (s : State) (e0 : Env) (fid : Nat) (bs : List Byte) : State :=
  let old := ((s.ctx? e0.bid (.fibre fid)).map (fun c => c.crc)).getD 0
  (s.storeEvent e0 (.fibre fid) bs).modCtx e0.bid (.fibre fid) (fun c =>
    { c with arrival := c.arrival.map (fun a => { a with before := some old }) })

/-- The store events of the contributing fibres of an STL, in rising order, each of which waits at the slack limit (11 R233, R234). -/
def State.rowEventsOf (s : State) (e0 : Env) (ts : List (Nat × Arrival)) : Gate :=
  match ts with
  | [] => .go s
  | (k, a) :: rest =>
    match a.op, a.before with
    | .stl z _ addr data, none =>
      if s.atSlack (e0.again s).blk then .wait s .slack
      else (s.rowEvent e0 k (storeBytes addr.toNat z.toNat data)).rowEventsOf e0 rest
    | _, _ => s.rowEventsOf e0 rest

/-- The store events of an STL, one for each contributing fibre (11 R233), made once at its arrival at the slack or commit
point. Outside a pair there is none. -/
def State.rowEvents (s : State) (e0 : Env) (ts : List (Nat × Arrival)) : Gate :=
  if e0.ctx.phase.compare ≠ .none || decide (e0.blk.role = .single) then .go s
  else if e0.blk.heldBy e0.who then .wait s .pair
  else s.rowEventsOf e0 ts

/-- Complete STL for every arrived fibre (18 R388). -/
def State.completeStl (s : State) (e : Env) (as : List (Nat × Arrival)) : State :=
  let ts := as.filter (fun a => a.2.active)
  match ts with
  | [] => s.retireRest e.bid as (fun _ t => { state := t })
  | (t0, a0) :: _ =>
    match badLine ts, s.envOf e.bid (.fibre t0) with
    | some k, _ => s.trapMate e k (Trap.plain .illopd)
    | none, none => s
    | none, some f0 =>
      let e0 : Env := { f0 with ctx := { f0.ctx with halt := { f0.ctx.halt with stepper := e.ctx.halt.stepper } } }
      let line := a0.op.addr / 128 * 128
      let sc := match a0.op with
        | .stl _ rel _ _ => rel
        | _ => 0
      let r := s.pieces e.blk.space line 128 needW
      match r.2 with
      | .error t => r.1.lineFault e t0 t
      | .ok _ =>
        let bytes := ts.foldl (fun m t => match t.2.op with
          | .stl _ _ addr data => (placeBytes addr.toNat data).foldl (fun m b => aput m b.1 b.2) m
          | _ => m) []
        let x : SbEntry := { kind := .stl, va := BitVec.ofNat 64 line, szcode := a0.op.sz.toNat, who := .fibre t0,
                             pc := e0.ctx.pc, bytes := bytes }
        let finish (u : State) : State := u.retireRest e.bid as (fun k t =>
          if k = t0 ∧ sc ≥ 2 then { state := t : Done }.point e0 else { state := t })
        let g : Gate :=
          if sc ≥ 2 then
            if e0.ctx.phase.entered then r.1.commitAgain e0
            else
              ((r.1.rowEvents e0 ts).andThen (fun t => t.releasePoint e0 [] sc)).andThen (fun t =>
                (t.enterBuffer e0 x).secondCommit e0)
          else ((r.1.roomFor e0 bytes.length).andThen (fun t => t.rowEvents e0 ts)).andThen (fun t => .go (t.enterBuffer e0 x))
        match g with
        | .go u => finish u
        | .wait u w => u.rowWait e t0 w
        | .trap u t => u.trapMate e t0 t

/-- Every live fibre of the row traps BARERR (02 R38). -/
def State.rowClash (s : State) (e : Env) (mates : List (Nat × Ctx)) : State :=
  mates.foldl (fun t m => t.takeTrap e.bid (.fibre m.1) m.2.pc (Trap.plain .barerr)) s

/-- Go on with the collective of an arrived fibre: it waits, clashes, or completes (02 R38). -/
def State.rowTry (s : State) (e : Env) : State :=
  let mates := e.blk.rowMates e.who.fid
  if mates.any (fun m => m.2.arrival.isNone || m.2.parked.isSome) then s
  else if mates.any (fun m => m.2.pc != e.ctx.pc) then s.rowClash e mates
  else
    let as := mates.filterMap (fun m => m.2.arrival.map (fun a => (m.1, a)))
    match e.ctx.arrival with
    | none => s
    | some a =>
      match a.op with
      | .ldl .. => s.completeLdl e as
      | .stl .. => s.completeStl e as
      | _ => s.completeLanes e.bid as as

/-- One fibre's arrival at its collective: its new state if it arrives, else what became of it (02 R38, R39). -/
def State.arriveOne (s : State) (i : Instr) (bring : Env → List Nat → Bring) (e : Env) : State × Bool :=
  let f := e.form i
  match checkIssue s i f e with
  | .trap t => (s.issueTrap i e f t, false)
  | .halt ms slot action v => ((s.countMatches e ms).haltBy e slot action v, false)
  | .wait w => (s.stay i e f w, false)
  | .skip =>
    if f.mem then (s.arrive e f (isLong i) false (bring e []), true)
    else
      match firstMissing e f.srcs 0 with
      | some (.reg b) =>
        if f.fe then (s.issueTrap i e f { code := .emptyt, detail := b, addr := 0 }, false)
        else (s.stay i e f .sourceEmpty, false)
      | some .uq => (s.stay i e f .uqEmpty, false)
      | none => (s.arrive e f (isLong i) false (bring e (readSrcs e f.srcs 0)), true)
  | .go vals ms => ((s.countMatches e ms).arrive e f (isLong i) true (bring e vals), true)

/-- Whether a step of a fibre may proceed at a collective: every other live fibre of the row has arrived at it or is halted
at it (12 R250). -/
def Env.stepReady (e : Env) : Bool :=
  (e.blk.rowMates e.who.fid).all (fun m => m.1 == e.who.fid ||
    (m.2.pc == e.ctx.pc && (m.2.arrival.isSome || m.2.halt.halted)))

/-- The halted fibres of the row take part in a stepped collective (12 R250). -/
def State.pullMates (s : State) (i : Instr) (bring : Env → List Nat → Bring) (e : Env) (ids : List Nat) : Option State :=
  match ids with
  | [] => some s
  | k :: rest =>
    match s.envOf e.bid (.fibre k) with
    | none => none
    | some ek =>
      if ek.ctx.arrival.isSome then s.pullMates i bring e rest
      else
        let q := s.arriveOne i bring { ek with ctx := { ek.ctx with halt := { ek.ctx.halt with exempt := true } } }
        if q.2 then q.1.pullMates i bring e rest else none

/-- Whether a collective that a step has brought about waits for acknowledgements or a migration's hold: the step then does nothing (12
R250). -/
def State.rowStalls (s : State) (e : Env) : Bool :=
  (e.blk.rowMates e.who.fid).any (fun m => ((s.ctx? e.bid (.fibre m.1)).bind (fun c => c.wait)).any Wait.stalls)

/-- Perform a row collective for an issuer. -/
def State.performRow (s : State) (i : Instr) (bring : Env → List Nat → Bring) (e : Env) : State :=
  if e.ctx.halt.stepper.isSome && !e.stepReady then s.endStep e 1
  else
    let q := if e.ctx.arrival.isSome then (s, true) else s.arriveOne i bring e
    if !q.2 then q.1
    else
      let r := if e.ctx.halt.stepper.isSome then
          q.1.pullMates i bring e ((e.blk.rowMates e.who.fid).map (·.1))
        else some q.1
      match r with
      | some t =>
        let u := t.rowTry (e.again t)
        if e.ctx.halt.stepper.isSome && u.rowStalls e then s.endStep e 1 else u
      | none => s.endStep e 1

/-- ISSUE a row collective. Without an issuer nothing happens. -/
def collective (i : Instr) (bring : Env → List Nat → Bring) (s : State) : Host.Outcome State Fault Refusal :=
  match s.env? with
  | none => .next s
  | some e0 =>
    let s1 := if e0.ctx.arrival.isSome then s else s.unhold e0
    .next (s1.performRow i bring (e0.again s1))

/-- XLANE (18 R402). -/
def execXlane (rd ra rb : Reg) (fe : Bool) (g : Guard) (s : State) : Host.Outcome State Fault Refusal :=
  collective (.xlane rd ra rb fe g) (fun _ v => { op := .xlane (low v 1 % 32), value := word v 0, pred := false }) s

/-- XSHF (18 R404). -/
def execXshf (rd ra : Reg) (imm : BitVec 8) (g : Guard) (s : State) : Host.Outcome State Fault Refusal :=
  collective (.xshf rd ra imm g) (fun _ v => { op := .xshf imm.toInt, value := word v 0, pred := false }) s

/-- VOTE (18 R396, R397). -/
def execVote (rd : Reg) (pn : BitVec 4) (rb : Reg) (g : Guard) (s : State) : Host.Outcome State Fault Refusal :=
  collective (.vote rd pn rb g) (fun e _ => { op := .vote rb.toNat, value := 0, pred := e.ctx.pred pn.toNat }) s

/-- The bytes that a held load of an issuer has gathered so far. -/
def State.loading (s : State) : Option (List (Nat × Byte)) :=
  match s.env? with
  | none => none
  | some e => match e.ctx.phase.answer with
    | .loading known => some known
    | _ => none

/-- LDL (17 R350). A fibre held by a proctor match after its row has completed goes on by itself. -/
def execLdl (rd ra : Reg) (sz : BitVec 3) (ord : BitVec 2) (sc : BitVec 4) (g : Bool) (s : State) :
    Host.Outcome State Fault Refusal :=
  match s.loading with
  | some known =>
    issue (.ldl rd ra sz ord sc g) (fun _ _ t => heldLoad sz (acquireScope (decide (ord = 1)) sc.toNat) known t) s
  | none =>
  collective (.ldl rd ra sz ord sc g) (fun _ v =>
    { op := .ldl sz (acquireScope (decide (ord = 1)) sc.toNat) (BitVec.ofNat 64 (v.getD 0 0)), value := 0, pred := false }) s

/-- STL (18 R388). -/
def execStl (rd ra : Reg) (sz : BitVec 3) (ord : BitVec 2) (sc : BitVec 4) (g : Bool) (s : State) :
    Host.Outcome State Fault Refusal :=
  collective (.stl rd ra sz ord sc g) (fun _ v =>
    { op := .stl sz (if ord = 1 then sc.toNat else 0) (BitVec.ofNat 64 (v.getD 0 0)) (toBytes (sizeBytes sz) (v.getD 1 0)),
      value := 0, pred := false }) s

end Sys2Proof.Machine
end

