-- ==== Sys2Proof/Machine/Save.lean ====
section
/-!
DEFINITION. Saving, resuming and answering stopped blocks (05 R100; 06 R141; 07 R154; 11 R217 to R228, R230): BLOCK_SAVE,
PREEMPT_RETRY, BLOCK_RESUME, the resume records and CHECKPOINT_SEAL.
-/
namespace Sys2Proof.Machine

/-- Whether a queue operation in progress at its home belongs to a block: its issuers' or its engines'. -/
def State.fromBlock (s : State) (bid : Nat) (f : QFrom) : Bool :=
  match f with
  | .actor b _ => b == bid
  | .producer b _ _ => b == bid
  | .engine k => s.ops.any (fun o => o.oid == k && o.bid == bid)
  | .trigger k => s.ops.any (fun o => o.oid == k && o.bid == bid)
  | _ => false

/-- Whether a context's releasing store has left for another device, which has not acknowledged it (18 R386). -/
def Ctx.storeSent (c : Ctx) : Bool := c.phase.entered && match c.phase.release with
  | .abroad _ => true
  | _ => false

/-- Whether an engine operation stands between its effect and its end: units of it are on their way to other devices, or it is a CPY
that has been performed (08 R163, R167). -/
def State.opHalfway (s : State) (o : EngOp) : Bool :=
  s.writesAbroad o.oid || o.sending || (decide (o.kind = .cpy) && o.done != 0)

/-- Whether nothing of a block stands half-way: no allocated queue operation, no answer to be taken, no engine operation between its
effect and its end, no matrix command, and no answer to come from another device but, where the block stays on its core, of what may
wait there (11 R221 steps 3 and 4; R230). -/
def State.settledBut (s : State) (b : Block) (stays : Bool) : Bool :=
  !(s.queues.any (fun q => (q.enqs ++ q.deqs).any (s.fromBlock b.bid))) && !s.awaitsAbroad b.bid stays &&
    !(s.qreqs.any (fun q => match q.from_ with
      | .producer k _ _ => k == b.bid
      | _ => false)) &&
    !(s.ops.any (fun o => o.bid == b.bid && s.opHalfway o)) &&
    !(b.whos.any (fun w => match b.ctx? w with
      | some c => c.answered || c.lateLeft || c.storeSent
      | none => false)) &&
    (s.matrix.arrays.all (fun a => a.queue.all (fun c => c.bid != b.bid) && (match a.running with
      | some (c, _) => c.bid != b.bid
      | none => true)))

/-- Whether nothing of a block that leaves its core stands half-way (11 R221). -/
def State.settled (s : State) (b : Block) : Bool := s.settledBut b false

/-- Complete every producer of a context: those that have issued have been performed (03 R61). -/
def State.finishProducers (s : State) (core : Nat) (c : Ctx) : Ctx :=
  c.producers.foldl (fun c p =>
    c.writeReg p.cells p.bits (s.producerWords core p)) { c with producers := [] }

/-- A context as an image holds it (03 R61, 02 R39, 07 R154, R157, R159): waits and arrivals are withdrawn and what a held
producer had emptied is full; a parked access stays parked with its destinations empty, but an LDL is withdrawn with its arrival
(17 R350); a comparison awaited or made and a checkpoint due stand. -/
def Ctx.withdrawn (c : Ctx) : Ctx :=
  let p : Phase := { release := .none, compare := c.phase.compare, answer := .none, sealing := c.phase.sealing }
  let h := if c.halt.left.isSome && c.isLive then { c.halt with halted := true, left := none } else c.halt
  let c1 := { c.uneventful with arrival := none, wait := if c.phase.sealing = .awaiting then c.wait else none,
                                 phase := p, halt := h, counted := false,
                                 slots := none }
  if c.parked.isSome && c.arrival.isNone then c1
  else { c1 with parked := none, empties := c1.empties.filter (fun b => !c1.heldBits.contains b), heldBits := [] }

/-- The issuers whose store has entered the buffer and waits at its second commit: the store is withdrawn with its entry, the
last of that issuer and PC (18 R386). -/
def dropEntered (buf : List SbEntry) (who : Who) (pc : DWord) : List SbEntry :=
  let mine := buf.reverse.findIdx? (fun e => decide (e.who = who) && e.pc == pc)
  match mine with
  | none => buf
  | some i => buf.eraseIdx (buf.length - 1 - i)

/-- Whether a context's store stands in the buffer at its second commit. -/
def Ctx.storeEntered (c : Ctx) : Bool := c.phase.entered && decide (c.wait = some .acks) && !c.storeSent

/-- The body of a block as an image holds it. -/
def State.imageBody (s : State) (b : Block) : BlockBody :=
  let core := b.core.getD 0
  let b1 := b.mapCtx (fun _ c => (s.finishProducers core c).withdrawn)
  let buf := b.whos.foldl (fun buf w => match b.ctx? w with
    | some c => if c.storeEntered then dropEntered buf w c.pc else buf
    | none => buf) b.body.stores
  { b1.body with buffer := buf, storeEvents := (b.body.uneventful (fun _ => true)).storeEvents }

/-- The content of a block's grains, in the order of 09 R174 (11 R223 kind 10). (DEDUCED, log entry 26.) -/
def State.grainSaves (s : State) (bid core : Nat) : List GrainSave :=
  let mine := s.matrix.grains.filter (fun g => g.bid == bid)
  [MUnit.abuf, .bslice, .scale, .acc].flatMap (fun u =>
    (List.range 128).filterMap (fun i =>
      if mine.any (fun g => decide (g.unit = u) && g.index == i) then
        let lo := grainBase core u i
        let n := grainSize u
        let take (m : Memory) : Memory := (within m lo n).map (fun e => (e.1 - lo, e.2))
        some { unit := u, index := i,
               bytes := match u with
                 | .abuf => take s.matrix.abuf
                 | .bslice => take s.matrix.bslice
                 | .scale => take s.matrix.scale
                 | .acc => [],
               cells := if u = .acc then
                   (s.matrix.acc.filter (fun e => decide (lo ≤ e.1) && decide (e.1 < lo + n))).map (fun e => (e.1 - lo, e.2))
                 else [] }
      else none))

/-- Put saved grains back on a core under the same numbers (09 R176), over whatever their units hold. -/
def State.putGrains (s : State) (bid core : Nat) (gs : List GrainSave) : State :=
  gs.foldl (fun t0 g =>
    let t := t0.clearGrain { core := core, unit := g.unit, index := g.index, bid := bid }
    let lo := grainBase core g.unit g.index
    let m := t.matrix
    let own := m.grains ++ [{ core := core, unit := g.unit, index := g.index, bid := bid }]
    let put (x : Memory) : Memory := g.bytes.foldl (fun y e => sput 0 y (lo + e.1) e.2) x
    match g.unit with
    | .abuf => { t with matrix := { m with abuf := put m.abuf, grains := own } }
    | .bslice => { t with matrix := { m with bslice := put m.bslice, grains := own } }
    | .scale => { t with matrix := { m with scale := put m.scale, grains := own } }
    | .acc => { t with matrix := { m with grains := own, acc := g.cells.foldl (fun y e => sput 0 y (lo + e.1) e.2) m.acc } }) s

/-- An engine operation as a remainder (08 R173): what other devices have sent of its unit is asked for again. -/
def EngOp.remainder (o : EngOp) : EngOp := { o with fetched := [] }

/-- The image of a block as it stands; only that of a stopped block names a primary cause (11 R222). A CPY that is neither performed
nor parked goes on from the image, as a parked one does (08 R163; DESIGN CHOICE, log entry 56). -/
def State.imageOf (s : State) (b : Block) (kind cause base_ : Nat) : Image :=
  let y := s.imageBody b
  let ops := (s.ops.filter (fun o => o.bid == b.bid)).map EngOp.remainder
  { bid := b.bid, lid := b.params.lid, core := b.core.getD 0, base := base_, kind := kind, cause := cause,
    body := y, grains := s.grainSaves b.bid (b.core.getD 0), ops := ops, others := s.otherSections b y ops, seconds := b.seconds.take 4,
    primary := if kind ≠ 1 then none else b.primary.map (fun r => { r with image := (base_ - s.dean.svbase.toNat) / 65536 + 1 }),
    overflow := decide (b.seconds.length > 4), truncated := false, excess := [] }

/-- Free the excess extents of an earlier image of a block (11 R226), but for those that lie at the given addresses. -/
def State.freeExcess (s : State) (b : Block) (keep : List Nat) : State :=
  { s with dean := { s.dean with pool := s.dean.pool.filter (fun e =>
      e.1 != b.bid || e.2.1 == b.extent || e.2.1 == b.ckptExtent || keep.contains e.2.1) } }

/-- Where the excess of a block's checkpoint lies. -/
def Block.ckptExcess (b : Block) : List Nat :=
  match b.checkpoint with
  | some im => im.excess
  | none => []

/-- Count a save that found too little room (11 R224). -/
def State.saveShort (s : State) (bid : Nat) : State :=
  ({ s with dean := { s.dean with svfail := s.dean.svfail + 1 } } : State).logErr (.saveShort bid)

/-- The IMAGE field of a fault record (11 R215). -/
def State.imageField (s : State) (base_ : Nat) : Nat := (base_ - s.dean.svbase.toNat) / 65536 + 1

/-- A block whose save is given up goes on where it is, as if saved and resumed there. (DEDUCED, log entry 25.) -/
def State.goOnHere (s : State) (b : Block) : State :=
  let body := s.imageBody b
  let s1 := (s.acquire (b.core.getD 0) 2).modBlock b.bid (fun x => { x with body := body, saveReq := none })
  { s1 with ops := s1.ops.map (fun o => if o.bid = b.bid then o.remainder else o) }

/-- Abandon the pre-emption of blocks, which is asked for again (11 R224). -/
def State.abandon (s : State) (bs : List Block) (r : SaveReq) : State :=
  bs.foldl (fun t b => (t.goOnHere b).modBlock b.bid (fun x =>
    { x with retry := some (s.time + s.dean.pwait * 256 * cycleTime, r) })) s

/-- Take a saved block off its core; its engine operations lie in its image as remainders. -/
def State.park (s : State) (b : Block) (im : Image) : State :=
  let s1 := s.unseat b.bid
  let s2 := { s1 with ops := s1.ops.filter (fun o => o.bid != b.bid) }
  s2.modBlock b.bid (fun x => { x with body := im.body, saved := some im, saveReq := none })

/-- The fault record of a saved block (11 R217 step 4): a pair's is its leading copy's. -/
def State.reportStop (s : State) (b : Block) (image : Nat) (trunc : Bool) : State :=
  match b.primary with
  | some r =>
    if b.role = .trailing then s.modBlock b.bid (fun x => { x with awaiting := true })
    else
      (s.sendRecord b.params.queue { r with image := image, trunc := trunc }).modBlock b.bid
        (fun x => { x with awaiting := true })
  | none => s

/-- A pair stopped by SIGMIS is aborted once both copies are saved (11 R214, R235). -/
def State.abortSigmis (s : State) (b : Block) : State :=
  match b.primary, s.block? b.partner with
  | some r, some p => if decide (r.code = .sigmis) && b.role ≠ .single && p.core.isNone then s.abortBlock b.bid else s
  | _, _ => s

/-- What a save met that failed at its own write (11 R228): poison, or an error response. (DEDUCED, log entry 25.) -/
def State.saveTrap (s : State) (b : Block) (im : Image) : Trap :=
  match s.imagePoison b.params im with
  | some o => { code := .poison, detail := o, addr := 0 }
  | none => { code := .remote, detail := 2, addr := 0 }

/-- A block whose image could not be written whole is discarded, and its image is kept for reading (11 R228): its record, of the fault
that stopped it or of what the save met, says so. -/
def State.saveFailed (s : State) (b : Block) (im : Image) (image : Nat) : State :=
  let r := b.primary.getD (b.faultRec .lead b.body.lead.pc (s.saveTrap b im) false)
  (s.sendRecord b.params.queue { r with image := image, trunc := true }).abortBlock b.bid

/-- Write the image of a block and take the block off its core (11 R221, R228). -/
def State.writeSave (s : State) (b : Block) (im : Image) (extra : List Part) (short : Bool) : State :=
  match (s.block? b.bid).bind (fun x => x.core) with
  | none => s
  | some core =>
    let w := s.writeImage core b im extra short
    let t := (w.1.park b w.2.1).tick1
    match w.2.2 with
    | .whole => (t.reportStop b (s.imageField b.extent) false).abortSigmis b
    | k => t.saveFailed b w.2.1 (if k = .unwritten then 0 else s.imageField b.extent)

/-- Take the room that the images of blocks need beyond their extents (11 R223, R224). -/
def State.roomForImages (s : State) (bs : List Block) (r : SaveReq) : Option (State × List (Block × Image × List Part)) :=
  match bs with
  | [] => some (s, [])
  | b :: rest =>
    let im := s.imageOf b r.kind r.cause b.extent
    match s.takeExcess b.bid b.extent (excessOf b.params.reserve (im.sections b.params)) with
    | none => none
    | some (s1, extra) => (s1.roomForImages rest r).map (fun x => (x.1, (b, im, extra) :: x.2))

/-- SAVE blocks that are settled (11 R221, R224, R228): both copies of a pair when it is pre-empted, or neither (11 R232). -/
def State.saveBlocks (s : State) (bs : List Block) (r : SaveReq) : State :=
  let s0 := bs.foldl (fun t b => (t.freeExcess b b.ckptExcess).pushOf b.bid) s
  match s0.roomForImages bs r, bs with
  | some (s1, xs), _ => xs.foldl (fun t x => t.writeSave x.1 x.2.1 x.2.2 false) s1
  | none, b :: _ =>
    if r.kind = 0 then (s0.abandon bs r).saveShort b.bid
    else (s0.saveShort b.bid).writeSave b (s0.imageOf b r.kind r.cause b.extent) [] true
  | none, [] => s0

/-- Withdraw what a block's issuers and engines have asked of homes and is not yet allocated (11 R221 step 3). What a block alone has
been allocated completes (07 R154); an element allocated to a pair before its comparison is given back. -/
def State.withdrawAll (s : State) (bid : Nat) : State :=
  let pair : Bool := match s.block? bid with
    | some b => decide (b.role ≠ .single)
    | none => false
  ((if pair then s.dropHeld bid else s).dropWaiting bid).withdrawReqs (s.reqOfOps bid)

/-- The blocks that are saved with a block: both copies of a pair that is pre-empted (11 R232). -/
def State.savedWith (s : State) (b : Block) (r : SaveReq) : List Block :=
  if r.kind = 0 then b.copies.filterMap s.block? else [b]

/-- BLOCK_SAVE (11 R221): requests not yet allocated are withdrawn; when the rest has settled, the image is written and sealed
and the core is free. A copy of a pair that meets a fault meanwhile ends the pre-emption of both (11 R235; DEDUCED, log entry 25). -/
def execBlockSave (bid : Nat) (s : State) : Host.Outcome State Fault Refusal :=
  event (match s.block? bid with
  | none => s
  | some b =>
    match b.saveReq, b.core with
    | some r, some _ =>
      let bs := s.savedWith b r
      let s1 := bs.foldl (fun t x => t.withdrawAll x.bid) s
      if !bs.all s1.settled then s1
      else if decide (r.kind = 0) && bs.any (fun x => x.primary.isSome) then bs.foldl (fun t x => t.goOnHere x) s1
      else (bs.foldl (fun t x => t.endSteps x.bid 1) s1).saveBlocks bs r
    | _, _ => s)

/-- Whether a pre-emption of a block that has been abandoned is not to be tried again yet (11 R224). -/
def Block.tooSoon (b : Block) (now : Nat) : Bool :=
  match b.retry with
  | some (t, _) => decide (now < t)
  | none => false

/-- Ask for a block to be pre-empted, both copies of a pair (10 R212, 11 R232). -/
def State.preempt (s : State) (b : Block) (cause : Nat) : State :=
  if b.tooSoon s.time then s
  else if b.copies.all (fun k => match s.block? k with
      | some x => x.running
      | none => false) then
    b.copies.foldl (fun t k => t.modBlock k (fun x =>
      { x with saveReq := some { kind := 0, cause := cause }, retry := none })) s
  else s

/-- PREEMPT_RETRY (11 R224). -/
def execPreemptRetry (bid : Nat) (s : State) : Host.Outcome State Fault Refusal :=
  event (match s.block? bid with
  | none => s
  | some b => match b.retry with
    | none => s
    | some (t, r) => if s.time < t || !b.running then s else s.preempt b r.cause)

/-- Whether a block that has run waits to be seated again (10 R213; 11 R218, R231). -/
def Block.wantsSeat (b : Block) : Bool := b.core.isNone && b.primary.isNone && b.saveReq.isNone

/-- A context as a resumed block holds it: a parked access whose record has been answered executes again (11 R219). -/
def Ctx.unpark (c : Ctx) (open_ : List Nat) : Ctx :=
  match c.parked with
  | some x =>
    if open_.contains x.1 then c
    else { c with parked := none, empties := c.empties.filter (fun b => !c.heldBits.contains b), heldBits := [] }
  | none => c

/-- A context that is unparked is ready from now on. -/
def Ctx.unparkAt (c : Ctx) (open_ : List Nat) (now : Nat) : Ctx :=
  if (c.unpark open_).parked = c.parked then c else { c.unpark open_ with readySince := now }

/-- A parked operation goes on where it stood. -/
def EngPhase.unparked (p : EngPhase) : EngPhase :=
  match p with
  | .triggerParked => .waitTrigger
  | .parked => .running
  | .recordParked => .reporting
  | _ => p

/-- A parked operation goes on when its record has been answered. -/
def State.unparkOp (s : State) (o : EngOp) : EngOp :=
  if s.xrecs.any (fun x => x.bid == o.bid && x.page == o.page) then o
  else { o with phase := o.phase.unparked }

/-- Put a block on a core (06 R141; 09 R176; 10 R197, R213): its image, if it has one, is read and restored. -/
def State.settleOn (s : State) (bid core : Nat) : State :=
  let s1 := s.acquire core 6
  let open_ := s1.xrecs.map (·.xid)
  let s2 := match (s1.block? bid).bind (fun b => b.saved) with
    | some im =>
      let s2 := (match s1.block? bid with
        | some b => s1.noteImage core b.params im
        | none => s1).putGrains bid core im.grains
      { s2 with ops := s2.ops ++ im.ops.map s2.unparkOp }
    | none => s1
  (s2.modBlock bid (fun b => { b.mapCtx (fun _ c => { c.unpark open_ with readySince := s.time }) with
    core := some core, lastCore := core, context := s.freeContext core, saved := none, avoid := [], seatedAt := s.fresh, retry := none })).tick1

/-- A body with the halt states of another: what HRUN released while the block was saved (12 R251). -/
def BlockBody.withHalts (y x : BlockBody) : BlockBody :=
  { y with fibres := y.fibres.map (fun p => match aget x.fibres p.1 with
             | some c => (p.1, { p.2 with halt := c.halt })
             | none => p),
           lead := { y.lead with halt := x.lead.halt } }

/-- What reading back the image of a block comes to before it is restored. -/
inductive Restored where
  | body (y : BlockBody)
  | poison (origin : Nat)
  | edited
deriving DecidableEq, Repr

/-- Read back the image of a block (11 R226, R231). A checkpoint is read as it was sealed; what a stopped block's supervisor
edited was taken when it answered. -/
def State.restored (s : State) (b : Block) : Restored :=
  match b.saved with
  | none => .body b.body
  | some im =>
    match s.imagePoison b.params im with
    | some o => .poison o
    | none =>
      if im.kind = 1 then .body b.body
      else
        let orig := if im.kind = 2 then b.checkpoint.getD im else im
        match s.editedBody b.params b.index orig with
        | none => .edited
        | some y => if im.kind = 2 then .body b.body else .body (y.withHalts b.body)

/-- Poison in the image of a block that is not resident is contained; a block that stops for it keeps its image (11 R231). -/
def State.imageBad (s : State) (b : Block) (o : Nat) : State :=
  let s1 := s.contain b .lead b.body.lead.pc { code := .poison, detail := o, addr := 0 } true
  match s1.block? b.bid with
  | none => s1
  | some x =>
    if x.primary.isSome then
      (s1.modBlock b.bid (fun y => { y with saveReq := none })).reportStop x (s1.imageField x.extent) false
    else s1

/-- Seat blocks that have run on cores, both copies of a pair or neither (10 R209): poison in an image is contained instead, and an
image changed in a way that 11 R226 leaves undefined ends the run. What follows is done once all are seated. -/
def State.reseat (s : State) (bs : List (Block × Nat)) (after : State → State) : Host.Outcome State Fault Refusal :=
  match bs with
  | [] => .next (after s)
  | (b, core) :: rest =>
    match s.restored b with
    | .edited => .fault .editedImage
    | .poison o => .next (s.imageBad b o)
    | .body y => s.reseat rest (fun t => after ((t.modBlock b.bid (fun x => { x with body := y })).settleOn b.bid core))

/-- Resume a block, both copies of a pair together (10 R213; 11 R232), where it can be seated. -/
def State.resumeBlock (s : State) (b : Block) : Host.Outcome State Fault Refusal :=
  match s.launch? b.params.lid with
  | none => .next s
  | some l =>
    let other := if b.role = .single then none else s.block? b.partner
    let ready := match other with
      | some p => p.wantsSeat
      | none => true
    if l.held || !ready then .next s
    else
      match s.place l (b.bx, b.by_, b.bz) b.seatee (other.map Block.seatee) [] with
      | none => .next s
      | some (cores, rr) =>
        (s.logPlan l (b.bx, b.by_, b.bz)).reseat ((b :: other.toList).zip cores) (fun t =>
          ((t.noteSeat (l.params.queue / 32) cores rr).bill l.params.queue b.bid).modLaunch l.params.lid
            (fun x => x.seatedBlock b.index))

/-- A resume record (11 R218). -/
structure ResumeRec where
  handle : Nat
  addr : Nat
  action : Nat
  zeros : Bool
deriving DecidableEq, Repr

/-- The resume record in 32 bytes. -/
def ResumeRec.of (bs : List Byte) : ResumeRec :=
  { handle := fieldAt bs 0 8, addr := fieldAt bs 8 8, action := fieldAt bs 16 1,
    zeros := decide (fieldAt bs 17 7 = 0) && decide (fieldAt bs 24 8 = 0) }

/-- What a resume record answers: an XLATE record, or a stopped block. -/
inductive Answers where
  | record (x : XRec)
  | stopped (b : Block)
  | nothing
deriving DecidableEq, Repr

/-- The outstanding record that a resume record names (11 R218). -/
def State.answers (s : State) (r : ResumeRec) : Answers :=
  let isOf (b : Block) (who : Who) : Bool := decide (fibreHandle b.params.lid b.index who = r.handle)
  match s.xrecs.find? (fun x => decide (x.addr.toNat = r.addr) && match s.block? x.bid with
      | some b => isOf b x.who
      | none => false) with
  | some x => .record x
  | none =>
    match s.blocks.find? (fun b => b.awaiting && decide (b.role ≠ .trailing) && decide (r.addr = 0) && match b.primary with
        | some p => isOf b p.who
        | none => false) with
    | some b => .stopped b
    | none => .nothing

/-- Answer an XLATE record with retry: everything parked on it executes again (05 R100). -/
def State.retryRecord (s : State) (x : XRec) : State :=
  let s1 := { s with xrecs := s.xrecs.filter (fun y => y.xid != x.xid) }
  let open_ := s1.xrecs.map (·.xid)
  let s2 := { s1 with ops := s1.ops.map s1.unparkOp }
  s2.modBlock x.bid (fun b => if b.core.isSome then b.mapCtx (fun _ c => c.unparkAt open_ s.time) else b)

/-- Answer a stopped block with retry or skip (11 R218): its image is taken with the supervisor's edits, both images of a
pair. -/
def State.answerStopped (s : State) (bids : List Nat) (who : Who) (skip : Bool) : Host.Outcome State Fault Refusal :=
  match bids with
  | [] => .next s
  | bid :: rest =>
    match s.block? bid with
    | none => s.answerStopped rest who skip
    | some b =>
      let y := match b.saved with
        | none => some b.body
        | some im => s.editedBody b.params b.index im
      match y with
      | none => .fault .editedImage
      | some y =>
        (s.modBlock bid (fun x => { x with body := (y.withHalts x.body).returnFrom who skip, primary := none, seconds := [], awaiting := false })).answerStopped
          rest who skip

/-- Perform a resume record (11 R218): one that answers nothing or is malformed is dropped and logged. -/
def State.perform218 (s : State) (r : ResumeRec) : Host.Outcome State Fault Refusal :=
  let dropped : Host.Outcome State Fault Refusal := .next (s.logErr (.resumeDropped (BitVec.ofNat 64 r.handle)))
  if !r.zeros || r.action ≥ 3 then dropped
  else
    match s.answers r with
    | .nothing => dropped
    | .record x => if r.action = 0 then .next (s.retryRecord x) else .next (s.abortBlock x.bid)
    | .stopped b =>
      if r.action = 2 then .next (s.abortBlock b.bid)
      else
        match b.primary with
        | none => .next s
        | some p => s.answerStopped b.copies p.who (decide (r.action = 1))

/-- An issuer whose checkpoint is sealed goes on: past an instruction that has been performed, or at one that has not (11
R230). -/
def Ctx.unsealed (c : Ctx) : Ctx :=
  if c.phase.sealing = .awaiting then
    { c with wait := none,
             phase := { c.phase with sealing := if c.wait = some .checkpoint then .done else .none } }
  else c

/-- A block whose checkpoint image could not be written whole is discarded; the image is kept in its place (11 R228). -/
def State.sealFailed (s : State) (b : Block) (im : Image) (unwritten : Bool) : State :=
  (s.modBlock b.bid (fun x => { x with saved := some im, extent := b.ckptExtent, ckptExtent := b.extent })).saveFailed b im
    (if unwritten then 0 else s.imageField b.ckptExtent)

/-- Write the KIND 2 image of a settled block whose buffer is empty (11 R230, R224, R228); without room the block is
unprotected. -/
def State.sealBlock (s0 : State) (b : Block) (core : Nat) : State :=
  let s := s0.freeExcess b []
  let im := s.imageOf (b.mapCtx (fun _ c => c.unsealed)) 2 0 b.ckptExtent
  let goOn (t : State) : State := t.modBlock b.bid (fun x => { x.mapCtx (fun _ c => c.unsealed) with runs := 0 })
  match s.takeExcess b.bid b.ckptExtent (excessOf b.params.reserve (im.sections b.params)) with
  | none => (goOn (s.saveShort b.bid)).modBlock b.bid (fun x => { x with unprotected := true })
  | some (s1, extra) =>
    let w := s1.writeImage core b im extra false
    match w.2.2 with
    | .whole => ((goOn w.1).modBlock b.bid (fun x => { x with checkpoint := some w.2.1, unprotected := false })).tick1
    | k => w.1.sealFailed b w.2.1 (decide (k = .unwritten))

/-- CHECKPOINT_SEAL (11 R230, R224, R228): what other issuers of a block alone have stored since its commit is committed first, so that
the store buffer section is empty. (DEDUCED, log entry 32.) -/
def execCheckpointSeal (bid : Nat) (s : State) : Host.Outcome State Fault Refusal :=
  event (match s.block? bid with
  | none => s
  | some b =>
    match b.core with
    | none => s
    | some core =>
      if !b.sealDue || !s.settledBut b true || b.saveReq.isSome then s
      else if b.role ≠ .single || b.body.stores.isEmpty then s.sealBlock b core
      else
        match s.drained b b.body.stores [] with
        | .go t => t.sealBlock ((t.block? bid).getD b) core
        | .wait t _ => t
        | .trap t _ => t)

end Sys2Proof.Machine
end

