-- ==== Sys2Proof/Machine/Dean.lean ====
section
/-!
DEFINITION. The dean (10 R193 to R213, R438): accepting and refusing launches, arbitration and seating, completion of launches,
pre-emption.
-/
namespace Sys2Proof.Machine

/-- The fields of a launch record (10 R196). -/
structure LaunchRecord where
  params : LaunchParams
  footprints : List (Nat × Int × Int × Int × Int)
  rmode : Nat
  zeros : Bool
deriving DecidableEq, Repr

/-- A footprint of a launch record: its length, base and strides (10 R196, R207). -/
def footprintOf (bs : List Byte) : Nat × Int × Int × Int × Int :=
  let a := fieldAt bs 0 8
  let b := fieldAt bs 8 8
  (bits a 41 23, signed 41 a, signed 21 b, signed 21 (bits b 21 21), signed 21 (bits b 42 21))

/-- The launch record in 128 bytes, as it arrives through a launch queue (10 R196, R195; 02 R37). -/
def LaunchRecord.of (bs : List Byte) (n : Nat) (q : LaunchQueue) : LaunchRecord :=
  let d := fieldAt bs 16 8
  let f := fieldAt bs 24 8
  { params :=
      { lid := 0, queue := n, fibreCount := bits f 0 10 + 1, initialCount := bits f 10 10 + 1, allocation := bits f 20 10 * 8,
        barrierCount := bits f 30 5, dimX := bits d 0 16, dimY := bits d 16 16, dimZ := bits d 32 16, stages := bits d 48 4 + 1,
        code := BitVec.ofNat 64 (fieldAt bs 0 8), lead := BitVec.ofNat 64 (fieldAt bs 8 8),
        arg := BitVec.ofNat 64 (fieldAt bs 40 8), tcb := BitVec.ofNat 64 (fieldAt bs 32 8), prio := bits f 38 4,
        ckpt := bitAt f 37, paired := decide (bits f 35 2 = 1), slack := bits f 42 16 + 1, root := q.root.toNat, asn := q.asn,
        supervisor := q.priv },
    footprints := (List.range 4).map (fun i => footprintOf ((bs.drop (64 + 16 * i)).take 16)), rmode := bits f 35 2,
    zeros := decide (d / 2 ^ 52 = 0) && decide (f / 2 ^ 58 = 0) && decide (fieldAt bs 48 16 = 0) &&
      (List.range 4).all (fun i => decide (fieldAt bs (72 + 16 * i) 8 / 2 ^ 63 = 0)) }

/-- Blocks of a launch (02 R35). -/
def LaunchParams.total (p : LaunchParams) : Nat := p.dimX * p.dimY * p.dimZ * p.stages

/-- The limits of 02 R24 and R35 (10 R198 reason 2). -/
def LaunchParams.limitsOk (p : LaunchParams) : Bool :=
  decide (p.initialCount ≤ p.fibreCount) && decide (16 ≤ p.allocation ∧ p.allocation ≤ 4096) && decide (p.regs ≤ 1048576) &&
    decide (p.barrierCount ≤ 16) && decide (p.dimX ≠ 0 ∧ p.dimY ≠ 0 ∧ p.dimZ ≠ 0) && decide (p.total ≤ 16777216)

/-- Whether a TCB is 64-byte aligned plain memory that permits an access (10 R198 reason 3). -/
def State.tcbPlain (s : State) (p : LaunchParams) (need : Need) : Bool :=
  decide (p.tcb.toNat % 64 = 0) && match (s.agentReach p.space p.tcb.toNat 64 need).2 with
    | .ok ps => ps.all (fun q => q.fmt == 0)
    | .error _ => false

/-- The eight words of a TCB (10 R200). -/
def tcbWords (bs : List Byte) : List Nat := (List.range 8).map (fun i => fieldAt bs (8 * i) 8)

/-- Whether bytes can be accessed in a launch's address space. -/
def State.reachable (s : State) (p : LaunchParams) (va n : Nat) (need : Need) : Bool :=
  match (s.agentReach p.space va n need).2 with
  | .ok _ => true
  | .error _ => false

/-- The first check that refuses a launch record (10 R198), given its TCB. -/
def State.refusal (s : State) (x : LaunchRecord) (tcb : Option (List Nat)) : Option Nat :=
  let p := x.params
  if !x.zeros || decide (x.rmode > 1) || (decide (x.rmode = 1) && decide (p.slack < 32)) then some 1
  else if !p.limitsOk then some 2
  else
    match tcb with
    | none => some 3
    | some w => if !s.tcbPlain p needRW then some 3 else
      let w0 := w.getD 0 0
      let succ := w.getD 1 0
      if w0 / 2 ^ 49 ≠ 0 ∨ succ / 2 ^ 16 ≠ 0 ∨ w.getD 7 0 ≠ 0 ∨ (w0 % 256 ≠ 0 ∧ w0 % 256 ≠ 4) then some 4
      else if !goodPc p.code || (decide (p.lead ≠ 0) && !goodPc p.lead) then some 5
      else if w.getD 3 0 % 128 ≠ 0 ∨ !s.reachable p (w.getD 3 0) 128 needW ∨
          (succ ≠ 0 ∧ (w.getD 2 0 % 8 ≠ 0 ∨ !s.reachable p (w.getD 2 0) (8 * succ) needR)) then some 6
      else if w.getD 4 0 ≠ 0 ∧ (bits (w.getD 4 0) 3 3 ≠ 0 ∨ bits (w.getD 4 0) 0 3 ≠ 3) then some 7
      else none

/-- A completion record (10 R203). -/
def completionRecord (tcb : DWord) (lid reason status cyc blocks : Nat) : List Byte :=
  toBytes 8 tcb.toNat ++ toBytes 8 (status + reason * 2 ^ 8 + lid * 2 ^ 32) ++ toBytes 8 cyc ++ toBytes 8 blocks

/-- Ask a completion queue for one element (10 R202, R198). -/
def State.sendCompletion (s : State) (f : QFrom) (cq : DWord) (queue : Nat) (payload : List Byte) : State :=
  { s with qreqs := s.qreqs ++ [{ rid := s.fresh, from_ := f, enq := true, try_ := false, pa := 0,
                                  va := BitVec.ofNat 64 (handleAddr cq.toNat), handle := some (cq, queue), code := 3,
                                  payload := payload, parked := false, busy := false, src := agentStop .refusal queue, unc := false }],
           fresh := s.fresh + 1 }

/-- REFUSE a launch (10 R198): a TCB that can be read has its CQ told even where it cannot be written, and one that can be written gets its
status and reason even where it is not aligned, unless that is the reason. (DEDUCED, log entry 28.) -/
def State.refuse (s : State) (p : LaunchParams) (tcb : Option (List Nat)) (reason : Nat) : State :=
  let s1 := if reason = 3 || !s.reachable p p.tcb.toNat 64 needRW then s else s.tcbPut p 0 (toBytes 2 (reason * 2 ^ 8 + 5))
  let cq := (tcb.map (fun w => w.getD 4 0)).getD 0
  let good := decide (bits cq 3 3 = 0) && decide (bits cq 0 3 = 3)
  let rec_ := p.deanRec { code := .perm, detail := 8, addr := p.tcb }
  let s2 := if reason = 3 ∨ reason = 7 ∨ (cq ≠ 0 ∧ !good) then s1.sendLaunchRec p.queue rec_ else s1
  if cq ≠ 0 ∧ good then
    s2.sendCompletion .refusal (BitVec.ofNat 64 cq) p.queue (completionRecord p.tcb 0 reason 5 0 0)
  else s2

/-- The lowest free launch id (10 R199). -/
def State.freeLid (s : State) : Nat :=
  ((List.range (s.launches.length + 1)).find? (fun k => (s.launch? k).isNone)).getD 0

/-- ACCEPT a launch (10 R199): its record is copied, its TCB initialised, STATUS 2 without predecessors and 1 with some. PRED is read again,
but in a TCB on another device, which no dean of this package decrements (10 R201). (DEDUCED, log entry 28.) -/
def State.accept (s : State) (x : LaunchRecord) (bs : List Byte) (w : List Nat) : State :=
  let lid := s.freeLid
  let p := { x.params with lid := lid }
  let s1 := s.agentWrite p.space (w.getD 3 0) bs
  let r := s1.tcbGet p 0
  let ready := decide (bits (r.2.getD (w.getD 0 0)) 32 16 = 0)
  let s2 := (r.1.tcbPut p 2 (toBytes 2 lid)).tcbStatus p (if ready then 2 else 1)
  let s3 := (s2.tcbPut p 40 (toBytes 8 0)).tcbPut p 48 (toBytes 8 0)
  let l : Launch :=
    { params := p, footprints := x.footprints, cq := BitVec.ofNat 64 (w.getD 4 0), status := if ready then .ready else .waiting,
      next := 0, retired := 0, abortedBlocks := 0, cyc := 0, acceptedAt := s.time, unseatedSince := [], held := false,
      reported := false, reportDone := false }
  { s3 with launches := s3.launches ++ [l] }

/-- Judge a launch record that a top unit has dequeued, given its TCB if that can be read. (DEDUCED, log entry 28.) -/
def State.judged (s : State) (n : Nat) (bs : List Byte) (tcb : Option (List Byte)) : State :=
  let x := LaunchRecord.of bs n (s.lq n)
  let w := tcb.map tcbWords
  match s.refusal x w, w with
  | none, some w => s.accept x bs w
  | some k, w => s.refuse x.params w k
  | none, none => s

/-- Read the TCB of a launch record that a top unit has dequeued, and judge it. -/
def State.judge (s : State) (n : Nat) (bs : List Byte) : State :=
  let p := (LaunchRecord.of bs n (s.lq n)).params
  let r := s.agentFetch p.space p.tcb.toNat 64 (.judge n bs)
  match r.2 with
  | none => r.1
  | some t => r.1.judged n bs t

/-- Whether a launch record of a queue awaits its TCB from another device. -/
def State.judging (s : State) (n : Nat) : Bool :=
  s.dean.reads.any (fun r => match r.task with
    | .judge k _ => k == n
    | _ => false)

/-- Dequeue for the dean from a queue on another device (05 R89; 13 R264), one element at a time. -/
def State.takeAway (s : State) (n : Nat) (h : DWord) (queue : Nat) (p : Piece) : State :=
  if s.inFlight (.dean n) then s
  else
    let q : QReq := { rid := s.fresh, from_ := .dean n, enq := false, try_ := true, pa := p.pa, va := BitVec.ofNat 64 p.va,
                      handle := some (h, queue), code := bits h.toNat 0 3, payload := [], parked := false, busy := false,
                      src := agentStop (.dean n) queue, unc := p.unc }
    s.remoteSend p.pa (.deq q.code true) (.queue q) none q.va

/-- The first element that another device has sent for a queue of the dean, removed. -/
def State.takeSent (s : State) (n : Nat) : Option (State × List Byte) :=
  match s.dean.taken.find? (fun x => x.1 == n) with
  | none => none
  | some x => some ({ s with dean := { s.dean with taken := s.dean.taken.erase x } }, x.2)

/-- LAUNCH_ACCEPT (10 R193, R198): the top unit takes the record at the head of an enabled queue while it has a free place. From a queue on
another device the record comes by the link. -/
def execLaunchAccept (queue : Nat) (s : State) : Host.Outcome State Fault Refusal :=
  event (
    let q := s.lq queue
    let pending := (s.launches.filter (fun l => l.params.queue / 32 == queue / 32)).length
    if queue ≥ 64 || !q.en || decide (pending ≥ 4096) || s.judging queue || !handleOk q.handle.toNat then s
    else
      match s.takeSent queue with
      | some (t, bs) => t.judge queue bs
      | none =>
      let c := s.controlBlock (s.queueSpace queue (agentCore queue)) q.handle.toNat needRW
      match c.2 with
      | .error _ => c.1.quiet s
      | .ok p =>
        if p.mig then c.1.quiet s
        else if s.away p.pa then c.1.forgetAgent.takeAway queue q.handle queue p
        else if s.readsHeld p.pa then c.1.quiet s
        else
          let r := c.1.forgetAgent.takeNow (agentStop .refusal queue) p.pa (bits q.handle.toNat 0 3)
          match r.2 with
          | .ok (some bs) => r.1.judge queue bs
          | .ok none => s
          | .error _ => r.1.quiet s)

/-- Take the record at the head of DN_RESQ, if its action is the given one (11 R218, 10 R438). A record with an action beyond
2 is taken as retry is. (DESIGN CHOICE, log entry 46.) From a queue on another device it comes by the link. -/
def State.takeResume (s : State) (action : Nat) : Host.Outcome State Fault Refusal :=
  let h := s.dean.resq.toNat
  if h = 0 ∨ !handleOk h ∨ bits h 0 3 ≠ 3 then .next s
  else
    let mine (bs : List Byte) : Bool :=
      let r := ResumeRec.of bs
      decide (r.action = action) || (decide (action = 0) && decide (r.action ≥ 3))
    match s.takeSent 64 with
    | some (t, bs) => if mine bs then t.perform218 (ResumeRec.of bs) else .next s
    | none =>
    let c := s.controlBlock (s.queueSpace s.dean.svq (agentCore s.dean.svq)) h needRW
    match c.2 with
    | .error _ => .next (c.1.quiet s)
    | .ok p =>
      if p.mig then .next (c.1.quiet s)
      else if s.away p.pa then .next (c.1.forgetAgent.takeAway 64 s.dean.resq s.dean.svq p)
      else if s.readsHeld p.pa then .next (c.1.quiet s)
      else
        let q := c.1.forgetAgent.takeNow (agentStop .trace s.dean.svq) p.pa 3
        match q.2 with
        | .ok (some bs) => if mine bs then q.1.perform218 (ResumeRec.of bs) else .next s
        | .ok none => .next s
        | .error _ => .next (q.1.quiet s)

/-- RESUME_RETRY (11 R218). -/
def execResumeRetry (s : State) : Host.Outcome State Fault Refusal := s.takeResume 0

/-- RESUME_SKIP (11 R218); on an XLATE record it is abort. -/
def execResumeSkip (s : State) : Host.Outcome State Fault Refusal := s.takeResume 1

/-- RESUME_ABORT (11 R218). -/
def execResumeAbort (s : State) : Host.Outcome State Fault Refusal := s.takeResume 2

/-- The coordinates of a block of a launch (02 R35). -/
def LaunchParams.coords (p : LaunchParams) (i : Nat) : Nat × Nat × Nat × Nat :=
  (i % p.dimX, i / p.dimX % p.dimY, i / (p.dimX * p.dimY) % p.dimZ, i / (p.dimX * p.dimY * p.dimZ))

/-- What a launch has to seat next: a block that has run, before its unseated blocks (10 R213), or the next block by linear
index (02 R36). -/
inductive Work where
  | again (b : Block)
  | fresh (index : Nat)
deriving DecidableEq, Repr

/-- The linear index of the block that is the work. -/
def Work.index (w : Work) : Nat :=
  match w with
  | .again b => b.index
  | .fresh i => i

/-- Insert a block by its linear index. -/
def insertBlock (b : Block) (l : List Block) : List Block :=
  match l with
  | [] => [b]
  | a :: rest => if b.index < a.index then b :: a :: rest else a :: insertBlock b rest

/-- What a launch has to seat, blocks that have run first. (DEDUCED, log entry 27.) -/
def State.works (s : State) (l : Launch) : List Work :=
  if l.status ≠ .ready ∧ l.status ≠ .running then []
  else
    let mine := s.blocks.filter (fun b => decide (b.params.lid = l.params.lid) && b.wantsSeat && decide (b.role ≠ .trailing))
    (mine.foldl (fun acc b => insertBlock b acc) []).map Work.again ++
      (if l.next < l.params.total then [.fresh l.next] else [])

/-- What a fresh block needs. -/
def LaunchParams.seatee (p : LaunchParams) : Seatee := { params := p, avoid := [], grains := [], uncommitted := 0 }

/-- The place for a launch's work with some blocks removed first, if it has one (10 R208, R209). -/
def State.placeWork (s : State) (l : Launch) (w : Work) (without : List Nat) : Option (List Nat × Bool) :=
  match w with
  | .again b =>
    let other := if b.role = .single then none else s.block? b.partner
    let ready := match other with
      | some p => p.wantsSeat
      | none => true
    if ready then s.place l (b.bx, b.by_, b.bz) b.seatee (other.map Block.seatee) without else none
  | .fresh i =>
    let c := l.params.coords i
    s.place l (c.1, c.2.1, c.2.2.1) l.params.seatee (if l.params.paired then some l.params.seatee else none) without

/-- Whether the save pool has room for a launch's work (11 R220). -/
def State.poolRoom (s : State) (l : Launch) (w : Work) : Bool :=
  match w with
  | .again _ => true
  | .fresh _ =>
    match s.reserveFor 0 l.params with
    | none => false
    | some (t, _, _) => !l.params.paired || (t.reserveFor 0 l.params).isSome

/-- Whether a launch's work can be seated now. -/
def State.seatable (s : State) (l : Launch) (w : Work) : Bool := !l.held && (s.placeWork l w []).isSome && s.poolRoom l w

/-- The oldest ready launch of a queue (10 R204). By what ready launches are ordered the spec does not say: the model takes the
order of their acceptance. (DESIGN CHOICE, log entry 66.) -/
def State.oldestLaunch (s : State) (n : Nat) : Option Launch :=
  s.launches.find? (fun l => decide (l.params.queue = n) && !(s.works l).isEmpty)

/-- The queues of a top unit whose oldest ready launch can seat a block now, with the first that it can. -/
def State.readyQueues (s : State) (unit : Nat) : List (Nat × Launch × Work) :=
  (span (unit * 32) 32).filterMap (fun n => (s.oldestLaunch n).bind (fun l =>
    ((s.works l).find? (s.seatable l)).map (fun w => (n, l, w))))

/-- Start the period of each block of a launch that finds no place now (10 R212). -/
def State.startPeriods (s : State) (l : Launch) : Launch :=
  (s.works l).foldl (fun x w =>
    if l.held || s.seatable l w || (aget x.unseatedSince w.index).isSome then x
    else { x with unseatedSince := aput x.unseatedSince w.index s.time }) l

/-- Start the periods of the blocks that a top unit's queues could not seat (10 R212). -/
def State.noteUnseated (s : State) (unit : Nat) : State :=
  (span (unit * 32) 32).foldl (fun t n => match s.oldestLaunch n with
    | none => t
    | some l => t.modLaunch l.params.lid (fun _ => s.startPeriods l)) s

/-- Bring the passes of queues that have become ready forward, and drop the deficits of those that are not (10 R205, R206). -/
def State.noteReady (s : State) (unit : Nat) (ready : List Nat) : State :=
  let old := ready.filter (fun n => (s.lq n).wasReady)
  let v := match old.map (fun n => (s.lq n).pass) with
    | [] => sget 0 s.dean.lastPass unit
    | p :: ps => ps.foldl min p
  (span (unit * 32) 32).foldl (fun t n =>
    let q := t.lq n
    if ready.contains n then
      (if q.wasReady then t else t.setLq n { q with wasReady := true, pass := max q.pass v })
    else if q.wasReady || q.deficit ≠ 0 then t.setLq n { q with wasReady := false, deficit := 0 }
    else t) s

/-- The queue that stride scheduling picks: of lowest pass, then lowest number (10 R205). -/
def State.pickStride (s : State) (cands : List Nat) : Option Nat :=
  cands.foldl (fun (acc : Option Nat) n => match acc with
    | none => some n
    | some m => if (s.lq n).pass < (s.lq m).pass then some n else acc) none

/-- Visits that a queue needs before it may seat (10 R206). -/
def LaunchQueue.visits (q : LaunchQueue) : Nat := max 1 ((-q.deficit) / (max 1 q.quant : Nat) + 1).toNat

/-- The queue that deficit round-robin comes to, and the deficits after the visits on the way (10 R206). -/
def State.pickDeficit (s : State) (unit : Nat) (cands : List Nat) : Option (State × Nat) :=
  let cur := aget s.dean.visit unit
  let going := match cur with
    | some n => cands.contains n && decide ((s.lq n).deficit > 0)
    | none => false
  if going then cur.map (fun n => (s, n))
  else
    let after := cands.filter (fun n => match cur with
      | some m => decide (n > m)
      | none => true)
    let order := after ++ cands.filter (fun n => !after.contains n)
    match order.zipIdx.foldl (fun (acc : Option (Nat × Nat × Nat)) p =>
        let need := (s.lq p.1).visits
        match acc with
        | none => some (need, p.2, p.1)
        | some a => if need < a.1 then some (need, p.2, p.1) else acc) none with
    | none => none
    | some (need, at_, n) =>
      let s1 := order.zipIdx.foldl (fun t p =>
        let q := t.lq p.1
        let visits := if p.2 > at_ then need - 1 else need
        t.setLq p.1 { q with deficit := q.deficit + visits * (max 1 q.quant : Nat) }) s
      some ({ s1 with dean := { s1.dean with visit := aput s1.dean.visit unit n } }, n)

/-- A block of a launch as it is seated (02 R29, R35; 10 R197). -/
def freshBlock (p : LaunchParams) (index bid partner core context extent ckpt now : Nat) (role : Role) : Block :=
  let c := p.coords index
  { bid := bid, params := p, index := index, bx := c.1, by_ := c.2.1, bz := c.2.2.1, stage := c.2.2.2, role := role,
    partner := partner, core := some core, lastCore := core, context := context, extent := extent,
    ckptExtent := ckpt, body := p.body now, saved := none,
    awaiting := false, saveReq := none, primary := none, seconds := [], marked := false, unprotected := false,
    checkpoint := none, runs := 0, poisons := 0, forwarded := [], performed := [], cost := 0, est := none, seatedAt := bid,
    retry := none, avoid := [] }

/-- Seat the copies of a fresh block on cores, each with its extents and an acquire at .pkg (10 R197, R209; 11 R220). -/
def State.seatFresh (s : State) (p : LaunchParams) (index : Nat) (cores : List Nat) : State :=
  let a := s.fresh
  let one (t : State) (bid partner core : Nat) (role : Role) : State :=
    match t.reserveFor bid p with
    | none => t
    | some (u, x, k) =>
      let v := u.acquire core 6
      { v with blocks := v.blocks ++ [freshBlock p index bid partner core (v.freeContext core) x k v.time role] }
  let s1 : State := { s with fresh := s.fresh + 2 }
  match cores with
  | [c] => one s1 a a c .single
  | [c, d] => one (one s1 a (a + 1) c .leading) (a + 1) a d .trailing
  | _ => s

/-- SEAT the work of a launch where it has a place, and bill its queue (10 R202, R205, R206, R208 to R213). -/
def State.seatWork (s : State) (l : Launch) (w : Work) : Host.Outcome State Fault Refusal :=
  let s0 := if l.status = .ready then s.tcbStatus l.params 3 else s
  match w with
  | .again b => s0.resumeBlock b
  | .fresh i =>
    match s0.placeWork l w [] with
    | none => .next s
    | some (cores, rr) =>
      let c := l.params.coords i
      let s1 := (s0.logPlan l (c.1, c.2.1, c.2.2.1)).noteSeat (l.params.queue / 32) cores rr
      let s2 := (s1.seatFresh l.params i cores).bill l.params.queue s1.fresh
      .next (s2.modLaunch l.params.lid (fun x => { x.seatedBlock i with next := i + 1 }))

/-- What a top unit offers to seat next (10 R204 to R206): the state once it has visited its queues, the launch and its work. -/
def State.seatOffer (s : State) (unit : Nat) : State × Option (Launch × Work) :=
  let ready := s.readyQueues unit
  let s1 := (s.noteUnseated unit).noteReady unit (ready.map (·.1))
  let top := ready.foldl (fun m r => max m r.2.1.params.prio) 0
  let cands := (ready.filter (fun r => r.2.1.params.prio == top)).map (·.1)
  let picked : State × Option Nat :=
    if s.dean.drr then
      match s1.pickDeficit unit cands with
      | none => (s1, none)
      | some (s2, n) => (s2, some n)
    else (s1, s1.pickStride cands)
  (picked.1, picked.2.bind (fun n => (ready.find? (fun r => r.1 == n)).map (·.2)))

/-- The stacks at which a top unit has its work seated as it stands. -/
def State.offerStacks (s : State) (unit : Nat) : List Nat :=
  match (s.seatOffer unit).2 with
  | none => []
  | some (l, w) => match s.placeWork l w [] with
    | none => []
    | some (cores, _) => cores.map stackOf

/-- Whether the other top unit's offer comes first (10 R194): both offer to one stack, whose dean served this unit last; before it has
served any it serves unit 0. Of several such stacks the lowest decides, for a pair is seated as a whole. (DEDUCED, log entry 62.) -/
def State.yields (s : State) (unit : Nat) : Bool :=
  let theirs := s.offerStacks (1 - unit)
  match ((s.offerStacks unit).filter theirs.contains).foldl (fun acc k => sins acc k) [] with
  | [] => false
  | k :: _ => decide ((aget s.dean.lastUnit k).getD 1 = unit)

/-- BLOCK_SEAT (10 R204 to R208): the top unit seats one block of the queue that its mode picks, unless the stack's dean takes the
other unit's offer first (10 R194). -/
def execBlockSeat (unit : Nat) (s : State) : Host.Outcome State Fault Refusal :=
  if unit ≥ 2 then .next s
  else if s.yields unit then .next s
  else
    let o := s.seatOffer unit
    match o.2 with
    | none => .next o.1
    | some (l, w) => o.1.seatWork l w

/-- BLOCK_RESUME (10 R204, R213; 11 R218): the top unit seats a block that has run, where its choice of a queue and of that queue's oldest
ready launch comes to that block and the stack's dean does not take the other unit's offer first (10 R194). -/
def execBlockResume (bid : Nat) (s : State) : Host.Outcome State Fault Refusal :=
  match s.block? bid with
  | none => .next s
  | some b =>
    let unit := b.params.queue / 32
    if unit ≥ 2 || s.yields unit then .next s
    else
      let o := s.seatOffer unit
      match o.2 with
      | some (l, .again x) => if x.bid = bid then o.1.seatWork l (.again x) else .next s
      | _ => .next s

/-- End a trial whose launch ends (12 R254). -/
def State.trialLaunchEnd (s : State) (lid : Nat) : State :=
  if s.trial.run && decide (s.trial.lid = lid) then
    { s with trial := { s.trial with run := false, status := 3, delayed := false, pending := [], waited := [] } }
  else s

/-- The completion record of a launch, given its TCB (10 R202 step 2, R203). -/
def State.report (s : State) (lid : Nat) (tcb : Option (List Byte)) : State :=
  match s.launch? lid with
  | none => s
  | some l =>
    let w := tcbWords (tcb.getD [])
    s.sendCompletion (.launch lid) l.cq l.params.queue
      (completionRecord l.params.tcb (bits (w.getD 0 0) 16 16) (bits (w.getD 0 0) 8 8) (if l.abortedBlocks > 0 then 6 else 4)
        (w.getD 5 0) (w.getD 6 0))

/-- The first steps of a launch's completion (10 R202 steps 1 and 2). -/
def State.finishLaunch (s : State) (l : Launch) : State :=
  let st := if l.abortedBlocks > 0 then 6 else 4
  let s1 := (s.tcbStatus l.params st).trialLaunchEnd l.params.lid
  let s2 := s1.modLaunch l.params.lid (fun x =>
    { x with status := if st = 4 then .done else .aborted, reported := true, reportDone := decide (l.cq = 0) })
  if l.cq = 0 then s2
  else
    let r := s2.agentFetch l.params.space l.params.tcb.toNat 64 (.report l.params.lid)
    match r.2 with
    | none => r.1
    | some t => r.1.report l.params.lid t

/-- Decrement the PRED of a successor whose TCB word stands at its home (10 R201). -/
def State.decrement (s : State) (p : LaunchParams) (va : Nat) : State :=
  let bad (t : State) : State := t.sendLaunchRec p.queue (p.deanRec { code := .perm, detail := 8, addr := BitVec.ofNat 64 va })
  let r := s.agentPieces p.space va 8 needRW
  match r.2 with
  | .error _ => bad r.1
  | .ok ps =>
    let q := r.1.readHome p.space.core ps .normal
    match q.2, ps.head? with
    | .ok bs, some k =>
      let w := ofBytes bs
      let pred := bits w 32 16
      if pred = 0 then q.1.writeHome p.space.core ps (toBytes 8 (if bitAt w 48 then w else w + 2 ^ 48)) .normal
      else
        let mine := q.1.launches.find? (fun l => decide (l.status = .waiting) &&
          match (q.1.agentPieces l.params.space l.params.tcb.toNat 8 needRW).2 with
          | .ok (x :: _) => x.pa == k.pa
          | _ => false)
        let w1 := w - 2 ^ 32
        match (if pred = 1 ∧ w % 256 = 1 then mine else none) with
        | some l =>
          (q.1.writeHome p.space.core ps (toBytes 8 (w1 + 1)) .normal).modLaunch l.params.lid
            (fun x => { x with status := .ready })
        | none => q.1.writeHome p.space.core ps (toBytes 8 w1) .normal
    | _, _ => bad q.1

/-- The last step of a launch's completion (10 R202 step 4): its id, its place and the images of its aborted blocks are free (11 R218). -/
def State.dropLaunch (s : State) (lid : Nat) : State :=
  let gone := s.images.filter (fun im => im.lid == lid)
  let s2 := gone.foldl (fun t im => im.excess.foldl (fun u x => u.freeExtent x) (t.freeExtent im.base)) s
  { s2 with images := s2.images.filter (fun im => im.lid != lid), launches := s2.launches.filter (fun x => x.params.lid != lid) }

/-- Decrement every successor of a launch in list order, or, of a list that cannot be read, none (10 R201, R202 step 3). -/
def State.successors (s : State) (l : Launch) (list : Option (List Byte)) : State :=
  let p := l.params
  (match list with
    | none => s.sendLaunchRec p.queue (p.deanRec { code := .perm, detail := 8, addr := p.tcb })
    | some bs => ((List.range (bs.length / 8)).map (fun i => fieldAt bs (8 * i) 8)).foldl (fun t va => t.decrement p va) s).dropLaunch p.lid

/-- Read a launch's list of successors, given NSUCC and SUCCL as they stand in its TCB (10 R202 step 3). -/
def State.readList (s : State) (l : Launch) (words : Option (List Byte)) : State :=
  let bs := words.getD []
  let n := fieldAt bs 0 2
  let list := fieldAt bs 8 8
  if n = 0 then s.dropLaunch l.params.lid
  else if list % 8 ≠ 0 then s.successors l none
  else
    let r := s.agentFetch l.params.space list (8 * n) (.list l.params.lid)
    match r.2 with
    | none => r.1
    | some x => r.1.successors l x

/-- The last steps of a launch's completion (10 R202 steps 3 and 4). -/
def State.freeLaunch (s : State) (l : Launch) : State :=
  if l.status ≠ .done then s.dropLaunch l.params.lid
  else
    let r := s.agentFetch l.params.space (l.params.tcb.toNat + 8) 16 (.count l.params.lid)
    match r.2 with
    | none => r.1
    | some x => r.1.readList l x

/-- Whether a launch's completion awaits bytes from another device. -/
def State.completing (s : State) (lid : Nat) : Bool :=
  s.dean.reads.any (fun r => match r.task with
    | .judge _ _ => false
    | .report k => k == lid
    | .count k => k == lid
    | .list k => k == lid)

/-- The dean goes on with a task whose bytes have come, or of which another device has not sent all (05 R89; 10 R198, R202). -/
def State.deanGoesOn (s : State) (r : DeanRead) (bs : Option (List Byte)) : State :=
  let t : State := { s with dean := { s.dean with reads := s.dean.reads.filter (fun x => x.id != r.id) } }
  match r.task with
  | .judge n rec_ => t.judged n rec_ bs
  | .report lid => t.report lid bs
  | .count lid => match t.launch? lid with
    | none => t
    | some l => t.readList l bs
  | .list lid => match t.launch? lid with
    | none => t
    | some l => t.successors l bs

/-- Bytes of another device for a read of the dean have come, or will not. -/
def State.deanHears (s : State) (id off : Nat) (bs : Option (List Byte)) : State :=
  match s.dean.reads.find? (fun r => r.id == id), bs with
  | none, _ => s
  | some r, none => s.deanGoesOn r none
  | some r, some bs =>
    let known := r.known ++ (offsetBytes bs).map (fun b => (off + b.1, b.2))
    match gathered known r.len with
    | some all => s.deanGoesOn r (some all)
    | none => { s with dean := { s.dean with reads := s.dean.reads.map (fun x => if x.id = id then { x with known := known } else x) } }

/-- LAUNCH_COMPLETE (10 R202): after the last block; a full completion queue delays the last steps. -/
def execLaunchComplete (lid : Nat) (s : State) : Host.Outcome State Fault Refusal :=
  event (match s.launch? lid with
  | none => s
  | some l =>
    if l.retired + l.abortedBlocks < l.params.total then s
    else
      let s1 := if l.reported then s else s.finishLaunch l
      match s1.launch? lid with
      | none => s1
      | some m => if m.reportDone && !s1.completing lid then s1.freeLaunch m else s1)

/-- Blocks that the dean may pre-empt for a priority: running, of lower priority, and none whose pre-emption it has just abandoned (11
R224). -/
def State.victims (s : State) (prio : Nat) : List Block :=
  s.blocks.filter (fun b => b.running && !b.tooSoon s.time && decide (b.params.prio < prio))

/-- The victim of lowest priority, the youngest first (10 R212). What makes a block the youngest the spec does not say: the model
takes the one that has been on its core for the shortest time, so that a block that is resumed counts as seated anew. (DESIGN
CHOICE, log entry 66.) -/
def lowestYoungest (bs : List Block) : Option Block :=
  bs.foldl (fun (acc : Option Block) b => match acc with
    | none => some b
    | some a =>
      if b.params.prio < a.params.prio ∨ (b.params.prio = a.params.prio ∧ b.seatedAt > a.seatedAt) then some b else acc) none

/-- Whether removing a block, for a pair together with at most one more on another stack, lets work be seated (10 R212). -/
def State.helps (s : State) (l : Launch) (w : Work) (vs : List Block) (v : Block) : Bool :=
  (s.placeWork l w [v.bid]).isSome ||
    (l.params.paired && vs.any (fun u => decide (u.core.map stackOf ≠ v.core.map stackOf) &&
      (s.placeWork l w [v.bid, u.bid]).isSome))

/-- The first block of a launch whose period has passed and that a victim's removal would let seat, with the victim (10 R212). -/
def State.victimFor (s : State) (l : Launch) : Option Block :=
  (s.works l).findSome? (fun w => match aget l.unseatedSince w.index with
    | none => none
    | some t =>
      if s.time < t + s.dean.pwait * 256 * cycleTime || !s.poolRoom l w || (s.placeWork l w []).isSome then none
      else
        let vs := s.victims l.params.prio
        lowestYoungest (vs.filter (s.helps l w vs)))

/-- PREEMPT_PRIORITY (10 R212): one block at a time. -/
def execPreemptPriority (lid : Nat) (s : State) : Host.Outcome State Fault Refusal :=
  event (match s.launch? lid with
  | none => s
  | some l =>
    let busy := s.blocks.any (fun b => match b.saveReq with
      | some r => r.cause == 1
      | none => false)
    if l.held || busy then s
    else
      match s.victimFor l with
      | none => s
      | some v => s.preempt v 1)

/-- PREEMPT_HOST (10 R212): the blocks of a launch or of a core. -/
def execPreemptHost (target : PreemptTarget) (s : State) : Host.Outcome State Fault Refusal :=
  event (
    let hit (b : Block) : Bool := match target with
      | .launch lid => decide (b.params.lid = lid)
      | .core k => decide (b.core = some k)
    (s.blocks.filter (fun b => b.running && hit b)).foldl (fun t b => t.preempt b 2) s)

/-- PREEMPT_GOVERNOR (10 R212): in an emergency one block of the die every 10 µs. -/
def execPreemptGovernor (stack : Nat) (s : State) : Host.Outcome State Fault Refusal :=
  event (
    let g := s.governor stack
    if !g.emergency || decide (s.time < g.lastPreempt + nsTime 10000) then s
    else
      match lowestYoungest (s.blocks.filter (fun b => b.running && !b.tooSoon s.time && decide (b.core.map stackOf = some stack))) with
      | none => s
      | some v => { s.preempt v 3 with governors := aput s.governors stack { g with lastPreempt := s.time } })

end Sys2Proof.Machine
end

