-- ==== Sys2Proof/Machine/Pair.lean ====
section
/-!
DEFINITION. SIGNATURE_COMPARE (11 R233 to R237): the comparison of the two copies of a pair at a commit point, the drain that a
match allows, the return to the last checkpoints that a mismatch brings, and faults raised by one copy or by both.
-/
namespace Sys2Proof.Machine

/-- The signature of a block (11 R233): the exclusive-or of the CRCs of its fibres and lead, ended ones among them.
(DEDUCED, log entry 19.) -/
def Block.signature (b : Block) : DWord :=
  b.body.fibres.foldl (fun x e => x ^^^ e.2.crc) (b.body.endedCrc ^^^ b.body.lead.crc)

/-- The issuer that waits for the comparison at its commit point; at retirement the lead (11 R235). -/
def Block.atPoint (b : Block) : Option Who :=
  if b.allEnded then some .lead
  else b.whos.find? (fun w => match b.ctx? w with
    | some c => decide (c.phase.compare = .awaiting)
    | none => false)

/-- Whether an issuer waits for the other copy: for a result of it or at the slack limit. -/
def Ctx.waitsForCopy (c : Ctx) : Bool := decide (c.wait = some .pair) || decide (c.wait = some .slack)

/-- Whether an issuer waits for what other issuers of its block bring alone. -/
def Ctx.waitsInside (c : Ctx) : Bool :=
  c.waitsForCopy || decide (c.wait = some .barrier) || decide (c.wait = some .collective) || decide (c.wait = some .uqEmpty) ||
    decide (c.wait = some .uqFull)

/-- Whether a copy whose other copy has stopped gets no further than a commit point: an issuer stands at one, or each waits for the
other copy or behind one that does (11 R235). (DEDUCED, log entry 32.) -/
def Block.waitsForCopy (b : Block) : Bool :=
  let cs := (b.whos.filterMap b.ctx?).filter Ctx.isLive
  b.atPoint.isSome || (cs.any Ctx.waitsForCopy && cs.all Ctx.waitsInside)

/-- The commit ordinal at which a pair stands (11 R230, R235). -/
def Block.nextOrdinal (b : Block) : Nat := b.body.ordinal + 1

/-- Whether DN_STCTL is armed for a comparison of a block (11 R237). -/
def State.testArmed (s : State) (b : Block) : Bool :=
  let c := s.dean.stctl.toNat
  bitAt c 63 && decide (bits c 0 16 = b.params.lid) && decide (bits c 16 24 = b.index) &&
    decide (bits c 40 16 = b.nextOrdinal)

/-- Clear ARM of DN_STCTL, which has been used (11 R237). -/
def State.disarm (s : State) : State := { s with dean := { s.dean with stctl := s.dean.stctl &&& 0x7FFFFFFFFFFFFFFF#64 } }

/-- A copy after a matching comparison (11 R233, R235): the ordinal is taken, every CRC is 0, the issuer at the point goes on. -/
def Block.matched (b : Block) (who : Who) : Block :=
  let b1 := b.mapCtx (fun w c =>
    let c1 := { c with crc := 0 }
    if w = who then { c1 with wait := none, phase := { c1.phase with compare := .done } } else c1)
  { b1.modBody (fun y => { y with ordinal := y.ordinal + 1, endedCrc := 0, buffer := y.tagged }) with
      runs := 0, marked := b.marked || (!b.body.stores.isEmpty && decide (b.role = .leading)) }

/-- Bring what the leading copy has drained home, and let the trailing copy's core forget older copies: each copy's later reads
return what it stored (06 R121; 20 R419). -/
def State.settleStores (s : State) (l t : Block) (buf : List SbEntry) : State :=
  buf.foldl (fun u x =>
    let r := u.pieces l.space x.va.toNat x.bytes.length { r := false, w := false, x := false }
    match r.2 with
    | .error _ => r.1
    | .ok ps => ps.foldl (fun v p => (v.evictFor (l.core.getD 0) p.pa).evictFor (t.core.getD 0) p.pa) r.1) s

/-- Stop both copies of a pair with one fault (11 R235): each is saved, and the record is the leading copy's; engine operations that have
faulted end. -/
def State.stopPair (s : State) (l t : Block) (rl rt : FaultRec) : State :=
  let f (r : FaultRec) (x : Block) : Block := { x with primary := some r, saveReq := some { kind := 1, cause := 0 } }
  let s1 := (s.ops.filter (fun o => (o.bid == l.bid || o.bid == t.bid) && decide (o.phase = .faulted))).foldl (fun u o => u.endOp o) s
  (s1.modBlock l.bid (f rl)).modBlock t.bid (f rt)

/-- A mismatch (11 R235): both copies return to their last checkpoints; on the third run, or unprotected (11 R224), they stop
with SIGMIS. -/
def State.mismatch (s : State) (l t : Block) (who : Who) : State :=
  if l.runs ≥ 2 || l.unprotected || t.unprotected then
    let tr : Trap := { code := .sigmis, detail := l.nextOrdinal % 2 ^ 24, addr := 0 }
    s.stopPair l t (l.faultRec who (l.pcOf who) tr false) (t.faultRec who (t.pcOf who) tr false)
  else
    ((s.rollback l.bid []).rollback t.bid []).modBlock l.bid (fun b => { b with runs := l.runs + 1 })

/-- Compare the copies of a pair that both stand at a commit point (11 R235, R237). The comparison is made once the drains before it
have read their rows and the drain it allows can end: a page locked for migration or missing in translation holds it. (DEDUCED, log
entry 32.) -/
def State.compareAt (s : State) (l t : Block) (wl wt : Who) : State :=
  let armed := s.testArmed l
  let st := if armed then t.signature ^^^ s.dean.stxor else t.signature
  let s0 := if armed then s.disarm else s
  if l.signature ≠ st then s0.mismatch l t wl
  else
    let d := s0.drain l l.body.stores
    match d.fault, d.left with
    | some (who, pc, f), _ => if f.code = .xlate then s.parkOn l who pc f else s0.mismatch l t who
    | none, [] =>
      ((d.state.settleStores l t l.body.stores).modBlock l.bid (fun b => b.matched wl)).modBlock t.bid (fun b => b.matched wt)
    | none, _ => s

/-- Whether two stopping faults are the same: code, fibre and PC (11 R235). -/
def FaultRec.same (a b : FaultRec) : Bool := decide (a.code = b.code) && decide (a.who = b.who) && decide (a.pc = b.pc)

/-- Whether a copy waits at an instruction for the result of the other copy's, which faulted there. -/
def Block.awaitsResult (b : Block) (r : FaultRec) : Bool :=
  match b.ctx? r.who with
  | some c => decide (c.wait = some .pair) && decide (c.phase.compare ≠ .awaiting) && decide (c.pc = r.pc)
  | none => false

/-- Go on with a pair (11 R235): both copies at a commit point, or one or both of them stopped by a fault. -/
def State.pairTry (s : State) (l t : Block) : State :=
  match l.primary, t.primary with
  | some a, some b =>
    if a.same b then s.stopPair l t a b else s.mismatch l t a.who
  | some a, none =>
    if t.awaitsResult a then s.stopPair l t a a
    else if t.waitsForCopy then s.mismatch l t a.who
    else s
  | none, some b => if l.waitsForCopy then s.mismatch l t b.who else s
  | none, none =>
    match l.atPoint, t.atPoint with
    | some wl, some wt =>
      if s.rowsUnread l || s.rowsUnread t then s
      else
        let u := (s.flushCrc l.bid).flushCrc t.bid
        u.compareAt ((u.block? l.bid).getD l) ((u.block? t.bid).getD t) wl wt
    | _, _ => s

/-- The leading and trailing copies of the pair that a block belongs to, both resident and neither being saved. -/
def State.pairOf (s : State) (bid : Nat) : Option (Block × Block) :=
  match s.block? bid with
  | none => none
  | some b =>
    match b.role, s.block? b.partner with
    | .single, _ => none
    | _, none => none
    | r, some p =>
      let l := if r = .leading then b else p
      let t := if r = .leading then p else b
      if l.core.isSome && t.core.isSome && l.saveReq.isNone && t.saveReq.isNone then some (l, t) else none

/-- SIGNATURE_COMPARE (11 R235). Nothing is compared while a copy has yet to end the commit point it has passed. -/
def execSignatureCompare (bid : Nat) (s : State) : Host.Outcome State Fault Refusal :=
  event (match s.pairOf bid with
  | none => s
  | some (l, t) => if s.frozen l then s else s.pairTry l t)

end Sys2Proof.Machine
end

