-- ==== Sys2Proof/Machine/Trial.lean ====
section
/-!
DEFINITION. The causal trial (12 R253, R254): its registers, its windows and the pending delays of the cores.
-/
namespace Sys2Proof.Machine

/-- Cores that hold a block of the traced launch (12 R254). -/
def State.trialCores (s : State) : List Nat :=
  (List.range 128).filter (fun c => (s.residents c).any (fun b => decide (b.params.lid = s.trial.lid)))

/-- The inserted cycles of a window as it begins: 0 for every core that holds a block of the launch. -/
def State.zeroWaited (s : State) : List (Nat × Nat) := s.trialCores.map (fun c => (c, 0))

/-- TR_CTL as a read returns it (12 R253). -/
def Trial.ctl (t : Trial) : Nat :=
  bit01 t.run * 2 ^ 63 + t.delay * 2 ^ 48 + t.lid * 2 ^ 32 + t.nwin * 2 ^ 16

/-- Store the fields of TR_CTL (12 R253). -/
def Trial.fields (t : Trial) (v : Nat) : Trial :=
  { t with delay := bits v 48 8, lid := bits v 32 16, nwin := bits v 16 16 }

/-- Write TR_CTL (12 R253, R254): RUN = 1 with a delay starts a trial, RUN = 0 ends one. -/
def State.trialCtl (s : State) (v : Nat) : State :=
  let t := s.trial.fields v
  let idle : Trial := { t with run := false, delayed := false, pending := [], waited := [] }
  if !bitAt v 63 then { s with trial := { idle with status := if s.trial.run then 0 else t.status } }
  else if t.delay = 0 then { s with trial := { idle with status := if s.trial.run then 0 else t.status } }
  else
    let s1 : State := { s with trial := { idle with
      run := true, status := 1, pairs := 0, inserted := 0, pb := [], pd := [], windowEnd := s.time + t.win * cycleTime } }
    { s1 with trial := { s1.trial with waited := s1.zeroWaited } }

/-- TRIAL_START (12 R254): a write of TR_CTL. -/
def execTrialStart (value : DWord) (s : State) : Host.Outcome State Fault Refusal := event (s.trialCtl value.toNat)

/-- The mean of the cores' inserted cycles, rounded down. (DEDUCED, log entry 34.) -/
def Trial.mean (t : Trial) : Nat := (t.waited.map (·.2)).sum / t.waited.length

/-- TRIAL_WINDOW_END (12 R254): a baseline window gives way to a delayed one; a delayed one adds its mean to INS and completes a
pair. -/
def execTrialWindowEnd (s : State) : Host.Outcome State Fault Refusal :=
  event (
    let t := s.trial
    if !t.run || s.time < t.windowEnd then s
    else
      let next : Trial := { t with pending := [], waited := s.zeroWaited, windowEnd := t.windowEnd + t.win * cycleTime }
      if !t.delayed then { s with trial := { next with delayed := true } }
      else
        let done : Trial := { next with inserted := (t.inserted + t.mean) % 2 ^ 64, pairs := t.pairs + 1, delayed := false }
        if t.pairs + 1 < max 1 t.nwin then { s with trial := done }
        else { s with trial := { done with run := false, status := 2, waited := [] } })

/-- The cores whose pending delay ends with the cycle that begins (12 R254). -/
def State.delaysEnding (s : State) : List Nat :=
  if s.trial.run then (s.trial.pending.filter (fun p => p.2 == 1)).map (·.1) else []

/-- Count one core cycle of a trial (12 R254): a pending delay above 1 falls by one, and a core that has come to hold the launch
counts in the mean. -/
def State.trialCycle (s : State) : State :=
  let t := s.trial
  if !t.run then s
  else
    let w0 := s.trialCores.foldl (fun w c => if (aget w c).isSome then w else aput w c 0) t.waited
    let go := t.pending.filter (fun p => decide (p.2 > 1))
    let w1 := go.foldl (fun w p => aput w p.1 ((aget w p.1).getD 0 + 1)) w0
    { s with trial := { t with waited := w1, pending := t.pending.map (fun p => if p.2 > 1 then (p.1, p.2 - 1) else p) } }

/-- TRIAL_DELAY_EXPIRE (12 R254): a cycle of a core's pending delay passes, as a rule its last, after which its held issuers may
issue again. -/
def execTrialDelayExpire (core : Nat) (s : State) : Host.Outcome State Fault Refusal :=
  event (
    let t := s.trial
    if !t.run || decide (sget 0 t.pending core = 0) then s
    else { s with trial := { t with pending := sput 0 t.pending core (sget 0 t.pending core - 1),
                                    waited := aput t.waited core ((aget t.waited core).getD 0 + 1) } })

end Sys2Proof.Machine
end

