-- ==== Sys2Proof/Machine/Power.lean ====
section
/-!
DEFINITION. The governor of each stack die (13 R267): GV_CTL, throttle states, refresh multipliers and the emergency state.
-/
namespace Sys2Proof.Machine

/-- A new value of a governor, with the throttle state that it leaves kept with the time. -/
def Governor.remember (g old : Governor) (now : Nat) : Governor :=
  if g.throttle = old.throttle then g else { g with history := (now, old.throttle) :: old.history }

/-- Change the governor of a die; a throttle state that it leaves is kept with the time. -/
def State.setGovernor (s : State) (stack : Nat) (g : Governor) : State :=
  { s with governors := aput s.governors stack (g.remember (s.governor stack) s.time) }

/-- Refresh multiplier of a throttle state (13 R267). -/
def refreshMult (t : Nat) : Nat := [1, 2, 2, 2, 4, 4, 4, 4].getD t 4

/-- The DRAM's own demand by its hottest sensor (13 R267). -/
def dramDemand (celsius : Int) : Nat := if celsius > 95 then 4 else if celsius > 85 then 2 else 1

/-- Whether a governor steps up (13 R267). -/
def stepsUp (policy : Bool) (cap : Nat) (r : Reading) : Bool :=
  decide (r.junction ≥ 100) || decide (r.packagePower > cap * 10) || (!policy && decide (r.dram > 82))

/-- The throttle state after a step (13 R267): at most one up or down; T7 for as long as an emergency lasts.
(DEDUCED, log entry 35.) -/
def Governor.moved (g : Governor) (policy : Bool) (cap : Nat) (r : Reading) : Nat :=
  if g.emergency then 7
  else if stepsUp policy cap r then min 7 (g.throttle + 1)
  else if r.junction < 95 then g.throttle - 1
  else g.throttle

/-- Whether a reading shows a cause of an emergency (13 R267): an alert, more than 15,000 W, 110 °C. -/
def causeSeen (c : EmergencyCause) (r : Reading) : Bool :=
  match c with
  | .regulatorAlert => r.alert
  | .overpower => decide (r.packagePower > 15000)
  | .junction110 => decide (r.junction ≥ 110)

/-- Put a die into the emergency state for a cause (13 R267): T7 at once. -/
def Governor.alarm (g : Governor) (c : EmergencyCause) (now : Nat) : Governor :=
  { g with throttle := 7, emergency := true, causes := c :: g.causes.filter (fun x => x ≠ c), emergencyAt := now,
           refresh := max 4 g.refresh }

/-- Since when the package has drawn more than 15,000 W, after a reading (13 R267). -/
def Governor.over (g : Governor) (r : Reading) (now : Nat) : Option Nat :=
  if r.packagePower > 15000 then some (g.overSince.getD now) else none

/-- The causes of an emergency that a reading shows: power above 15,000 W only once that has lasted 1 ms (13 R267). -/
def Governor.alarms (g : Governor) (r : Reading) (now : Nat) : List EmergencyCause :=
  (if r.alert then [.regulatorAlert] else []) ++ (if r.junction ≥ 110 then [.junction110] else []) ++
    (match g.over r now with
      | some t => if now ≥ t + nsTime 1000000 then [.overpower] else []
      | none => [])

/-- A governor's step at a time (13 R267): at most one state up or down and the refresh that follows; the causes of its emergency
that still show; and an emergency begun by what the reading shows. -/
def Governor.step (g : Governor) (policy : Bool) (cap : Nat) (r : Reading) (now : Nat) : Governor :=
  let t := g.moved policy cap r
  let g1 := { g with throttle := t, refresh := max (refreshMult t) (dramDemand r.dram), lastStep := now, overSince := g.over r now,
                     emergencyAt := if g.causes.any (fun c => causeSeen c r) then now else g.emergencyAt }
  (g.alarms r now).foldl (fun x c => x.alarm c now) g1

/-- GOVERNOR_STEP (13 R267): every 10 µs. -/
def execGovernorStep (stack : Nat) (reading : Reading) (s : State) : Host.Outcome State Fault Refusal :=
  event (
    let g := s.governor stack
    if stack ≥ 32 || decide (s.time < g.lastStep + nsTime 10000) then s
    else s.setGovernor stack (g.step s.gvPolicy s.gvCap reading s.time))

/-- GOVERNOR_EMERGENCY_BEGIN (13 R267): the named dies go to T7 at once, for the cause; pre-emption follows (10 R212). -/
def execGovernorEmergencyBegin (dies : List Nat) (cause : EmergencyCause) (s : State) : Host.Outcome State Fault Refusal :=
  event ((dies.filter (fun k => decide (k < 32))).foldl (fun t k => t.setGovernor k ((t.governor k).alarm cause s.time)) s)

/-- GOVERNOR_EMERGENCY_END (13 R267): 1 ms after the emergency's own causes were last seen. -/
def execGovernorEmergencyEnd (stack : Nat) (s : State) : Host.Outcome State Fault Refusal :=
  event (
    let g := s.governor stack
    if g.emergency && decide (s.time ≥ g.emergencyAt + nsTime 1000000) then
      s.setGovernor stack { g with emergency := false, causes := [] }
    else s)

/-- Read GV_CTL (13 R267). -/
def State.gvCtl (s : State) : Nat := s.gvCap * 2 ^ 16 + bit01 s.gvPolicy

/-- Write GV_CTL (13 R267): a cap above 1,500 stores 1,500. -/
def State.setGvCtl (s : State) (v : Nat) : State := { s with gvPolicy := bitAt v 0, gvCap := min 1500 (bits v 16 16) }

end Sys2Proof.Machine
end

