-- ==== Sys2Proof/Machine/Dram.lean ====
section
/-!
DEFINITION. The DRAM channel controllers (05 R112 to R115): the order of service, activation counters, refresh management and
back-off. A channel is numbered 32 × stack + channel, a bank 16 × pseudo-channel + 4 × bank group + bank.
-/
namespace Sys2Proof.Machine

/-- A channel controller. -/
def State.channel (s : State) (n : Nat) : Channel := (aget s.channels n).getD Channel.reset

/-- Replace a channel controller. -/
def State.setChannel (s : State) (n : Nat) (c : Channel) : State := { s with channels := aput s.channels n c }

/-- A bank of a channel. -/
def Channel.bank (c : Channel) (b : Nat) : Bank := (aget c.banks b).getD Bank.reset

/-- Replace a bank. -/
def Channel.setBank (c : Channel) (b : Nat) (x : Bank) : Channel := { c with banks := aput c.banks b x }

/-- The bank that a request names (05 R105). -/
def DramReq.bank (r : DramReq) : Nat := bits r.cell 20 5

/-- The row that a request names (05 R105). -/
def DramReq.row (r : DramReq) : Nat := bits r.cell 5 15

/-- Whether a deadline request comes within DLTHR of its latest-service time (05 R112). -/
def Channel.due (c : Channel) (now : Nat) (r : DramReq) : Bool :=
  decide (r.cls = .deadline) && decide (now + nsTime c.dlthr ≥ r.latest)

/-- Whether a request is urgent (05 R112). -/
def Channel.isUrgent (c : Channel) (now : Nat) (r : DramReq) : Bool := r.urgent || c.due now r

/-- The requests that may be served: their banks are not in back-off (05 R114), and no older request waits for their column unit
(05 R112). -/
def Channel.candidates (c : Channel) : List DramReq :=
  (c.reqs.foldl (fun (acc : List Nat × List DramReq) r =>
    (r.cell :: acc.1, if acc.1.contains r.cell || (c.bank r.bank).backoffEnd.isSome then acc.2 else acc.2 ++ [r])) ([], [])).2

/-- Whether a request hits the open row of its bank. -/
def Channel.hits (c : Channel) (r : DramReq) : Bool := decide ((c.bank r.bank).openRow = some r.row)

/-- An open row first, otherwise the oldest (05 R112). -/
def Channel.hitOrOldest (c : Channel) (rs : List DramReq) : Option DramReq :=
  match rs.find? (fun r => c.hits r) with
  | some r => some r
  | none => rs.head?

/-- The earliest deadline, the older of equals. -/
def earliest (rs : List DramReq) : Option DramReq :=
  rs.foldl (fun acc r => match acc with
    | none => some r
    | some x => if r.latest < x.latest then some r else acc) none

/-- The request that the controller serves next (05 R112): urgent ones, then the bulk share, then open rows, then age. -/
def Channel.next (c : Channel) (now : Nat) : Option DramReq :=
  let rs := c.candidates
  match earliest (rs.filter (fun r => c.isUrgent now r)) with
  | some r => some r
  | none =>
    let bulk := rs.filter (fun r => decide (r.cls = .bulk))
    if !bulk.isEmpty && decide (c.sinceBulk + 1 ≥ max 1 c.bulksh) then c.hitOrOldest bulk else c.hitOrOldest rs

/-- A bank after an activation of a row (05 R114): its counter grows. -/
def Bank.activate (b : Bank) (row : Nat) : Bank :=
  { b with openRow := some row, counts := sput 0 b.counts row (sget 0 b.counts row + 1) }

/-- A bank whose counter of a row has reached ACTTHR (05 R114): refresh management of its neighbours, which changes no counter,
the counter at 0, and back-off. RFMCNT counts modulo 2^32: the spec says only of BACKOFF that it saturates. (DESIGN CHOICE, log entry
58.) -/
def Bank.threshold (b : Bank) (row now : Nat) : Bank :=
  { b with openRow := none, counts := sput 0 b.counts row 0, rfmcnt := (b.rfmcnt + 1) % 2 ^ 32,
           backoff := min (b.backoff + 280) 0xFFFFFFFF, backoffEnd := some (now + nsTime 280) }

/-- A bank after the service of a request to a row (05 R112, R114). -/
def Bank.serve (b : Bank) (row thr now : Nat) : Bank :=
  if b.openRow = some row then b
  else
    let x := b.activate row
    if sget 0 x.counts row ≥ thr then x.threshold row now else x

/-- A channel after the service of a request (05 R112, R114). -/
def Channel.serve (c : Channel) (r : DramReq) (now : Nat) : Channel :=
  let c1 := c.setBank r.bank ((c.bank r.bank).serve r.row c.actthr now)
  let left := c.reqs.filter (fun q => q.did != r.did)
  let since :=
    if c.isUrgent now r then c.sinceBulk
    else if r.cls = .bulk then 0
    else if c.reqs.any (fun q => decide (q.cls = .bulk)) then c.sinceBulk + 1
    else 0
  { c1 with reqs := left, sinceBulk := since }

/-- An uncorrectable error is detected in the 64 bytes that a request reads (05 R117): their sectors are poisoned, with the copies of
the core that takes them and what an engine has copied from them, and the producer whose request it is faults. -/
def State.dramError (s : State) (r : DramReq) (origin : Nat) : State :=
  let ks := [2 * r.cell, 2 * r.cell + 1]
  let s1 := s.addPoison (r.cell * 64) 64 origin
  let s2 := match r.reader with
    | some core => ks.foldl (fun (t : State) k => t.poisonCopy core k) s1
    | none => r.lands.foldl (fun (t : State) k => t.addPoison (k * 32) 32 origin) s1
  s2.poisonReaders (fun p => p.owns r.did) (fun k => ks.contains k) origin

/-- DRAM_REQUEST_SERVICE (05 R112): the next request is served, perhaps with an uncorrectable error (05 R117). -/
def execDramRequestService (visit : DramVisit) (s : State) : Host.Outcome State Fault Refusal :=
  event (
    let c := s.channel visit.channel
    match c.next s.time with
    | none => s
    | some r =>
      let s1 := s.setChannel visit.channel (c.serve r s.time)
      match visit.error with
      | some origin => s1.dramError r origin
      | none => s1)

/-- DEADLINE_URGENT (05 R112). -/
def execDeadlineUrgent (channel : Nat) (s : State) : Host.Outcome State Fault Refusal :=
  event (
    let c := s.channel channel
    s.setChannel channel { c with reqs := c.reqs.map (fun r => if c.due s.time r then { r with urgent := true } else r) })

/-- BANK_BACKOFF_END (05 R114). -/
def execBankBackoffEnd (channel : Nat) (bank : Nat) (s : State) : Host.Outcome State Fault Refusal :=
  event (
    let c := s.channel channel
    let b := c.bank bank
    match b.backoffEnd with
    | none => s
    | some t => if s.time < t then s else s.setChannel channel (c.setBank bank { b with openRow := none, backoffEnd := none }))

/-- The bank that ACTSEL selects (05 R115). -/
def actBank (sel : Nat) : Nat := bits sel 15 5

/-- Write ACTSEL (05 R115): the selection, and with CLR every counter of the selected bank. -/
def Channel.setActsel (c : Channel) (v : Nat) : Channel :=
  let c1 := { c with actsel := BitVec.ofNat 64 (v % 2 ^ 20) }
  if bitAt v 63 then c1.setBank (actBank v) { c1.bank (actBank v) with counts := [] } else c1

/-- ACTSEL_CLEAR (05 R115). -/
def execActselClear (channel : Nat) (value : DWord) (s : State) : Host.Outcome State Fault Refusal :=
  event (s.setChannel channel ((s.channel channel).setActsel value.toNat))

/-- ORDINARY_REFRESH (05 R114, 13 R267): an open row closes and no counter changes. -/
def execOrdinaryRefresh (channel : Nat) (bank : Nat) (s : State) : Host.Outcome State Fault Refusal :=
  event (
    let c := s.channel channel
    s.setChannel channel (c.setBank bank { c.bank bank with openRow := none }))

/-- Write MCCFG (05 R113). -/
def Channel.setMccfg (c : Channel) (v : Nat) : Channel :=
  { c with bulksh := bits v 48 4, dlbudget := bits v 32 16, dlthr := bits v 16 16, actthr := max 64 (bits v 0 16) }

/-- Read MCCFG (05 R113). -/
def Channel.mccfg (c : Channel) : Nat := c.bulksh * 2 ^ 48 + c.dlbudget * 2 ^ 32 + c.dlthr * 2 ^ 16 + c.actthr

/-- Read BANKSTAT (05 R114). -/
def Bank.stat (b : Bank) : Nat := b.backoff * 2 ^ 32 + b.rfmcnt

/-- Read ACTCNT (05 R115). -/
def Channel.actcnt (c : Channel) : Nat := sget 0 (c.bank (actBank c.actsel.toNat)).counts (bits c.actsel.toNat 0 15)

end Sys2Proof.Machine
end

