-- ==== Sys2Proof/Machine/Registers.lean ====
section
/-!
DEFINITION. Device registers as the host driver reaches them through the management registers (13 R257): what a write stores
under the access codes of 00 R4, and what a read returns. AMAP_COMMIT and LAUNCH_QUEUE_ENABLE.
-/
namespace Sys2Proof.Machine

/-- Bits hi down to lo of a written value, in place. -/
def keep (v lo n : Nat) : DWord := BitVec.ofNat 64 (bits v lo n * 2 ^ lo)

/-- Change the dean's registers. -/
def State.modDean (s : State) (f : Dean → Dean) : State := { s with dean := f s.dean }

/-- Whether a launch queue may be enabled: the size codes of its handle and its fault queue (10 R195). -/
def LaunchQueue.mayEnable (q : LaunchQueue) : Bool :=
  decide (bits q.handle.toNat 0 3 = 5) && decide (bits q.faultq.toNat 0 3 = 3)

/-- Write LQ_CFG (10 R195): while EN = 1 only EN is written; EN = 1 is stored only with the right size codes. -/
def LaunchQueue.setCfg (q : LaunchQueue) (v : Nat) : LaunchQueue :=
  let q1 := if q.en then q else { q with tickets := bits v 32 16, priv := bitAt v 16, asn := bits v 0 16 }
  { q1 with en := bitAt v 17 && q1.mayEnable }

/-- Write a register of a launch queue other than LQ_CFG, ignored while EN = 1 (10 R195). -/
def State.setQueueReg (s : State) (n : Nat) (f : LaunchQueue → LaunchQueue) : State :=
  if n ≥ 64 || (s.lq n).en then s else s.setLq n (f (s.lq n))

/-- Write LQ_CFG of a queue. -/
def State.setQueueCfg (s : State) (n v : Nat) : State := if n ≥ 64 then s else s.setLq n ((s.lq n).setCfg v)

/-- Write a trial register other than TR_CTL, ignored while RUN = 1 (12 R253). -/
def State.setTrial (s : State) (f : Trial → Trial) : State := if s.trial.run then s else { s with trial := f s.trial }

/-- Write an import window of a source device (13 R264): value holds the base, in 2 MiB units. -/
def Peers.setImport (p : Peers) (i : Import) : Peers :=
  { p with imports := i :: p.imports.filter (fun x => !(x.device == i.device && x.window == i.window)) }

/-- Write one of the four routing entries of a device (13 R263). -/
def Peers.setRoute (p : Peers) (device entry : Nat) (v : DWord) : Peers :=
  if device < 1024 && entry < 4 then { p with routes := aput p.routes (device * 4 + entry) v } else p

/-- Whether a write of HIFENCE is accepted (13 R258). -/
def Port.accepts (p : Port) (v : Nat) : Bool :=
  !p.busy && decide (2 ≤ v % 16) && decide (v % 16 ≤ 10) && decide (bits v 4 59 = 0)

/-- Write HIFENCE (13 R258): accepted, it is busy until every core in scope has discarded its instruction cache, those of the pod's
other packages too at scopes 8 to 10; refused, it sets ERR alone. -/
def State.writeHifence (s : State) (port v : Nat) : State :=
  let p := s.port port
  if port ≥ 2 then s
  else if !p.accepts v then s.setPort port { p with err := true }
  else
    let s1 := s.setPort port { p with busy := true, err := false, tmo := false, scope := v % 16, fenceAt := s.time, fenceFrom := s.fresh,
                                      fenceDead := false }
    if v % 16 < 8 then s1
    else s1.members.foldl (fun t d => t.remoteSend (d * 2 ^ 42) .codeFence (.fence port) none 0) s1

/-- HIFENCE as a read returns it (13 R258). -/
def Port.hifence (p : Port) : Nat := bit01 p.busy * 2 ^ 63 + bit01 p.err * 2 ^ 62 + bit01 p.tmo * 2 ^ 61 + p.scope

/-- Whether a request was made by a queue window. -/
def QReq.ofWindow (q : QReq) (port w : Nat) : Bool :=
  match q.from_ with
  | .window p x _ => p == port && x == w
  | _ => false

/-- Write QW_HANDLE (13 R259): the handle is stored and the staging FIFO is emptied. -/
def State.setWindowHandle (s : State) (port w : Nat) (v : DWord) : State :=
  (s.withdrawReqs (fun q => q.ofWindow port w && q.enq)).modWindow port w (fun x => { x with handle := v, fifo := [], sending := none })

/-- Whether bytes are one element of the queue that a handle names (13 R259). -/
def oneElement (handle : DWord) (element : List Byte) : Bool :=
  let code := bits handle.toNat 0 3
  decide (code ≤ 6) && decide (element.length = codeSize code)

/-- A write to QW_ENQ (13 R259): one element, at its first offset, enters the staging FIFO; any other write or a full FIFO counts as a
drop. -/
def State.stageElement (s : State) (port w offset : Nat) (element : List Byte) : State :=
  s.modWindow port w (fun x =>
    if offset = 0x100 && oneElement x.handle element && decide (x.fifo.length < 16) then { x with fifo := x.fifo ++ [element] }
    else { x with drops := min (x.drops + 1) 0xFFFFFFFF })

/-- The dean's register at an offset (10 R195; 11 R218, R220, R224, R237; 12 R252, R253; 10 R438). -/
def deanReg (off : Nat) : Option DevReg :=
  if 0x240 ≤ off ∧ off < 0x2C0 then some (.trPb ((off - 0x240) / 8))
  else if 0x2C0 ≤ off ∧ off < 0x340 then some (.trPd ((off - 0x2C0) / 8))
  else
    match off with
    | 0x0 => some .dnCtl
    | 0x100 => some .dnSvbase
    | 0x108 => some .dnSvsize
    | 0x110 => some .dnResq
    | 0x120 => some .dnStctl
    | 0x128 => some .dnStxor
    | 0x130 => some .dnTrq
    | 0x138 => some .dnTrdrop
    | 0x140 => some .dnSvfail
    | 0x148 => some .dnSvq
    | 0x200 => some .trCtl
    | 0x208 => some .trWin
    | 0x210 => some .trLo
    | 0x218 => some .trHi
    | 0x220 => some .trStat
    | 0x228 => some .trIns
    | _ => none

/-- The register of a launch queue at an offset (10 R195). -/
def queueRegAt (n off : Nat) : Option DevReg :=
  match off with
  | 0x00 => some (.lqHandle n)
  | 0x08 => some (.lqPtroot n)
  | 0x10 => some (.lqCfg n)
  | 0x18 => some (.lqQuant n)
  | 0x20 => some (.lqSpbase n)
  | 0x28 => some (.lqSporg n)
  | 0x30 => some (.lqSpn n)
  | 0x38 => some (.lqFaultq n)
  | _ => none

/-- The register at an offset of the address-mapping block (05 R107, R110). -/
def amapReg (off : Nat) : Option DevReg :=
  let n := off / 0x400
  let rel := off % 0x400
  if off = 0x2000 then some .apWin
  else if n ≥ 8 then none
  else if rel = 0 then some (.amapCtl n)
  else if rel = 8 then some (.amapBase n)
  else if rel = 0x10 then some (.amapLimit n)
  else if 0x100 ≤ rel ∧ rel < 0x100 + 8 * 35 then some (.amapMask n ((rel - 0x100) / 8))
  else none

/-- The register at an offset of BAR 0 (13 R257, R263, R267, R269). -/
def bar0Reg (off : Nat) : Option DevReg :=
  if off % 8 ≠ 0 then none
  else if off < 0x10000 then deanReg off
  else if off < 0x11000 then queueRegAt ((off - 0x10000) / 0x40) (off % 0x40)
  else if 0x100000 ≤ off ∧ off < 0x200000 then amapReg (off - 0x100000)
  else if off = 0x200000 then some .gvCtl
  else if 0x300000 ≤ off ∧ off < 0x308000 then some (.route ((off - 0x300000) / 32) (off % 32 / 8))
  else if off = 0x400000 then some .hifence
  else if off = 0x400008 then some .haBase
  else if 0x800000 ≤ off ∧ off < 0x1000000 then some (.expert (off - 0x800000))
  else none

/-- The register at an offset of BAR 2, read or written in 8 bytes (13 R259). -/
def bar2Reg (off : Nat) : Option DevReg :=
  let w := off / 0x1000
  if w ≥ 64 then none
  else
    match off % 0x1000 with
    | 0x000 => some (.qwHandle w)
    | 0x008 => some (.qwStat w)
    | 0x100 => some (.qwEnq w)
    | 0x300 => some (.qwDeq w)
    | r => if 0x200 ≤ r ∧ r < 0x300 ∧ r % 8 = 0 then some (.qwHold w ((r - 0x200) / 8)) else none

/-- The register that an access names: the one at an offset of a BAR, or the one named. -/
def regNamed (r : DevReg) : Option DevReg :=
  match r with
  | .bar0 off => bar0Reg off
  | .bar2 off => bar2Reg off
  | _ => some r

/-- A write to a named register stores its fields under their access codes (00 R4): what is written to bits that the manual calls
zero is dropped, and what lies beside them is stored. The dead map has a register for each device id: bit 0 is the mark, a write
with that bit clear clears it, and any other does nothing; 13 R265 gives it neither place nor layout (DESIGN CHOICE, log entry 66).
The expert level ignores writes while locked; unlocked, the manual gives it no field (13 R269). (DESIGN CHOICE, log entry 38.) -/
def State.writeNamed (s : State) (port : Nat) (reg : DevReg) (value : DWord) : State :=
  let v := value.toNat
  match reg with
  | .dnCtl => s.modDean (fun d => { d with drr := bitAt v 0, pwait := bits v 16 16 })
  | .dnSvbase => s.modDean (fun d => { d with svbase := keep v 16 36 })
  | .dnSvsize => s.modDean (fun d => { d with svsize := bits v 0 32 })
  | .dnResq => s.modDean (fun d => { d with resq := value })
  | .dnStctl => s.modDean (fun d => { d with stctl := keep v 63 1 ||| keep v 0 56 })
  | .dnStxor => s.modDean (fun d => { d with stxor := value })
  | .dnTrq => s.modDean (fun d => { d with trq := value })
  | .dnTrdrop => s
  | .dnSvfail => s
  | .dnSvq => s.modDean (fun d => { d with svq := bits v 0 6 })
  | .lqHandle n => s.setQueueReg n (fun q => { q with handle := value })
  | .lqPtroot n => s.setQueueReg n (fun q => { q with root := keep v 21 31 })
  | .lqCfg n => s.setQueueCfg n v
  | .lqQuant n => s.setQueueReg n (fun q => { q with quant := bits v 0 32 })
  | .lqSpbase n => s.setQueueReg n (fun q => { q with spbase := keep v 0 52 })
  | .lqSporg n => s.setQueueReg n (fun q => { q with sporg := keep v 21 43 })
  | .lqSpn n => s.setQueueReg n (fun q => { q with spn := bits v 0 32 })
  | .lqFaultq n => s.setQueueReg n (fun q => { q with faultq := value })
  | .trCtl => s.trialCtl v
  | .trWin => s.setTrial (fun t => { t with win := max 4096 (bits v 0 32) })
  | .trLo => s.setTrial (fun t => { t with lo := value })
  | .trHi => s.setTrial (fun t => { t with hi := value })
  | .trStat => s
  | .trIns => s
  | .trPb _ => s
  | .trPd _ => s
  | .amapCtl n => if n < 8 then s.amapCtl n v else s
  | .amapBase n => if n < 8 then s.amapWrite (n * 0x400 + 8) v else s
  | .amapLimit n => if n < 8 then s.amapWrite (n * 0x400 + 0x10) v else s
  | .amapMask n k => if n < 8 && k < 35 then s.amapWrite (n * 0x400 + 0x100 + 8 * k) v else s
  | .apWin => s.amapWrite 0x2000 v
  | .mccfg c => if c < 1024 then s.setChannel c ((s.channel c).setMccfg v) else s
  | .bankstat c b =>
    if c < 1024 && b < 32 then
      s.setChannel c ((s.channel c).setBank b { (s.channel c).bank b with rfmcnt := bits v 0 32, backoff := bits v 32 32 })
    else s
  | .actsel c => if c < 1024 then s.setChannel c ((s.channel c).setActsel v) else s
  | .actcnt _ => s
  | .gvCtl => s.setGvCtl v
  | .hifence => s.writeHifence port v
  | .haBase => s.setPort port { s.port port with haBase := bits v 36 6 }
  | .qwHandle w => s.setWindowHandle port w value
  | .qwStat _ => s
  | .qwEnq w => s.stageElement port w 0x100 (toBytes 8 v)
  | .qwHold .. => s
  | .qwDeq _ => s
  | .importWindow device window limit r w a =>
    if device < 1024 && window < 8 then
      { s with peers := s.peers.setImport { device := device, window := window, base := bits v 0 21, limit := limit,
                                            read := r, write := w, atomic := a } }
    else s
  | .route device entry => s.modPeers (fun p => p.setRoute device entry value)
  | .deadMap device => if v % 2 = 0 then s.modPeers (fun p => { p with dead := sdel p.dead device }) else s
  | .expert _ => s
  | .bar0 _ => s
  | .bar2 _ => s

/-- A write to a device register, by its name or at its offset in a BAR; an offset that has none ignores it. Bits that a
register's layout gives as zero are dropped and the rest is stored; only HIFENCE has a rule of its own (00 R4). (DESIGN CHOICE, log
entry 38.) -/
def State.writeReg (s : State) (port : Nat) (reg : DevReg) (value : DWord) : State :=
  match regNamed reg with
  | some r => s.writeNamed port r value
  | none => s

/-- QW_STAT of a window (13 R259). -/
def Window.stat (w : Window) : Nat := w.drops * 2 ^ 32 + w.err * 2 ^ 8 + (16 - w.fifo.length)

/-- What a read of a named register returns. A queue window's held element reads 8 bytes at a time, little-endian, QW_DEQ as what its last
read came to; write-only fields read as zero (00 R4). -/
def State.readNamed (s : State) (port : Nat) (reg : DevReg) : Nat :=
  let d := s.dean
  let t := s.trial
  match reg with
  | .dnCtl => d.pwait * 2 ^ 16 + bit01 d.drr
  | .dnSvbase => d.svbase.toNat
  | .dnSvsize => d.svsize
  | .dnResq => d.resq.toNat
  | .dnStctl => d.stctl.toNat
  | .dnStxor => d.stxor.toNat
  | .dnTrq => d.trq.toNat
  | .dnTrdrop => d.trdrop
  | .dnSvfail => d.svfail
  | .dnSvq => d.svq
  | .lqHandle n => (s.lq n).handle.toNat
  | .lqPtroot n => (s.lq n).root.toNat
  | .lqCfg n => (s.lq n).tickets * 2 ^ 32 + bit01 (s.lq n).en * 2 ^ 17 + bit01 (s.lq n).priv * 2 ^ 16 + (s.lq n).asn
  | .lqQuant n => (s.lq n).quant
  | .lqSpbase n => (s.lq n).spbase.toNat
  | .lqSporg n => (s.lq n).sporg.toNat
  | .lqSpn n => (s.lq n).spn
  | .lqFaultq n => (s.lq n).faultq.toNat
  | .trCtl => t.ctl
  | .trWin => t.win
  | .trLo => t.lo.toNat
  | .trHi => t.hi.toNat
  | .trStat => t.pairs * 2 ^ 16 + t.status
  | .trIns => t.inserted
  | .trPb k => sget 0 t.pb k
  | .trPd k => sget 0 t.pd k
  | .amapCtl n => s.amapRead (n * 0x400)
  | .amapBase n => s.amapRead (n * 0x400 + 8)
  | .amapLimit n => s.amapRead (n * 0x400 + 0x10)
  | .amapMask n k => s.amapRead (n * 0x400 + 0x100 + 8 * k)
  | .apWin => s.apwin
  | .mccfg c => (s.channel c).mccfg
  | .bankstat c b => ((s.channel c).bank b).stat
  | .actsel c => (s.channel c).actsel.toNat
  | .actcnt c => (s.channel c).actcnt
  | .gvCtl => s.gvCtl
  | .hifence => (s.port port).hifence
  | .haBase => (s.port port).haBase * 2 ^ 36
  | .qwHandle w => (s.window port w).handle.toNat
  | .qwEnq _ => 0
  | .qwDeq w => (s.window port w).result
  | .qwStat w => (s.window port w).stat
  | .qwHold w k => fieldAt (s.window port w).hold (8 * k) 8
  | .importWindow device window _ _ _ _ =>
    match s.peers.imports.find? (fun x => x.device == device && x.window == window) with
    | some i => i.base
    | none => 0
  | .route device entry => ((aget s.peers.routes (device * 4 + entry)).getD 0).toNat
  | .deadMap device => bit01 (s.peers.dead.contains device)
  | .expert _ => 0
  | .bar0 _ => 0
  | .bar2 _ => 0

/-- What a read of a device register returns, by its name or at its offset in a BAR; an offset that has none reads as zero. (DESIGN
CHOICE, log entry 38.) -/
def State.readReg (s : State) (port : Nat) (reg : DevReg) : Nat :=
  match regNamed reg with
  | some r => s.readNamed port r
  | none => 0

/-- REGISTER_WRITE (00 R4; 13 R257). -/
def execRegisterWrite (port : Nat) (reg : DevReg) (value : DWord) (s : State) : Host.Outcome State Fault Refusal :=
  event (s.writeReg port reg value)

/-- LAUNCH_QUEUE_ENABLE (10 R195): a write of LQ_CFG. -/
def execLaunchQueueEnable (queue : Nat) (value : DWord) (s : State) : Host.Outcome State Fault Refusal :=
  event (s.setQueueCfg queue value.toNat)

/-- AMAP_COMMIT (05 R107, R108): a write of AMAP_CTL. -/
def execAmapCommit (region : Nat) (value : DWord) (s : State) : Host.Outcome State Fault Refusal :=
  event (if region < 8 then s.amapCtl region value.toNat else s)

/-- AMAP_COMMIT_COMPLETE (05 R108). -/
def execAmapCommitComplete (region : Nat) (s : State) : Host.Outcome State Fault Refusal := event (s.amapFinish region)

end Sys2Proof.Machine
end

