-- ==== Sys2Proof/Machine/HostPort.lean ====
section
/-!
DEFINITION. The host ports (13 R257 to R260): HIFENCE, the queue windows and the device memory aperture. A port has two
registers pages of its own; writes through a port are performed when they are received (06 R142), so its releases have
nothing left to wait for.
-/
namespace Sys2Proof.Machine

/-- The number under which a host port accesses memory: its I/O die, no core. -/
def portCore (port : Nat) : Nat := if port = 0 then 128 else 132

/-- HIFENCE (13 R258): a write of the register. -/
def execHifence (port : Nat) (value : DWord) (s : State) : Host.Outcome State Fault Refusal :=
  event (s.writeHifence port value.toNat)

/-- Whether a port's fence awaits another device. -/
def State.fenceAbroad (s : State) (port : Nat) : Bool :=
  let p := s.port port
  p.fenceDead || s.peers.outstanding.any (fun o => decide (o.use = .fence port) && decide (p.fenceFrom ≤ o.rid))

/-- The cores of the package have discarded their instruction caches. -/
def State.dropAllCode (s : State) : State := s.dropCode (List.range 128)

/-- HIFENCE_COMPLETE (13 R258): every core in scope has acknowledged, on other devices too. -/
def execHifenceComplete (port : Nat) (s : State) : Host.Outcome State Fault Refusal :=
  event (
    let p := s.port port
    if !p.busy || s.fenceAbroad port then s else s.dropAllCode.setPort port { p with busy := false })

/-- A pod member will not acknowledge a port's fence: it stays busy until 1 ms has passed (13 R258). -/
def State.fenceFails (s : State) (port rid : Nat) : State :=
  let p := s.port port
  if rid < p.fenceFrom then s else s.setPort port { p with fenceDead := true }

/-- HIFENCE_TIMEOUT (13 R258): a pod member has not acknowledged within 1 ms. (DESIGN CHOICE, log entry 33.) -/
def execHifenceTimeout (port : Nat) (s : State) : Host.Outcome State Fault Refusal :=
  event (
    let p := s.port port
    if !p.busy || !s.fenceAbroad port || decide (s.time < p.fenceAt + nsTime 1000000) then s else
      s.dropAllCode.setPort port { p with busy := false, tmo := true })

/-- QW_HANDLE (13 R259): a write of the register. -/
def execQwHandle (port : Nat) (window : Nat) (value : DWord) (s : State) : Host.Outcome State Fault Refusal :=
  event (s.setWindowHandle port window value)

/-- QW_ENQ (13 R259): a posted write to a window's element. -/
def execQwEnq (port : Nat) (window : Nat) (write : WindowWrite) (s : State) : Host.Outcome State Fault Refusal :=
  event (s.stageElement port window write.offset write.element)

/-- QW_STAGING_ENQUEUE (13 R259): the oldest staged element is on its way to the queue, as an enqueue of launch queue w's tables
(10 R438). -/
def execQwStagingEnqueue (port : Nat) (window : Nat) (s : State) : Host.Outcome State Fault Refusal :=
  event (
    let x := s.window port window
    match x.fifo with
    | [] => s
    | el :: _ =>
      if x.sending.isSome then s
      else (s.sendAgent (.window port window s.fresh) x.handle window el).modWindow port window
        (fun y => { y with sending := some s.fresh }))

/-- A read of QW_DEQ of a queue on another device leaves by its link, and is answered from there (05 R89; 13 R264). -/
def State.deqAway (s : State) (port w : Nat) (h : DWord) (p : Piece) : State :=
  let code := bits h.toNat 0 3
  let q : QReq := { rid := s.fresh, from_ := .window port w s.fresh, enq := false, try_ := true, pa := p.pa,
                    va := BitVec.ofNat 64 p.va, handle := some (h, w), code := code, payload := [], parked := false, busy := false,
                    src := agentStop (.window port w s.fresh) w, unc := false }
  s.remoteSend p.pa (.deq code true) (.queue q) none q.va

/-- QW_DEQ (13 R259): the oldest visible element is taken into QW_HOLD, or 0 is returned. A page locked for migration holds the
read (05 R101), and so does a dequeue before it that awaits its block's commit (07 R153). -/
def execQwDeq (port : Nat) (window : Nat) (s : State) : Host.Outcome State Fault Refusal :=
  event (
    if window ≥ 64 || port ≥ 2 then s
    else
      let h := (s.window port window).handle.toNat
      if !handleOk h then s.failDeq port window (TrapCode.num .illopd)
      else
        let c := s.controlBlock (s.queueSpace window (portCore port)) h needRW
        let s1 := c.1.forgetAgent
        match c.2 with
        | .error t => s1.failDeq port window t.code.num
        | .ok p =>
          if p.mig then s1
          else if s1.away p.pa then s1.deqAway port window (s.window port window).handle p
          else if s1.readsHeld p.pa then s1
          else
            let r := s1.takeNow (agentStop (.window port window 0) window) p.pa (bits h 0 3)
            match r.2 with
            | .error t => r.1.failDeq port window t.code.num
            | .ok none => r.1.modWindow port window (fun x => { x with result := 0 })
            | .ok (some bs) => r.1.modWindow port window (fun x => { x with hold := bs, result := 1 }))

/-- The physical address of an aperture offset (13 R260). -/
def State.apertureAddr (s : State) (port offset : Nat) : Nat :=
  s.device * 2 ^ 42 + (s.port port).haBase * 2 ^ 36 + offset

/-- HOST_APERTURE_READ (13 R260): performed at the home; STATUS 0 is data, 1 a poisoned completion, 2 an Unsupported Request,
which carries no data and is logged. -/
def execHostApertureRead (port : Nat) (offset : Nat) (len : Nat) (s : State) : Host.Outcome State Fault Refusal :=
  event (
    if offset + len > 2 ^ 36 || port ≥ 2 then s
    else
      let pa := s.apertureAddr port offset
      match s.cellsOf pa len with
      | none => (s.setPort port { s.port port with lastRead := [], lastStatus := 2 }).logErr (.aperture port pa)
      | some cells =>
        let s0 := s.recallAll cells
        let st := if (s0.poisonAny cells).isSome then 1 else 0
        let r := s0.homeRead (portCore port) cells .normal
        r.1.setPort port { r.1.port port with lastRead := r.2, lastStatus := st })

/-- HOST_APERTURE_WRITE (13 R260): performed at the home, or discarded, reported and logged. -/
def execHostApertureWrite (port : Nat) (offset : Nat) (bytes : List Byte) (s : State) : Host.Outcome State Fault Refusal :=
  event (
    if offset + bytes.length > 2 ^ 36 || port ≥ 2 then s
    else
      let pa := s.apertureAddr port offset
      match s.cellsOf pa bytes.length with
      | none => (s.setPort port { s.port port with reports := (s.port port).reports + 1 }).logErr (.aperture port pa)
      | some cells => s.homeStore (portCore port) cells bytes .normal)

end Sys2Proof.Machine
end

