-- ==== Sys2Proof/Machine/Queue.lean ====
section
/-!
DEFINITION. The queue instructions (07 R144 to R155; 15 R317, R318; 16 R324, R325; 18 R372 to R374) and the events of queues and
tagged granules at their homes.
-/
namespace Sys2Proof.Machine

/-- The payload registers of an element (07 R147): their cells and full/empty bits. -/
structure Payload where
  cells : List Nat
  bits : List Nat
deriving DecidableEq, Repr

/-- The payload registers that a base names for a size code, or none where the base is illegal (07 R147). -/
def Env.payload (e : Env) (base : Reg) (code : Nat) : Option Payload :=
  let k := base.toNat
  let n := 2 ^ code
  if k = 126 then some { cells := [], bits := [] }
  else if e.lead then
    let m := max 1 (n / 2)
    if k % min m 2 = 0 ∧ k + m ≤ 126 then some { cells := span (2 * k) (2 * m), bits := span k m } else none
  else
    let w := e.ctx.wb.toNat
    if k % min n 4 = 0 ∧ k + n ≤ 126 ∧ w + k + n ≤ e.alloc then
      some { cells := span (w + k) n, bits := span (w + k) n } else none

/-- The element that payload registers hold: zeros for zr (07 R147). -/
def Env.element (e : Env) (p : Payload) (code : Nat) : List Byte :=
  let ws := p.cells.map (fun i => sget 0 e.ctx.regs i)
  let bs := (bytesOf ws).take (codeSize code)
  bs ++ List.replicate (codeSize code - bs.length) 0

/-- The words that payload registers take, the last a-register padded with zeros (07 R147). -/
def Payload.words (p : Payload) (ws : List Word) : List Word :=
  (List.range p.cells.length).map (fun i => ws.getD i 0)

/-- Keep registers empty while their producer is held at its home (03 R57). -/
def State.holdBits (s : State) (e : Env) (bs : List Nat) : State :=
  s.modMe e (fun c => { c.markEmpty bs with heldBits := bs.foldl sins c.heldBits })

/-- The wait of an issuer that has asked a queue's home (02 R40; 03 R57): for the answer of an ENQT, else for the roll, in which it stands
unless it is on its way. (DEDUCED, log entry 53.) -/
def askWait (try_ : Bool) : Wait := if try_ then .answer else .roll

/-- The store event of a queue operation (11 R233). -/
def queueBytes (handle opcode : Nat) (more : List Byte) : List Byte :=
  toBytes 8 handle ++ [0xA0, BitVec.ofNat 8 opcode] ++ more

/-- The first empty one of the payload registers that an enqueue reads: a wait, or a trap with fe (16 R324). -/
def enqMissing (e : Env) (p : Payload) (fe : Bool) : Option (Except Trap Wait) :=
  match e.ctx.firstEmpty p.bits with
  | none => none
  | some b => some (if fe then .error { code := .emptyt, detail := b, addr := 0 } else .ok .sourceEmpty)

/-- A trap of a check at the home names the control block unless it has an address of its own (07 R145). -/
def Trap.ofBlock (t : Trap) (cb : Piece) : Trap := if t.addr = 0 then { t with addr := BitVec.ofNat 64 cb.va } else t

/-- Whether an enqueue that reaches its home now parks (07 R150). -/
def State.enqWaits (s : State) (pa : Nat) : Bool := !s.away pa && (decide (s.room pa = 0) || !(s.parkedAt pa true).isEmpty)

/-- Whether a dequeue that reaches its home now parks (07 R151). -/
def State.deqWaits (s : State) (pa : Nat) : Bool :=
  !s.away pa && (decide (s.unclaimed pa = 0) || !(s.parkedAt pa false).isEmpty)

/-- An issuer's operation reaches a queue on this device in the step that issues it: what left its stop for the queue's home earlier comes
first (01 R13), and the core gives up its copy of the control block's line (05 R102). -/
def State.reachNow (s : State) (e : Env) (cb : Piece) : State :=
  ((s.queueFirst e.stop (s.homeStop cb.pa)).evictFor e.core cb.pa).reachQueue cb.pa cb.unc

/-- An issuer's operation meets the checks of a queue's home in the step that issues it (07 R145). -/
def State.meetQueue (s : State) (e : Env) (cb : Piece) (code : Nat) : State × Option Trap :=
  (s.reachNow e cb).checkHome cb.pa (some code)

/-- Whether a step of an instruction would park it: the step then does nothing (12 R250). Checks that fail come first (07 R145); of a
queue on another device its home alone can tell. -/
def State.wouldPark (s : State) (e : Env) (try_ : Bool) (cb : Piece) (code : Nat) (waits : State → Bool) : Bool :=
  e.ctx.halt.stepper.isSome && !try_ && !s.away cb.pa &&
    (let k := s.meetQueue e cb code; k.2.isNone && waits k.1)

/-- An enqueue that need not wait takes its index as it issues (03 R57; 07 R150; DEDUCED, log entry 53): whether it has. -/
def State.enqNow (s : State) (e : Env) (cb : Piece) (code : Nat) (elem : List Byte) : State × Except Trap Bool :=
  if s.away cb.pa then (s, .ok false)
  else
    let k := s.meetQueue e cb code
    match k.2 with
    | some t => (k.1, .error (t.ofBlock cb))
    | none =>
      if k.1.enqWaits cb.pa then (k.1, .ok false)
      else
        let r := k.1.putElement cb.pa (.actor e.bid e.who) elem
        match r.2 with
        | some t => (r.1, .error t)
        | none => ((r.1.mark e.bid).forward e.blk e.who [1#32], .ok true)

/-- Enqueue (07 R150): the payload is read, the store buffer commits, Release at the queue's scope, the request. The trailing
copy of a pair goes on with the leading copy (11 R236; DEDUCED, log entry 13). A step that would park does nothing (12 R250). -/
def enqAct (opcode : Nat) (try_ fe : Bool) (rb : Reg) (e : Env) (h : Nat) (fin : State → List Word → Act) (s : State) : Act :=
  match e.ctx.phase.answer with
  | .got ws => fin s ws
  | .awaiting => .wait s (askWait try_)
  | .granted _ _ => fin s []
  | .loading _ => .wait s (askWait try_)
  | .none =>
    let code := bits h 0 3
    if !handleOk h then .trap s (Trap.plain .illopd)
    else
      match e.payload rb code with
      | none => .trap s (Trap.plain .illopd)
      | some p =>
        match enqMissing e p fe with
        | some (.error t) => .trap s t
        | some (.ok w) => .wait s w
        | none =>
          let elem := e.element p code
          let r := s.controlBlock e.blk.space h needRW
          match r.2 with
          | .error t => .trap r.1 t
          | .ok cb =>
            let sc := (r.1.reachQueue cb.pa cb.unc).queueScope cb.pa
            if r.1.wouldPark e try_ cb code (fun t => t.enqWaits cb.pa) then .wait r.1 .roll
            else
            ((r.1.pairPoint e (queueBytes h opcode elem)).andThen (fun t =>
              if sc ≥ 2 then t.release e sc else t.commit e)).act (fun t =>
                if e.blk.role = .trailing then
                  match t.takeForwarded (e.again t).blk e.who with
                  | none => .wait t .pair
                  | some (u, ws) => fin u ws
                else if cb.mig then .wait t .mig
                else if try_ then .wait (t.ask e true true cb code elem) .answer
                else
                  let n := t.enqNow e cb code elem
                  match n.2 with
                  | .error x => .trap n.1 x
                  | .ok true => fin n.1 []
                  | .ok false => .wait (n.1.ask e true false cb code elem) .roll)

/-- ENQ (07 R150, 16 R324, R325). -/
def execEnq (ra rb : Reg) (fe : Bool) (g : Guard) (s : State) : Host.Outcome State Fault Refusal :=
  issue (.enq ra rb fe g) (fun e v s =>
    enqAct 0xC0 false fe rb e (v.getD 0 0) (fun t _ => .done ({ state := t : Done }.point e)) s) s

/-- ENQT (07 R150, 16 R324, R325): writes 1 if an index was allocated, else 0. -/
def execEnqt (rd ra rb : Reg) (fe : Bool) (g : Guard) (s : State) : Host.Outcome State Fault Refusal :=
  issue (.enqt rd ra rb fe g) (fun e v s =>
    enqAct 0xC1 true fe rb e (v.getD 0 0) (fun t ws =>
      .done ({ state := t, vals := [(ws.getD 0 0).toNat] : Done }.point e)) s) s

/-- A dequeue that need not wait is allocated as it issues (03 R57; 07 R151; DEDUCED, log entry 53): the number of its producer.
A poisoned slot faults then (05 R117). -/
def State.deqNow (s : State) (e : Env) (cb : Piece) (code : Nat) : State × Except Trap (Option Nat) :=
  if s.away cb.pa then (s, .ok none)
  else
    let k := s.meetQueue e cb code
    match k.2 with
    | some t => (k.1, .error (t.ofBlock cb))
    | none =>
      if k.1.deqWaits cb.pa then (k.1, .ok none)
      else
        let c := k.1.ctl cb.pa
        let q := k.1.qhome cb.pa
        let slot := c.slot ((c.head + q.deqs.length) % 2 ^ 32)
        match ((k.1.cellsOf slot (2 ^ c.lsize)).bind k.1.poisonAny) with
        | some o => (k.1, .error (Trap.at .poison o slot))
        | none =>
          ((k.1.setQhome { q with deqs := q.deqs ++ [.producer e.bid e.who k.1.fresh] }).tick1, .ok (some k.1.fresh))

/-- What a dequeue has come to: nothing was there, or an element, under the number of its producer where it has one, with its
data if that has come. -/
abbrev Taken := Option (Option Nat × Option (List Word))

/-- A dequeue of a queue on another device (05 R89; 13 R264): where the block takes checkpoints it commits first, for its home alone can
tell whether it succeeds (11 R229, R236). A try form goes on, as its home answers in any case (03 R57); the other form is held for the
roll. (DEDUCED, log entry 53.) -/
def deqAbroad (try_ : Bool) (e : Env) (cb : Piece) (code : Nat) (empty : List Nat) (fin : State → Taken → Act) (s : State) : Act :=
  (if e.blk.ckptMode then s.commitPoint e [] else Gate.go s).act (fun t =>
    if try_ then fin (t.tick1.askFor e (.producer e.bid e.who t.fresh) false true cb code []) (some (some t.fresh, none))
    else .wait ((t.ask e false false cb code []).holdBits e empty) .roll)

/-- The leading copy, or a block alone, takes an element (07 R151): at once where it need not wait, else by a request, with its
destinations empty (03 R57). Where the block takes checkpoints, the element is allocated first, and the comparison and the commit come
before it leaves its queue; finding none is no commit point (11 R229, R236). -/
def deqTake (try_ : Bool) (e : Env) (cb : Piece) (code : Nat) (empty : List Nat) (fin : State → Taken → Act) (s : State) : Act :=
  if cb.mig then .wait s .mig
  else if s.away cb.pa then deqAbroad try_ e cb code empty fin s
  else
    let n := s.deqNow e cb code
    match n.2 with
    | .error t => .trap n.1 t
    | .ok none =>
      if try_ then fin (n.1.forward e.blk e.who [0#32]) none
      else .wait ((n.1.ask e false false cb code []).holdBits e empty) .roll
    | .ok (some k) =>
      if !e.blk.ckptMode then fin n.1 (some (some k, none))
      else
        let t := ((if try_ then n.1.forward e.blk e.who [1#32] else n.1).setPhase e (fun p => { p with answer := .granted k none })).holdBits
          e empty
        (t.commitPoint (e.again t) []).act (fun u => fin u (some (some k, none)))

/-- The trailing copy of a pair takes what the leading copy found (11 R236): of a try form first whether an element was there,
which alone makes it a commit point, but for a queue on another device, where the commit point comes first (11 R229). -/
def deqTrail (try_ abroad : Bool) (e : Env) (empty : List Nat) (fin : State → Taken → Act) (s : State) : Act :=
  let hold (t : State) : Act := .wait (t.holdBits e empty) .pair
  let data (t : State) : Act := match t.takeForwarded (e.again t).blk e.who with
    | none => hold t
    | some (u, ws) => fin u (some (none, some ws))
  if !try_ then (s.commitPoint e []).act data
  else
    (if abroad then s.commitPoint e [] else Gate.go s).act (fun s =>
      match s.takeForwarded (e.again s).blk e.who with
      | none => hold s
      | some (u, ws) =>
        if ws.getD 0 0 = 0#32 then fin u none
        else (s.commitPoint e []).act (fun t => match (t.takeForwarded (e.again t).blk e.who).map (·.1) with
          | none => hold t
          | some v => match v.takeForwarded (e.again v).blk e.who with
            | none => hold t
            | some (w, xs) => fin w (some (none, some xs))))

/-- Dequeue (07 R151): the request goes to the home while the destinations stay empty, and a pair's leading copy alone asks (11 R229,
R236; DEDUCED, log entry 13). A step that would park does nothing (12 R250). -/
def deqAct (try_ : Bool) (base : Reg) (rd : Option Nat) (held : List Nat) (e : Env) (h : Nat)
    (fin : State → Payload → Taken → Act) (s : State) : Act :=
  let code := bits h 0 3
  if !handleOk h then .trap s (Trap.plain .illopd)
  else
    match e.payload base code with
    | none => .trap s (Trap.plain .illopd)
    | some p =>
      let empty := p.bits ++ held
      if rd.any (fun k => p.bits.contains k) then .trap s (Trap.plain .illopd)
      else
        match e.ctx.phase.answer with
        | .got _ => fin s p none
        | .awaiting => .wait (s.holdBits e empty) .roll
        | .loading _ => .wait (s.holdBits e empty) .roll
        | .granted k data =>
          (if e.blk.ckptMode then (s.holdBits e empty).commitPoint e [] else .go (s.holdBits e empty)).act (fun u =>
            fin u p (some (some k, data)))
        | .none =>
          match e.ctx.firstEmpty p.bits with
          | some _ => .wait s .sourceEmpty
          | none =>
            let r := s.controlBlock e.blk.space h needRW
            match r.2 with
            | .error t => .trap (if t.code = .xlate then r.1.holdBits e empty else r.1) t
            | .ok cb =>
              if r.1.wouldPark e try_ cb code (fun t => t.deqWaits cb.pa) then .wait r.1 .roll
              else
                match e.blk.role with
                | .trailing => deqTrail try_ (r.1.away cb.pa) e empty (fun t x => fin t p x) r.1
                | .leading =>
                  (if try_ then Gate.go r.1 else r.1.commitPoint e []).act (deqTake try_ e cb code empty (fun t x => fin t p x))
                | .single => deqTake try_ e cb code empty (fun t x => fin t p x) r.1

/-- Scope at which a dequeue acquires (06 R132): that of the control block as it stands when the dequeue has its element, .sys where the
handle no longer translates. (DESIGN CHOICE, log entry 57.) -/
def State.deqScope (s : State) (e : Env) (h : Nat) : Option Nat :=
  let r := s.controlBlock e.blk.space h needR
  match r.2 with
  | .error _ => some 10
  | .ok cb => acquireScope true ((r.1.reachQueue cb.pa cb.unc).queueScope cb.pa)

/-- What a completed dequeue leaves: a commit point where the block takes checkpoints and an element was taken (11 R229, R230). -/
def Done.dequeued (d : Done) (e : Env) (took : Bool) : Done := if e.blk.ckptMode && took then d.point e else d

/-- A dequeue that has an element (03 R57): a producer of its payload registers after the destinations of its form. -/
def dequeuedDone (t : State) (e : Env) (h : Nat) (p : Payload) (vals : List Nat) (k : Option Nat) (data : Option (List Word)) :
    Done :=
  ({ state := t, vals := vals, long := true, acquire := t.deqScope e h, cells := p.cells, fills := p.bits,
     words := (data.map p.words).getD [], pid := k, late := if data.isSome then none else some .element } : Done).dequeued e true

/-- DEQ (07 R151; 15 R317, R318). -/
def execDeq (rd ra : Reg) (fe : Bool) (g : Guard) (s : State) : Host.Outcome State Fault Refusal :=
  issue (.deq rd ra fe g) (fun e v s =>
    let h := v.getD 0 0
    deqAct false rd none [] e h (fun t p x => match x with
      | none => .done { state := t, long := true }
      | some (k, data) => .done (dequeuedDone t e h p [] k data)) s) s

/-- DEQT (07 R151; 15 R317, R318): writes 1 and the payload, or 0. -/
def execDeqt (rd ra rb : Reg) (fe : Bool) (g : Guard) (s : State) : Host.Outcome State Fault Refusal :=
  issue (.deqt rd ra rb fe g) (fun e v s =>
    let h := v.getD 0 0
    let f := Fld.d rd 1
    let bit := (f.fullBits e.lead e.ctx.wb.toNat).head?
    deqAct true rb bit bit.toList e h (fun t p x => match x with
      | none => .done (({ state := t, vals := [0], long := true } : Done).dequeued e false)
      | some (k, data) => .done (dequeuedDone t e h p [1] k data)) s) s

/-- The page that holds a translated address of an issuer: its base and size (05 R91). -/
def State.pageOf (s : State) (sp : Space) (va : Nat) : Nat × Nat :=
  match s.tlbFind sp.core sp.asn va with
  | some t => (t.base, t.size)
  | none => (0, 0)

/-- Statuses 1 to 4 of QINIT, 0 where none applies (07 R148). The area has to lie on the device of its control block. -/
def qinitStatus (p : Piece) (page : Nat × Nat) (area lcap scope code device : Nat) : Nat :=
  if lcap < 1 ∨ 24 < lcap ∨ scope < 1 ∨ 10 < scope then 1
  else if area % codeSize code ≠ 0 then 2
  else if area + 2 ^ (lcap + code + 2) > page.1 + page.2 then 3
  else if !bitAt p.entry 1 || !bitAt p.entry 2 || p.fmt != 0 || p.unc || p.pa / 2 ^ 42 != device then 4
  else 0

/-- QINIT (07 R148; 18 R372, R373): the store buffer commits, then the area is checked. -/
def execQinit (rd ra rb : Reg) (fe : Bool) (g : Guard) (s : State) : Host.Outcome State Fault Refusal :=
  issue (.qinit rd ra rb fe g) (fun e v s =>
    let h := v.getD 0 0
    let q := v.getD 1 0
    let area := bits q 0 64
    let lcap := bits q 64 32
    let scope := bits q 96 32
    let code := bits h 0 3
    let fin (t : State) (st : Nat) : Act := .done ({ state := t, vals := [st] : Done }.point e)
    match e.ctx.phase.answer with
    | .awaiting => .wait s .answer
    | .got ws => fin s (ws.getD 0 0).toNat
    | _ =>
    if !handleOk h then .trap s (Trap.plain .illopd)
    else
      let r := s.controlBlock e.blk.space h needRW
      match r.2 with
      | .error t => .trap r.1 t
      | .ok cb =>
        let ev := queueBytes h 0xC4 (toBytes 8 area ++ toBytes 8 lcap ++ toBytes 8 scope)
        (r.1.commitPoint e ev).act (fun t =>
          if e.blk.role = .trailing then
            match t.takeForwarded (e.again t).blk e.who with
            | none => .wait t .pair
            | some (u, ws) => fin u (ws.getD 0 0).toNat
          else
            let ra := t.pieces e.blk.space area 1 { r := false, w := false, x := false }
            match ra.2 with
            | .error x => .trap ra.1 x
            | .ok [] => .trap ra.1 (Trap.at .perm 6 area)
            | .ok (p :: _) =>
              let st := qinitStatus p (ra.1.pageOf e.blk.space area) area lcap scope code (cb.pa / 2 ^ 42)
              if st ≠ 0 then fin (ra.1.forward e.blk e.who [BitVec.ofNat 32 st]) st
              else (ra.1.release e scope).act (fun u =>
                if cb.mig then .wait u .mig
                else if u.away cb.pa then
                  .wait ((u.remoteSend cb.pa (.qinit p.pa lcap code scope) (.answer true true) (some (e.bid, e.who, e.ctx.pc))
                    (BitVec.ofNat 64 cb.va)).asking e) .answer
                else
                  let z := (u.reachNow e cb).initHome cb.pa p.pa lcap code scope
                  fin ((z.1.mark e.bid).forward e.blk e.who [BitVec.ofNat 32 z.2]) z.2))) s

/-- QSTAT (07 R149; 18 R374). -/
def execQstat (rd ra : Reg) (fe : Bool) (g : Guard) (s : State) : Host.Outcome State Fault Refusal :=
  issue (.qstat rd ra fe g) (fun e v s =>
    let h := v.getD 0 0
    let fin (t : State) (ws : List Word) : Act := .write t [ofBytes (bytesOf ws)]
    match e.ctx.phase.answer with
    | .awaiting => .wait s .answer
    | .got ws => fin s ws
    | _ =>
    if !handleOk h then .trap s (Trap.plain .illopd)
    else
      let r := s.controlBlock e.blk.space h needR
      match r.2 with
      | .error t => .trap r.1 t
      | .ok cb =>
        if e.blk.role = .trailing then
          match r.1.takeForwarded e.blk e.who with
          | none => .wait r.1 .pair
          | some (u, ws) => fin u ws
        else if cb.mig then .wait r.1 .mig
        else if r.1.away cb.pa then
          .wait ((r.1.remoteSend cb.pa .qstat (.answer false true) (some (e.bid, e.who, e.ctx.pc))
            (BitVec.ofNat 64 cb.va)).asking e) .answer
        else
          let z := (r.1.reachNow e cb).statHome cb.pa
          match z.2 with
          | .error t => .trap z.1 { t with addr := BitVec.ofNat 64 (handleAddr h) }
          | .ok ws => fin (z.1.forward e.blk e.who ws) ws) s

/-- QUEUE_ENQ_AT_HOME (07 R150). -/
def execQueueEnqAtHome (req : Nat) (s : State) : Host.Outcome State Fault Refusal := event (s.enqHome req)

/-- QUEUE_ENQ_WRITE_ACK (07 R150, R153). -/
def execQueueEnqWriteAck (cb : Nat) (s : State) : Host.Outcome State Fault Refusal := event (s.enqAck cb)

/-- QUEUE_DEQ_AT_HOME (07 R151). -/
def execQueueDeqAtHome (req : Nat) (s : State) : Host.Outcome State Fault Refusal := event (s.deqHome req)

/-- QUEUE_DEQ_READ_DONE (07 R151, R153). -/
def execQueueDeqReadDone (cb : Nat) (s : State) : Host.Outcome State Fault Refusal := event (s.deqRead cb)

/-- ROLL_BUSY_RESEND (07 R152, R157): the request is on its way again. -/
def execRollBusyResend (req : Nat) (s : State) : Host.Outcome State Fault Refusal :=
  event { s with qreqs := s.qreqs.map (fun q => if q.rid = req then { q with busy := false } else q),
                 treqs := s.treqs.map (fun q => if q.rid = req then { q with busy := false } else q) }

/-- TAGGED_ACCESS_AT_HOME (07 R157). -/
def execTaggedAccessAtHome (req : Nat) (s : State) : Host.Outcome State Fault Refusal := event (s.tagHome req)

end Sys2Proof.Machine
end

