-- ==== Sys2Proof/Machine/Peer.lean ====
section
/-!
DEFINITION. The peer links (13 R261 to R265; 05 R118; 07 R155): flits and their replay, lane repair, requests from other
devices, the answers that this package's own requests get, dead members, and the release of lent extents.
-/
namespace Sys2Proof.Machine

/-- The number of a flit's type (13 R261). -/
def FlitType.num (t : FlitType) : Nat :=
  match t with
  | .idle => 0
  | .data => 1
  | .control => 2
  | .other c => c % 16

/-- The first 252 bytes of a flit (13 R261). -/
def flitBytes (f : Flit) : List Byte :=
  let word := f.zero % 2 ^ 14 * 2 ^ 50 + f.dst % 2 ^ 10 * 2 ^ 40 + f.src % 2 ^ 10 * 2 ^ 30 + FlitType.num f.type * 2 ^ 26 +
    bit01 f.nak * 2 ^ 25 + bit01 f.ackv * 2 ^ 24 + f.ackseq % 2 ^ 12 * 2 ^ 12 + f.seq % 2 ^ 12
  toBytes 8 word ++ (List.range 244).map (fun i => f.payload.getD i 0)

/-- The IEEE 802.3 CRC-32 of bytes. -/
def crc32 (bs : List Byte) : Nat := bs.foldl (crcByte 0xEDB88320) 0xFFFFFFFF ^^^ 0xFFFFFFFF

/-- The CRC errors of a lane within the last 1 ms (13 R263). -/
def PeerPort.errorsOf (p : PeerPort) (lane now : Nat) : Nat :=
  (p.laneErrors.filter (fun e => e.1 == lane && decide (now < e.2 + nsTime 1000000))).length

/-- Note a CRC error of a lane, keeping those of the last 1 ms; a lane that reaches 16 of them is to be repaired, whenever that can
begin (13 R263). -/
def PeerPort.laneError (p : PeerPort) (lane now : Nat) : PeerPort :=
  let p1 := { p with laneErrors := p.laneErrors.filter (fun e => decide (now < e.2 + nsTime 1000000)) ++ [(lane, now)] }
  if p1.worn.isNone && decide (p1.errorsOf lane now ≥ 16) then { p1 with worn := some lane } else p1

/-- Drop the flits that a cumulative acknowledgement covers (13 R262). -/
def PeerPort.acked (p : PeerPort) (seq : Nat) : PeerPort :=
  if p.unacked.any (fun u => u.1 == seq) then { p with unacked := (p.unacked.dropWhile (fun u => u.1 != seq)).drop 1 } else p

/-- BURST REPLAY (13 R262): every unacknowledged flit from a sequence number on is sent again, in order. -/
def PeerPort.replayFrom (p : PeerPort) (seq : Nat) : PeerPort :=
  { p with replay := (p.unacked.dropWhile (fun u => u.1 != seq)).map (·.1) }

/-- Act on the acknowledgement fields of a flit (13 R261, R262). (DEDUCED, log entry 36.) -/
def PeerPort.heard (p : PeerPort) (f : Flit) : PeerPort :=
  if f.nak then p.replayFrom f.ackseq else if f.ackv then p.acked f.ackseq else p

/-- Take a data flit (13 R262): in sequence it is delivered and will be acknowledged, any other is dropped and answered by a NAK. -/
def PeerPort.take (p : PeerPort) (f : Flit) : PeerPort :=
  if f.seq = p.expect then
    { p with inbox := p.inbox ++ [f.payload], expect := (p.expect + 1) % 4096, nakOut := none, ackOut := some f.seq }
  else { p with nakOut := some p.expect }

/-- A port after a flit arrives (13 R261 to R263). A flit whose CRC is good is taken whatever its zero bits hold: nothing is said of
one where they are not zero. (DESIGN CHOICE, log entry 61.) -/
def PeerPort.receive (p : PeerPort) (f : Flit) (now : Nat) : PeerPort :=
  if !p.up || p.retrainEnd.isSome then p
  else if f.crc.toNat ≠ crc32 (flitBytes f) then { p.laneError f.lane now with nakOut := some p.expect }
  else
    match f.type with
    | .idle => p.heard f
    | .control => p.heard f
    | .data => (p.heard f).take f
    | .other _ => p

/-- Drop a port from every entry of the routing table (13 R263). -/
def Peers.dropRoutes (p : Peers) (port : Nat) : Peers :=
  { p with routes := p.routes.filter (fun r => decide (Config.routePort r.2 ≠ some port)) }

/-- The port without the errors of one lane, and the lane that comes next to repair, if another has reached 16 errors of the last 1 ms
(13 R263). -/
def PeerPort.laneDone (p : PeerPort) (lane now : Nat) : PeerPort :=
  let left := p.laneErrors.filter (fun e => e.1 != lane)
  { p with laneErrors := left,
           worn := (left.find? (fun e => decide (p.errorsOf e.1 now ≥ 16))).map (·.1) }

/-- LANE_REPAIR (13 R263): the link retrains on three lanes once no replay is outstanding; a second repair takes it down. -/
def execLaneRepair (port : Nat) (lane : Nat) (s : State) : Host.Outcome State Fault Refusal :=
  event (
    let x := s.peers.port port
    if port ≥ 32 || !x.up || x.retrainEnd.isSome || !x.replay.isEmpty || decide (x.worn ≠ some lane) then s
    else if x.repairs = 0 then
      s.modPeers (fun p => p.setPort port
        { x.laneDone lane s.time with repairs := 1, lanes := 3, retrainEnd := some (s.time + nsTime 2000) })
    else s.modPeers (fun p =>
      (p.setPort port { x with up := false, repairs := x.repairs + 1, laneErrors := [], worn := none }).dropRoutes port))

/-- LINK_RETRAIN_COMPLETE (13 R263): every flit still unacknowledged is sent again. -/
def execLinkRetrainComplete (port : Nat) (s : State) : Host.Outcome State Fault Refusal :=
  event (
    let x := s.peers.port port
    match x.retrainEnd with
    | none => s
    | some t =>
      if s.time < t then s
      else s.modPeers (fun p => p.setPort port { x with retrainEnd := none, replay := x.unacked.map (·.1) }))

/-- A port sends one flit (13 R261, R262): of a burst replay first, then what waits while fewer than 4,095 are unacknowledged, each with
the acknowledgement that is due, which alone makes a control flit. -/
def PeerPort.send (p : PeerPort) : PeerPort :=
  let flit (d : Option (Nat × Nat × PeerMsg)) : OutFlit :=
    { nak := p.nakOut.isSome, ackv := p.nakOut.isNone && p.ackOut.isSome, ackseq := (p.nakOut.or p.ackOut).getD 0, data := d }
  let sent : PeerPort := { p with nakOut := none, ackOut := none }
  if !p.up || p.retrainEnd.isSome then { p with out := none }
  else
    match p.replay, p.waiting with
    | k :: rest, _ => { sent with replay := rest, out := some (flit (p.unacked.find? (fun u => u.1 == k))) }
    | [], m :: rest =>
      if p.unacked.length ≥ 4095 then { sent with out := if p.nakOut.isSome || p.ackOut.isSome then some (flit none) else none }
      else { sent with nextSeq := (p.nextSeq + 1) % 4096, waiting := rest, unacked := p.unacked ++ [(p.nextSeq, m)],
                       out := some (flit (some (p.nextSeq, m))) }
    | [], [] => { sent with out := if p.nakOut.isSome || p.ackOut.isSome then some (flit none) else none }

/-- The number under which requests that came in by a port access memory: its I/O die (01 R9). -/
def remoteCore (port : Nat) : Nat := 4 * portDie port

/-- Bytes that a request touches. -/
def remoteLen (k : RemoteKind) : Nat :=
  match k with
  | .read n => n
  | .write n _ _ _ => n
  | .atom _ _ => 4
  | .acas _ _ => 4
  | .red _ _ => 4
  | .enq _ _ => 64
  | .deq _ _ => 64
  | .qinit _ _ _ _ => 64
  | .qstat => 64
  | .ldt n _ => n
  | .stt bs _ => bs.length
  | .upkeep _ => 128
  | .codeFence => 0
  | .cancel _ => 0

/-- Whether an import window allows a kind of request (13 R264); what is no read or write needs the atomic bit.
(DEDUCED, log entry 37.) -/
def Import.allows (i : Import) (k : RemoteKind) : Bool :=
  match k with
  | .read _ => i.read
  | .upkeep _ => i.read
  | .write _ _ _ _ => i.write
  | _ => i.atomic

/-- Whether a local range lies in an extent of 2 MiB units. -/
def inUnits (base limit addr n : Nat) : Bool := decide (base * 2 ^ 21 ≤ addr) && decide (addr + n ≤ limit * 2 ^ 21)

/-- Whether a local range meets an extent of 2 MiB units. -/
def meetsUnits (e : Nat × Nat) (addr n : Nat) : Bool := decide (addr < e.2 * 2 ^ 21) && decide (e.1 * 2 ^ 21 < addr + n)

/-- Whether a request is let in: inside an enabled window of its source, and outside every released extent (13 R264, 05 R118). A fence
of instruction caches names no address. -/
def Peers.admits (p : Peers) (req : RemoteReq) : Bool :=
  let n := remoteLen req.kind
  decide (req.kind = .codeFence) ||
    (p.imports.any (fun i => i.device == req.source && i.allows req.kind && inUnits i.base i.limit req.addr n) &&
      !(p.released.any (fun e => meetsUnits e req.addr n)))

/-- The result kept of an operation already applied (13 R264): of those alone that carry a sequence number. -/
def Peers.cached (p : Peers) (req : RemoteReq) : Option (List Word) :=
  if req.kind.sequenced then (p.applied.find? (fun a => a.1 == req.source && a.2.1 == req.seq)).map (·.2.2) else none

/-- Whether an operation of a source and sequence number is under way at its home. -/
def State.remoteUnderway (s : State) (req : RemoteReq) : Bool :=
  let f : QFrom := .remote req.source req.seq
  req.kind.sequenced && (s.qreqs.any (fun q => decide (q.from_ = f)) || s.queues.any (fun q => (q.enqs ++ q.deqs).contains f) ||
    s.treqs.any (fun q => decide (q.remote = some (req.source, req.seq))))

/-- Answer a request with a status and bytes. -/
def State.answerReq (s : State) (req : RemoteReq) (status : Nat) (bs : List Byte) : State :=
  s.reply req.source req.seq req.kind.sequenced status bs

/-- Refuse a request (13 R264): an error response, and the address is logged. -/
def State.refuseRemote (s : State) (req : RemoteReq) : State :=
  (s.logErr (.remoteRefused req.source req.addr)).answerReq req 1 []

/-- A remote read-modify-write, applied once (13 R264); poison is reported and nothing is applied. -/
def State.remoteAtom (s : State) (req : RemoteReq) (cells : List (Nat × Nat)) (f : Word → Option Word) (old : Bool) : State :=
  let s1 := s.recallAll cells
  if (s1.poisonAny cells).isSome then s1.answerReq req 2 []
  else
    let r := s1.homeRead (remoteCore req.port) cells .normal
    let v : Word := BitVec.ofNat 32 (ofBytes r.2)
    let s2 := match f v with
      | some w => r.1.homeScatter cells (toBytes 4 w.toNat)
      | none => r.1
    s2.respond req.source req.seq true (if old then [v] else [])

/-- A remote write of some bytes of a range (06 R130; 05 R116, R117); one of no byte sets the tags of granules that an addition has covered,
but for a poisoned sector, which has discarded it. -/
def State.remoteWrite (s : State) (req : RemoteReq) (cells : List (Nat × Nat)) (n : Nat) (bytes : List (Nat × Byte))
    (poison tags : Bool) : State :=
  let p : Piece := { va := 0, pa := s.device * 2 ^ 42 + req.addr, len := n, entry := 0 }
  let s1 := (s.recallAll cells).scatterHome (remoteCore req.port) p bytes
  let s2 := if poison then cells.foldl (fun t c => t.addPoison c.1 c.2 5) s1 else s1
  (if tags && (!bytes.isEmpty || (s2.poisonAny cells).isNone) then s2.tagWrite cells else s2).answerReq req 0 []

/-- Send a remote queue operation to its home on this device. -/
def State.remoteQueue (s : State) (req : RemoteReq) (enq try_ : Bool) (code : Nat) (payload : List Byte) : State :=
  let q : QReq := { rid := s.fresh, from_ := .remote req.source req.seq, enq := enq, try_ := try_,
                    pa := s.device * 2 ^ 42 + req.addr, va := BitVec.ofNat 64 req.addr, handle := none, code := code,
                    payload := payload, parked := false, busy := false, src := stopOf (portDie req.port), unc := false }
  ({ s with qreqs := s.qreqs ++ [q] } : State).tick1

/-- Send a remote tagged access to its granule's home on this device. -/
def State.remoteTag (s : State) (req : RemoteReq) (load condition : Bool) (n : Nat) (data : List Byte) : State :=
  let q : TagReq := { rid := s.fresh, bid := 0, who := .lead, pa := s.device * 2 ^ 42 + req.addr, va := BitVec.ofNat 64 req.addr,
                      load := load, condition := condition, size := n, data := data, waiting := false, busy := false,
                      src := stopOf (portDie req.port), unc := false, remote := some (req.source, req.seq) }
  ({ s with treqs := s.treqs ++ [q] } : State).tick1

/-- The size code of an element of n bytes. -/
def sizeCodeOf (n : Nat) : Nat := Nat.log2 (n / 4)

/-- Another device withdraws a request that waits here (07 R154, R157): a parked or busy one, or one on its way, is removed and answered
as not performed; one that has been allocated or performed is left alone. (DESIGN CHOICE, log entry 55.) -/
def State.remoteCancel (s : State) (source seq : Nat) : State :=
  let f : QFrom := .remote source seq
  if s.qreqs.any (fun q => decide (q.from_ = f)) then (s.withdrawReqs (fun q => decide (q.from_ = f))).respond source seq true [0#32]
  else
    match s.treqs.find? (fun q => decide (q.remote = some (source, seq))) with
    | none => s
    | some q =>
      ({ s with treqs := s.treqs.filter (fun x => x.rid != q.rid) } : State).respond source seq true (if q.load then [] else [0#32])

/-- Perform a request that is let in (13 R264). -/
def State.remoteDo (s : State) (req : RemoteReq) (cells : List (Nat × Nat)) : State :=
  let pa := s.device * 2 ^ 42 + req.addr
  match req.kind with
  | .read _ =>
    let s1 := s.recallAll cells
    let r := s1.homeRead (remoteCore req.port) cells .normal
    r.1.answerReq req (if (s1.poisonAny cells).isSome then 2 else 0) r.2
  | .write n bytes poison tags => s.remoteWrite req cells n bytes poison tags
  | .atom op v => s.remoteAtom req cells (fun old => some ((atomOpOf (BitVec.ofNat 4 op)).apply old v).1) true
  | .acas x v => s.remoteAtom req cells (fun old => if old = x then some v else none) true
  | .red op v => s.remoteAtom req cells (fun old => some ((atomOpOf (BitVec.ofNat 4 op)).apply old v).1) false
  | .enq bs try_ => s.remoteQueue req true try_ (sizeCodeOf bs.length) bs
  | .deq code try_ => s.remoteQueue req false try_ code []
  | .qinit area lcap code scope =>
    let z := s.initHome pa area lcap code scope
    z.1.respond req.source req.seq true [BitVec.ofNat 32 z.2]
  | .qstat =>
    let z := s.statHome pa
    match z.2 with
    | .error _ => z.1.answerReq req 2 []
    | .ok ws => z.1.respond req.source req.seq true ws
  | .ldt n consume => s.remoteTag req true consume n []
  | .stt bs whenEmpty => s.remoteTag req false whenEmpty bs.length bs
  | .upkeep discard => (s.maintainHome (pa / 128) discard).answerReq req 0 []
  | .codeFence => s.dropAllCode.answerReq req 0 []
  | .cancel n => (s.remoteCancel req.source n).answerReq req 0 []

/-- REMOTE_REQUEST_AT_TARGET (13 R264): the import windows, then the filter of sequence numbers, then the operation. A repeat of
an operation still under way is told so, and answered when that ends. (DESIGN CHOICE, log entry 55.) -/
def execRemoteRequestAtTarget (req : RemoteReq) (s : State) : Host.Outcome State Fault Refusal :=
  event (
    if !s.peers.admits req then s.refuseRemote req
    else
      match s.peers.cached req, s.cellsOf (s.device * 2 ^ 42 + req.addr) (remoteLen req.kind) with
      | some ws, _ => s.answerReq req 0 (bytesOf ws)
      | none, none => s.refuseRemote req
      | none, some cells => if s.remoteUnderway req then s.answerReq req 3 [] else s.remoteDo req cells)

/-- Forget a request that has been answered. -/
def State.dropOp13 (s : State) (rid : Nat) : State :=
  s.modPeers (fun p => { p with outstanding := p.outstanding.filter (fun x => x.rid != rid) })

/-- The trap that a failed check at a queue's home on another device sends back (07 R145). -/
def trapOfBytes (bs : List Byte) (va : DWord) : Trap :=
  let c := ofBytes (bs.take 1)
  let all : List TrapCode := [.illop, .illopd, .priv, .emptyt, .xlate, .perm, .fmtmis, .poison, .qcorrupt, .qbroken, .barerr, .watch,
    .sigmis, .remote, .decomp, .trap]
  { code := (all.find? (fun x => TrapCode.num x == c)).getD .remote, detail := ofBytes ((bs.drop 1).take 4), addr := va }

/-- A queue operation that another device has performed (07 R150, R151; 11 R236): an issuer that dequeued goes on with the element, and
its copy is told, of a try form first that there was one. -/
def State.queueBack (s : State) (q : QReq) (bs : List Byte) : State :=
  let ws := wordsOf (bs.length / 4) bs
  if decide (ws.head? = some 0) && q.try_ then s.tryFails q
  else if q.enq then (s.enqAnswer q).enqDone q.from_
  else
    match q.from_ with
    | .producer bid who pid => match s.block? bid with
      | none => s
      | some b => (if q.try_ then s.forward b who [1#32] else s).deqDone (.producer bid who pid) (bs.drop 4)
    | .actor bid who => match s.block? bid with
      | none => s
      | some b =>
        let s1 := if q.try_ then s.forward b who [1#32] else s
        (((s1.mark bid).forward b who (ws.drop 1)).modCtx bid who (fun c =>
          { c with wait := some .answer, phase := { c.phase with answer := .granted s.fresh (some (ws.drop 1)) } })).tick1
    | f => s.deqDone f (bs.drop 4)

/-- An instruction of an issuer has been withdrawn at its home on another device with no effect (07 R154, R157): it executes again, or,
stepped, gives NOTREADY back (12 R250). -/
def State.undoIssuer (s : State) (bid : Nat) (who : Who) : State :=
  if s.stepped bid who then s.stepNotReady bid who else s.undo bid who

/-- A request has been withdrawn with no effect (07 R154, R157; 08 R173): an engine operation asks again later. -/
def State.withdrawnAbroad (s : State) (o : RemoteOp) : State :=
  match o.use, o.owner with
  | .queue q, _ => match q.from_ with
    | .actor bid who => s.undoIssuer bid who
    | .engine oid => s.modOp oid (fun x => { x with phase := .ended })
    | _ => s
  | .answer .., some (bid, who, _) => s.undoIssuer bid who
  | _, _ => s

/-- Bytes of another device reach a load that a proctor match holds (12 R242). -/
def State.fillHeld (s : State) (bid : Nat) (who : Who) (off : Nat) (bs : List Byte) : State :=
  s.modCtx bid who (fun c => match c.phase.answer with
    | .loading known =>
      { c with wait := none, phase := { c.phase with answer := .loading (known ++ (offsetBytes bs).map (fun b => (off + b.1, b.2))) } }
    | _ => c)

/-- Bytes of another device reach the loads that asked for them. -/
def State.fillLoads (s : State) (bid : Nat) (readers : List (Who × Nat × Nat × Nat × Nat)) (bs : List Byte) : State :=
  readers.foldl (fun t r => t.modCtx bid r.1 (fun c => c.fill r.2.1 r.2.2.2.2 ((bs.drop r.2.2.1).take r.2.2.2.1))) s

/-- The old word of an atomic reaches its producer; the other copy of a pair is told it with the exceptions raised (11 R236). -/
def State.atomBack (s : State) (bid : Nat) (who : Who) (pid : Nat) (ws : List Word) : State :=
  match s.block? bid, (s.ctx? bid who).bind (fun c => c.producers.find? (fun p => p.pid == pid)) with
  | some b, some p =>
    (s.forward b who [ws.getD 0 0, BitVec.ofNat 32 (p.lateFlags ws).toNat]).modCtx bid who (fun c => c.deliver pid ws)
  | _, _ => s

/-- What an answer carries for the issuer that waits: of a tagged load under the block's own uncommitted bytes (06 R122). -/
def State.answerWords (s : State) (o : RemoteOp) (bid : Nat) (bs : List Byte) : List Word :=
  match o.kind, s.block? bid with
  | .ldt n _, some b => wordsOf ((n + 3) / 4)
      (overlay (s.bufferSeen b [{ va := o.va.toNat, pa := o.target * 2 ^ 42 + o.addr, len := n, entry := 0 }]) o.va.toNat (bs.take n))
  | _, _ => wordsOf (bs.length / 4) bs

/-- Another device has done what was asked (13 R264). -/
def State.remoteDone (s : State) (o : RemoteOp) (bs : List Byte) : State :=
  if o.kind.withdrawn bs then s.withdrawnAbroad o
  else
  match o.use, o.owner with
  | .loads rs, some (bid, _, _) => s.fillLoads bid rs bs
  | .atom pid, some (bid, who, _) => s.atomBack bid who pid (wordsOf 1 bs)
  | .answer mark tell, some (bid, who, _) =>
    let ws := s.answerWords o bid bs
    let s1 := if mark then s.mark bid else s
    let s2 := match s1.block? bid with
      | some b => if tell then s1.forward b who ws else s1
      | none => s1
    s2.answer bid who ws
  | .queue q, _ => s.queueBack q bs
  | .held off, some (bid, who, _) => s.fillHeld bid who off bs
  | .unitWrite oid, _ => s.modOp oid (fun x => { x with bytes := x.bytes + o.kind.wrote })
  | .unitRead oid pa, _ => s.modOp oid (fun x => { x with fetched := x.fetched ++ (offsetBytes bs).map (fun b => (pa + b.1, b.2, false)) })
  | .code core pa, _ => { s with icache := { core := core, pa := pa, word := BitVec.ofNat 32 (ofBytes bs) } :: s.icache }
  | .dean id off, _ => s.deanHears id off (some bs)
  | _, _ => s

/-- The trap of a request that failed, named at its virtual address. -/
def RemoteOp.trap (o : RemoteOp) (code : TrapCode) (detail : Nat) : Trap := { code := code, detail := detail, addr := o.va }

/-- What was asked of another device ends in a fault of whoever asked (13 R264, R265; 07 R155; 08 R170). -/
def State.remoteFails (s : State) (o : RemoteOp) (t : Trap) : State :=
  match o.use, o.owner with
  | .loads rs, some (bid, _, _) => rs.foldl (fun u r => u.failProducer bid r.1 r.2.1 t) s
  | .atom pid, some (bid, who, _) => s.failProducer bid who pid t
  | .answer .., some (bid, who, _) => s.failActor bid who t
  | .held _, some (bid, who, _) => s.failActor bid who t
  | .ack, some (bid, who, pc) => match o.kind with
    | .upkeep _ => s.takeTrap bid who pc t
    | _ => s
  | .store, some (bid, who, pc) => s.takeTrap bid who pc t
  | .red .., some (bid, who, pc) => s.takeTrap bid who pc t
  | .code .., some (bid, who, pc) => s.takeTrap bid who pc t
  | .queue q, _ => s.queueFail q t
  | .unitRead oid _, _ => match (s.op? oid).bind (fun x => (s.block? x.bid).map (fun b => (b, x))) with
    | some (b, x) => s.opFault b x t
    | none => s
  | .unitWrite oid, _ => match (s.op? oid).bind (fun x => (s.block? x.bid).map (fun b => (b, x))) with
    | some (b, x) => if x.code.isSome then s else s.opFault b x t
    | none => s
  | .fence port, _ => s.fenceFails port o.rid
  | .dean id off, _ => s.deanHears id off none
  | _, _ => s

/-- Another device answers with poisoned data (05 R117): an engine takes it along, a reduction writes its record, any other reader
faults. -/
def State.remotePoison (s : State) (o : RemoteOp) (bs : List Byte) : State :=
  match o.use with
  | .unitRead oid pa => s.modOp oid (fun x =>
      { x with fetched := x.fetched ++ (offsetBytes bs).map (fun b => (pa + b.1, b.2, true)) })
  | .unitWrite oid => match s.op? oid with
    | some x => s.opRecord x (o.trap .poison 5)
    | none => s
  | .red queue owner => s.sendRecord queue { owner with detail := 5 }
  | _ => s.remoteFails o (o.trap .poison 5)

/-- The issuers of a block whose release covers a request, with their PCs (06 R123). -/
def Block.releasing (b : Block) (rid : Nat) : List (Who × DWord) :=
  b.whos.filterMap (fun w => match b.ctx? w with
    | none => none
    | some c => match c.phase.release with
      | .abroad n => if rid < n then some (w, c.pc) else none
      | _ => none)

/-- A write or a fence that is not acknowledged leaves the releases of its block that cover it incomplete: they fault REMOTE with
detail 3 (06 R123, R142; 13 R265). A line's upkeep that fails faults its own instruction. -/
def State.releaseFails (s : State) (o : RemoteOp) : State :=
  match o.kind, o.owner with
  | .upkeep _, _ => s
  | _, none => s
  | _, some (bid, _, _) => match s.block? bid with
    | none => s
    | some b => (b.releasing o.rid).foldl (fun t r => t.takeTrap bid r.1 r.2 { code := .remote, detail := 3, addr := 0 }) s

/-- A request of this package ends in an error response (13 R264, R265). -/
def State.remoteError (s : State) (o : RemoteOp) (detail : Nat) : State :=
  let s1 := s.dropOp13 o.rid
  (if o.use.acknowledged then s1.releaseFails o else s1).remoteFails o (o.trap .remote detail)

/-- The answer to a request of this package arrives (13 R264): done, an error, poisoned data, still under way, or a failed check of a
queue. (DESIGN CHOICE, log entry 55.) -/
def State.remoteEnd (s : State) (o : RemoteOp) (status : Nat) (bs : List Byte) : State :=
  match status with
  | 0 => (s.dropOp13 o.rid).remoteDone o bs
  | 2 => (s.dropOp13 o.rid).remotePoison o bs
  | 3 => s.modPeers (fun p => { p with outstanding := p.outstanding.map (fun x =>
      if x.rid = o.rid then { x with sent := some (s.time, s.time) } else x) })
  | 4 => (s.dropOp13 o.rid).remoteFails o (trapOfBytes bs o.va)
  | _ => s.remoteError o 2

/-- Whether a request gets no response: 1 ms has passed, or its target was dead when it was made (13 R265). -/
def RemoteOp.expired (o : RemoteOp) (now : Nat) : Bool :=
  o.doomed || match o.sent with
    | some (first, _) => decide (now ≥ first + nsTime 1000000)
    | none => false

/-- What the payload of a data flit brings that a port has taken (13 R261, R264). A response that comes after 1 ms comes too late: its
request ends as one without a response (13 R258, R265). -/
def State.peerMessage (s : State) (port source : Nat) (m : PeerMsg) : State :=
  match m with
  | .nothing => s
  | .request req => { s with agenda := Turn.event (.remoteRequestAtTarget { req with source := source, port := port }) :: s.agenda }
  | .response sequenced number status bs =>
    match s.peers.outstanding.find? (fun o => o.target == source &&
        (if sequenced then decide (o.seq = some number) else o.rid == number && o.seq.isNone)) with
    | some o => if o.expired s.time then s else s.remoteEnd o status bs
    | none => s

/-- PEER_FLIT_RECEIVE (13 R262). -/
def execPeerFlitReceive (port : Nat) (flit : Flit) (s : State) : Host.Outcome State Fault Refusal :=
  event (
    if port ≥ 32 then s
    else
      let x := (s.peers.port port).receive flit s.time
      let s1 := s.modPeers (fun p => p.setPort port x)
      if x.inbox.length > (s.peers.port port).inbox.length then s1.peerMessage port flit.src flit.msg else s1)

/-- The message of a request toward another device. -/
def State.requestMsg (s : State) (o : RemoteOp) : PeerMsg :=
  .request { source := s.device, seq := o.seq.getD o.rid, addr := o.addr, kind := o.kind, port := 0 }

/-- Send a request of this package, again by its next route (13 R264). -/
def State.sendOp (s : State) (o : RemoteOp) : State :=
  (s.peerSend o.target o.resends (s.requestMsg o)).modPeers (fun p => { p with outstanding := p.outstanding.map (fun x =>
    if x.rid = o.rid then
      { x with sent := some ((x.sent.map (·.1)).getD s.time, s.time), resends := x.resends + 1 }
    else x) })

/-- The requests that can be sent now: at most 4,096 that carry sequence numbers are outstanding toward one target (13 R264). -/
def Peers.unsent (p : Peers) : List RemoteOp :=
  p.outstanding.filter (fun o => o.sent.isNone && !o.doomed &&
    (o.seq.isNone || decide (((p.outstanding.takeWhile (fun x => x.rid != o.rid)).filter (fun x =>
      x.target == o.target && x.seq.isSome)).length < 4096)))

/-- REMOTE_RESEND (13 R264): no response within 100 µs. -/
def execRemoteResend (op : Nat) (s : State) : Host.Outcome State Fault Refusal :=
  event (match s.peers.outstanding.find? (fun o => o.rid == op) with
  | none => s
  | some o => match o.seq, o.sent with
    | some _, some (_, last) => if s.time < last + nsTime 100000 then s else s.sendOp o
    | _, _ => s)

/-- Write back the stack-cache lines of an extent of canonical addresses (05 R118). -/
def State.cleanExtent (s : State) (base limit : Nat) : State :=
  let inside (l : Line) : Bool := s.maps.any (fun e =>
    match gfSolve e.2.masks l.tag with
    | some x => decide ((regionOf s.maps (x * 64)).map (·.1) = some e.1) && inUnits base limit (x * 64) 64
    | none => false)
  (s.scache.filter inside).foldl (fun t l => t.scClean l) s

/-- Whether an access of a borrower that has been let in is still under way in an extent (05 R118). -/
def State.extentBusy (s : State) (e : Nat × Nat) : Bool :=
  let inside (pa : Nat) : Bool := meetsUnits e (pa % 2 ^ 42) 64
  let isRemote (f : QFrom) : Bool := match f with
    | .remote _ _ => true
    | _ => false
  s.qreqs.any (fun q => isRemote q.from_ && inside q.pa) || s.queues.any (fun q => (q.enqs ++ q.deqs).any isRemote && inside q.pa) ||
    s.treqs.any (fun q => q.remote.isSome && inside q.pa)

/-- The last steps of a release (05 R118): once nothing that was let in is under way, its dirty lines are written back and the
release is acknowledged. The memory-side cache holds no dirty line. (DESIGN CHOICE, log entry 52.) -/
def State.endRelease (s : State) (e : Nat × Nat) : State :=
  if s.extentBusy e then s
  else (s.cleanExtent e.1 e.2).modPeers (fun p =>
    { p with releasing := p.releasing.filter (· != e), acknowledged := p.acknowledged.filter (· != e) ++ [e] })

/-- Release a lent extent (05 R118): from now on it is refused. -/
def State.releaseExtent (s : State) (base limit : Nat) : State :=
  (s.modPeers (fun p => { p with released := p.released.filter (fun e => e != (base, limit)) ++ [(base, limit)],
                                 releasing := p.releasing.filter (fun e => e != (base, limit)) ++ [(base, limit)],
                                 acknowledged := p.acknowledged.filter (fun e => e != (base, limit)) })).endRelease (base, limit)

/-- EXTENT_RELEASE (05 R118). -/
def execExtentRelease (base limit : Nat) (s : State) : Host.Outcome State Fault Refusal := event (s.releaseExtent base limit)

/-- Whether a request is a queue operation, which ends when its home is dead (07 R155). -/
def RemoteKind.ofQueue (k : RemoteKind) : Bool :=
  match k with
  | .enq .. => true
  | .deq .. => true
  | .qinit .. => true
  | .qstat => true
  | _ => false

/-- A request of this package gets no response (13 R265): it ends, and its address is logged. -/
def State.remoteSilent (s : State) (o : RemoteOp) : State := (s.remoteError o 1).logErr (.remoteDead o.target o.va)

/-- REMOTE_TIMEOUT (13 R265): no response within 1 ms. The device is dead, operations on its queues end (07 R155), and the
extents lent to it are released (05 R118). -/
def execRemoteTimeout (op : Nat) (s : State) : Host.Outcome State Fault Refusal :=
  event (match s.peers.outstanding.find? (fun o => o.rid == op) with
  | none => s
  | some o =>
    if !o.expired s.time then s
    else
      let s1 := (s.remoteSilent o).modPeers (fun p => { p with dead := sins p.dead o.target })
      let s2 := (s1.peers.outstanding.filter (fun x => RemoteKind.ofQueue x.kind && x.target == o.target)).foldl
        (fun t x => t.remoteError x 1) s1
      (s2.peers.imports.filter (fun i => i.device == o.target)).foldl (fun t i => t.releaseExtent i.base i.limit) s2)

/-- DEAD_MARK_CLEAR (13 R265). -/
def execDeadMarkClear (device : Nat) (s : State) : Host.Outcome State Fault Refusal :=
  event (s.modPeers (fun p => { p with dead := sdel p.dead device }))

/-- A cycle of the peer links: requests that can be sent leave, each port sends a flit, releases of extents end. -/
def State.peerCycle (s : State) : State :=
  let s1 := s.peers.unsent.foldl (fun t o => t.sendOp o) s
  let s2 := s1.modPeers (fun p => { p with ports := p.ports.map (fun e => (e.1, e.2.send)) })
  s2.peers.releasing.foldl (fun t e => t.endRelease e) s2

end Sys2Proof.Machine
end

