-- ==== Sys2Proof/Machine/Ridge.lean ====
section
/-!
DEFINITION. The Ridge (01 R10 to R14). Its messages time the ring and name the sector whose data they carry; the accesses they stand
for have been performed at their homes, and no rule of the memory model rests on the Ridge's order (01 R13). Requests to the home of a
queue or a tagged granule, and contributions to the summit, keep their order where they are taken up (State.queueAhead,
State.tagAhead, State.summitAhead).
-/
namespace Sys2Proof.Machine

/-- Whether a message from a stop to another goes ascending (01 R11). -/
def ascends (a b : Nat) : Bool :=
  let up := (b + 34 - a) % 34
  let down := (a + 34 - b) % 34
  decide (up < down) || (decide (up = down) && decide (a % 2 = 0))

/-- The hops of a message from a stop to another (01 R11): the fewer of the two directions. -/
def hopsOf (a b : Nat) : Nat := min ((b + 34 - a) % 34) ((a + 34 - b) % 34)

/-- Time of one ring cycle: 2.0 GHz (01 R12). -/
def ringTime : Nat := 3

/-- The unloaded latency over h hops (01 R12): 6 + 4h ring cycles. -/
def ringLatency (h : Nat) : Nat := ringTime * (6 + 4 * h)

/-- Whether a message belongs to a class and a pair of stops. -/
def RidgeMsg.on (m : RidgeMsg) (cls : RidgeClass) (src dst : Nat) : Bool :=
  decide (m.cls = cls) && m.src == src && m.dst == dst

/-- The direction of a message (01 R11). -/
def RidgeMsg.up (m : RidgeMsg) : Bool := ascends m.src m.dst

/-- When a message reaches its destination: once it has taken a slot, after its unloaded latency (01 R12). -/
def RidgeMsg.arrival (m : RidgeMsg) : Option Nat := m.entered.map (fun t => t + ringLatency (hopsOf m.src m.dst))

/-- The stop and direction whose slot a message takes at a time (01 R12, R14): its own stop's when it enters, and the next stop's
every four ring cycles. -/
def RidgeMsg.slotAt (m : RidgeMsg) (t : Nat) : Option (Nat × Bool) :=
  match m.entered with
  | none => none
  | some e =>
    let j := (t - e) / (4 * ringTime)
    if t < e ∨ (t - e) % (4 * ringTime) ≠ 0 ∨ j ≥ hopsOf m.src m.dst then none
    else some (if m.up then (m.src + j) % 34 else (m.src + 34 - j) % 34, m.up)

/-- Injections that take a slot at a time, oldest first, those with a reservation or those without; none takes a slot that a message
has already (01 R14). -/
def injectAt (t : Nat) (reserved : Bool) (taken : List (Nat × Bool)) (ms : List RidgeMsg) : List (Nat × Bool) × List RidgeMsg :=
  ms.foldl (fun (acc : List (Nat × Bool) × List RidgeMsg) m =>
    if m.entered.isSome || m.since > t || m.reserved != reserved || acc.1.contains (m.src, m.up) then (acc.1, acc.2 ++ [m])
    else ((m.src, m.up) :: acc.1, acc.2 ++ [{ m with entered := some t, reserved := false }])) (taken, [])

/-- One ring cycle (01 R14): through traffic keeps its slots, reserved injections take theirs, then the oldest others. One slot a
stop, direction and ring cycle is the model's. (DESIGN CHOICE, log entry 58.) -/
def ringCycle (t : Nat) (ms : List RidgeMsg) : List RidgeMsg :=
  let a := injectAt t true (ms.filterMap (fun m => m.slotAt t)) ms
  (injectAt t false a.1 a.2).2

/-- The ring cycles that begin while a core cycle passes. -/
def State.ridgeCycle (s : State) : State :=
  let ticks := (List.range cycleTime).filterMap (fun i =>
    if (s.time - i) % ringTime = 0 then some (s.time - i) else none)
  { s with ridge := ticks.reverse.foldl (fun ms t => ringCycle t ms) s.ridge }

/-- An uncorrectable error of a hop link (01 R14; 05 R117): every sector that the message carries is poisoned where it is delivered: at
its home, in the copies of the core that takes it, in what an engine has copied from it; and the producers that await it fault. The
payload of a queue request or of a contribution is no sector, and what an engine has delivered to an on-core unit carries no poison.
(DESIGN CHOICE, log entry 58.) -/
def State.linkError (s : State) (m : RidgeMsg) : State :=
  let s1 := m.data.foldl (fun t k =>
    if m.dst = cellStop (k * 32) then t.addPoison (k * 32) 32 4
    else match m.reader with
      | some core => t.poisonCopy core k
      | none => t) s
  let s2 := m.lands.foldl (fun t k => t.addPoison (k * 32) 32 4) s1
  if m.brings then s2.poisonReaders (fun p => p.owns m.req) (fun k => m.data.contains k) 4 else s2

/-- RIDGE_MESSAGE_DELIVER (01 R12 to R14): the oldest message of the class and pair, once it has had its slot and its latency. -/
def execRidgeMessageDeliver (cls : RidgeClass) (src : Nat) (dst : RidgeEnd) (s : State) : Host.Outcome State Fault Refusal :=
  event (match s.ridge.find? (fun m => m.on cls src dst.stop) with
  | none => s
  | some m =>
    match m.arrival with
    | none => s
    | some t =>
      if s.time < t then s
      else
        let s1 : State := { s with ridge := s.ridge.erase m }
        if dst.uncorrectable then s1.linkError m else s1)

/-- Whether a message waits at a stop for one direction and has waited 64 ring cycles without a reserved slot (01 R14). -/
def RidgeMsg.overdue (m : RidgeMsg) (stop : Nat) (ascending : Bool) (now : Nat) : Bool :=
  m.src == stop && (m.up == ascending) && m.entered.isNone && !m.reserved && decide (now ≥ m.since + 64 * ringTime)

/-- RIDGE_INJECTION_RESERVE (01 R14): the next free slot is reserved for the injection that has waited longest. -/
def execRidgeInjectionReserve (stop : Nat) (ascending : Bool) (s : State) : Host.Outcome State Fault Refusal :=
  event (match s.ridge.findIdx? (fun m => m.overdue stop ascending s.time) with
  | none => s
  | some i => { s with ridge := s.ridge.modify i (fun m => { m with reserved := true }) })

end Sys2Proof.Machine
end

