-- ==== Sys2Proof/Machine/Firmware.lean ====
section
/-!
DEFINITION. Reset, attestation and the expert level (13 R268, R269; 05 R116), and the traps of a fetch that gives no instruction
(02 R21; 14 R274, R275).
-/
namespace Sys2Proof.Machine

/-- Whether an image may run (13 R268): its signature verifies against the fused key hash, and its security version is not below the
fused minimum. -/
def verifiedImage (i : BootImage) : Bool := i.signed && decide (i.security ≥ Config.fusedMinimum)

/-- The firmware after a boot (13 R268, R269): the boot ROM enters the root firmware if that verifies; the root firmware measures
what it loads and starts the service firmware, without keys, the expert level or memory that the host driver has not granted, if
that verifies; otherwise the device is in recovery. The expert level is locked again; the ports that have ever unlocked it stay
recorded. -/
def bootFirmware (boot : Boot) (old : Firmware) : Firmware :=
  let root := verifiedImage boot.root
  let service := root && verifiedImage boot.service
  { booted := root, recovery := !service,
    images := (if root then [boot.root.number] else []) ++ (if service then [boot.service.number] else []),
    configs := if root then boot.configs else [], service := if service then some { Sandbox.closed with extents := boot.extents } else none,
    expert := [], everUnlocked := old.everUnlocked, report := none }

/-- DEVICE_RESET (13 R268): every register at its reset value. A verified root firmware initialises memory (05 R116); without one
memory is left undefined. Inputs that are still to come, the device id and the count of free values stand. (DEDUCED, log entry 39.) -/
def execDeviceReset (boot : Boot) (s : State) : Host.Outcome State Fault Refusal :=
  event { State.reset with
            agenda := s.agenda, device := s.device, fresh := s.fresh + 1, firmware := bootFirmware boot s.firmware,
            blur := if verifiedImage boot.root then []
              else [{ lo := 0, hi := 2 ^ 41, epoch := s.fresh, remap := none, written := [] }] }

/-- What a report's signature covers (13 R268): all that it holds but the signature. -/
def Report.digest (r : Report) : List Nat :=
  [r.nonce.toNat, r.device, r.serial] ++ r.versions ++ r.measurements.map (·.toNat) ++ r.unlocked

/-- ATTESTATION_REQUEST (13 R268): a signed report of identity, versions and measurements of every image and configuration loaded. -/
def execAttestationRequest (nonce : BitVec 512) (s : State) : Host.Outcome State Fault Refusal :=
  event (
    let f := s.firmware
    let rep : Report :=
      { nonce := nonce, device := s.device, serial := Config.serialNumber, versions := f.images.map Config.firmwareVersion,
        measurements := f.images.map Config.measurement ++ f.configs.map Config.configMeasurement, unlocked := f.everUnlocked,
        signature := 0 }
    ({ s with firmware := { f with report := some { rep with signature := Config.signature s.fresh rep.digest } } } :
      State).tick1)

/-- EXPERT_UNLOCK (13 R269): a request signed by an enrolled key unlocks the expert level for a port until reset. -/
def execExpertUnlock (port : Nat) (signed : Bool) (s : State) : Host.Outcome State Fault Refusal :=
  event (
    if !signed then s
    else
      let f := s.firmware
      { s with firmware := { f with expert := sins f.expert port, everUnlocked := sins f.everUnlocked port } })

/-- Whether an event still happens in recovery, where only the mailbox answers (13 R268). -/
def mailbox (e : Instr) : Bool :=
  match e with
  | .deviceReset _ => true
  | .attestationRequest _ => true
  | .expertUnlock _ _ => true
  | _ => false

/-- The issuer takes a trap at its fetch. -/
def fetchTraps (i : Instr) (t : Env → Trap) (s : State) : Host.Outcome State Fault Refusal :=
  match s.env? with
  | none => .next s
  | some e0 =>
    let s1 := s.unhold e0
    let e := e0.again s1
    .next (s1.issueTrap i e (base .always false) (t e))

/-- UNASSIGNED_OPCODE (14 R274, R275): ILLOP or ILLOPD, with no effect. -/
def execUnassignedOpcode (word : Word) (s : State) : Host.Outcome State Fault Refusal :=
  fetchTraps (.unassignedOpcode word) (fun e => badWordTrap word e.lead) s

/-- INSTRUCTION_FETCH_FAULT (02 R21; 14 R274 step 1). -/
def execInstructionFetchFault (fault : FetchFault) (s : State) : Host.Outcome State Fault Refusal :=
  fetchTraps (.instructionFetchFault fault) (fun _ => fetchTrap fault) s

end Sys2Proof.Machine
end

