-- ==== Sys2Proof/Machine/Arbiter.lean ====
section
/-!
DEFINITION. The default order of what happens when nothing says otherwise: once in each core cycle, the events whose conditions
hold, then each core's issue ports (10 R211), then the issuers that wait, which look again (DESIGN CHOICE, log entry 4).
-/
namespace Sys2Proof.Machine

/-- Events that a block's issuers and state bring about. A block that waits to be seated again is seated by BLOCK_SEAT, in its
queue's turn (10 R213). -/
def State.blockEvents (s : State) (b : Block) : List Instr :=
  let own := b.whos.flatMap (fun w => match b.ctx? w with
    | none => []
    | some c =>
      c.producers.map (fun p => Instr.producerComplete b.bid w ⟨p.pid, none⟩) ++
        (if s.ackReady c.phase.release then [Instr.releaseAckComplete b.bid w] else []) ++
        (if c.finished then [Instr.fibreEnded b.bid w] else []))
  own ++ (if b.allEnded && decide (b.role ≠ .trailing) then [Instr.blockRetire b.bid] else []) ++
    (if b.saveReq.isSome then [Instr.blockSave b.bid] else []) ++
    (if b.retry.isSome then [Instr.preemptRetry b.bid] else []) ++
    (if b.sealDue then [Instr.checkpointSeal b.bid] else []) ++
    (if b.role = .leading then [Instr.signatureCompare b.bid] else [])

/-- Events at the homes of queues and tagged granules (07 R150 to R157). -/
def State.homeEvents (s : State) : List Instr :=
  (s.qreqs.filter (fun q => !q.parked)).map (fun q =>
    if q.busy then Instr.rollBusyResend q.rid else if q.enq then .queueEnqAtHome q.rid else .queueDeqAtHome q.rid) ++
  s.queues.flatMap (fun q =>
    (if q.enqs.isEmpty then [] else [Instr.queueEnqWriteAck q.pa]) ++
      (if q.deqs.isEmpty then [] else [Instr.queueDeqReadDone q.pa])) ++
  (s.treqs.filter (fun t => !t.waiting)).map (fun t => if t.busy then Instr.rollBusyResend t.rid else .taggedAccessAtHome t.rid)

/-- The event of an engine operation (08 R162 to R169). -/
def EngOp.event (o : EngOp) : List Instr :=
  match o.kind, o.phase with
  | .mdrain, _ => [.mdrainReadoutDone o.oid]
  | .cpy, .running => [.cpyComplete o.oid]
  | _, .waitTrigger => if o.shape.trig = 2 then [.engineTriggerDeq o.oid] else [.operandsConsumedEvent o.oid]
  | _, .running => [.engineUnitWrite o.oid]
  | _, .ended => [.engineOperationEnd o.oid]
  | _, .reporting => [.engineOperationEnd o.oid]
  | _, .triggerParked => []
  | _, .parked => []
  | _, .recordParked => []
  | _, .faulted => []

/-- Events of the matrix arrays and the summit (09 R181 to R188). -/
def State.matrixEvents (s : State) : List Instr :=
  s.matrix.arrays.flatMap (fun a =>
    (if a.loading.isSome then [Instr.bSliceLoadComplete a.core] else []) ++
      (if a.running.isSome then [Instr.matrixCommandComplete a.core] else []) ++
      (if a.running.isNone && !a.queue.isEmpty then [Instr.matrixCommandStart a.core] else [])) ++
  s.contribs.map (fun c => Instr.summitContributionArrive c.cid) ++
  (s.instances.filter (fun i => i.closed)).map (fun i => Instr.summitDelivery i.iid)

/-- Events of the dean (10 R198 to R212; 11 R218). -/
def State.deanEvents (s : State) : List Instr :=
  (s.dean.queues.filter (fun q => q.2.en)).map (fun q => Instr.launchAccept q.1) ++
  (if s.launches.isEmpty then [] else [Instr.blockSeat 0, Instr.blockSeat 1]) ++
  s.launches.flatMap (fun l => [Instr.launchComplete l.params.lid, .preemptPriority l.params.lid]) ++
  (s.governors.filter (fun g => g.2.emergency)).flatMap (fun g =>
    [Instr.preemptGovernor g.1, .governorEmergencyEnd g.1]) ++
  (if s.dean.resq = 0 then [] else [Instr.resumeRetry, .resumeSkip, .resumeAbort])

/-- Events of the memory controllers, the mapping block and the Ridge (01 R13, R14; 05 R108, R112, R114). -/
def State.memoryEvents (s : State) : List Instr :=
  s.channels.flatMap (fun c =>
    (if c.2.reqs.any (fun r => c.2.due s.time r && !r.urgent) then [Instr.deadlineUrgent c.1] else []) ++
      (c.2.banks.filter (fun b => b.2.backoffEnd.isSome)).map (fun b => Instr.bankBackoffEnd c.1 b.1) ++
      (if c.2.reqs.isEmpty then [] else [Instr.dramRequestService ⟨c.1, none⟩])) ++
  (s.amap.filter (fun r => r.2.status == 3)).map (fun r => Instr.amapCommitComplete r.1) ++
  (s.ridge.filter (fun m => m.arrival.any (fun t => decide (t ≤ s.time)))).map (fun m =>
    Instr.ridgeMessageDeliver m.cls m.src ⟨m.dst, false⟩) ++
  (s.ridge.filter (fun m => m.overdue m.src m.up s.time)).map (fun m => Instr.ridgeInjectionReserve m.src m.up)

/-- Events of the host ports, the peer links and the trial (12 R254; 13 R258 to R265). -/
def State.portEvents (s : State) : List Instr :=
  s.ports.flatMap (fun p =>
    (if p.2.busy then [Instr.hifenceComplete p.1, .hifenceTimeout p.1] else []) ++
      (p.2.windows.filter (fun w => !w.2.fifo.isEmpty && w.2.sending.isNone)).map (fun w => Instr.qwStagingEnqueue p.1 w.1)) ++
  s.peers.ports.flatMap (fun p =>
    p.2.worn.toList.map (fun k => Instr.laneRepair p.1 k) ++
      (if p.2.retrainEnd.isSome then [Instr.linkRetrainComplete p.1] else [])) ++
  s.peers.outstanding.flatMap (fun o => [Instr.remoteTimeout o.rid, .remoteResend o.rid]) ++
  (if s.trial.run then [Instr.trialWindowEnd] else [])

/-- The events of a cycle. -/
def State.cycleEvents (s : State) : List Instr :=
  s.blocks.flatMap s.blockEvents ++ s.homeEvents ++ s.ops.flatMap EngOp.event ++ s.matrixEvents ++ s.deanEvents ++
    s.memoryEvents ++ s.portEvents

/-- The cores on which a block runs. -/
def State.busyCores (s : State) : List Nat := (List.range 128).filter (fun c => !(s.runningOn c).isEmpty)

/-- Issuers that wait or whose instruction is under way, and so look again, and those whose skid or step ends without an issue. -/
def State.pollers (s : State) : List (Nat × Who) :=
  s.blocks.flatMap (fun b =>
    if b.core.isNone then []
    else b.whos.filterMap (fun w => match b.ctx? w with
      | none => none
      | some c =>
        if c.isLive && (c.wait.isSome || c.arrival.isSome || c.midway || (c.halt.left.isSome && !s.canIssue b c) ||
            (c.halt.stepper.isSome && !s.canIssue b c)) then some (b.bid, w) else none))

/-- Bundles are formed every fourth cycle (02 R28); the age override comes before the ports' choice (10 R211). -/
def State.coreTurns (s : State) (core : Nat) : List Turn :=
  let r := if s.cycle % 4 = 0 then s.reform core else s
  (if s.cycle % 4 = 0 then [Turn.event (.bundleReformation core)] else []) ++
    (if (s.aged core).isEmpty || !s.mayIssue core then [] else [Turn.event (.readyAgeOverride core)]) ++ r.portTurns core

/-- The turns of a cycle. -/
def State.cycleTurns (s : State) : List Turn :=
  s.cycleEvents.map Turn.event ++ s.busyCores.flatMap s.coreTurns ++ s.pollers.map (fun p => Turn.issue p.1 p.2)

/-- A CYCLE OF THE CORE CLOCK passes: 4 units of time, and the turns of the new cycle come first; a pending delay of a trial ends with
the cycle. -/
def State.nextCycle (s : State) : State :=
  let s1 := ((({ s with time := s.time + cycleTime } : State).trialCycle).peerCycle).ridgeCycle
  { s1 with agenda := s1.cycleTurns ++ s.delaysEnding.map (fun c => Turn.event (.trialDelayExpire c)) ++ s1.agenda }

end Sys2Proof.Machine
end

