-- ==== Sys2Proof/Machine/Barrier.lean ====
section
/-!
DEFINITION. Barriers of a block (07 R158, R159; 15 R304, R305). Release and acquire at .blk have no cache action (06 R134).
-/
namespace Sys2Proof.Machine

/-- Barrier b of the issuer's block, if the block has it. -/
def Env.barrier (e : Env) (b : Nat) : Option Barrier :=
  if b < e.blk.params.barrierCount then some (e.blk.body.barriers.getD b { expected := 0, arrived := 0, phase := 0 }) else none

/-- Replace barrier b of the issuer's block. -/
def State.setBarrier (s : State) (e : Env) (b : Nat) (x : Barrier) : State :=
  s.modBlock e.bid (fun k => k.modBody (fun y => { y with barriers := y.barriers.set b x }))

/-- The token of an arrival with count c: the phase of the last unit counted (07 R159). -/
def Barrier.token (x : Barrier) (c : Nat) : Nat := (x.phase + (x.arrived + c - 1) / x.expected) % 2 ^ 28

/-- A barrier after an arrival with count c (07 R159). -/
def Barrier.arrive (x : Barrier) (c : Nat) : Barrier :=
  { x with phase := (x.phase + (x.arrived + c) / x.expected) % 2 ^ 28, arrived := (x.arrived + c) % x.expected }

/-- BARI (07 R159). -/
def execBari (ra rb : Reg) (fe : Bool) (g : Guard) (s : State) : Host.Outcome State Fault Refusal :=
  issue (.bari ra rb fe g) (fun e v s =>
    let n := low v 1
    match e.barrier (low v 0) with
    | none => .trap s (Trap.plain .barerr)
    | some x =>
      if n = 0 ∨ n > 1025 ∨ x.arrived ≠ 0 then .trap s (Trap.plain .barerr)
      else .write (s.setBarrier e (low v 0) { x with expected := n }) []) s

/-- BARA (07 R159). -/
def execBara (rd ra rb : Reg) (fe : Bool) (g : Guard) (s : State) : Host.Outcome State Fault Refusal :=
  issue (.bara rd ra rb fe g) (fun e v s =>
    let c := low v 1
    match e.barrier (low v 0) with
    | none => .trap s (Trap.plain .barerr)
    | some x =>
      if x.expected = 0 ∨ c = 0 ∨ c > 65535 then .trap s (Trap.plain .barerr)
      else .write (s.setBarrier e (low v 0) (x.arrive c)) [low v 0 * 2 ^ 28 + x.token c]) s

/-- BARW (07 R159). -/
def execBarw (ra : Reg) (fe : Bool) (g : Guard) (s : State) : Host.Outcome State Fault Refusal :=
  issue (.barw ra fe g) (fun e v s =>
    let tok := low v 0
    match e.barrier (tok / 2 ^ 28) with
    | none => .trap s (Trap.plain .barerr)
    | some x =>
      let d := (x.phase + 2 ^ 28 - tok % 2 ^ 28) % 2 ^ 28
      if x.expected = 0 ∨ d ≥ 2 ^ 27 then .trap s (Trap.plain .barerr)
      else if d = 0 then .wait s .barrier
      else .write s []) s

end Sys2Proof.Machine
end

