-- ==== Sys2Proof/Machine/Bitwise.lean ====
section
/-!
DEFINITION. Bitwise logic, shifts and bit fields (04 R87; 15 R319 to R321; 17 R364, R367; 18 R380, R403).
-/
namespace Sys2Proof.Machine

/-- AND (15 R319). -/
def execAnd (rd ra rb : Reg) (fe : Bool) (g : Guard) (s : State) : Host.Outcome State Fault Refusal :=
  issue (.and rd ra rb fe g)
    (alu2 (fun a b => a &&& b)) s

/-- OR (17 R364). -/
def execOr (rd ra rb : Reg) (fe : Bool) (g : Guard) (s : State) : Host.Outcome State Fault Refusal :=
  issue (.or rd ra rb fe g)
    (alu2 (fun a b => a ||| b)) s

/-- XOR (18 R403). -/
def execXor (rd ra rb : Reg) (fe : Bool) (g : Guard) (s : State) : Host.Outcome State Fault Refusal :=
  issue (.xor rd ra rb fe g)
    (alu2 (fun a b => a ^^^ b)) s

/-- ANDN (15 R319). -/
def execAndn (rd ra rb : Reg) (fe : Bool) (g : Guard) (s : State) : Host.Outcome State Fault Refusal :=
  issue (.andn rd ra rb fe g)
    (alu2 (fun a b => a &&& ~~~b)) s

/-- SHL (18 R380). -/
def execShl (rd ra rb : Reg) (fe : Bool) (g : Guard) (s : State) : Host.Outcome State Fault Refusal :=
  issue (.shl rd ra rb fe g)
    (alu2 (fun a b => shiftLeft a b.toNat)) s

/-- SHR (18 R380). -/
def execShr (rd ra rb : Reg) (fe : Bool) (g : Guard) (s : State) : Host.Outcome State Fault Refusal :=
  issue (.shr rd ra rb fe g)
    (alu2 (fun a b => shiftRight a b.toNat)) s

/-- SAR (18 R380). -/
def execSar (rd ra rb : Reg) (fe : Bool) (g : Guard) (s : State) : Host.Outcome State Fault Refusal :=
  issue (.sar rd ra rb fe g)
    (alu2 (fun a b => shiftArith a b.toNat)) s

/-- AND_IMM (15 R320). -/
def execAndImm (rd ra : Reg) (imm : BitVec 8) (g : Guard) (s : State) : Host.Outcome State Fault Refusal :=
  issue (.andImm rd ra imm g)
    (alu1 (fun a => a &&& imm32 imm)) s

/-- OR_IMM (17 R364). -/
def execOrImm (rd ra : Reg) (imm : BitVec 8) (g : Guard) (s : State) : Host.Outcome State Fault Refusal :=
  issue (.orImm rd ra imm g)
    (alu1 (fun a => a ||| imm32 imm)) s

/-- XOR_IMM (18 R403). -/
def execXorImm (rd ra : Reg) (imm : BitVec 8) (g : Guard) (s : State) : Host.Outcome State Fault Refusal :=
  issue (.xorImm rd ra imm g)
    (alu1 (fun a => a ^^^ imm32 imm)) s

/-- SHL_IMM (18 R380). -/
def execShlImm (rd ra : Reg) (imm : BitVec 8) (g : Guard) (s : State) : Host.Outcome State Fault Refusal :=
  issue (.shlImm rd ra imm g)
    (alu1 (fun a => shiftLeft a imm.toNat)) s

/-- SHR_IMM (18 R380). -/
def execShrImm (rd ra : Reg) (imm : BitVec 8) (g : Guard) (s : State) : Host.Outcome State Fault Refusal :=
  issue (.shrImm rd ra imm g)
    (alu1 (fun a => shiftRight a imm.toNat)) s

/-- SAR_IMM (18 R380). -/
def execSarImm (rd ra : Reg) (imm : BitVec 8) (g : Guard) (s : State) : Host.Outcome State Fault Refusal :=
  issue (.sarImm rd ra imm g)
    (alu1 (fun a => shiftArith a imm.toNat)) s

/-- BFX (15 R321). -/
def execBfx (rd ra rb : Reg) (fe : Bool) (g : Guard) (s : State) : Host.Outcome State Fault Refusal :=
  issue (.bfx rd ra rb fe g)
    (alu2 extractField) s

/-- BFI (15 R321). -/
def execBfi (rd ra rb : Reg) (fe : Bool) (g : Guard) (s : State) : Host.Outcome State Fault Refusal :=
  issue (.bfi rd ra rb fe g)
    (alu3 insertField) s

/-- POPC (17 R367). -/
def execPopc (rd ra : Reg) (fe : Bool) (g : Guard) (s : State) : Host.Outcome State Fault Refusal :=
  issue (.popc rd ra fe g)
    (alu1 onesOf) s

/-- CLZ (15 R319). -/
def execClz (rd ra : Reg) (fe : Bool) (g : Guard) (s : State) : Host.Outcome State Fault Refusal :=
  issue (.clz rd ra fe g)
    (alu1 leadingZeros) s

/-- BREV (15 R319). -/
def execBrev (rd ra : Reg) (fe : Bool) (g : Guard) (s : State) : Host.Outcome State Fault Refusal :=
  issue (.brev rd ra fe g)
    (alu1 reversed) s

end Sys2Proof.Machine
end

