-- ==== Sys2Proof/Machine/Control.lean ====
section
/-!
DEFINITION. Control instructions: branches, traps, repeats, creation and ending of fibres, waits (02 R30 to R32; 03 R60, R62;
06 R137; 14 R284 to R287; 15 R306 to R308; 16 R323, R326, R335; 17 R363; 18 R377 to R379, R394, R395, R398, R399, R405).
-/
namespace Sys2Proof.Machine

/-- Go to a target that satisfies a check, writing results, or trap ILLOPD (02 R21). -/
def jump (ok : Bool) (target : DWord) (vals : List Nat) (s : State) : Act :=
  if ok then .done { state := s, vals := vals, pc := some target } else .trap s (Trap.plain .illopd)

/-- The target of a branch offset in words (14 R283). -/
def branchTarget (pc : DWord) (off : BitVec 22) : DWord := pc + (off.signExtend 64) <<< 2

/-- NOP (17 R363). -/
def execNop (g : Guard) (s : State) : Host.Outcome State Fault Refusal :=
  issue (.nop g) (fun _ _ s => .write s []) s

/-- BR (15 R306). -/
def execBr (off : BitVec 22) (g : Guard) (s : State) : Host.Outcome State Fault Refusal :=
  issue (.br off g) (fun e _ s => jump (canonical (branchTarget e.ctx.pc off)) (branchTarget e.ctx.pc off) [] s) s

/-- BRI (15 R307). -/
def execBri (ra : Reg) (fe : Bool) (g : Guard) (s : State) : Host.Outcome State Fault Refusal :=
  issue (.bri ra fe g)
    (fun _ v s => jump (goodPc (BitVec.ofNat 64 (v.getD 0 0))) (BitVec.ofNat 64 (v.getD 0 0)) [] s) s

/-- CALL (15 R308). -/
def execCall (off : BitVec 22) (g : Guard) (s : State) : Host.Outcome State Fault Refusal :=
  issue (.call off g) (fun e _ s =>
    jump (canonical (branchTarget e.ctx.pc off)) (branchTarget e.ctx.pc off) [(e.ctx.pc + 4).toNat] s) s

/-- RET (18 R379): BRI through the link register. -/
def execRet (fe : Bool) (g : Guard) (s : State) : Host.Outcome State Fault Refusal :=
  issue (.ret fe g)
    (fun _ v s => jump (goodPc (BitVec.ofNat 64 (v.getD 0 0))) (BitVec.ofNat 64 (v.getD 0 0)) [] s) s

/-- YIELD (18 R405): readiness becomes the current cycle, as retirement sets it; the lead leaves the next issue cycle to the block's
fibres. (DEDUCED, log entry 30.) -/
def execYield (g : Guard) (s : State) : Host.Outcome State Fault Refusal :=
  issue (.yield g) (fun e _ s => .done { state := s, ready := if e.lead then some (s.time + 2 * cycleTime) else none }) s

/-- The trap of a REP whose following word cannot be fetched (18 R378): it carries that word's address. -/
def nextWordTrap (f : FetchFault) (pc : DWord) : Trap := { fetchTrap f with addr := if (fetchTrap f).addr = 0 then pc else (fetchTrap f).addr }

/-- REP (14 R284 to R287, 18 R378): fetches and checks the following word, then arms the repeat. (DEDUCED, log entry 51.) -/
def execRep (cnt : BitVec 6) (sd sa sb : BitVec 3) (s : State) : Host.Outcome State Fault Refusal :=
  let r : Rep := { active := true, count := cnt.toNat, index := 0, sd := sd, sa := sa, sb := sb }
  issueChecked (.rep cnt sd sa sb)
    (fun e s =>
      let q := s.fetch e.blk.space (e.ctx.pc + 4)
      match q.2 with
      | .error f => (q.1, some (nextWordTrap f (e.ctx.pc + 4)))
      | .ok w => (q.1, repTrap w r e))
    (fun e _ s => .done { state := s, pc := some (e.ctx.pc + 4), rep := some r }) s

/-- TRAP (18 R394). -/
def execTrap (imm : BitVec 15) (g : Guard) (s : State) : Host.Outcome State Fault Refusal :=
  issue (.trap imm g) (fun _ _ s => .trap s { code := .trap, detail := imm.toNat, addr := 0 }) s

/-- ERET (16 R326). -/
def execEret (ra rb : Reg) (fe : Bool) (g : Guard) (s : State) : Host.Outcome State Fault Refusal :=
  issue (.eret ra rb fe g) (fun e v s =>
    let target : DWord := BitVec.ofNat 64 (v.getD 0 0)
    let c := low v 1
    let w := bits c 16 12
    let bad := bitAt c 31 && (e.lead || bitAt c 16 || decide (w ≥ e.alloc))
    if !goodPc target || decide (bits c 28 3 ≠ 0) || bad then .trap s (Trap.plain .illopd)
    else .done { state := s, pc := some target, preds := some (BitVec.ofNat 16 c),
                 wb := if bitAt c 31 then some (BitVec.ofNat 12 w) else none }) s

/-- END (02 R31): the issuer is ending and issues nothing more; its PC stays at the END. -/
def execEndIssue (g : Guard) (s : State) : Host.Outcome State Fault Refusal :=
  issue (.endIssue g) (fun e _ s =>
    .done { state := s.modMe e (fun c => { c with life := .ending }), pc := some e.ctx.pc }) s

/-- The lowest free fibre id of a block (02 R30). -/
def Block.freeId (b : Block) : Option Nat :=
  (List.range b.params.fibreCount).find? (fun k => (aget b.body.fibres k).isNone)

/-- FORK (02 R30, 16 R335). Release and acquire at .blk have no cache action (06 R123, R124). -/
def execFork (rd ra rb : Reg) (fe : Bool) (g : Guard) (s : State) : Host.Outcome State Fault Refusal :=
  issue (.fork rd ra rb fe g) (fun e v s =>
    let target : DWord := BitVec.ofNat 64 (v.getD 0 0)
    if !goodPc target then .trap s (Trap.plain .illopd)
    else
      match e.blk.freeId with
      | none => .write s [0xFFFFFFFF]
      | some k =>
        let c := Ctx.new target (e.ctx.uqPos + (e.form (.fork rd ra rb fe g)).pops) s.time
        let c1 := { c with regs := sput 0 [] 0 (word v 1) }
        .write (s.modBlock e.bid (fun b => b.modBody (fun y => { y with fibres := aput y.fibres k c1 }))) [k]) s

/-- UPUSH (03 R62, R63; 18 R395). -/
def execUpush (ra : Reg) (fe : Bool) (g : Guard) (s : State) : Host.Outcome State Fault Refusal :=
  issue (.upush ra fe g) (fun e v s =>
    if e.blk.body.uq.length ≥ 64 then .wait s .uqFull
    else .write (s.modBlock e.bid (fun b => b.modBody (fun y => { y with uq := y.uq ++ [word v 0] }))) []) s

/-- SETE (03 R60). -/
def execSete (rd : Reg) (g : Guard) (s : State) : Host.Outcome State Fault Refusal :=
  issue (.sete rd g) (fun e _ s =>
    .write (s.modMe e (fun c => c.markEmpty
      ((e.form (.sete rd g)).dsts.flatMap (fun x => x.fullBits e.lead e.ctx.wb.toNat)))) []) s

/-- WAITF (18 R398). -/
def execWaitf (ra rb : Reg) (g : Guard) (s : State) : Host.Outcome State Fault Refusal :=
  issue (.waitf ra rb g) (fun e _ s =>
    let lo := if e.lead then ra.toNat else e.ctx.wb.toNat + ra.toNat
    match e.ctx.firstEmpty (span lo (rb.toNat + 1)) with
    | some _ => .wait s .condition
    | none => .write s []) s

/-- WAITO (06 R137): waits for the class counter, then acquires at .core. -/
def execWaito (ra : Reg) (imm : BitVec 8) (g : Guard) (s : State) : Host.Outcome State Fault Refusal :=
  issue (.waito ra imm g) (fun e _ s =>
    if e.ctx.counter ra.toNat > imm.toNat then .wait s .condition else .write (s.acquire e.core 2) []) s

end Sys2Proof.Machine
end

