-- ==== Sys2Proof/Machine/Debug.lean ====
section
/-!
DEFINITION. Proctor slots and the debug instructions (12 R239 to R251; 16 R336, R337; 18 R400).
-/
namespace Sys2Proof.Machine

/-- The blocks that a handle names (11 R215): one, or the two copies of a pair. -/
def State.named (s : State) (h : Nat) : List Block :=
  if bits h 0 14 ≠ 0 then []
  else s.blocks.filter (fun b => decide (b.params.lid = bits h 48 16) && decide (b.index = bits h 24 24))

/-- What a debug instruction finds at a handle (12 R248): a case of failure, a fibre that is not halted, or the fibre. -/
inductive Target where
  | fails
  | running
  | halted (b : Block) (who : Who) (c : Ctx)
deriving DecidableEq, Repr

/-- The fibre that a handle names; of a pair the leading copy (12 R246, R248). -/
def State.target (s : State) (h : Nat) : Target :=
  match (s.named h).find? (fun b => decide (b.role ≠ .trailing)) with
  | none => .fails
  | some b =>
    if b.params.supervisor || b.core.isNone then .fails
    else
      match b.ctx? (.fibre (bits h 14 10)) with
      | none => .fails
      | some c =>
        if c.life = .ended then .fails
        else if c.life = .live ∧ c.halt.halted then .halted b (.fibre (bits h 14 10)) c
        else .running

/-- Full bits of 32 registers from 32j, bits at or beyond A reading 0 (12 R247). -/
def Ctx.fullWord (c : Ctx) (alloc j : Nat) : Nat :=
  (List.range 32).foldr (fun i acc =>
    bit01 (decide (32 * j + i < alloc) && !c.empties.contains (32 * j + i)) + 2 * acc) 0

/-- The item of an index, if the table has it (12 R247). -/
def Ctx.item (c : Ctx) (alloc index : Nat) : Option Nat :=
  let k := bits index 0 16
  let j := bits index 16 16
  if k = 0x1004 then some (c.fullWord alloc j)
  else if j ≠ 0 then none
  else if k < alloc then some (sget 0 c.regs k).toNat
  else
    match k with
    | 0x1000 => some (bits c.pc.toNat 0 32)
    | 0x1001 => some (bits c.pc.toNat 32 32)
    | 0x1002 => some c.preds.toNat
    | 0x1003 => some c.wb.toNat
    | 0x1005 => some c.fps.toNat
    | 0x1006 => some (3 + 256 * (c.halt.slot % 64))
    | 0x1007 => some (c.halt.skid % 2 ^ 32)
    | _ => none

/-- The registers that outstanding or held producers of a fibre will write (12 R248). -/
def Ctx.pendingBits (c : Ctx) : List Nat := c.producers.flatMap (·.bits) ++ c.heldBits

/-- Set the full bits of 32 registers from 32j; bits at or beyond A are ignored (12 R247). -/
def Ctx.setFull (c : Ctx) (alloc j v : Nat) : Ctx :=
  (List.range 32).foldl (fun c i =>
    let k := 32 * j + i
    if k ≥ alloc then c
    else if bitAt v i then { c with empties := c.empties.filter (· != k) } else c.markEmpty [k]) c

/-- A context with an item written, or none where the write fails (12 R247, R248). -/
def Ctx.writeItem (c : Ctx) (alloc index v : Nat) : Option Ctx :=
  let k := bits index 0 16
  let j := bits index 16 16
  if k = 0x1004 then
    let c1 := c.setFull alloc j v
    if c.pendingBits.any (fun b => c.empties.contains b != c1.empties.contains b) then none else some c1
  else if j ≠ 0 then none
  else if k < alloc then
    (if c.pendingBits.contains k then none else some (c.writeReg [k] [k] [BitVec.ofNat 32 v]))
  else
    match k with
    | 0x1000 => some { c with pc := BitVec.ofNat 64 (bits c.pc.toNat 32 32 * 2 ^ 32 + v % 2 ^ 32) }
    | 0x1001 => some { c with pc := BitVec.ofNat 64 (v % 2 ^ 32 * 2 ^ 32 + bits c.pc.toNat 0 32) }
    | 0x1002 => some { c with preds := BitVec.ofNat 16 v }
    | 0x1003 => if v % 2 = 0 ∧ v < alloc then some { c with wb := BitVec.ofNat 12 v } else none
    | 0x1005 => some { c with fps := BitVec.ofNat 5 v }
    | _ => none

/-- Whether a step of a fibre of a block is under way: debug instructions that name a fibre are performed one at a time at its
core, in the order they arrive (16 R337). -/
def Block.stepping (b : Block) : Bool := b.whos.any (fun w => match b.ctx? w with
  | some c => c.halt.stepper.isSome
  | none => false)

/-- Whether a step is under way in a block that a handle names. -/
def State.stepUnderWay (s : State) (h : Nat) : Bool := (s.named h).any (fun b => b.stepping)

/-- HREAD (12 R247, R248). -/
def execHread (rd ra rb : Reg) (fe : Bool) (g : Guard) (s : State) : Host.Outcome State Fault Refusal :=
  issue (.hread rd ra rb fe g) (fun e v s =>
    if s.stepUnderWay (v.getD 0 0) then .wait s .answer
    else
    let value := match s.target (v.getD 0 0) with
      | .halted b _ c => c.item b.params.allocation (low v 1)
      | _ => none
    match value with
    | some x => .done { state := s, vals := [x], long := true, preds := some (setPred e.ctx.preds 1 true) }
    | none => .done { state := s, preds := some (setPred e.ctx.preds 1 false) }) s

/-- HWRITE (12 R246 to R248): never into a pair. -/
def execHwrite (rd ra rb : Reg) (fe : Bool) (g : Guard) (s : State) : Host.Outcome State Fault Refusal :=
  issue (.hwrite rd ra rb fe g) (fun e v s =>
    if s.stepUnderWay (v.getD 0 0) then .wait s .answer
    else
    let r := match s.target (v.getD 0 0) with
      | .halted b who c =>
        if b.role ≠ .single then none
        else (c.writeItem b.params.allocation (low v 1) (low v 2)).map (fun c1 => s.outside e (s.modCtx b.bid who (fun _ => c1)))
      | _ => none
    match r with
    | some t => .done { state := t, preds := some (setPred e.ctx.preds 1 true) }
    | none => .done { state := s, preds := some (setPred e.ctx.preds 1 false) }) s

/-- The status of a step as the stepping instruction writes it; the leading copy of a pair tells it to the trailing one, which makes
no step of its own (11 R232). -/
def State.stepStatus (s : State) (e : Env) (status : Nat) : Act :=
  .write (s.forward e.blk e.who [BitVec.ofNat 32 status]) [status]

/-- HSTEP (12 R249, R250): the halted fibre takes the next turn, and its step answers with a status. -/
def execHstep (rd ra : Reg) (fe : Bool) (g : Guard) (s : State) : Host.Outcome State Fault Refusal :=
  issue (.hstep rd ra fe g) (fun e v s =>
    if e.blk.role = .trailing then
      match s.takeForwarded e.blk e.who with
      | none => .wait s .pair
      | some (t, ws) => .write t [(ws.getD 0 0).toNat]
    else
    match e.ctx.phase.answer with
    | .got ws => s.stepStatus e (ws.getD 0 0).toNat
    | .awaiting => .wait s .answer
    | .granted _ _ => .wait s .answer
    | .loading _ => .wait s .answer
    | .none =>
      if s.stepUnderWay (v.getD 0 0) then .wait s .answer
      else
      match s.target (v.getD 0 0) with
      | .fails => s.stepStatus e 3
      | .running => s.stepStatus e (if (s.named (v.getD 0 0)).any (fun b => decide (b.role ≠ .single)) then 3 else 2)
      | .halted b who _ =>
        if b.role ≠ .single then s.stepStatus e 3
        else
          let s1 := s.modCtx b.bid who (fun c =>
            { c with halt := { c.halt with stepper := some (e.bid, e.who), exempt := true } })
          let s2 := { s1 with agenda := Turn.issue b.bid who :: s1.agenda }
          .wait (s2.setPhase e (fun p => { p with answer := .awaiting })) .answer) s

/-- Release a halted issuer (12 R251): its next instruction is exempt from halting matches. One that is not halted stays as it
is, a skid included. -/
def Ctx.released (c : Ctx) : Ctx :=
  if c.halt.halted && c.halt.stepper.isNone then
    { c with halt := { c.halt with halted := false, left := none, again := false, exempt := true } }
  else c

/-- Release issuers of a block, also while it is saved (12 R251, 16 R336): its image stays as it was sealed. -/
def Block.released (b : Block) (which : Who → Bool) : Block :=
  b.modBody (fun x =>
    { x with fibres := x.fibres.map (fun p => if which (.fibre p.1) then (p.1, p.2.released) else p),
             lead := if which .lead then x.lead.released else x.lead })

/-- HRUN (12 R251, 16 R336): level 0 the fibre, 1 its block, 2 every block of its launch, saved ones too.
(DEDUCED, log entry 43.) -/
def execHrun (ra rb : Reg) (fe : Bool) (g : Guard) (s : State) : Host.Outcome State Fault Refusal :=
  issue (.hrun ra rb fe g) (fun e v s =>
    let h := v.getD 0 0
    let level := low v 1
    let stepping := s.blocks.any (fun b => decide (b.params.lid = bits h 48 16) && b.stepping)
    if level ≥ 3 then .trap s (Trap.plain .illopd)
    else if stepping then .wait s .answer
    else if level = 2 then
      let lid := bits h 48 16
      let all (b : Block) : Block := if b.params.lid = lid then b.released (fun _ => true) else b
      .write (s.outside e (({ s with blocks := s.blocks.map all } : State).modLaunch lid (fun l => { l with held := false }))) []
    else
      let bids := ((s.named h).filter (fun b => b.core.isSome)).map (·.bid)
      let which (w : Who) : Bool := decide (level = 1) || decide (w = .fibre (bits h 14 10))
      .write (s.outside e { s with blocks := s.blocks.map (fun b => if bids.contains b.bid then b.released which else b) }) []) s

/-- The watch of a record, or none where the record is illegal (12 R240, R241). -/
def watchOf (bs : List Byte) : Option Watch :=
  let lo := ofBytes (bs.take 8)
  let hi := ofBytes ((bs.drop 8).take 8)
  let a := ofBytes ((bs.drop 16).take 8)
  let b := ofBytes ((bs.drop 24).take 8)
  let kind := bits b 0 4
  let cmp := bits b 12 3
  if bits a 3 11 ≠ 0 ∨ bits b 26 6 ≠ 0 ∨ bits b 4 5 ≠ 0 ∨ kind ≥ 9 ∨ (kind = 6 ∧ cmp ≠ 0) then none
  else some { kind := kind, lo := BitVec.ofNat 64 lo, hi := BitVec.ofNat 64 hi, lidf := bits a 48 16, blkf := bits a 24 24,
              fidf := bits a 14 10, liden := bitAt a 2, blken := bitAt a 1, fiden := bitAt a 0, count := bits b 32 32,
              fpx := BitVec.ofNat 5 (bits b 21 5), msk := bits b 15 6, cmp := cmp, action := bits b 10 2, trace := bitAt b 9 }

/-- WSET (12 R240): the record is read as a load, from another device too. -/
def execWset (ra rb : Reg) (fe : Bool) (g : Guard) (s : State) : Host.Outcome State Fault Refusal :=
  issue (.wset ra rb fe g) (fun e v s =>
    let slot := low v 0
    let a := v.getD 1 0
    if slot > 63 ∨ a % 32 ≠ 0 then .trap s (Trap.plain .illopd)
    else
      let r := s.pieces e.blk.space a 32 needR
      match r.2 with
      | .error t => .trap r.1 t
      | .ok ps => (r.1.beforeRead e a 32).act (awayRead e a 32 ps (fun t bs =>
            match watchOf bs with
            | none => .trap t (Trap.plain .illopd)
            | some w => .write (t.outside e { t with proctors :=
                { slots := aput t.proctors.slots slot w,
                  hits := t.proctors.hits.filter (fun h => h.1 % 64 != slot) } }) []))) s

/-- WCLR (12 R240). -/
def execWclr (ra : Reg) (fe : Bool) (g : Guard) (s : State) : Host.Outcome State Fault Refusal :=
  issue (.wclr ra fe g) (fun e v s =>
    if low v 0 > 63 then .trap s (Trap.plain .illopd)
    else .write (s.outside e { s with proctors := { s.proctors with slots := adel s.proctors.slots (low v 0) } }) []) s

end Sys2Proof.Machine
end

