-- ==== Sys2Proof/Machine/FpArith.lean ====
section
/-!
DEFINITION. Floating-point arithmetic, comparison and dot products (04 R74 to R78; 16 R327, R328, R330, R333).
-/
namespace Sys2Proof.Machine

/-- FADD_F32 (16 R328). -/
def execFaddF32 (rd ra rb : Reg) (fe : Bool) (g : Guard) (s : State) : Host.Outcome State Fault Refusal :=
  issue (.faddF32 rd ra rb fe g)
    (fun _ v s => fpResult (fpAdd f32 (low v 0) (low v 1)) s) s

/-- FSUB_F32 (16 R328). -/
def execFsubF32 (rd ra rb : Reg) (fe : Bool) (g : Guard) (s : State) : Host.Outcome State Fault Refusal :=
  issue (.fsubF32 rd ra rb fe g)
    (fun _ v s => fpResult (fpSub f32 (low v 0) (low v 1)) s) s

/-- FMUL_F32 (16 R328). -/
def execFmulF32 (rd ra rb : Reg) (fe : Bool) (g : Guard) (s : State) : Host.Outcome State Fault Refusal :=
  issue (.fmulF32 rd ra rb fe g)
    (fun _ v s => fpResult (fpMulR f32 (low v 0) (low v 1)) s) s

/-- FMA_F32 (16 R328). -/
def execFmaF32 (rd ra rb : Reg) (fe : Bool) (g : Guard) (s : State) : Host.Outcome State Fault Refusal :=
  issue (.fmaF32 rd ra rb fe g)
    (fun _ v s => fpResult (fpFma f32 (low v 2) (low v 0) (low v 1)) s) s

/-- FMIN_F32 (16 R328). -/
def execFminF32 (rd ra rb : Reg) (fe : Bool) (g : Guard) (s : State) : Host.Outcome State Fault Refusal :=
  issue (.fminF32 rd ra rb fe g)
    (fun _ v s => .write s [fpMinMax f32 false (low v 0) (low v 1)]) s

/-- FMAX_F32 (16 R328). -/
def execFmaxF32 (rd ra rb : Reg) (fe : Bool) (g : Guard) (s : State) : Host.Outcome State Fault Refusal :=
  issue (.fmaxF32 rd ra rb fe g)
    (fun _ v s => .write s [fpMinMax f32 true (low v 0) (low v 1)]) s

/-- FADD_BF16X2 (16 R328). -/
def execFaddBf16x2 (rd ra rb : Reg) (fe : Bool) (g : Guard) (s : State) : Host.Outcome State Fault Refusal :=
  issue (.faddBf16x2 rd ra rb fe g)
    (fun _ v s => fpResult (packed2 (fpAdd bf16) (low v 0) (low v 1)) s) s

/-- FSUB_BF16X2 (16 R328). -/
def execFsubBf16x2 (rd ra rb : Reg) (fe : Bool) (g : Guard) (s : State) : Host.Outcome State Fault Refusal :=
  issue (.fsubBf16x2 rd ra rb fe g)
    (fun _ v s => fpResult (packed2 (fpSub bf16) (low v 0) (low v 1)) s) s

/-- FMUL_BF16X2 (16 R328). -/
def execFmulBf16x2 (rd ra rb : Reg) (fe : Bool) (g : Guard) (s : State) : Host.Outcome State Fault Refusal :=
  issue (.fmulBf16x2 rd ra rb fe g)
    (fun _ v s => fpResult (packed2 (fpMulR bf16) (low v 0) (low v 1)) s) s

/-- FMA_BF16X2 (16 R328). -/
def execFmaBf16x2 (rd ra rb : Reg) (fe : Bool) (g : Guard) (s : State) : Host.Outcome State Fault Refusal :=
  issue (.fmaBf16x2 rd ra rb fe g)
    (fun _ v s => fpResult (packed3 (fpFma bf16) (low v 2) (low v 0) (low v 1)) s) s

/-- FMIN_BF16X2 (16 R328). -/
def execFminBf16x2 (rd ra rb : Reg) (fe : Bool) (g : Guard) (s : State) : Host.Outcome State Fault Refusal :=
  issue (.fminBf16x2 rd ra rb fe g)
    (fun _ v s => fpResult (packed2 (fun a b => (fpMinMax bf16 false a b, fNone)) (low v 0) (low v 1)) s) s

/-- FMAX_BF16X2 (16 R328). -/
def execFmaxBf16x2 (rd ra rb : Reg) (fe : Bool) (g : Guard) (s : State) : Host.Outcome State Fault Refusal :=
  issue (.fmaxBf16x2 rd ra rb fe g)
    (fun _ v s => fpResult (packed2 (fun a b => (fpMinMax bf16 true a b, fNone)) (low v 0) (low v 1)) s) s

/-- FADD_F16X2 (16 R328). -/
def execFaddF16x2 (rd ra rb : Reg) (fe : Bool) (g : Guard) (s : State) : Host.Outcome State Fault Refusal :=
  issue (.faddF16x2 rd ra rb fe g)
    (fun _ v s => fpResult (packed2 (fpAdd f16) (low v 0) (low v 1)) s) s

/-- FSUB_F16X2 (16 R328). -/
def execFsubF16x2 (rd ra rb : Reg) (fe : Bool) (g : Guard) (s : State) : Host.Outcome State Fault Refusal :=
  issue (.fsubF16x2 rd ra rb fe g)
    (fun _ v s => fpResult (packed2 (fpSub f16) (low v 0) (low v 1)) s) s

/-- FMUL_F16X2 (16 R328). -/
def execFmulF16x2 (rd ra rb : Reg) (fe : Bool) (g : Guard) (s : State) : Host.Outcome State Fault Refusal :=
  issue (.fmulF16x2 rd ra rb fe g)
    (fun _ v s => fpResult (packed2 (fpMulR f16) (low v 0) (low v 1)) s) s

/-- FMA_F16X2 (16 R328). -/
def execFmaF16x2 (rd ra rb : Reg) (fe : Bool) (g : Guard) (s : State) : Host.Outcome State Fault Refusal :=
  issue (.fmaF16x2 rd ra rb fe g)
    (fun _ v s => fpResult (packed3 (fpFma f16) (low v 2) (low v 0) (low v 1)) s) s

/-- FMIN_F16X2 (16 R328). -/
def execFminF16x2 (rd ra rb : Reg) (fe : Bool) (g : Guard) (s : State) : Host.Outcome State Fault Refusal :=
  issue (.fminF16x2 rd ra rb fe g)
    (fun _ v s => fpResult (packed2 (fun a b => (fpMinMax f16 false a b, fNone)) (low v 0) (low v 1)) s) s

/-- FMAX_F16X2 (16 R328). -/
def execFmaxF16x2 (rd ra rb : Reg) (fe : Bool) (g : Guard) (s : State) : Host.Outcome State Fault Refusal :=
  issue (.fmaxF16x2 rd ra rb fe g)
    (fun _ v s => fpResult (packed2 (fun a b => (fpMinMax f16 true a b, fNone)) (low v 0) (low v 1)) s) s

/-- FCMP_F32 (16 R330). -/
def execFcmpF32 (cond : BitVec 3) (pn : BitVec 4) (ra rb : Reg) (fe : Bool) (g : Guard) (s : State) : Host.Outcome State Fault Refusal :=
  issue (.fcmpF32 cond pn ra rb fe g)
    (fun e v s =>
      predResult (setPred e.ctx.preds pn.toNat (fpCond cond.toNat (fpDecode f32 (low v 0)) (fpDecode f32 (low v 1)))) s) s

/-- FCMP_BF16X2 (16 R330). -/
def execFcmpBf16x2 (cond : BitVec 3) (pn : BitVec 4) (ra rb : Reg) (fe : Bool) (g : Guard) (s : State) : Host.Outcome State Fault Refusal :=
  issue (.fcmpBf16x2 cond pn ra rb fe g)
    (fun e v s =>
      let c (j : Nat) : Bool :=
        fpCond cond.toNat (fpDecode bf16 (bits (low v 0) (16 * j) 16)) (fpDecode bf16 (bits (low v 1) (16 * j) 16))
      predResult (setPred (setPred e.ctx.preds pn.toNat (c 0)) (pn.toNat + 1) (c 1)) s) s

/-- FCMP_F16X2 (16 R330). -/
def execFcmpF16x2 (cond : BitVec 3) (pn : BitVec 4) (ra rb : Reg) (fe : Bool) (g : Guard) (s : State) : Host.Outcome State Fault Refusal :=
  issue (.fcmpF16x2 cond pn ra rb fe g)
    (fun e v s =>
      let c (j : Nat) : Bool :=
        fpCond cond.toNat (fpDecode f16 (bits (low v 0) (16 * j) 16)) (fpDecode f16 (bits (low v 1) (16 * j) 16))
      predResult (setPred (setPred e.ctx.preds pn.toNat (c 0)) (pn.toNat + 1) (c 1)) s) s

/-- FABS (16 R327). -/
def execFabs (rd ra : Reg) (fmt : BitVec 7) (fe : Bool) (g : Guard) (s : State) : Host.Outcome State Fault Refusal :=
  issue (.fabs rd ra fmt fe g)
    (fun _ v s => .write s [low v 0 &&& (if fmt = 0#7 then 0x7FFFFFFF else 0x7FFF7FFF)]) s

/-- FNEG (16 R327). -/
def execFneg (rd ra : Reg) (fmt : BitVec 7) (fe : Bool) (g : Guard) (s : State) : Host.Outcome State Fault Refusal :=
  issue (.fneg rd ra fmt fe g)
    (fun _ v s => .write s [low v 0 ^^^ (if fmt = 0#7 then 0x80000000 else 0x80008000)]) s

/-- FDOT2_BF16 (16 R333). -/
def execFdot2Bf16 (rd ra rb : Reg) (fe : Bool) (g : Guard) (s : State) : Host.Outcome State Fault Refusal :=
  issue (.fdot2Bf16 rd ra rb fe g)
    (fun _ v s =>
      let el (k j : Nat) : Fp := fpDecode bf16 (bits (low v k) (16 * j) 16)
      fpResult (fpDot f32 [fpDecode f32 (low v 2)] ((List.range 2).map (fun j => (el 0 j, el 1 j)))) s) s

/-- FDOT2_F16 (16 R333). -/
def execFdot2F16 (rd ra rb : Reg) (fe : Bool) (g : Guard) (s : State) : Host.Outcome State Fault Refusal :=
  issue (.fdot2F16 rd ra rb fe g)
    (fun _ v s =>
      let el (k j : Nat) : Fp := fpDecode f16 (bits (low v k) (16 * j) 16)
      fpResult (fpDot f32 [fpDecode f32 (low v 2)] ((List.range 2).map (fun j => (el 0 j, el 1 j)))) s) s

/-- FDOT4_F8A (16 R333). -/
def execFdot4F8a (rd ra rb : Reg) (fe : Bool) (g : Guard) (s : State) : Host.Outcome State Fault Refusal :=
  issue (.fdot4F8a rd ra rb fe g)
    (fun _ v s =>
      let el (k j : Nat) : Fp := fpDecode f8a (bits (low v k) (8 * j) 8)
      fpResult (fpDot f32 [fpDecode f32 (low v 2)] ((List.range 4).map (fun j => (el 0 j, el 1 j)))) s) s

/-- FDOT4_F8B (16 R333). -/
def execFdot4F8b (rd ra rb : Reg) (fe : Bool) (g : Guard) (s : State) : Host.Outcome State Fault Refusal :=
  issue (.fdot4F8b rd ra rb fe g)
    (fun _ v s =>
      let el (k j : Nat) : Fp := fpDecode f8b (bits (low v k) (8 * j) 8)
      fpResult (fpDot f32 [fpDecode f32 (low v 2)] ((List.range 4).map (fun j => (el 0 j, el 1 j)))) s) s

end Sys2Proof.Machine
end

