-- ==== Sys2Proof/Machine/FpConv.lean ====
section
/-!
DEFINITION. Conversions, functions and classification (04 R77 to R81; 16 R329, R331, R332, R334).
-/
namespace Sys2Proof.Machine

/-- A floating-point producer: its exceptions are raised when it completes (16 R322, R334). -/
def fpProducer (r : Nat × FpFlags) (s : State) : Act := .done { state := s, vals := [r.1], flags := r.2, long := true }

/-- FCVT (16 R331). -/
def execFcvt (rd ra : Reg) (src : BitVec 4) (dst : BitVec 3) (fe : Bool) (g : Guard) (s : State) : Host.Outcome State Fault Refusal :=
  issue (.fcvt rd ra src dst fe g)
    (fun _ v s => fpResult (fpConvert src.toNat dst.toNat (low v 0)) s) s

/-- FCVTI (16 R332). -/
def execFcvti (rd ra : Reg) (mode : BitVec 7) (fe : Bool) (g : Guard) (s : State) : Host.Outcome State Fault Refusal :=
  issue (.fcvti rd ra mode fe g)
    (fun _ v s => fpResult (fpToInt32 (rmodeOf mode.toNat) (decide (mode.toNat ≥ 4)) (low v 0)) s) s

/-- ICVTF (16 R332). -/
def execIcvtf (rd ra : Reg) (mode : BitVec 7) (fe : Bool) (g : Guard) (s : State) : Host.Outcome State Fault Refusal :=
  issue (.icvtf rd ra mode fe g)
    (fun _ v s => fpResult (int32ToFp (rmodeOf mode.toNat) (decide (mode.toNat ≥ 4)) (low v 0)) s) s

/-- FRCP (16 R334). -/
def execFrcp (rd ra : Reg) (fe : Bool) (g : Guard) (s : State) : Host.Outcome State Fault Refusal :=
  issue (.frcp rd ra fe g)
    (fun _ v s => fpProducer (fpRcp (low v 0)) s) s

/-- FRSQ (16 R334). -/
def execFrsq (rd ra : Reg) (fe : Bool) (g : Guard) (s : State) : Host.Outcome State Fault Refusal :=
  issue (.frsq rd ra fe g)
    (fun _ v s => fpProducer (fpRsq (low v 0)) s) s

/-- FEXP2 (16 R334). -/
def execFexp2 (rd ra : Reg) (fe : Bool) (g : Guard) (s : State) : Host.Outcome State Fault Refusal :=
  issue (.fexp2 rd ra fe g)
    (fun _ v s => fpProducer (fpExp2 (low v 0)) s) s

/-- FLOG2 (16 R334). -/
def execFlog2 (rd ra : Reg) (fe : Bool) (g : Guard) (s : State) : Host.Outcome State Fault Refusal :=
  issue (.flog2 rd ra fe g)
    (fun _ v s => fpProducer (fpLog2 (low v 0)) s) s

/-- FRND (16 R334). -/
def execFrnd (rd ra : Reg) (mode : BitVec 7) (fe : Bool) (g : Guard) (s : State) : Host.Outcome State Fault Refusal :=
  issue (.frnd rd ra mode fe g)
    (fun _ v s => .write s [fpRnd (rmodeOf mode.toNat) (low v 0)]) s

/-- FCLASS (16 R329). -/
def execFclass (rd ra : Reg) (fe : Bool) (g : Guard) (s : State) : Host.Outcome State Fault Refusal :=
  issue (.fclass rd ra fe g)
    (fun _ v s => .write s [fpClass (low v 0)]) s

end Sys2Proof.Machine
end

