-- ==== Sys2Proof/Machine/Integer.lean ====
section
/-!
DEFINITION. Integer arithmetic and comparison (04 R87; 15 R319; 16 R339 to R341).
-/
namespace Sys2Proof.Machine

/-- IADD (16 R339). -/
def execIadd (rd ra rb : Reg) (fe : Bool) (g : Guard) (s : State) : Host.Outcome State Fault Refusal :=
  issue (.iadd rd ra rb fe g)
    (alu2 (fun a b => a + b)) s

/-- ISUB (16 R339). -/
def execIsub (rd ra rb : Reg) (fe : Bool) (g : Guard) (s : State) : Host.Outcome State Fault Refusal :=
  issue (.isub rd ra rb fe g)
    (alu2 (fun a b => a - b)) s

/-- IMUL (16 R339). -/
def execImul (rd ra rb : Reg) (fe : Bool) (g : Guard) (s : State) : Host.Outcome State Fault Refusal :=
  issue (.imul rd ra rb fe g)
    (alu2 (fun a b => a * b)) s

/-- IMULH (16 R339). -/
def execImulh (rd ra rb : Reg) (fe : Bool) (g : Guard) (s : State) : Host.Outcome State Fault Refusal :=
  issue (.imulh rd ra rb fe g)
    (alu2 mulHigh) s

/-- IMULHU (16 R339). -/
def execImulhu (rd ra rb : Reg) (fe : Bool) (g : Guard) (s : State) : Host.Outcome State Fault Refusal :=
  issue (.imulhu rd ra rb fe g)
    (alu2 mulHighU) s

/-- IMAD (16 R339). -/
def execImad (rd ra rb : Reg) (fe : Bool) (g : Guard) (s : State) : Host.Outcome State Fault Refusal :=
  issue (.imad rd ra rb fe g)
    (alu3 (fun a b d => d + a * b)) s

/-- DIV (15 R319). -/
def execDiv (rd ra rb : Reg) (fe : Bool) (g : Guard) (s : State) : Host.Outcome State Fault Refusal :=
  issue (.div rd ra rb fe g)
    (fun _ v s => .done { state := s, vals := [(divSigned (word v 0) (word v 1)).toNat], long := true }) s

/-- DIVU (15 R319). -/
def execDivu (rd ra rb : Reg) (fe : Bool) (g : Guard) (s : State) : Host.Outcome State Fault Refusal :=
  issue (.divu rd ra rb fe g)
    (fun _ v s => .done { state := s, vals := [(divUnsigned (word v 0) (word v 1)).toNat], long := true }) s

/-- IMIN (16 R339). -/
def execImin (rd ra rb : Reg) (fe : Bool) (g : Guard) (s : State) : Host.Outcome State Fault Refusal :=
  issue (.imin rd ra rb fe g)
    (alu2 minSigned) s

/-- IMAX (16 R339). -/
def execImax (rd ra rb : Reg) (fe : Bool) (g : Guard) (s : State) : Host.Outcome State Fault Refusal :=
  issue (.imax rd ra rb fe g)
    (alu2 maxSigned) s

/-- IMINU (16 R339). -/
def execIminu (rd ra rb : Reg) (fe : Bool) (g : Guard) (s : State) : Host.Outcome State Fault Refusal :=
  issue (.iminu rd ra rb fe g)
    (alu2 minUnsigned) s

/-- IMAXU (16 R339). -/
def execImaxu (rd ra rb : Reg) (fe : Bool) (g : Guard) (s : State) : Host.Outcome State Fault Refusal :=
  issue (.imaxu rd ra rb fe g)
    (alu2 maxUnsigned) s

/-- IADDS (16 R339). -/
def execIadds (rd ra rb : Reg) (fe : Bool) (g : Guard) (s : State) : Host.Outcome State Fault Refusal :=
  issue (.iadds rd ra rb fe g)
    (alu2 addSat) s

/-- ADDMIN (15 R319). -/
def execAddmin (rd ra rb : Reg) (fe : Bool) (g : Guard) (s : State) : Host.Outcome State Fault Refusal :=
  issue (.addmin rd ra rb fe g)
    (alu3 (fun a b d => minSigned d (a + b))) s

/-- ADDMAX (15 R319). -/
def execAddmax (rd ra rb : Reg) (fe : Bool) (g : Guard) (s : State) : Host.Outcome State Fault Refusal :=
  issue (.addmax rd ra rb fe g)
    (alu3 (fun a b d => maxSigned d (a + b))) s

/-- IABS (16 R339). -/
def execIabs (rd ra : Reg) (fe : Bool) (g : Guard) (s : State) : Host.Outcome State Fault Refusal :=
  issue (.iabs rd ra fe g)
    (alu1 absolute) s

/-- IADDI (16 R340). -/
def execIaddi (rd ra : Reg) (imm : BitVec 8) (g : Guard) (s : State) : Host.Outcome State Fault Refusal :=
  issue (.iaddi rd ra imm g)
    (alu1 (fun a => a + imm32 imm)) s

/-- ICMP (16 R341). -/
def execIcmp (cond : BitVec 3) (pn : BitVec 4) (ra rb : Reg) (fe : Bool) (g : Guard) (s : State) : Host.Outcome State Fault Refusal :=
  issue (.icmp cond pn ra rb fe g)
    (fun e v s => predResult (setPred e.ctx.preds pn.toNat (intCond cond false (word v 0) (word v 1))) s) s

/-- ICMPU (16 R341). -/
def execIcmpu (cond : BitVec 3) (pn : BitVec 4) (ra rb : Reg) (fe : Bool) (g : Guard) (s : State) : Host.Outcome State Fault Refusal :=
  issue (.icmpu cond pn ra rb fe g)
    (fun e v s => predResult (setPred e.ctx.preds pn.toNat (intCond cond true (word v 0) (word v 1))) s) s

end Sys2Proof.Machine
end

