-- ==== Sys2Proof/Machine/Move.lean ====
section
/-!
DEFINITION. Moves, constants, selection, addresses, the window and indirect access (03 R52, R53; 17 R353, R359 to R361; 18 R381).
-/
namespace Sys2Proof.Machine

/-- MOV (17 R359): 32 bits on a fibre, all 64 on the lead. -/
def execMov (rd ra : Reg) (fe : Bool) (g : Guard) (s : State) : Host.Outcome State Fault Refusal :=
  issue (.mov rd ra fe g)
    (fun _ v s => .write s [v.getD 0 0]) s

/-- MOVI (17 R360). -/
def execMovi (rd : Reg) (imm : BitVec 15) (g : Guard) (s : State) : Host.Outcome State Fault Refusal :=
  issue (.movi rd imm g)
    (fun _ _ s => .write s [imm.toNat]) s

/-- MOVHI (17 R360). -/
def execMovhi (rd : Reg) (imm : BitVec 17) (s : State) : Host.Outcome State Fault Refusal :=
  issue (.movhi rd imm)
    (fun _ v s => .write s [imm.toNat * 2 ^ 15 + low v 0 % 2 ^ 15]) s

/-- SEL (18 R381). -/
def execSel (rd ra rb : Reg) (fe : Bool) (g : Guard) (s : State) : Host.Outcome State Fault Refusal :=
  issue (.sel rd ra rb fe g)
    (fun e v s => .write s [if e.ctx.pred 0 then low v 0 else low v 1]) s

/-- LEA (17 R353): the sum wraps at 64 bits. -/
def execLea (sh : BitVec 7) (ra rb : Reg) (fe : Bool) (g : Guard) (s : State) : Host.Outcome State Fault Refusal :=
  issue (.lea sh ra rb fe g)
    (fun _ v s => .write s [(BitVec.ofNat 64 (v.getD 0 0) + ((word v 1).signExtend 64) <<< sh.toNat).toNat]) s

/-- MOVX (03 R52): the indexed register is read at issue. -/
def execMovx (rd ra : Reg) (fe : Bool) (g : Guard) (s : State) : Host.Outcome State Fault Refusal :=
  issue (.movx rd ra fe g)
    (fun e v s =>
      let i := low v 0
      if i ≥ e.alloc then .trap s (Trap.plain .illopd)
      else if e.ctx.empties.contains i then
        (if fe then .trap s { code := .emptyt, detail := i, addr := 0 } else .wait s .sourceEmpty)
      else .done { state := s, vals := [(sget 0 e.ctx.regs i).toNat], long := true }) s

/-- MOVXW (03 R52): waits while the indexed register is empty, whatever fe is. -/
def execMovxw (ra rb : Reg) (fe : Bool) (g : Guard) (s : State) : Host.Outcome State Fault Refusal :=
  issue (.movxw ra rb fe g)
    (fun e v s =>
      let i := low v 0
      if i ≥ e.alloc then .trap s (Trap.plain .illopd)
      else if e.ctx.empties.contains i then .wait s .sourceEmpty
      else .write (s.modMe e (fun c => c.writeReg [i] [i] [word v 1])) []) s

/-- WIN (03 R52); its bounds are checked with the encoding. -/
def execWin (imm : BitVec 15) (g : Guard) (s : State) : Host.Outcome State Fault Refusal :=
  issue (.win imm g)
    (fun _ _ s => .done { state := s, wb := some (imm.truncate 12) }) s

/-- WINADD (03 R52); its bounds are checked with the encoding. -/
def execWinadd (imm : BitVec 8) (g : Guard) (s : State) : Host.Outcome State Fault Refusal :=
  issue (.winadd imm g)
    (fun e _ s => .done { state := s, wb := some (e.ctx.wb + imm.signExtend 12) }) s

end Sys2Proof.Machine
end

