-- ==== Sys2Proof/Machine/Predicate.lean ====
section
/-!
DEFINITION. Predicate logic and moves (17 R365, R366).
-/
namespace Sys2Proof.Machine

/-- PAND (17 R365). -/
def execPand (rd ra rb : Reg) (g : Guard) (s : State) : Host.Outcome State Fault Refusal :=
  issue (.pand rd ra rb g)
    (fun e _ s => predResult (setPred e.ctx.preds rd.toNat (e.ctx.pred ra.toNat && e.ctx.pred rb.toNat)) s) s

/-- POR (17 R365). -/
def execPor (rd ra rb : Reg) (g : Guard) (s : State) : Host.Outcome State Fault Refusal :=
  issue (.por rd ra rb g)
    (fun e _ s => predResult (setPred e.ctx.preds rd.toNat (e.ctx.pred ra.toNat || e.ctx.pred rb.toNat)) s) s

/-- PXOR (17 R365). -/
def execPxor (rd ra rb : Reg) (g : Guard) (s : State) : Host.Outcome State Fault Refusal :=
  issue (.pxor rd ra rb g)
    (fun e _ s => predResult (setPred e.ctx.preds rd.toNat (e.ctx.pred ra.toNat ^^ e.ctx.pred rb.toNat)) s) s

/-- PNOT (17 R365). -/
def execPnot (rd ra : Reg) (g : Guard) (s : State) : Host.Outcome State Fault Refusal :=
  issue (.pnot rd ra g)
    (fun e _ s => predResult (setPred e.ctx.preds rd.toNat (!e.ctx.pred ra.toNat)) s) s

/-- PMOV_TO_PREDICATE (17 R366). -/
def execPmovToPredicate (rd ra : Reg) (fe : Bool) (g : Guard) (s : State) : Host.Outcome State Fault Refusal :=
  issue (.pmovToPredicate rd ra fe g)
    (fun e v s => predResult (if rd = 0x40#7 then BitVec.ofNat 16 (v.getD 0 0)
      else setPred e.ctx.preds rd.toNat (decide (low v 0 ≠ 0))) s) s

/-- PMOV_FROM_WORD (17 R366). -/
def execPmovFromWord (rd : Reg) (g : Guard) (s : State) : Host.Outcome State Fault Refusal :=
  issue (.pmovFromWord rd g)
    (fun e _ s => .write s [e.ctx.preds.toNat]) s

end Sys2Proof.Machine
end

