-- ==== Sys2Proof/Machine/Dispatch.lean ====
section
/-!
DEFINITION. One arm per operation of the table: the meaning of an instruction or event, found in the file of its family.
-/
namespace Sys2Proof.Machine

def exec (i : Instr) (s : State) : Host.Outcome State Fault Refusal :=
  match i with
  | .nop g => Sys2Proof.Machine.execNop g s
  | .br off g => Sys2Proof.Machine.execBr off g s
  | .bri ra fe g => Sys2Proof.Machine.execBri ra fe g s
  | .call off g => Sys2Proof.Machine.execCall off g s
  | .ret fe g => Sys2Proof.Machine.execRet fe g s
  | .yield g => Sys2Proof.Machine.execYield g s
  | .rep cnt sd sa sb => Sys2Proof.Machine.execRep cnt sd sa sb s
  | .trap imm g => Sys2Proof.Machine.execTrap imm g s
  | .eret ra rb fe g => Sys2Proof.Machine.execEret ra rb fe g s
  | .endIssue g => Sys2Proof.Machine.execEndIssue g s
  | .fork rd ra rb fe g => Sys2Proof.Machine.execFork rd ra rb fe g s
  | .upush ra fe g => Sys2Proof.Machine.execUpush ra fe g s
  | .sete rd g => Sys2Proof.Machine.execSete rd g s
  | .waitf ra rb g => Sys2Proof.Machine.execWaitf ra rb g s
  | .waito ra imm g => Sys2Proof.Machine.execWaito ra imm g s
  | .iadd rd ra rb fe g => Sys2Proof.Machine.execIadd rd ra rb fe g s
  | .isub rd ra rb fe g => Sys2Proof.Machine.execIsub rd ra rb fe g s
  | .imul rd ra rb fe g => Sys2Proof.Machine.execImul rd ra rb fe g s
  | .imulh rd ra rb fe g => Sys2Proof.Machine.execImulh rd ra rb fe g s
  | .imulhu rd ra rb fe g => Sys2Proof.Machine.execImulhu rd ra rb fe g s
  | .imad rd ra rb fe g => Sys2Proof.Machine.execImad rd ra rb fe g s
  | .div rd ra rb fe g => Sys2Proof.Machine.execDiv rd ra rb fe g s
  | .divu rd ra rb fe g => Sys2Proof.Machine.execDivu rd ra rb fe g s
  | .and rd ra rb fe g => Sys2Proof.Machine.execAnd rd ra rb fe g s
  | .or rd ra rb fe g => Sys2Proof.Machine.execOr rd ra rb fe g s
  | .xor rd ra rb fe g => Sys2Proof.Machine.execXor rd ra rb fe g s
  | .andn rd ra rb fe g => Sys2Proof.Machine.execAndn rd ra rb fe g s
  | .shl rd ra rb fe g => Sys2Proof.Machine.execShl rd ra rb fe g s
  | .shr rd ra rb fe g => Sys2Proof.Machine.execShr rd ra rb fe g s
  | .sar rd ra rb fe g => Sys2Proof.Machine.execSar rd ra rb fe g s
  | .imin rd ra rb fe g => Sys2Proof.Machine.execImin rd ra rb fe g s
  | .imax rd ra rb fe g => Sys2Proof.Machine.execImax rd ra rb fe g s
  | .iminu rd ra rb fe g => Sys2Proof.Machine.execIminu rd ra rb fe g s
  | .imaxu rd ra rb fe g => Sys2Proof.Machine.execImaxu rd ra rb fe g s
  | .iadds rd ra rb fe g => Sys2Proof.Machine.execIadds rd ra rb fe g s
  | .addmin rd ra rb fe g => Sys2Proof.Machine.execAddmin rd ra rb fe g s
  | .addmax rd ra rb fe g => Sys2Proof.Machine.execAddmax rd ra rb fe g s
  | .sel rd ra rb fe g => Sys2Proof.Machine.execSel rd ra rb fe g s
  | .lea sh ra rb fe g => Sys2Proof.Machine.execLea sh ra rb fe g s
  | .bfx rd ra rb fe g => Sys2Proof.Machine.execBfx rd ra rb fe g s
  | .bfi rd ra rb fe g => Sys2Proof.Machine.execBfi rd ra rb fe g s
  | .icmp cond pn ra rb fe g => Sys2Proof.Machine.execIcmp cond pn ra rb fe g s
  | .icmpu cond pn ra rb fe g => Sys2Proof.Machine.execIcmpu cond pn ra rb fe g s
  | .iabs rd ra fe g => Sys2Proof.Machine.execIabs rd ra fe g s
  | .popc rd ra fe g => Sys2Proof.Machine.execPopc rd ra fe g s
  | .clz rd ra fe g => Sys2Proof.Machine.execClz rd ra fe g s
  | .brev rd ra fe g => Sys2Proof.Machine.execBrev rd ra fe g s
  | .mov rd ra fe g => Sys2Proof.Machine.execMov rd ra fe g s
  | .movi rd imm g => Sys2Proof.Machine.execMovi rd imm g s
  | .movhi rd imm => Sys2Proof.Machine.execMovhi rd imm s
  | .iaddi rd ra imm g => Sys2Proof.Machine.execIaddi rd ra imm g s
  | .andImm rd ra imm g => Sys2Proof.Machine.execAndImm rd ra imm g s
  | .orImm rd ra imm g => Sys2Proof.Machine.execOrImm rd ra imm g s
  | .xorImm rd ra imm g => Sys2Proof.Machine.execXorImm rd ra imm g s
  | .shlImm rd ra imm g => Sys2Proof.Machine.execShlImm rd ra imm g s
  | .shrImm rd ra imm g => Sys2Proof.Machine.execShrImm rd ra imm g s
  | .sarImm rd ra imm g => Sys2Proof.Machine.execSarImm rd ra imm g s
  | .movx rd ra fe g => Sys2Proof.Machine.execMovx rd ra fe g s
  | .movxw ra rb fe g => Sys2Proof.Machine.execMovxw ra rb fe g s
  | .win imm g => Sys2Proof.Machine.execWin imm g s
  | .winadd imm g => Sys2Proof.Machine.execWinadd imm g s
  | .xlane rd ra rb fe g => Sys2Proof.Machine.execXlane rd ra rb fe g s
  | .xshf rd ra imm g => Sys2Proof.Machine.execXshf rd ra imm g s
  | .pand rd ra rb g => Sys2Proof.Machine.execPand rd ra rb g s
  | .por rd ra rb g => Sys2Proof.Machine.execPor rd ra rb g s
  | .pxor rd ra rb g => Sys2Proof.Machine.execPxor rd ra rb g s
  | .pnot rd ra g => Sys2Proof.Machine.execPnot rd ra g s
  | .pmovToPredicate rd ra fe g => Sys2Proof.Machine.execPmovToPredicate rd ra fe g s
  | .pmovFromWord rd g => Sys2Proof.Machine.execPmovFromWord rd g s
  | .vote rd pn rb g => Sys2Proof.Machine.execVote rd pn rb g s
  | .sread rd imm g => Sys2Proof.Machine.execSread rd imm g s
  | .sysr rd imm g => Sys2Proof.Machine.execSysr rd imm g s
  | .sysw rd imm g => Sys2Proof.Machine.execSysw rd imm g s
  | .tlbiPage ra rb fe g => Sys2Proof.Machine.execTlbiPage ra rb fe g s
  | .tlbiAsn rb fe g => Sys2Proof.Machine.execTlbiAsn rb fe g s
  | .tlbiAll g => Sys2Proof.Machine.execTlbiAll g s
  | .sigr rd g => Sys2Proof.Machine.execSigr rd g s
  | .chkpt g => Sys2Proof.Machine.execChkpt g s
  | .prog imm g => Sys2Proof.Machine.execProg imm g s
  | .ifence sc g => Sys2Proof.Machine.execIfence sc g s
  | .faddF32 rd ra rb fe g => Sys2Proof.Machine.execFaddF32 rd ra rb fe g s
  | .faddBf16x2 rd ra rb fe g => Sys2Proof.Machine.execFaddBf16x2 rd ra rb fe g s
  | .faddF16x2 rd ra rb fe g => Sys2Proof.Machine.execFaddF16x2 rd ra rb fe g s
  | .fsubF32 rd ra rb fe g => Sys2Proof.Machine.execFsubF32 rd ra rb fe g s
  | .fsubBf16x2 rd ra rb fe g => Sys2Proof.Machine.execFsubBf16x2 rd ra rb fe g s
  | .fsubF16x2 rd ra rb fe g => Sys2Proof.Machine.execFsubF16x2 rd ra rb fe g s
  | .fmulF32 rd ra rb fe g => Sys2Proof.Machine.execFmulF32 rd ra rb fe g s
  | .fmulBf16x2 rd ra rb fe g => Sys2Proof.Machine.execFmulBf16x2 rd ra rb fe g s
  | .fmulF16x2 rd ra rb fe g => Sys2Proof.Machine.execFmulF16x2 rd ra rb fe g s
  | .fmaF32 rd ra rb fe g => Sys2Proof.Machine.execFmaF32 rd ra rb fe g s
  | .fmaBf16x2 rd ra rb fe g => Sys2Proof.Machine.execFmaBf16x2 rd ra rb fe g s
  | .fmaF16x2 rd ra rb fe g => Sys2Proof.Machine.execFmaF16x2 rd ra rb fe g s
  | .fminF32 rd ra rb fe g => Sys2Proof.Machine.execFminF32 rd ra rb fe g s
  | .fminBf16x2 rd ra rb fe g => Sys2Proof.Machine.execFminBf16x2 rd ra rb fe g s
  | .fminF16x2 rd ra rb fe g => Sys2Proof.Machine.execFminF16x2 rd ra rb fe g s
  | .fmaxF32 rd ra rb fe g => Sys2Proof.Machine.execFmaxF32 rd ra rb fe g s
  | .fmaxBf16x2 rd ra rb fe g => Sys2Proof.Machine.execFmaxBf16x2 rd ra rb fe g s
  | .fmaxF16x2 rd ra rb fe g => Sys2Proof.Machine.execFmaxF16x2 rd ra rb fe g s
  | .fcmpF32 cond pn ra rb fe g => Sys2Proof.Machine.execFcmpF32 cond pn ra rb fe g s
  | .fcmpBf16x2 cond pn ra rb fe g => Sys2Proof.Machine.execFcmpBf16x2 cond pn ra rb fe g s
  | .fcmpF16x2 cond pn ra rb fe g => Sys2Proof.Machine.execFcmpF16x2 cond pn ra rb fe g s
  | .fabs rd ra fmt fe g => Sys2Proof.Machine.execFabs rd ra fmt fe g s
  | .fneg rd ra fmt fe g => Sys2Proof.Machine.execFneg rd ra fmt fe g s
  | .fcvt rd ra src dst fe g => Sys2Proof.Machine.execFcvt rd ra src dst fe g s
  | .fcvti rd ra mode fe g => Sys2Proof.Machine.execFcvti rd ra mode fe g s
  | .icvtf rd ra mode fe g => Sys2Proof.Machine.execIcvtf rd ra mode fe g s
  | .frcp rd ra fe g => Sys2Proof.Machine.execFrcp rd ra fe g s
  | .frsq rd ra fe g => Sys2Proof.Machine.execFrsq rd ra fe g s
  | .fexp2 rd ra fe g => Sys2Proof.Machine.execFexp2 rd ra fe g s
  | .flog2 rd ra fe g => Sys2Proof.Machine.execFlog2 rd ra fe g s
  | .frnd rd ra mode fe g => Sys2Proof.Machine.execFrnd rd ra mode fe g s
  | .fclass rd ra fe g => Sys2Proof.Machine.execFclass rd ra fe g s
  | .fdot2Bf16 rd ra rb fe g => Sys2Proof.Machine.execFdot2Bf16 rd ra rb fe g s
  | .fdot2F16 rd ra rb fe g => Sys2Proof.Machine.execFdot2F16 rd ra rb fe g s
  | .fdot4F8a rd ra rb fe g => Sys2Proof.Machine.execFdot4F8a rd ra rb fe g s
  | .fdot4F8b rd ra rb fe g => Sys2Proof.Machine.execFdot4F8b rd ra rb fe g s
  | .ld rd ra sz ord sc g => Sys2Proof.Machine.execLd rd ra sz ord sc g s
  | .st rd ra sz ord sc g => Sys2Proof.Machine.execSt rd ra sz ord sc g s
  | .ldl rd ra sz ord sc g => Sys2Proof.Machine.execLdl rd ra sz ord sc g s
  | .stl rd ra sz ord sc g => Sys2Proof.Machine.execStl rd ra sz ord sc g s
  | .ldt rd ra sz ord sc g => Sys2Proof.Machine.execLdt rd ra sz ord sc g s
  | .stt rd ra sz ord sc g => Sys2Proof.Machine.execStt rd ra sz ord sc g s
  | .lde rd ra rb fe g => Sys2Proof.Machine.execLde rd ra rb fe g s
  | .pref ra sc g => Sys2Proof.Machine.execPref ra sc g s
  | .cflush rd ra sc g => Sys2Proof.Machine.execCflush rd ra sc g s
  | .cinv rd ra sc g => Sys2Proof.Machine.execCinv rd ra sc g s
  | .fence ord sc g => Sys2Proof.Machine.execFence ord sc g s
  | .acasRelaxed rd ra rb sc3 => Sys2Proof.Machine.execAcasRelaxed rd ra rb sc3 s
  | .acasAcqRel rd ra rb sc3 => Sys2Proof.Machine.execAcasAcqRel rd ra rb sc3 s
  | .atomRelaxed op rd ra rb sc3 => Sys2Proof.Machine.execAtomRelaxed op rd ra rb sc3 s
  | .atomAcqRel op rd ra rb sc3 => Sys2Proof.Machine.execAtomAcqRel op rd ra rb sc3 s
  | .red op ra rb sc3 => Sys2Proof.Machine.execRed op ra rb sc3 s
  | .enq ra rb fe g => Sys2Proof.Machine.execEnq ra rb fe g s
  | .enqt rd ra rb fe g => Sys2Proof.Machine.execEnqt rd ra rb fe g s
  | .deq rd ra fe g => Sys2Proof.Machine.execDeq rd ra fe g s
  | .deqt rd ra rb fe g => Sys2Proof.Machine.execDeqt rd ra rb fe g s
  | .qinit rd ra rb fe g => Sys2Proof.Machine.execQinit rd ra rb fe g s
  | .qstat rd ra fe g => Sys2Proof.Machine.execQstat rd ra fe g s
  | .bari ra rb fe g => Sys2Proof.Machine.execBari ra rb fe g s
  | .bara rd ra rb fe g => Sys2Proof.Machine.execBara rd ra rb fe g s
  | .barw ra fe g => Sys2Proof.Machine.execBarw ra fe g s
  | .cpy rd ra sz g => Sys2Proof.Machine.execCpy rd ra sz g s
  | .cpyb rd ra rb fe g => Sys2Proof.Machine.execCpyb rd ra rb fe g s
  | .cpys rd ra rb fe g => Sys2Proof.Machine.execCpys rd ra rb fe g s
  | .mma ra fe g => Sys2Proof.Machine.execMma ra fe g s
  | .mzero ra fe g => Sys2Proof.Machine.execMzero ra fe g s
  | .mldb rd ra rb fe g => Sys2Proof.Machine.execMldb rd ra rb fe g s
  | .mdrain ra fe g => Sys2Proof.Machine.execMdrain ra fe g s
  | .mdrst rd ra rb fe g => Sys2Proof.Machine.execMdrst rd ra rb fe g s
  | .afeed ra rb fe g => Sys2Proof.Machine.execAfeed ra rb fe g s
  | .adrn rd ra fe g => Sys2Proof.Machine.execAdrn rd ra fe g s
  | .hread rd ra rb fe g => Sys2Proof.Machine.execHread rd ra rb fe g s
  | .hwrite rd ra rb fe g => Sys2Proof.Machine.execHwrite rd ra rb fe g s
  | .hstep rd ra fe g => Sys2Proof.Machine.execHstep rd ra fe g s
  | .hrun ra rb fe g => Sys2Proof.Machine.execHrun ra rb fe g s
  | .wset ra rb fe g => Sys2Proof.Machine.execWset ra rb fe g s
  | .wclr ra fe g => Sys2Proof.Machine.execWclr ra fe g s
  | .deviceReset boot => Sys2Proof.Machine.execDeviceReset boot s
  | .bundleReformation core => Sys2Proof.Machine.execBundleReformation core s
  | .readyAgeOverride core => Sys2Proof.Machine.execReadyAgeOverride core s
  | .producerComplete bid who pid => Sys2Proof.Machine.execProducerComplete bid who pid s
  | .fibreEnded bid who => Sys2Proof.Machine.execFibreEnded bid who s
  | .blockRetire bid => Sys2Proof.Machine.execBlockRetire bid s
  | .releaseAckComplete bid who => Sys2Proof.Machine.execReleaseAckComplete bid who s
  | .pageWalkComplete bid va => Sys2Proof.Machine.execPageWalkComplete bid va s
  | .l1Eviction core line => Sys2Proof.Machine.execL1Eviction core line s
  | .queueEnqAtHome req => Sys2Proof.Machine.execQueueEnqAtHome req s
  | .queueEnqWriteAck cb => Sys2Proof.Machine.execQueueEnqWriteAck cb s
  | .queueDeqAtHome req => Sys2Proof.Machine.execQueueDeqAtHome req s
  | .queueDeqReadDone cb => Sys2Proof.Machine.execQueueDeqReadDone cb s
  | .rollBusyResend req => Sys2Proof.Machine.execRollBusyResend req s
  | .taggedAccessAtHome req => Sys2Proof.Machine.execTaggedAccessAtHome req s
  | .cpyComplete op => Sys2Proof.Machine.execCpyComplete op s
  | .engineTriggerDeq op => Sys2Proof.Machine.execEngineTriggerDeq op s
  | .operandsConsumedEvent op => Sys2Proof.Machine.execOperandsConsumedEvent op s
  | .engineUnitWrite op => Sys2Proof.Machine.execEngineUnitWrite op s
  | .engineOperationEnd op => Sys2Proof.Machine.execEngineOperationEnd op s
  | .bSliceLoadComplete core => Sys2Proof.Machine.execBSliceLoadComplete core s
  | .matrixCommandStart core => Sys2Proof.Machine.execMatrixCommandStart core s
  | .matrixCommandComplete core => Sys2Proof.Machine.execMatrixCommandComplete core s
  | .mdrainReadoutDone op => Sys2Proof.Machine.execMdrainReadoutDone op s
  | .summitContributionArrive contrib => Sys2Proof.Machine.execSummitContributionArrive contrib s
  | .summitDelivery inst => Sys2Proof.Machine.execSummitDelivery inst s
  | .launchAccept queue => Sys2Proof.Machine.execLaunchAccept queue s
  | .blockSeat unit => Sys2Proof.Machine.execBlockSeat unit s
  | .launchComplete lid => Sys2Proof.Machine.execLaunchComplete lid s
  | .preemptPriority lid => Sys2Proof.Machine.execPreemptPriority lid s
  | .preemptHost target => Sys2Proof.Machine.execPreemptHost target s
  | .preemptGovernor stack => Sys2Proof.Machine.execPreemptGovernor stack s
  | .blockSave bid => Sys2Proof.Machine.execBlockSave bid s
  | .preemptRetry bid => Sys2Proof.Machine.execPreemptRetry bid s
  | .blockResume bid => Sys2Proof.Machine.execBlockResume bid s
  | .resumeRetry => Sys2Proof.Machine.execResumeRetry s
  | .resumeSkip => Sys2Proof.Machine.execResumeSkip s
  | .resumeAbort => Sys2Proof.Machine.execResumeAbort s
  | .checkpointSeal bid => Sys2Proof.Machine.execCheckpointSeal bid s
  | .signatureCompare bid => Sys2Proof.Machine.execSignatureCompare bid s
  | .trialStart value => Sys2Proof.Machine.execTrialStart value s
  | .trialWindowEnd => Sys2Proof.Machine.execTrialWindowEnd s
  | .trialDelayExpire core => Sys2Proof.Machine.execTrialDelayExpire core s
  | .governorStep stack reading => Sys2Proof.Machine.execGovernorStep stack reading s
  | .governorEmergencyBegin dies cause => Sys2Proof.Machine.execGovernorEmergencyBegin dies cause s
  | .governorEmergencyEnd stack => Sys2Proof.Machine.execGovernorEmergencyEnd stack s
  | .dramRequestService visit => Sys2Proof.Machine.execDramRequestService visit s
  | .deadlineUrgent channel => Sys2Proof.Machine.execDeadlineUrgent channel s
  | .bankBackoffEnd channel bank => Sys2Proof.Machine.execBankBackoffEnd channel bank s
  | .actselClear channel value => Sys2Proof.Machine.execActselClear channel value s
  | .amapCommit region value => Sys2Proof.Machine.execAmapCommit region value s
  | .launchQueueEnable queue value => Sys2Proof.Machine.execLaunchQueueEnable queue value s
  | .registerWrite port reg value => Sys2Proof.Machine.execRegisterWrite port reg value s
  | .hifence port value => Sys2Proof.Machine.execHifence port value s
  | .hifenceComplete port => Sys2Proof.Machine.execHifenceComplete port s
  | .hifenceTimeout port => Sys2Proof.Machine.execHifenceTimeout port s
  | .qwHandle port window value => Sys2Proof.Machine.execQwHandle port window value s
  | .qwEnq port window write => Sys2Proof.Machine.execQwEnq port window write s
  | .qwStagingEnqueue port window => Sys2Proof.Machine.execQwStagingEnqueue port window s
  | .qwDeq port window => Sys2Proof.Machine.execQwDeq port window s
  | .hostApertureRead port offset len => Sys2Proof.Machine.execHostApertureRead port offset len s
  | .hostApertureWrite port offset bytes => Sys2Proof.Machine.execHostApertureWrite port offset bytes s
  | .peerFlitReceive port flit => Sys2Proof.Machine.execPeerFlitReceive port flit s
  | .laneRepair port lane => Sys2Proof.Machine.execLaneRepair port lane s
  | .remoteRequestAtTarget req => Sys2Proof.Machine.execRemoteRequestAtTarget req s
  | .remoteResend op => Sys2Proof.Machine.execRemoteResend op s
  | .remoteTimeout op => Sys2Proof.Machine.execRemoteTimeout op s
  | .deadMarkClear device => Sys2Proof.Machine.execDeadMarkClear device s
  | .extentRelease base limit => Sys2Proof.Machine.execExtentRelease base limit s
  | .ridgeMessageDeliver cls src dst => Sys2Proof.Machine.execRidgeMessageDeliver cls src dst s
  | .ridgeInjectionReserve stop ascending => Sys2Proof.Machine.execRidgeInjectionReserve stop ascending s
  | .attestationRequest nonce => Sys2Proof.Machine.execAttestationRequest nonce s
  | .expertUnlock port signed => Sys2Proof.Machine.execExpertUnlock port signed s
  | .ordinaryRefresh channel bank => Sys2Proof.Machine.execOrdinaryRefresh channel bank s
  | .linkRetrainComplete port => Sys2Proof.Machine.execLinkRetrainComplete port s
  | .amapCommitComplete region => Sys2Proof.Machine.execAmapCommitComplete region s
  | .unassignedOpcode word => Sys2Proof.Machine.execUnassignedOpcode word s
  | .instructionFetchFault fault => Sys2Proof.Machine.execInstructionFetchFault fault s

end Sys2Proof.Machine
end

