-- ==== Sys2Proof/Machine/Turns.lean ====
section
/-!
DEFINITION. What a turn does: an issuer fetches, decodes and performs its instruction (14 R274), an event happens, a cycle passes;
and the machine with one given instruction about to run.
-/
namespace Sys2Proof.Machine

/-- Whether an issuer takes its turn. A block that is being saved or has stopped only ends what its homes have answered (07
R154; 11 R217, R221), and so does a halted fibre of one. -/
def State.takesTurn (s : State) (b : Block) (c : Ctx) : Bool :=
  b.core.isSome && b.saved.isNone && c.isLive && c.parked.isNone &&
    (if b.primary.isSome || b.saveReq.isSome then c.answered
     else s.canIssue b c || ((s.frozen b || c.halt.halted) && c.answered))

/-- An issuer that does not take its turn: a skid that is used up ends in the halt (12 R245), and a step that cannot issue
returns NOTREADY (12 R250). -/
def State.passTurn (s : State) (bid : Nat) (who : Who) (c : Ctx) : State :=
  if c.halt.left = some 0 || (c.halt.left.isSome && decide (s.time ≥ c.halt.limit)) then
    s.modCtx bid who (fun c => { c with halt := { c.halt with halted := true, left := none } })
  else if c.halt.stepper.isSome && c.wait.isNone then s.endStepOf bid who 1
  else s

/-- The instruction of a fetched word (14 R274 steps 2 and 4). -/
def fetched (w : Word) : Instr :=
  match decodeWord w with
  | .ok i => i
  | .error _ => .unassignedOpcode w

/-- Fetch the instruction at an issuer's PC, or the event of a fetch that fails. -/
def State.fetchInstr (s : State) (e : Env) : State × Instr :=
  let r := s.fetch e.blk.space e.ctx.pc
  match r.2 with
  | .error f => (r.1, .instructionFetchFault f)
  | .ok w => (r.1, fetched w)

/-- Hold a turn that would ask a home for a unit of an extent whose mapping is being committed (05 R108): the state without it
stands instead. -/
def holdHomes (s held : State) (r : Host.Outcome State Fault Refusal) : Host.Outcome State Fault Refusal :=
  match r with
  | .next t => if s.reaches t then .next held else r
  | _ => r

/-- An issuer that waited before its instruction issued only looks whether it still has to (02 R28): if not, it is ready, and the
instruction issues in a turn of its own. A step that a debugger awaits issues at once. -/
def State.afterWait (s : State) (bid : Nat) (who : Who) (c : Ctx) (r : Host.Outcome State Fault Refusal) :
    Host.Outcome State Fault Refusal :=
  match c.wait, r with
  | some w, .next t =>
    if w.unissued && c.halt.stepper.isNone && !(t.ctx? bid who).any (fun d => d.wait.any Wait.unissued && d.pc == c.pc) then
      .next (s.modCtx bid who (fun x => x.woken s.time))
    else r
  | _, _ => r

/-- What an issuer's turn asks another device for before its instruction can be performed: its word, or the word after a REP. -/
def State.codeWait (s : State) (e : Env) : Option State :=
  match s.askCode e e.ctx.pc with
  | some t => some t
  | none =>
    let r := s.fetchInstr e
    match r.2 with
    | .rep .. => r.1.askCode e (e.ctx.pc + 4)
    | _ => none

/-- An issuer's turn once what left its stop before has arrived. -/
def State.issueNow (s : State) (bid : Nat) (who : Who) : Host.Outcome State Fault Refusal :=
  match s.envOf bid who with
  | none => .next s
  | some e =>
    if !s.takesTurn e.blk e.ctx then .next (s.passTurn bid who e.ctx)
    else match s.codeWait e with
    | some t => .next t
    | none =>
      let r := s.fetchInstr e
      s.afterWait bid who e.ctx (holdHomes s (s.modCtx bid who (fun c => { c with wait := some .acks }))
        (exec r.2 { r.1 with issuer := some (bid, who) }))

/-- An issuer's turn: what its instruction asks of memory comes after the tagged accesses that left its stop earlier (01 R13). -/
def State.issueTurn (s : State) (bid : Nat) (who : Who) : Host.Outcome State Fault Refusal :=
  match s.envOf bid who with
  | none => .next s
  | some e => (s.tagsFirst e.stop).issueNow bid who

/-- The wait in which an issuer stands before its instruction issues, if it would wait there (02 R40). -/
def State.waitsHere (s : State) (bid : Nat) (who : Who) (c : Ctx) : Option Wait :=
  match s.issueNow bid who with
  | .next t => match t.ctx? bid who with
    | some d => if d.pc = c.pc then d.wait.filter Wait.unissued else none
    | none => none
  | _ => none

/-- Ready issuers whose next instruction waits before it issues, for a register or for its condition, wait from now on: no port takes
them (02 R40; 10 R211). -/
def State.lookAhead (s : State) : State :=
  s.blocks.foldl (fun t b => b.whos.foldl (fun u w => match b.ctx? w with
    | none => u
    | some c =>
      if b.running && s.isReady b c && c.halt.left.isNone && c.halt.stepper.isNone then
        match s.waitsHere b.bid w c with
        | some k => u.modCtx b.bid w (fun x => { x with wait := some k })
        | none => u
      else u) t) s

/-- A cycle passes: issuers that wait leave their bundles (02 R28). -/
def State.passCycle (s : State) : State := s.lookAhead.leaveBundles.nextCycle

/-- Whether an event is the end of a mapping's commit, whose own write-backs no commit holds (05 R108). -/
def endsCommit (i : Instr) : Bool :=
  match i with
  | .amapCommitComplete _ => true
  | _ => false

/-- An event's turn: it has no issuer, and in recovery only the mailbox answers (13 R268). (DEDUCED, log entry 39.) -/
def State.eventTurn (s : State) (i : Instr) : Host.Outcome State Fault Refusal :=
  if s.firmware.recovery && !mailbox i then .next s
  else if endsCommit i then exec i { s with issuer := none }
  else holdHomes s s (exec i { s with issuer := none })

/-- One turn of the agenda; an empty agenda lets a cycle pass. -/
def State.turn (s : State) : Host.Outcome State Fault Refusal :=
  match s.agenda with
  | [] => .next s.passCycle
  | .tick :: rest => .next ({ s with agenda := rest } : State).passCycle
  | .event i :: rest => ({ s with agenda := rest } : State).eventTurn i
  | .issue bid who :: rest => ({ s with agenda := rest } : State).issueTurn bid who

/-- The launch that a placed instruction belongs to: a supervisor's, with one block, of 32 fibres of 126 registers and a lead. -/
def placedParams : LaunchParams :=
  { lid := 0, queue := 0, fibreCount := 32, initialCount := 1, allocation := 126, barrierCount := 4, dimX := 1, dimY := 1,
    dimZ := 1, stages := 1, code := 0x10000, lead := 0x10000, arg := 0, tcb := 0, prio := 0, ckpt := false, paired := false,
    slack := 1, root := 0, asn := 0, supervisor := true }

/-- The block that holds a placed instruction. -/
def placedBlock (bid now : Nat) : Block :=
  { bid := bid, params := placedParams, index := 0, bx := 0, by_ := 0, bz := 0, stage := 0, role := .single, partner := bid,
    core := some 0, lastCore := 0, context := 0, extent := 0, ckptExtent := 0, body := placedParams.body now,
    saved := none, awaiting := false, saveReq := none,
    primary := none, seconds := [], marked := false, unprotected := false, checkpoint := none, runs := 0, poisons := 0,
    forwarded := [], performed := [], cost := 0, est := none, seatedAt := bid, retry := none, avoid := [] }

/-- The translation of the page of a placed instruction: 64 KiB at physical address 0 of the device, with every permission. -/
def placedPage (device : Nat) : TlbEntry :=
  { core := 0, asn := 0, base := 0x10000, size := 0x10000, entry := BitVec.ofNat 64 (device * 2 ^ 42 + 0x1F) }

/-- Put a word where the next step fetches it: a supervisor block with one fibre and a lead on core 0, its code page in the TLB,
the word at its first address, and its turn next. A word that only the lead executes is the lead's.
(DEDUCED, log entry 2.) -/
def State.place274 (s : State) (w : Word) : State :=
  let bid := s.fresh
  let s1 : State := { s with fresh := s.fresh + 1, blocks := placedBlock bid s.time :: s.blocks,
                             tlb := placedPage s.device :: s.tlb, icache := s.icache.filter (fun c => c.pa != s.device * 2 ^ 42) }
  let s2 := match s1.paCell (s.device * 2 ^ 42) with
    | none => s1
    | some c => (s1.clearPoison (c / 32 * 32) 32).homeWrite c (bytesOfWord w)
  { s2 with agenda := Turn.issue bid (if leadOnly w then .lead else .fibre 0) :: s2.agenda }

end Sys2Proof.Machine
end

