-- ==== Sys2Proof/Machine/Step.lean ====
section
/-!
DEFINITION. One step of the machine: the next turn of its agenda.
-/
namespace Sys2Proof.Machine

/-- One step. -/
def step (s : State) : Host.Outcome State Fault Refusal := s.turn

/-- The machine with the instruction whose bits are w where the next step fetches it. (DEDUCED, log entry 2.) -/
def State.withFetchWord (s : State) (nbits w : Nat) : State := s.place274 (BitVec.ofNat 32 (w % 2 ^ nbits))

end Sys2Proof.Machine
end

