-- ==== Sys2Proof/Safety.lean ====
section
/-!
DEFINITION. The terms in which claims about the machine are stated: when an instruction issues and passes every check (14 R274),
what it leaves when it completes, what a register instruction may change, and the legal states that every step keeps.
-/
namespace Sys2Proof.Machine

/-- The step is the issuer's own: e is the issuer's environment, and the instruction at the PC holds nothing from an earlier attempt
(03 R61). -/
abbrev Alone (s : State) (e : Env) : Prop := s.env? = some e ∧ e.ctx.heldBits = []

/-- The instructions whose loaded value slots of kind 5 watch (12 R242). -/
def showsLoad (i : Instr) : Bool :=
  match i with
  | .ld .. | .lde .. | .ldt .. | .ldl .. => true
  | _ => false

/-- Whether a watch slot in force lets issuer e through that watches what instruction i shows only once it is performed: the value of a
load, or the exceptions of a floating-point instruction (12 R242). Leads, supervisor ranges and trailing copies are never watched. -/
def State.watchesLate (s : State) (e : Env) (i : Instr) : Bool :=
  !(e.lead || e.blk.params.supervisor || decide (e.blk.role = .trailing)) &&
    (e.ctx.slots.getD s.proctors.slots).any (fun p => p.2.admits e.blk.params.lid e.blk.index e.who.fid &&
      (decide (p.2.kind = 5) && showsLoad i || decide (p.2.kind = 6) && isFp i))

/-- The matches of instruction i of issuer e, whose full leading sources hold vals, before it is performed (12 R242): none are left once
it has issued. -/
def State.early (s : State) (e : Env) (i : Instr) (vals : List Nat) : List (Nat × Watch × Nat) :=
  if e.ctx.issued then [] else s.matches e (s.seenBefore e i vals) [1, 2, 3, 4, 7, 8]

/-- No watch slot matches instruction i of issuer e, nor watches what it shows only once it is performed. -/
abbrev State.unmatched (s : State) (e : Env) (i : Instr) (vals : List Nat) : Prop :=
  s.early e i vals = [] ∧ s.watchesLate e i = false

/-- The values of the full leading sources of instruction i (03 R59). -/
def Env.known (e : Env) (i : Instr) : List Nat := readSrcs e ((e.form i).srcs.take (knownSrcs (e.form i) e)) 0

/-- Instruction i of issuer e passes steps 3 to 8 of 14 R274 but the watch slots, and its sources hold these values: executor, encoding
and privilege are legal, the guard holds, every source and destination is full, and no read of its issuer that it comes after is still
to be answered. -/
abbrev Passes (s : State) (e : Env) (i : Instr) (vals : List Nat) : Prop :=
  Alone s e ∧ staticCheck i (e.form i) e = none ∧ guardHolds (e.form i).guard e.ctx = true ∧
    operandCheck (e.form i) e = none ∧ ordered i (e.form i) e.ctx = false ∧ readSrcs e (e.form i).srcs 0 = vals

/-- Instruction i of issuer e issues on these values of its sources, and no watch slot matches it. -/
abbrev Issues (s : State) (e : Env) (i : Instr) (vals : List Nat) : Prop :=
  Passes s e i vals ∧ s.unmatched e i vals

/-- The arrivals of the row of an issuer (02 R38). -/
def Env.arrivals (e : Env) : List (Nat × Arrival) :=
  (e.blk.rowMates e.who.fid).filterMap (fun m => m.2.arrival.map (fun a => (m.1, a)))

/-- Every fibre of the issuer's row that is neither ending nor ended has arrived at its PC, and none is parked (02 R38). -/
abbrev Env.rowComplete (e : Env) : Prop :=
  ∀ m ∈ e.blk.rowMates e.who.fid, m.2.arrival.isSome ∧ m.2.parked = none ∧ m.2.pc = e.ctx.pc

/-- What a fibre brings to a row collective with these values of its sources: the operation, its source value and its predicate. -/
def Env.brings (e : Env) (i : Instr) (v : List Nat) : Bring :=
  let a := BitVec.ofNat 64 (v.getD 0 0)
  match i with
  | .xlane .. => { op := .xlane (v.getD 1 0 % 2 ^ 32 % 32), value := BitVec.ofNat 32 (v.getD 0 0), pred := false }
  | .xshf _ _ k _ => { op := .xshf k.toInt, value := BitVec.ofNat 32 (v.getD 0 0), pred := false }
  | .vote _ pn mode _ => { op := .vote mode.toNat, value := 0, pred := e.ctx.preds.getLsbD pn.toNat }
  | .ldl _ _ sz ord sc _ => { op := .ldl sz (acquireScope (decide (ord = 1)) sc.toNat) a, value := 0, pred := false }
  | .stl _ _ sz ord sc _ =>
    { op := .stl sz (if ord = 1 then sc.toNat else 0) a (toBytes (sizeBytes sz) (v.getD 1 0)), value := 0, pred := false }
  | _ => { op := .vote 0, value := 0, pred := false }

/-- Issuer e of s, which no debugger steps, stands at row collective i of its row in u: it has arrived before; or it passes its checks
and arrives now, its matches counted; or its guard is false and it arrives with the values that it gives the others (02 R38, 03 R66). -/
def State.Arrives (s : State) (e : Env) (i : Instr) (u : State) : Prop :=
  s.env? = some e ∧ e.ctx.halt.stepper = none ∧ (∀ k, e.ctx.phase.answer ≠ .loading k) ∧
    ((∃ a vals, e.ctx.arrival = some a ∧ a.op = (e.brings i vals).op ∧ u = s) ∨
     (e.ctx.arrival = none ∧ ∃ vals, Passes s e i vals ∧ s.acting e (s.early e i vals) = none ∧
       u = (s.countMatches e (s.early e i vals)).arrive e (e.form i) (isLong i) true (e.brings i vals)) ∨
     (e.ctx.arrival = none ∧ Alone s e ∧ staticCheck i (e.form i) e = none ∧ guardHolds (e.form i).guard e.ctx = false ∧
       ∃ vals, ((e.form i).mem = true ∧ vals = [] ∨ (e.form i).mem = false ∧ firstMissing e (e.form i).srcs 0 = none ∧
         vals = readSrcs e (e.form i).srcs 0) ∧ u = s.arrive e (e.form i) (isLong i) false (e.brings i vals)))

/-- What instruction i of issuer e, issued in s, leaves when it completes with outcome d: the issuer's context is retired (14
R270), uq entries that every fibre has popped are freed (03 R63), the instruction is charged to its block (10 R206). -/
def State.retired (s : State) (e : Env) (i : Instr) (d : Done) : State := retire e (e.form i) [] { d with since := some s.fresh }

/-- What an instruction leaves that only writes these values to its destinations. -/
def State.writes (s : State) (e : Env) (i : Instr) (vals : List Nat) : State := s.retired e i { state := s, vals := vals }

/-- What a floating-point instruction leaves that writes a result and raises exceptions. -/
def State.rounds (s : State) (e : Env) (i : Instr) (r : Nat × FpFlags) : State :=
  s.retired e i { state := s, vals := [r.1], flags := r.2 }

/-- What an instruction leaves that only writes predicates. -/
def State.predicates (s : State) (e : Env) (i : Instr) (p : BitVec 16) : State :=
  s.retired e i { state := s, preds := some p }

/-- What a long-latency producer leaves that will write this value and raise these exceptions when it completes (03 R57). -/
def State.produces (s : State) (e : Env) (i : Instr) (v : Nat) (fl : FpFlags) : State :=
  s.retired e i { state := s, vals := [v], flags := fl, long := true }

/-- Whether an issuer is outside any measurement: no causal trial runs and no debugger steps it (12 R249, R254). -/
abbrev Unobserved (s : State) (e : Env) : Prop := s.trial.run = false ∧ e.ctx.halt.stepper = none

/-- The register cells that an instruction writes: none for zr. -/
def Env.written (e : Env) (i : Instr) : List Nat := (e.form i).dsts.flatMap (fun x => x.cells e.lead e.ctx.wb.toNat)

/-- The full/empty bits of the registers that an instruction writes. -/
def Env.writtenBits (e : Env) (i : Instr) : List Nat := (e.form i).dsts.flatMap (fun x => x.fullBits e.lead e.ctx.wb.toNat)

/-- A block apart from its body and its cost. -/
def Block.frame (b : Block) : Block := { b with body := placedParams.body 0, cost := 0 }

/-- From s to t nothing has changed but what a completing register instruction i of issuer e may change, which leaves the
predicates p, the window base w and the sticky flags f. -/
structure OnlyIssuer (s t : State) (e : Env) (i : Instr) (p : BitVec 16) (w : BitVec 12) (f : BitVec 5) : Prop where
  /-- Everything but the blocks and the counter of fresh numbers is unchanged: memory, caches, queues, matrix state, device
  registers. -/
  machine : ({ t with blocks := s.blocks, fresh := s.fresh } : State) = s
  /-- Every byte of memory reads as before at its home. -/
  memory : ∀ c, t.homeByte c = s.homeByte c
  /-- Every other block is unchanged. -/
  blocks : ∀ n, n ≠ e.bid → t.block? n = s.block? n
  /-- In the issuer's own block: every other issuer, the barriers, the store buffer and the ordinals are unchanged; of the issuer,
  registers it does not write keep their values and their full bits, and everything but the PC, the uq position, the repeat, the
  producers and the issue bookkeeping is unchanged. -/
  issuer : ∃ b c, t.block? e.bid = some b ∧ b.ctx? e.who = some c ∧ b.frame = e.blk.frame ∧
    (∀ v, v ≠ e.who → b.ctx? v = e.blk.ctx? v) ∧
    (b.body.barriers = e.blk.body.barriers ∧ b.body.buffer = e.blk.body.buffer ∧ b.body.storeEvents = e.blk.body.storeEvents ∧
      b.body.ordinal = e.blk.body.ordinal ∧ b.body.endedCrc = e.blk.body.endedCrc) ∧
    (∀ k, k ∉ e.written i → sget 0 c.regs k = sget 0 e.ctx.regs k) ∧
    (∀ k, k ∉ e.writtenBits i → c.empties.contains k = e.ctx.empties.contains k) ∧
    (c.preds = p ∧ c.wb = w ∧ c.fps = f) ∧
    (c.life = e.ctx.life ∧ c.cnt0 = e.ctx.cnt0 ∧ c.cnt1 = e.ctx.cnt1 ∧ c.cnt2 = e.ctx.cnt2 ∧ c.cnt3 = e.ctx.cnt3 ∧
      c.latch = e.ctx.latch ∧ c.crc = e.ctx.crc ∧ c.parked = e.ctx.parked ∧ c.arrival = e.ctx.arrival)

/-- The instructions that only compute: an operation on their sources that gives values, predicates, a window base and exceptions,
and never waits or traps once their operands are full. -/
def computes (i : Instr) : Bool :=
  match i with
  | .nop .. | .yield .. | .iadd .. | .isub .. | .imul .. | .imulh .. | .imulhu .. | .imad .. | .div .. | .divu .. => true
  | .and .. | .or .. | .xor .. | .andn .. | .shl .. | .shr .. | .sar .. | .imin .. | .imax .. | .iminu .. | .imaxu .. => true
  | .iadds .. | .addmin .. | .addmax .. | .sel .. | .lea .. | .bfx .. | .bfi .. | .icmp .. | .icmpu .. | .iabs .. => true
  | .popc .. | .clz .. | .brev .. | .mov .. | .movi .. | .movhi .. | .iaddi .. | .andImm .. | .orImm .. | .xorImm .. => true
  | .shlImm .. | .shrImm .. | .sarImm .. | .win .. | .winadd .. | .pand .. | .por .. | .pxor .. | .pnot .. => true
  | .pmovToPredicate .. | .pmovFromWord .. | .sysr .. | .sigr .. => true
  | .faddF32 .. | .faddBf16x2 .. | .faddF16x2 .. | .fsubF32 .. | .fsubBf16x2 .. | .fsubF16x2 .. => true
  | .fmulF32 .. | .fmulBf16x2 .. | .fmulF16x2 .. | .fmaF32 .. | .fmaBf16x2 .. | .fmaF16x2 .. => true
  | .fminF32 .. | .fminBf16x2 .. | .fminF16x2 .. | .fmaxF32 .. | .fmaxBf16x2 .. | .fmaxF16x2 .. => true
  | .fcmpF32 .. | .fcmpBf16x2 .. | .fcmpF16x2 .. | .fabs .. | .fneg .. | .fcvt .. | .fcvti .. | .icvtf .. => true
  | .frcp .. | .frsq .. | .fexp2 .. | .flog2 .. | .frnd .. | .fclass .. => true
  | .fdot2Bf16 .. | .fdot2F16 .. | .fdot4F8a .. | .fdot4F8b .. => true
  | _ => false

/-- The instructions that write predicates (14 R280, 17 R365, R366). -/
def writesPreds (i : Instr) : Bool :=
  match i with
  | .icmp .. | .icmpu .. | .fcmpF32 .. | .fcmpBf16x2 .. | .fcmpF16x2 .. | .pand .. | .por .. | .pxor .. | .pnot .. => true
  | .pmovToPredicate .. => true
  | _ => false

/-- The instructions that write the window base (03 R52). -/
def writesWindow (i : Instr) : Bool :=
  match i with
  | .win .. | .winadd .. => true
  | _ => false

/-- The instructions of which a row arrives together (02 R38). -/
def collects (i : Instr) : Bool :=
  match i with
  | .xlane .. | .xshf .. | .vote .. | .ldl .. | .stl .. => true
  | _ => false

/-- The instructions that only a supervisor range may execute (02 R43): ERET, the translation and debug instructions, and SYSR and
SYSW of any number but 18. -/
def privileged (i : Instr) : Bool :=
  match i with
  | .eret .. | .tlbiPage .. | .tlbiAsn .. | .tlbiAll .. => true
  | .hread .. | .hwrite .. | .hstep .. | .hrun .. | .wset .. | .wclr .. => true
  | .sysr _ n _ | .sysw _ n _ => decide (n.toNat ≠ 18)
  | _ => false

/-- The mapping masks that 05 R108 allows: invertible over GF(2), and keeping the two halves of a line together. -/
def legalMasks (masks : List Nat) : Bool := invertible masks && keepsLines masks

/-- A mapping region whose active masks are legal, and whose masks under commit are. -/
def Region.legal (r : Region) : Bool := legalMasks r.active.masks && (r.status != 3 || legalMasks r.checked)

/-- A governor in a legal state (13 R267): T0 to T7, T7 during an emergency, a refresh multiplier of 1, 2 or 4. -/
def Governor.legal (g : Governor) : Bool :=
  decide (g.throttle ≤ 7) && (!g.emergency || decide (g.throttle = 7)) &&
    (decide (g.refresh = 1) || decide (g.refresh = 2) || decide (g.refresh = 4))

/-- Legal values of the fields that carry an invariant: memory in canonical form, mapping regions with legal masks, the aperture
window within its 6 bits (05 R110), the power cap at most 1,500 W, legal governors. -/
def legalFields (mem : Memory) (amap : List (Nat × Region)) (apwin cap : Nat) (gs : List (Nat × Governor)) : Bool :=
  Memory.wf mem && amap.all (fun e => e.2.legal) && decide (apwin < 64) && decide (cap ≤ 1500) && gs.all (fun e => e.2.legal)

/-- A legal state: the invariant that every step keeps. -/
abbrev State.Legal (s : State) : Prop := legalFields s.mem s.amap s.apwin s.gvCap s.governors = true

end Sys2Proof.Machine
end

