-- ==== Sys2Proof/Certificates/Slice0/Obligations.lean ====
section
/-!
DEFINITION. The statements about the model, each from the rules that its docstring cites. `Issues s e i vals` says that the step is
issuer e's, that instruction i passes the checks of 14 R274 and that its sources hold vals; what such a statement concludes is the
whole next state, so that whatever it does not name is unchanged.
-/
open Sys2Proof Sys2Proof.Machine

/-- 14 R270, R271, R274: a turn of an issuer that may issue and has its word on this device fetches the word at its PC,
decodes it and performs that instruction; a word that gives none, or a failed fetch, is an event of its own; an event's turn
performs the event; an empty agenda lets a cycle pass. Around this a step first performs the tagged accesses that left the
issuer's stop before (01 R13), holds what would ask a home for a unit of a mapping under commit (05 R108) and lets an issuer
that waited issue in a turn of its own (02 R28): none of these where no tagged access is under way, no commit is under way and
the issuer did not wait. That the head of the agenda moves next, and what a turn is, is the model's choice (log entry 4). -/
def Obligations.AStepRunsTheDecodedInstruction : Prop :=
  ∀ (s t : State) (bid : Nat) (who : Who) (rest : List Turn) (e0 e : Env) (i : Instr) (w : Word) (x : DecodeError) (f : FetchFault)
    (n : Nat),
    let s0 : State := { s with agenda := rest }
    let s1 := s0.tagsFirst e0.stop
    let around (r : Host.Outcome State Fault Refusal) := s1.afterWait bid who e.ctx
      (holdHomes s1 (s1.modCtx bid who (fun c => { c with wait := some .acks })) r)
    let plain : Prop := e.ctx.wait = none ∧ s1.amapBusy = false
    (s0.treqs = [] → s1 = s0) ∧
    (s.agenda = .issue bid who :: rest → s0.envOf bid who = some e0 → s1.envOf bid who = some e → s1.takesTurn e.blk e.ctx = true →
      s1.codeWait e = none →
      (s1.fetch e.blk.space e.ctx.pc = (t, .ok w) → decodeWord w = .ok i →
        step s = around (exec i { t with issuer := some (bid, who) }) ∧
        (plain → step s = exec i { t with issuer := some (bid, who) })) ∧
      (s1.fetch e.blk.space e.ctx.pc = (t, .ok w) → decodeWord w = .error x →
        step s = around (exec (.unassignedOpcode w) { t with issuer := some (bid, who) }) ∧
        (plain → step s = exec (.unassignedOpcode w) { t with issuer := some (bid, who) })) ∧
      (s1.fetch e.blk.space e.ctx.pc = (t, .error f) →
        step s = around (exec (.instructionFetchFault f) { t with issuer := some (bid, who) }) ∧
        (plain → step s = exec (.instructionFetchFault f) { t with issuer := some (bid, who) }))) ∧
    (s.agenda = .event i :: rest → s.firmware.recovery = false → (∀ n, i ≠ .amapCommitComplete n) →
      step s = holdHomes s0 s0 (exec i { s0 with issuer := none }) ∧
      (s0.amapBusy = false → step s = exec i { s0 with issuer := none })) ∧
    (s.agenda = .event (.amapCommitComplete n) :: rest → s.firmware.recovery = false →
      step s = exec (.amapCommitComplete n) { s0 with issuer := none }) ∧
    (s.agenda = .tick :: rest → step s = .next s0.passCycle) ∧ (s.agenda = [] → step s = .next s.passCycle)

/-- 14 R271, R275, R287: words written out from the encoding tables of 15 to 18, field by field, decode to the instructions
they stand for; words with an unassigned opcode or a reserved bit set decode to none. -/
def Obligations.WordsOfTheSpecDecode : Prop :=
  decodeWord 0x01000000 = .ok (.nop .always) ∧
  decodeWord 0x02FFFFFD = .ok (.br 0x3FFFFF .p0) ∧
  decodeWord 0x10020818 = .ok (.iadd 1 2 3 false .always) ∧
  decodeWord 0x71041018 = .ok (.fdot2F16 2 4 3 false .always) ∧
  decodeWord 0x31020014 = .ok (.movi 1 5 .always) ∧
  decodeWord 0x80080900 = .ok (.ld 4 2 2 0 0 false) ∧
  decodeWord 0x4B0C0000 = .ok (.sigr 6 .always) ∧
  decodeWord 0x071D0000 = .ok (.rep 7 2 0 0) ∧
  (∃ x, decodeWord 0x00000000 = .error x) ∧ (∃ x, decodeWord 0x01000004 = .error x)

/-- 00 R1, 14 R271, R275: a word decodes to an instruction exactly when the instruction is well formed and the word is its
encoding, so that no bit of a word is dropped and no two words stand for one instruction; its four bytes decode to it whatever
follows. -/
def Obligations.WordsAndInstructionsCorrespond : Prop :=
  ∀ (w : Word) (i : Instr) (rest : List Byte),
    (decodeWord w = .ok i ↔ i.wellFormed = true ∧ encodeWord i = some w) ∧
    (i.wellFormed = true → encodeWord i = some w → decode (encode i ++ rest) = .ok (i, rest))

/-- 05 R107, R108, R110, 13 R267: every step keeps a legal state legal: the memory's canonical form, masks that are invertible
and keep lines together, the aperture window and the power cap in their ranges, governors in T0 to T7 and in T7 during an
emergency. -/
def Obligations.EveryStepKeepsTheStateLegal : Prop :=
  ∀ s t : State, s.Legal → step s = .next t → t.Legal

/-- 05 R107, R109, R113 to R116, 10 R195, 12 R253, 13 R258, R260, R267: after reset the state is legal, memory reads zero
without poison or full tags, region 0 maps all 2 TiB, and the device registers read the reset values that their maps give. -/
def Obligations.ResetLeavesTheStatedValues : Prop :=
  State.reset.Legal ∧ (∀ c, State.reset.homeByte c = 0) ∧ State.reset.poison = [] ∧ State.reset.tags = [] ∧
  ((State.reset.region 0).active.en = true ∧ (State.reset.region 0).active.limit = 0x100000 ∧
    ∀ n, n ≠ 0 → (State.reset.region n).active.en = false ∧ (State.reset.region n).active.limit = 0) ∧
  ∀ (port n b : Nat),
    let r (g : DevReg) : Nat := State.reset.readReg port g
    r .dnCtl = 16 * 2 ^ 16 ∧ r .dnResq = 0 ∧ r .dnStctl = 0 ∧ r .dnStxor = 0 ∧ r .dnTrq = 0 ∧ r .dnTrdrop = 0 ∧ r .dnSvfail = 0 ∧
    r .dnSvq = 0 ∧ r (.lqHandle n) = 0 ∧ r (.lqPtroot n) = 0 ∧ r (.lqCfg n) = 2 ^ 32 ∧ r (.lqQuant n) = 65536 ∧ r (.lqSpn n) = 0 ∧
    r (.lqFaultq n) = 0 ∧ r .trCtl = 0 ∧ r .trWin = 65536 ∧ r .trStat = 0 ∧ r .trIns = 0 ∧ r (.trPb n) = 0 ∧ r (.trPd n) = 0 ∧
    r .dnSvbase = 0 ∧ r .dnSvsize = 0 ∧ r .trLo = 0 ∧ r .trHi = 0 ∧ r (.lqSpbase n) = 0 ∧ r (.lqSporg n) = 0 ∧ r .hifence = 0 ∧
    r (.qwHandle n) = 0 ∧ r (.qwStat n) = 16 ∧ r (.qwHold n b) = 0 ∧ r (.qwDeq n) = 0 ∧
    (n < 8 → r (.amapCtl n) = (if n = 0 then 1 else 0) ∧ r (.amapBase n) = 0 ∧ r (.amapLimit n) = (if n = 0 then 2 ^ 41 else 0) ∧
      (b < 35 → r (.amapMask n b) = (if b < 5 then 2 ^ b else if b < 20 then 2 ^ (b + 15) else if b < 22 then 2 ^ (b - 7)
        else if b < 24 then 2 ^ (b - 11) else if b = 24 then 2 ^ 10 else if b < 30 then 2 ^ (b - 20) + 2 ^ (b - 10)
        else 2 ^ (b - 15)))) ∧
    r .apWin = 0 ∧ r (.mccfg n) = 4 * 2 ^ 48 + 1000 * 2 ^ 32 + 200 * 2 ^ 16 + 1024 ∧ r (.bankstat n b) = 0 ∧ r (.actsel n) = 0 ∧
    r (.actcnt n) = 0 ∧ r .gvCtl = 1500 * 2 ^ 16 ∧ r .haBase = 0

/-- 14 R270, 03 R52, R58: the frame of the computing instructions: outside any measurement, one that issues changes nothing
but its issuer, and of that only the registers it writes, the predicates and the window base if it writes those, the sticky
flags, the PC and the issue bookkeeping; and a result read back from its destination is the value that was written, its full
bits set. -/
def Obligations.ComputingInstructionsChangeOnlyTheirIssuer : Prop :=
  ∀ (s t : State) (e : Env) (i : Instr) (vals : List Nat) (x : Fld) (v : Nat),
    Unobserved s e →
    (computes i = true → Issues s e i vals → exec i s = .next t →
      ∃ p w f, OnlyIssuer s t e i p w f ∧ (writesPreds i = false → p = e.ctx.preds) ∧ (writesWindow i = false → w = e.ctx.wb) ∧
        (isFp i = false → f = e.ctx.fps)) ∧
    (s.env? = some e → (e.form i).dsts = [x] → ∃ b c, (s.writes e i [v]).block? e.bid = some b ∧ b.ctx? e.who = some c ∧
      (∀ k n, (x.cells e.lead e.ctx.wb.toNat)[k]? = some n → sget 0 c.regs n = (x.words e.lead v).getD k 0) ∧
      (∀ n ∈ x.fullBits e.lead e.ctx.wb.toNat, n ∉ c.empties) ∧
      (e.ctx.rep.active = false → c.pc = e.ctx.pc + 4) ∧ c.wait = none)

/-- 14 R272, R274, 02 R43, 03 R51, R57, R59, R61, R64, R65, 11 R214: the checks come before the instruction, in their order,
of row collectives at their arrival: a wrong executor traps ILLOP, an illegal encoding ILLOPD, and privilege PRIV, which the
system, translation and debug instructions ask for; with its guard false an instruction only advances; then the first source
that is missing, in the order of the sources, or else an empty destination, holds it: an empty register makes it wait, or with
its fe bit trap EMPTYT with the allocation index as DETAIL, a uniform queue without an entry makes it wait, or trap EMPTYT
with DETAIL 0x1000 with fe or when the lead has ended, an empty destination makes it wait. A producer that was held issues
again with the destinations it had emptied full. That sources are looked at before destinations, and each in the order of the
fields, is the model's choice (log entry 9). 12 R238, R242 to R245: fibres of user ranges are watched, leads, supervisor
ranges and trailing copies never; a slot matches what an instruction shows where its kind and comparison hold and each enabled
filter fits; the match that acts is of the widest action and, of those, the lowest slot; each match adds to its slot's hit
counter. An instruction one of whose matches acts is not performed: its matches count and its fibre halts at it. A computing
instruction whose matches do not act completes as unwatched, with its matches counted, unless one on the exceptions that it
raises acts. -/
def Obligations.ChecksComeBeforeTheInstruction : Prop :=
  (∀ (s : State) (e : Env) (i : Instr) (w : Word) (c : TrapCode) (b k : Nat) (x : Fld) (rest : List Fld) (kw : Wait),
     let f := e.form i
     let runs := if e.lead then f.lead else f.fibre
     let waits (v : Wait) := exec i s = .next (s.stay i e f v)
     let traps (c : TrapCode) (d : Nat) := exec i s = .next (s.issueTrap i e f { code := c, detail := d, addr := 0 })
     let full (ns : List Nat) : Prop := ∀ n ∈ ns, e.ctx.empties.contains n = false
     (collects i = true → e.ctx.arrival = none ∧ e.ctx.halt.stepper = none ∧ ∀ k, e.ctx.phase.answer ≠ .loading k) →
     encodeWord i = some w →
     (f.super = privileged i) ∧
     (runs = false → staticCheck i f e = some .illop) ∧
     (runs = true → f.legal i e.lead e.ctx.wb.toNat e.alloc = false → staticCheck i f e = some .illopd) ∧
     (runs = true → f.legal i e.lead e.ctx.wb.toNat e.alloc = true →
       staticCheck i f e = if privileged i = true ∧ e.blk.params.supervisor = false then some .priv else none) ∧
     (Alone s e → staticCheck i f e = some c → traps c 0) ∧
     (Alone s e → staticCheck i f e = none → guardHolds f.guard e.ctx = false → collects i = false → exec i s = .next (s.skipped e)) ∧
     (Alone s e → staticCheck i f e = none → guardHolds f.guard e.ctx = true → s.acting e (s.early e i (e.known i)) = none →
       (firstMissing e f.srcs 0 = some (.reg b) → (f.fe = false → waits .sourceEmpty) ∧ (f.fe = true → traps .emptyt b)) ∧
       (firstMissing e f.srcs 0 = some .uq →
         ((f.fe = false ∧ e.blk.body.lead.life = .live) → waits .uqEmpty) ∧
         ((f.fe = true ∨ e.blk.body.lead.life ≠ .live) → traps .emptyt 0x1000)) ∧
       (firstMissing e f.srcs 0 = none → (∃ d ∈ f.dsts, ∃ n ∈ d.fullBits e.lead e.ctx.wb.toNat, e.ctx.empties.contains n = true) →
         waits .sourceEmpty)) ∧
     (firstMissing e [] k = none ∧
       (x.reg = 127 → firstMissing e (x :: rest) k = if e.unread ≤ k then some .uq else firstMissing e rest (k + 1)) ∧
       (x.reg ≠ 127 → full (x.fullBits e.lead e.ctx.wb.toNat) → firstMissing e (x :: rest) k = firstMissing e rest k) ∧
       (x.reg ≠ 127 → ∀ pre post, x.fullBits e.lead e.ctx.wb.toNat = pre ++ b :: post → full pre → e.ctx.empties.contains b = true →
         firstMissing e (x :: rest) k = some (.reg b))) ∧
     (s.env? = some e → kw = .sourceEmpty ∨ kw = .uqEmpty → isLong i = false →
       ∃ c, (s.stay i e f kw).ctx? e.bid e.who = some c ∧ c.wait = some kw ∧ c.pc = e.ctx.pc ∧ c.regs = e.ctx.regs ∧
         c.empties = e.ctx.empties ∧ c.preds = e.ctx.preds ∧ c.uqPos = e.ctx.uqPos) ∧
     (isLong i = true → s.env? = some e → e.ctx.arrival = none → exec i s = exec i (s.unhold e) ∧ ∀ b ∈ e.ctx.heldBits,
       (((s.unhold e).ctx? e.bid e.who).map (fun c => c.empties.contains b || c.heldBits.contains b)) = some false)) ∧
  (∀ (s : State) (e : Env) (i : Instr) (w : Word) (vals : List Nat) (slot action v : Nat) (x : Seen) (kinds : List Nat)
     (p : Nat × Watch × Nat) (ms : List (Nat × Watch × Nat)),
     let p2 := p.2.1
     let early := s.early e i vals
     let late (d : Done) := s.matches e { Seen.at e.ctx.pc with loaded := none, raised := if isFp i then some d.flags else none } [5, 6]
     let bare : State := { s with proctors := { s.proctors with slots := [] } }
     let acts (q : Nat × Watch × Nat) : Prop := q.2.1.action < 3 ∧ q.2.1.count < min (s.hits e.core q.1 + 1) 0xFFFFFFFF
     ((e.lead = true ∨ e.blk.params.supervisor = true ∨ e.blk.role = .trailing) → s.matches e x kinds = []) ∧
     (e.lead = false → e.blk.params.supervisor = false → e.blk.role ≠ .trailing →
       (p ∈ s.matches e x kinds ↔ (p.1, p2) ∈ e.ctx.slots.getD s.proctors.slots ∧ p2.kind ∈ kinds ∧
         (p2.liden = true → p2.lidf = e.blk.params.lid) ∧ (p2.blken = true → p2.blkf = e.blk.index) ∧
         (p2.fiden = true → p2.fidf = e.who.fid) ∧ p2.sees x = some p.2.2)) ∧
     (s.acting e ms = some (slot, action, v) → (ms.map (·.1)).Pairwise (· < ·) → e.ctx.halt.exempt = false ∧
       (∃ q ∈ ms, acts q ∧ q.1 = slot ∧ q.2.1.action = action ∧ q.2.2 = v) ∧
       ∀ q ∈ ms, acts q → q.2.1.action < action ∨ q.2.1.action = action ∧ slot ≤ q.1) ∧
     (s.countMatches e [p]).hits e.core p.1 = min (s.hits e.core p.1 + 1) 0xFFFFFFFF ∧
     ((collects i = true → e.ctx.arrival = none ∧ e.ctx.halt.stepper = none ∧ ∀ k, e.ctx.phase.answer ≠ .loading k) →
       encodeWord i = some w → (∀ n a b c, i ≠ .rep n a b c) → Alone s e → staticCheck i (e.form i) e = none →
       guardHolds (e.form i).guard e.ctx = true → s.acting e (s.early e i (e.known i)) = some (slot, action, v) →
       exec i s = .next ((s.countMatches e (s.early e i (e.known i))).haltBy e slot action v)) ∧
     (computes i = true → Passes s e i vals → s.acting e early = none → e.ctx.slots = none →
       ∃ d : Done, d.state = s ∧
         exec i bare = .next (retire e (e.form i) [] { d with state := bare, since := some s.fresh }) ∧
         (s.acting e (early ++ late d) = none → exec i s = .next (retire e (e.form i) (early ++ late d) { d with since := some s.fresh })) ∧
         (s.acting e (early ++ late d) = some (slot, action, v) →
           exec i s = .next ((s.countMatches e (early ++ late d)).haltBy e slot action v))) ∧
     (s.envOf e.bid e.who = some e → ∃ b c, (s.haltBy e slot action v).block? e.bid = some b ∧ b.ctx? e.who = some c ∧
       c.halt.halted = true ∧ c.halt.slot = slot ∧ c.pc = e.ctx.pc ∧ c.rep = e.ctx.rep ∧ c.regs = e.ctx.regs ∧ c.preds = e.ctx.preds ∧
       c.fps = e.ctx.fps ∧ c.uqPos = e.ctx.uqPos))

/-- 11 R214, R215, R217, R221: taking a stopping trap records it with its code, fibre, PC, detail and address as the block's
primary fault and asks for the block to be saved; the issuer's PC and registers, every other block and memory are unchanged; a
later fault of a stopped block is a secondary one; a translation miss parks the issuer instead. 11 R217, R231, R235: consumed
poison is contained: a block that is unmarked goes back to its launch state, off its core, to be seated elsewhere, on another
stack if the poison's origin is the stack cache; a marked one in checkpoint mode goes back to its last checkpoint; one
without, or one that consumes poison for the third time, stops. A copy of a pair that takes any other stopping trap keeps its
fault and is not saved before the other copy has faulted or stood at a commit point. -/
def Obligations.TakingATrapStopsTheBlock : Prop :=
  (∀ (s : State) (e : Env) (x : Trap) (r : FaultRec),
     let t := s.takeTrap e.bid e.who e.ctx.pc x
     let rec_ := e.blk.faultRec e.who e.ctx.pc x false
     s.envOf e.bid e.who = some e → e.blk.role = .single →
     (rec_.code = x.code ∧ rec_.who = e.who ∧ rec_.pc = e.ctx.pc ∧ rec_.detail = x.detail ∧ rec_.addr = x.addr ∧
       rec_.lid = e.blk.params.lid ∧ rec_.blk = e.blk.index) ∧
     (x.code ≠ .xlate → x.code ≠ .poison → e.blk.primary = none →
       t.block? e.bid = some { e.blk with primary := some rec_, saveReq := some { kind := 1, cause := 0 } }) ∧
     (x.code ≠ .xlate → x.code ≠ .poison → e.blk.primary = some r →
       t.block? e.bid = some { e.blk with seconds := e.blk.seconds ++ [rec_] }) ∧
     (x.code ≠ .xlate → x.code ≠ .poison → ({ t with blocks := s.blocks } : State) = s ∧ ∀ n, n ≠ e.bid → t.block? n = s.block? n) ∧
     (x.code = .xlate → ∃ b c k, t.block? e.bid = some b ∧ b.ctx? e.who = some c ∧ c = { e.ctx with parked := some k } ∧
       b.primary = e.blk.primary ∧ b.saveReq = e.blk.saveReq)) ∧
  (∀ (s : State) (b : Block) (who : Who) (pc : DWord) (x : Trap) (core : Nat) (im : Image),
     let t := s.takeTrap b.bid who pc x
     let r := b.faultRec who pc x false
     let avoid := if x.detail = 3 then (List.range 4).map (core / 4 * 4 + ·) else [core]
     s.block? b.bid = some b → b.core = some core →
     (x.code = .poison → b.role = .single →
       (b.poisons < 2 → b.marked = false → ∃ b2, t.block? b.bid = some b2 ∧ b2.core = none ∧ b2.body = b.params.body s.time ∧
         b2.saved = none ∧ b2.saveReq = none ∧ b2.primary = none ∧ b2.poisons = b.poisons + 1 ∧ b2.avoid = avoid) ∧
       (b.poisons < 2 → b.marked = true → b.ckptMode = true → b.checkpoint = some im → b.unprotected = false →
         ∃ b2 ops, t.block? b.bid = some b2 ∧ b2.core = none ∧ b2.body = (im.body.countOps ops).undrained ∧
           b2.saved = some { im with body := b2.body, ops := ops } ∧ b2.saveReq = none ∧ b2.primary = none ∧
           b2.poisons = b.poisons + 1 ∧ b2.avoid = avoid) ∧
       ((2 ≤ b.poisons ∨ b.marked = true ∧ (b.ckptMode = false ∨ b.checkpoint = none ∨ b.unprotected = true)) → b.primary = none →
         t.block? b.bid = some { b with poisons := b.poisons + 1, primary := some r, saveReq := some { kind := 1, cause := 0 } })) ∧
     (x.code ≠ .xlate → x.code ≠ .poison → b.role ≠ .single → b.primary = none →
       t.block? b.bid = some { b with primary := some r }))

/-- 06 R121, R122: bytes that a block has stored and not committed are read by its own loads in place of memory's, and no
other byte of its view changes: an entry that a store appends hides exactly the bytes it stores, and is seen through another
mapping of the same memory too; reading memory at a home is not changed by it. That bytes are told apart by the virtual
address at which a read reaches them is the model's reading (log entry 59). -/
def Obligations.StoredBytesAreSeenByTheirOwnBlock : Prop :=
  ∀ (s : State) (e : Env) (buf : List SbEntry) (a : Nat) (data : List Byte) (who : Who) (pc : DWord) (sz va c : Nat)
    (p q : Piece) (ps qs : List Piece),
    let entry : SbEntry := { kind := .st, va := BitVec.ofNat 64 a, szcode := sz, who := who, pc := pc, bytes := placeBytes a data }
    data.length ≤ 2 ^ 64 →
    (∀ k, k < data.length → bufferByte (buf ++ [entry]) ((a + k) % 2 ^ 64) = data[k]?) ∧
    ((∀ k, k < data.length → va ≠ (a + k) % 2 ^ 64) → bufferByte (buf ++ [entry]) va = bufferByte buf va) ∧
    (s.enterBuffer e entry).homeByte c = s.homeByte c ∧
    (∀ b, s.block? e.bid = some b → ∃ b2, (s.enterBuffer e entry).block? e.bid = some b2 ∧ b2.body.buffer = b.body.buffer ++ [entry]) ∧
    (s.envOf e.bid e.who = some e → data.length = 1 → a < 2 ^ 64 →
      ((s.enterBuffer e entry).pieces e.blk.space a 1 { r := false, w := false, x := false }).2 = .ok (q :: qs) →
      ps.find? (fun p => decide (p.pa ≤ q.pa) && decide (q.pa < p.pa + p.len)) = some p →
      bufferByte ((s.enterBuffer e entry).bufferFor e ps) (p.va + (q.pa - p.pa)) = data[0]?)

/-- 15 R320, 16 R340, 18 R403: AND and XOR with an immediate, XOR of registers and IADDI, their results and the words that the
manual gives for them; each takes any of its 256 immediates, sign-extended, and runs on fibres and the lead. -/
def Obligations.ImmediateFormsComputeAndDecode : Prop :=
  (∀ (s : State) (e : Env) (rd ra rb : Reg) (imm : BitVec 8) (fe : Bool) (g : Guard) (a b : Nat),
    let x : Word := BitVec.ofNat 32 a
    let y : Word := BitVec.ofNat 32 b
    let m : Word := imm.signExtend 32
    (Issues s e (.iaddi rd ra imm g) [a] → exec (.iaddi rd ra imm g) s = .next (s.writes e (.iaddi rd ra imm g) [(x + m).toNat])) ∧
    (Issues s e (.andImm rd ra imm g) [a] →
      exec (.andImm rd ra imm g) s = .next (s.writes e (.andImm rd ra imm g) [(x &&& m).toNat])) ∧
    (Issues s e (.xorImm rd ra imm g) [a] →
      exec (.xorImm rd ra imm g) s = .next (s.writes e (.xorImm rd ra imm g) [(x ^^^ m).toNat])) ∧
    (Issues s e (.xor rd ra rb fe g) [a, b] →
      exec (.xor rd ra rb fe g) s = .next (s.writes e (.xor rd ra rb fe g) [(x ^^^ y).toNat])) ∧
    (∀ i ∈ [Instr.iaddi rd ra imm g, .andImm rd ra imm g, .xorImm rd ra imm g, .xor rd ra rb fe g],
      i.wellFormed = true ∧ (e.form i).fibre = true ∧ (e.form i).lead = true ∧ isLong i = false) ∧
    (imm = 0xF0 → x &&& m = x / 16 * 16) ∧ (imm = 0xFF → x ^^^ m = ~~~x)) ∧
  (decodeWord 0x33060FFC = .ok (.iaddi 3 3 0xFF .always) ∧ decodeWord 0x330C23F5 = .ok (.iaddi 6 8 0xFD .p0) ∧
    decodeWord 0x340817C0 = .ok (.andImm 4 5 0xF0 .always) ∧ decodeWord 0x1A081430 = .ok (.xor 4 5 6 false .always) ∧
    decodeWord 0x360817FC = .ok (.xorImm 4 5 0xFF .always)) ∧
  (repeatableOp 0x33 = true ∧ repeatableOp 0x34 = true ∧ repeatableOp 0x36 = true ∧ repeatableOp 0x1A = true)

/-- 03 R51, R65: an instruction whose format has no fe field waits on an empty source, as with fe = 0; a row collective that
names uq as a source is an illegal encoding, on any fibre, whatever its guard, and traps ILLOPD: XLANE, XSHF, LDL, STL, and
VOTE, whose ra and rb fields hold a predicate and a mode. -/
def Obligations.RowCollectivesRefuseUqSources : Prop :=
  ∀ (s : State) (e : Env) (rd ra rb : Reg) (imm : BitVec 8) (imm15 : BitVec 15) (imm17 : BitVec 17) (off : BitVec 22) (sz : BitVec 3)
    (ord : BitVec 2) (sc pn : BitVec 4) (sc3 sd sa sb : BitVec 3) (cnt : BitVec 6) (op : BitVec 4) (b fe : Bool) (g : Guard) (k : Nat),
    let w : Word := 0x46#8 ++ rd ++ 127#7 ++ rb ++ 0#1 ++ g.bits
    let fresh (i : Instr) : Prop :=
      Alone s e ∧ (collects i = true → e.ctx.arrival = none ∧ e.ctx.halt.stepper = none ∧ ∀ k, e.ctx.phase.answer ≠ .loading k)
    (∀ i ∈ [Instr.iaddi rd ra imm g, .andImm rd ra imm g, .orImm rd ra imm g, .xorImm rd ra imm g, .shlImm rd ra imm g,
        .shrImm rd ra imm g, .sarImm rd ra imm g, .winadd imm g, .xshf rd ra imm g, .sread rd imm g, .prog imm g, .waito ra imm g,
        .movi rd imm15 g, .win imm15 g, .trap imm15 g, .sysr rd imm15 g, .sysw rd imm15 g, .movhi rd imm17, .br off g, .call off g,
        .ld rd ra sz ord sc b, .st rd ra sz ord sc b, .ldl rd ra sz ord sc b, .stl rd ra sz ord sc b, .ldt rd ra sz ord sc b,
        .stt rd ra sz ord sc b, .pref ra sc b, .cflush rd ra sc b, .cinv rd ra sc b, .cpy rd ra sz b, .fence ord sc b, .ifence sc b,
        .rep cnt sd sa sb,
        .acasRelaxed rd ra rb sc3, .acasAcqRel rd ra rb sc3, .atomRelaxed op rd ra rb sc3, .atomAcqRel op rd ra rb sc3, .red op ra rb sc3],
      (e.form i).fe = false ∧
      (fresh i → staticCheck i (e.form i) e = none → guardHolds (e.form i).guard e.ctx = true →
        s.acting e (s.early e i (e.known i)) = none → firstMissing e (e.form i).srcs 0 = some (.reg k) →
        exec i s = .next (s.stay i e (e.form i) .sourceEmpty))) ∧
    (e.lead = false →
      ∀ i ∈ [Instr.xlane rd 127 rb fe g, .xlane rd ra 127 fe g, .xshf rd 127 imm g, .ldl rd 127 sz ord sc b, .stl rd 127 sz ord sc b,
          .stl 127 ra sz ord sc b, .vote rd pn 127 g],
        staticCheck i (e.form i) e = some .illopd ∧
        (fresh i → exec i s = .next (s.issueTrap i e (e.form i) { code := .illopd, detail := 0, addr := 0 }))) ∧
    (decodeWord w = .error (.illegal w) ∧ badWordTrap w false = { code := .illopd, detail := 0, addr := 0 })

/-- 16 R339, R340, 15 R319, 04 R87: the integer instructions of one result complete with the 32-bit result that the manual
gives: sums, differences and products modulo 2^32, high words of the exact 64-bit product, minima and maxima, the saturated
sum, the fused sum and minimum or maximum, the absolute value. 15 R319 to R321, 17 R364, R367, 18 R380, R403: the logical,
shift and bit-field instructions complete with the result that the manual gives; a shift by 32 or more gives 0, an arithmetic
one copies of bit 31. -/
def Obligations.IntegerInstructionsWriteTheirResult : Prop :=
  (∀ (s : State) (e : Env) (rd ra rb : Reg) (imm : BitVec 8) (fe : Bool) (g : Guard) (a b d : Nat),
     let x : Word := BitVec.ofNat 32 a
     let y : Word := BitVec.ofNat 32 b
     let z : Word := BitVec.ofNat 32 d
     (Issues s e (.iadd rd ra rb fe g) [a, b] →
       exec (.iadd rd ra rb fe g) s = .next (s.writes e (.iadd rd ra rb fe g) [(x + y).toNat])) ∧
     (Issues s e (.isub rd ra rb fe g) [a, b] →
       exec (.isub rd ra rb fe g) s = .next (s.writes e (.isub rd ra rb fe g) [(x - y).toNat])) ∧
     (Issues s e (.imul rd ra rb fe g) [a, b] →
       exec (.imul rd ra rb fe g) s = .next (s.writes e (.imul rd ra rb fe g) [x.toNat * y.toNat % 2 ^ 32])) ∧
     (Issues s e (.imulh rd ra rb fe g) [a, b] →
       exec (.imulh rd ra rb fe g) s =
         .next (s.writes e (.imulh rd ra rb fe g) [(BitVec.ofInt 32 (x.toInt * y.toInt / 2 ^ 32)).toNat])) ∧
     (Issues s e (.imulhu rd ra rb fe g) [a, b] →
       exec (.imulhu rd ra rb fe g) s = .next (s.writes e (.imulhu rd ra rb fe g) [x.toNat * y.toNat / 2 ^ 32])) ∧
     (Issues s e (.imad rd ra rb fe g) [a, b, d] →
       exec (.imad rd ra rb fe g) s = .next (s.writes e (.imad rd ra rb fe g) [(z + x * y).toNat])) ∧
     (Issues s e (.imin rd ra rb fe g) [a, b] →
       exec (.imin rd ra rb fe g) s =
         .next (s.writes e (.imin rd ra rb fe g) [(BitVec.ofInt 32 (min x.toInt y.toInt)).toNat])) ∧
     (Issues s e (.imax rd ra rb fe g) [a, b] →
       exec (.imax rd ra rb fe g) s =
         .next (s.writes e (.imax rd ra rb fe g) [(BitVec.ofInt 32 (max x.toInt y.toInt)).toNat])) ∧
     (Issues s e (.iminu rd ra rb fe g) [a, b] →
       exec (.iminu rd ra rb fe g) s = .next (s.writes e (.iminu rd ra rb fe g) [min x.toNat y.toNat])) ∧
     (Issues s e (.imaxu rd ra rb fe g) [a, b] →
       exec (.imaxu rd ra rb fe g) s = .next (s.writes e (.imaxu rd ra rb fe g) [max x.toNat y.toNat])) ∧
     (Issues s e (.iadds rd ra rb fe g) [a, b] →
       exec (.iadds rd ra rb fe g) s = .next (s.writes e (.iadds rd ra rb fe g)
         [(BitVec.ofInt 32 (max (-(2 ^ 31)) (min (2 ^ 31 - 1) (x.toInt + y.toInt)))).toNat])) ∧
     (Issues s e (.addmin rd ra rb fe g) [a, b, d] →
       exec (.addmin rd ra rb fe g) s = .next (s.writes e (.addmin rd ra rb fe g)
         [(BitVec.ofInt 32 (min z.toInt (x + y).toInt)).toNat])) ∧
     (Issues s e (.addmax rd ra rb fe g) [a, b, d] →
       exec (.addmax rd ra rb fe g) s = .next (s.writes e (.addmax rd ra rb fe g)
         [(BitVec.ofInt 32 (max z.toInt (x + y).toInt)).toNat])) ∧
     (Issues s e (.iabs rd ra fe g) [a] →
       exec (.iabs rd ra fe g) s = .next (s.writes e (.iabs rd ra fe g) [(BitVec.ofNat 32 x.toInt.natAbs).toNat])) ∧
     (Issues s e (.iaddi rd ra imm g) [a] →
       exec (.iaddi rd ra imm g) s = .next (s.writes e (.iaddi rd ra imm g) [(BitVec.ofInt 32 (x.toInt + imm.toInt)).toNat]))) ∧
  (∀ (s : State) (e : Env) (rd ra rb : Reg) (imm : BitVec 8) (fe : Bool) (g : Guard) (a b d : Nat),
     let x : Word := BitVec.ofNat 32 a
     let y : Word := BitVec.ofNat 32 b
     let z : Word := BitVec.ofNat 32 d
     let m : Word := imm.signExtend 32
     let pos := y.toNat % 32
     let len := min (y.toNat / 2 ^ 8 % 64) 32
     (Issues s e (.and rd ra rb fe g) [a, b] →
       exec (.and rd ra rb fe g) s = .next (s.writes e (.and rd ra rb fe g) [(x &&& y).toNat])) ∧
     (Issues s e (.or rd ra rb fe g) [a, b] →
       exec (.or rd ra rb fe g) s = .next (s.writes e (.or rd ra rb fe g) [(x ||| y).toNat])) ∧
     (Issues s e (.xor rd ra rb fe g) [a, b] →
       exec (.xor rd ra rb fe g) s = .next (s.writes e (.xor rd ra rb fe g) [(x ^^^ y).toNat])) ∧
     (Issues s e (.andn rd ra rb fe g) [a, b] →
       exec (.andn rd ra rb fe g) s = .next (s.writes e (.andn rd ra rb fe g) [(x &&& ~~~y).toNat])) ∧
     (Issues s e (.andImm rd ra imm g) [a] →
       exec (.andImm rd ra imm g) s = .next (s.writes e (.andImm rd ra imm g) [(x &&& m).toNat])) ∧
     (Issues s e (.orImm rd ra imm g) [a] →
       exec (.orImm rd ra imm g) s = .next (s.writes e (.orImm rd ra imm g) [(x ||| m).toNat])) ∧
     (Issues s e (.xorImm rd ra imm g) [a] →
       exec (.xorImm rd ra imm g) s = .next (s.writes e (.xorImm rd ra imm g) [(x ^^^ m).toNat])) ∧
     (Issues s e (.shl rd ra rb fe g) [a, b] →
       exec (.shl rd ra rb fe g) s = .next (s.writes e (.shl rd ra rb fe g) [x.toNat * 2 ^ y.toNat % 2 ^ 32])) ∧
     (Issues s e (.shr rd ra rb fe g) [a, b] →
       exec (.shr rd ra rb fe g) s = .next (s.writes e (.shr rd ra rb fe g) [x.toNat / 2 ^ y.toNat])) ∧
     (Issues s e (.sar rd ra rb fe g) [a, b] →
       exec (.sar rd ra rb fe g) s = .next (s.writes e (.sar rd ra rb fe g) [(BitVec.ofInt 32 (x.toInt / 2 ^ y.toNat)).toNat])) ∧
     (Issues s e (.shlImm rd ra imm g) [a] →
       exec (.shlImm rd ra imm g) s = .next (s.writes e (.shlImm rd ra imm g) [x.toNat * 2 ^ imm.toNat % 2 ^ 32])) ∧
     (Issues s e (.shrImm rd ra imm g) [a] →
       exec (.shrImm rd ra imm g) s = .next (s.writes e (.shrImm rd ra imm g) [x.toNat / 2 ^ imm.toNat])) ∧
     (Issues s e (.sarImm rd ra imm g) [a] →
       exec (.sarImm rd ra imm g) s =
         .next (s.writes e (.sarImm rd ra imm g) [(BitVec.ofInt 32 (x.toInt / 2 ^ imm.toNat)).toNat])) ∧
     (Issues s e (.bfx rd ra rb fe g) [a, b] →
       exec (.bfx rd ra rb fe g) s = .next (s.writes e (.bfx rd ra rb fe g) [x.toNat / 2 ^ pos % 2 ^ len])) ∧
     (Issues s e (.bfi rd ra rb fe g) [a, b, d] →
       exec (.bfi rd ra rb fe g) s = .next (s.writes e (.bfi rd ra rb fe g) [(BitVec.ofFnLE (n := 32) fun k =>
         if pos ≤ k.val ∧ k.val < pos + len then x.getLsbD (k.val - pos) else z.getLsbD k.val).toNat])) ∧
     (Issues s e (.popc rd ra fe g) [a] →
       exec (.popc rd ra fe g) s =
         .next (s.writes e (.popc rd ra fe g) [x.cpop.toNat])) ∧
     (Issues s e (.clz rd ra fe g) [a] →
       exec (.clz rd ra fe g) s = .next (s.writes e (.clz rd ra fe g) [x.clz.toNat])) ∧
     (Issues s e (.brev rd ra fe g) [a] →
       exec (.brev rd ra fe g) s = .next (s.writes e (.brev rd ra fe g) [x.reverse.toNat])))

/-- 15 R319, 04 R87: DIV and DIVU are long-latency producers of the quotient rounded toward zero; by 0 it is 0xFFFF_FFFF, and
0x8000_0000 by −1 is 0x8000_0000. -/
def Obligations.DivisionProducesTheQuotient : Prop :=
  ∀ (s : State) (e : Env) (rd ra rb : Reg) (fe : Bool) (g : Guard) (a b : Nat),
    let x : Word := BitVec.ofNat 32 a
    let y : Word := BitVec.ofNat 32 b
    (Issues s e (.div rd ra rb fe g) [a, b] →
      exec (.div rd ra rb fe g) s = .next (s.produces e (.div rd ra rb fe g)
        (if y = 0 then 0xFFFFFFFF
         else if x.toInt = -(2 ^ 31) ∧ y.toInt = -1 then 0x80000000
         else (BitVec.ofInt 32 (x.toInt.tdiv y.toInt)).toNat) fNone)) ∧
    (Issues s e (.divu rd ra rb fe g) [a, b] →
      exec (.divu rd ra rb fe g) s = .next (s.produces e (.divu rd ra rb fe g)
        (if y = 0 then 0xFFFFFFFF else x.toNat / y.toNat) fNone))

/-- 16 R341, 14 R280: ICMP and ICMPU set their predicate to the condition of their operands, signed and unsigned, and leave
the other predicates. 16 R330, 14 R280, 04 R76: FCMP_F32 sets p(pn), and the packed forms p(pn) and p(pn+1), to the condition
on the decoded values; they raise no exception. -/
def Obligations.ComparesSetTheirPredicates : Prop :=
  (∀ (s : State) (e : Env) (cond : BitVec 3) (pn : BitVec 4) (ra rb : Reg) (fe : Bool) (g : Guard) (a b : Nat),
     let x : Word := BitVec.ofNat 32 a
     let y : Word := BitVec.ofNat 32 b
     let holds (p q : Int) : Prop := (cond = 0 → p = q) ∧ (cond = 1 → p ≠ q) ∧ (cond = 2 → p < q) ∧ (cond = 3 → p ≤ q) ∧
       (cond = 4 → p > q) ∧ (cond = 5 → p ≥ q)
     (Issues s e (.icmp cond pn ra rb fe g) [a, b] →
       ∃ v : Bool, (v = true ↔ holds x.toInt y.toInt) ∧
         exec (.icmp cond pn ra rb fe g) s = .next (s.predicates e (.icmp cond pn ra rb fe g) (setPred e.ctx.preds pn.toNat v))) ∧
     (Issues s e (.icmpu cond pn ra rb fe g) [a, b] →
       ∃ v : Bool, (v = true ↔ holds x.toNat y.toNat) ∧
         exec (.icmpu cond pn ra rb fe g) s =
           .next (s.predicates e (.icmpu cond pn ra rb fe g) (setPred e.ctx.preds pn.toNat v)))) ∧
  (∀ (s : State) (e : Env) (cond : BitVec 3) (pn : BitVec 4) (ra rb : Reg) (fe : Bool) (g : Guard) (a b : Nat),
     let p := e.ctx.preds
     let half (x j : Nat) : Nat := x / 2 ^ (16 * j) % 2 ^ 16
     let two (t : FpFmt) (j : Nat) : Bool := fpCond cond.toNat (fpDecode t (half a j)) (fpDecode t (half b j))
     (Issues s e (.fcmpF32 cond pn ra rb fe g) [a, b] →
       exec (.fcmpF32 cond pn ra rb fe g) s = .next (s.predicates e (.fcmpF32 cond pn ra rb fe g)
         (setPred p pn.toNat (fpCond cond.toNat (fpDecode f32 (a % 2 ^ 32)) (fpDecode f32 (b % 2 ^ 32)))))) ∧
     (Issues s e (.fcmpBf16x2 cond pn ra rb fe g) [a, b] →
       exec (.fcmpBf16x2 cond pn ra rb fe g) s = .next (s.predicates e (.fcmpBf16x2 cond pn ra rb fe g)
         (setPred (setPred p pn.toNat (two bf16 0)) (pn.toNat + 1) (two bf16 1)))) ∧
     (Issues s e (.fcmpF16x2 cond pn ra rb fe g) [a, b] →
       exec (.fcmpF16x2 cond pn ra rb fe g) s = .next (s.predicates e (.fcmpF16x2 cond pn ra rb fe g)
         (setPred (setPred p pn.toNat (two f16 0)) (pn.toNat + 1) (two f16 1)))))

/-- 17 R365, R366: predicate logic sets p(rd), PMOV_TO_PREDICATE sets p(rd), or all sixteen with rd = 64, and PMOV_FROM_WORD
reads all sixteen; setting p(n) leaves every other predicate. -/
def Obligations.PredicateInstructionsSetTheirPredicate : Prop :=
  ∀ (s : State) (e : Env) (rd ra rb : Reg) (fe : Bool) (g : Guard) (a : Nat),
    let p := e.ctx.preds
    (Issues s e (.pand rd ra rb g) [] → exec (.pand rd ra rb g) s = .next (s.predicates e (.pand rd ra rb g)
      (setPred p rd.toNat (p.getLsbD ra.toNat && p.getLsbD rb.toNat)))) ∧
    (Issues s e (.por rd ra rb g) [] → exec (.por rd ra rb g) s = .next (s.predicates e (.por rd ra rb g)
      (setPred p rd.toNat (p.getLsbD ra.toNat || p.getLsbD rb.toNat)))) ∧
    (Issues s e (.pxor rd ra rb g) [] → exec (.pxor rd ra rb g) s = .next (s.predicates e (.pxor rd ra rb g)
      (setPred p rd.toNat (p.getLsbD ra.toNat ^^ p.getLsbD rb.toNat)))) ∧
    (Issues s e (.pnot rd ra g) [] → exec (.pnot rd ra g) s = .next (s.predicates e (.pnot rd ra g)
      (setPred p rd.toNat (!p.getLsbD ra.toNat)))) ∧
    (Issues s e (.pmovToPredicate rd ra fe g) [a] → exec (.pmovToPredicate rd ra fe g) s =
      .next (s.predicates e (.pmovToPredicate rd ra fe g)
        (if rd.toNat = 64 then BitVec.ofNat 16 a else setPred p rd.toNat (decide (a % 2 ^ 32 ≠ 0))))) ∧
    (Issues s e (.pmovFromWord rd g) [] → exec (.pmovFromWord rd g) s =
      .next (s.writes e (.pmovFromWord rd g) [p.toNat])) ∧
    (∀ (q : BitVec 16) (n k : Nat) (v : Bool), n < 16 → (setPred q n v).getLsbD k = if k = n then v else q.getLsbD k)

/-- 17 R353, R359 to R361, 18 R381, 03 R56: moves, constants, selection and addresses complete with their value; LEA adds the
sign-extended rb, shifted left, to the 64-bit base and wraps. -/
def Obligations.MovesAndConstantsWriteTheirValue : Prop :=
  ∀ (s : State) (e : Env) (rd ra rb : Reg) (imm15 : BitVec 15) (imm17 : BitVec 17) (sh : BitVec 7) (fe : Bool)
    (g : Guard) (a b d : Nat),
    (Issues s e (.mov rd ra fe g) [a] → exec (.mov rd ra fe g) s = .next (s.writes e (.mov rd ra fe g) [a])) ∧
    (Issues s e (.movi rd imm15 g) [] → exec (.movi rd imm15 g) s = .next (s.writes e (.movi rd imm15 g) [imm15.toNat])) ∧
    (Issues s e (.movhi rd imm17) [d] → exec (.movhi rd imm17) s =
      .next (s.writes e (.movhi rd imm17) [imm17.toNat * 2 ^ 15 + d % 2 ^ 15])) ∧
    (Issues s e (.sel rd ra rb fe g) [a, b] → exec (.sel rd ra rb fe g) s =
      .next (s.writes e (.sel rd ra rb fe g) [if e.ctx.preds.getLsbD 0 then a % 2 ^ 32 else b % 2 ^ 32])) ∧
    (Issues s e (.lea sh ra rb fe g) [a, b] → exec (.lea sh ra rb fe g) s = .next (s.writes e (.lea sh ra rb fe g)
      [(BitVec.ofInt 64 (a + (BitVec.ofNat 32 b).toInt * 2 ^ sh.toNat)).toNat]))

/-- 03 R52, R60: MOVX produces the register that ra indexes, MOVXW writes it, WIN and WINADD set the window base, SETE empties
its register; an indexed register is below the allocation and full. -/
def Obligations.WindowAndIndexedRegistersAreReached : Prop :=
  ∀ (s : State) (e : Env) (rd ra rb : Reg) (imm : BitVec 15) (imm8 : BitVec 8) (fe : Bool) (g : Guard) (a b : Nat),
    let n := a % 2 ^ 32
    (Issues s e (.movx rd ra fe g) [a] → n < e.alloc → e.ctx.empties.contains n = false →
      exec (.movx rd ra fe g) s = .next (s.produces e (.movx rd ra fe g) (sget 0 e.ctx.regs n).toNat fNone)) ∧
    (Issues s e (.movxw ra rb fe g) [a, b] → n < e.alloc → e.ctx.empties.contains n = false →
      exec (.movxw ra rb fe g) s = .next (s.retired e (.movxw ra rb fe g)
        { state := s.modMe e (fun c => c.writeReg [n] [n] [BitVec.ofNat 32 b]) })) ∧
    (Issues s e (.win imm g) [] →
      exec (.win imm g) s = .next (s.retired e (.win imm g) { state := s, wb := some (BitVec.ofNat 12 imm.toNat) })) ∧
    (Issues s e (.winadd imm8 g) [] → exec (.winadd imm8 g) s =
      .next (s.retired e (.winadd imm8 g) { state := s, wb := some (BitVec.ofInt 12 (e.ctx.wb.toNat + imm8.toInt)) })) ∧
    (Issues s e (.sete rd g) [] → exec (.sete rd g) s =
      .next (s.retired e (.sete rd g) { state := s.modMe e (fun c => c.markEmpty (e.writtenBits (.sete rd g))) }))

/-- 16 R327, R328, 04 R74 to R76: FADD, FSUB, FMUL and FMA in F32 and on both elements of the packed formats compute the exact
value of their operands and round it once, with the exceptions of every element. -/
def Obligations.FloatArithmeticRoundsOnce : Prop :=
  ∀ (s : State) (e : Env) (rd ra rb : Reg) (fe : Bool) (g : Guard) (a b d : Nat) (i : Instr) (r : Nat × FpFlags),
    let el (t : FpFmt) (x j : Nat) : Fp := fpDecode t (x / 2 ^ (16 * j) % 2 ^ 16)
    let w (x : Nat) : Fp := fpDecode f32 (x % 2 ^ 32)
    let both (f : Nat → Nat × FpFlags) : Nat × FpFlags := ((f 0).1 + 2 ^ 16 * (f 1).1, (f 0).2 ||| (f 1).2)
    ((i, r) ∈ [(.faddF32 rd ra rb fe g, fpDot f32 [w a, w b] []),
        (.fsubF32 rd ra rb fe g, fpDot f32 [w a, (w b).neg] []),
        (.fmulF32 rd ra rb fe g, fpDot f32 [] [(w a, w b)]),
        (.faddBf16x2 rd ra rb fe g, both fun j => fpDot bf16 [el bf16 a j, el bf16 b j] []),
        (.fsubBf16x2 rd ra rb fe g, both fun j => fpDot bf16 [el bf16 a j, (el bf16 b j).neg] []),
        (.fmulBf16x2 rd ra rb fe g, both fun j => fpDot bf16 [] [(el bf16 a j, el bf16 b j)]),
        (.faddF16x2 rd ra rb fe g, both fun j => fpDot f16 [el f16 a j, el f16 b j] []),
        (.fsubF16x2 rd ra rb fe g, both fun j => fpDot f16 [el f16 a j, (el f16 b j).neg] []),
        (.fmulF16x2 rd ra rb fe g, both fun j => fpDot f16 [] [(el f16 a j, el f16 b j)])] →
      Issues s e i [a, b] → exec i s = .next (s.rounds e i r)) ∧
    ((i, r) ∈ [(.fmaF32 rd ra rb fe g, fpDot f32 [w d] [(w a, w b)]),
        (.fmaBf16x2 rd ra rb fe g, both fun j => fpDot bf16 [el bf16 d j] [(el bf16 a j, el bf16 b j)]),
        (.fmaF16x2 rd ra rb fe g, both fun j => fpDot f16 [el f16 d j] [(el f16 a j, el f16 b j)])] →
      Issues s e i [a, b, d] → exec i s = .next (s.rounds e i r))

/-- 16 R327, R328, 04 R75: FMIN and FMAX, per element, and FABS and FNEG, which only change sign bits, complete and raise no
exception. 16 R329, R331 to R334, 04 R77 to R81: conversions, rounding, classification and dot products complete with their
value and exceptions; the reciprocal, root, exponential and logarithm are long-latency producers of theirs. -/
def Obligations.FloatFunctionsWriteTheirValue : Prop :=
  (∀ (s : State) (e : Env) (rd ra rb : Reg) (fmt : BitVec 7) (fe : Bool) (g : Guard) (a b : Nat) (i : Instr) (r : Nat),
     let el (x j : Nat) : Nat := x / 2 ^ (16 * j) % 2 ^ 16
     let both (t : FpFmt) (m : Bool) : Nat :=
       fpMinMax t m (el a 0) (el b 0) + 2 ^ 16 * fpMinMax t m (el a 1) (el b 1)
     ((i, r) ∈ [(.fminF32 rd ra rb fe g, fpMinMax f32 false (a % 2 ^ 32) (b % 2 ^ 32)),
         (.fmaxF32 rd ra rb fe g, fpMinMax f32 true (a % 2 ^ 32) (b % 2 ^ 32)),
         (.fminBf16x2 rd ra rb fe g, both bf16 false), (.fmaxBf16x2 rd ra rb fe g, both bf16 true),
         (.fminF16x2 rd ra rb fe g, both f16 false), (.fmaxF16x2 rd ra rb fe g, both f16 true)] →
       Issues s e i [a, b] → exec i s = .next (s.writes e i [r])) ∧
     (i = .fabs rd ra fmt fe g → Issues s e i [a] → exec i s = .next (s.writes e i
       [(if fmt = 0 then BitVec.ofNat 32 a &&& 0x7FFFFFFF#32 else BitVec.ofNat 32 a &&& 0x7FFF7FFF#32).toNat])) ∧
     (i = .fneg rd ra fmt fe g → Issues s e i [a] → exec i s = .next (s.writes e i
       [(if fmt = 0 then BitVec.ofNat 32 a ^^^ 0x80000000#32 else BitVec.ofNat 32 a ^^^ 0x80008000#32).toNat]))) ∧
  (∀ (s : State) (e : Env) (rd ra rb : Reg) (mode : BitVec 7) (src : BitVec 4) (dst : BitVec 3) (fe : Bool) (g : Guard)
     (a b d : Nat) (i : Instr) (r : Nat × FpFlags) (v : Nat),
     let x := a % 2 ^ 32
     let el (t : FpFmt) (y n j : Nat) : Fp := fpDecode t (y / 2 ^ (n * j) % 2 ^ n)
     let acc := [fpDecode f32 (d % 2 ^ 32)]
     ((i, r) ∈ [(.fcvt rd ra src dst fe g, fpConvert src.toNat dst.toNat x),
         (.fcvti rd ra mode fe g, fpToInt32 (rmodeOf mode.toNat) (decide (mode.toNat ≥ 4)) x),
         (.icvtf rd ra mode fe g, int32ToFp (rmodeOf mode.toNat) (decide (mode.toNat ≥ 4)) x)] →
       Issues s e i [a] → exec i s = .next (s.rounds e i r)) ∧
     ((i, v) ∈ [(.frnd rd ra mode fe g, fpRnd (rmodeOf mode.toNat) x), (.fclass rd ra fe g, fpClass x)] →
       Issues s e i [a] → exec i s = .next (s.writes e i [v])) ∧
     ((i, r) ∈ [(.frcp rd ra fe g, fpRcp x), (.frsq rd ra fe g, fpRsq x), (.fexp2 rd ra fe g, fpExp2 x),
         (.flog2 rd ra fe g, fpLog2 x)] →
       Issues s e i [a] → exec i s = .next (s.produces e i r.1 r.2)) ∧
     ((i, r) ∈ [(.fdot2Bf16 rd ra rb fe g, fpDot f32 acc ([0, 1].map fun j => (el bf16 a 16 j, el bf16 b 16 j))),
         (.fdot2F16 rd ra rb fe g, fpDot f32 acc ([0, 1].map fun j => (el f16 a 16 j, el f16 b 16 j))),
         (.fdot4F8a rd ra rb fe g, fpDot f32 acc ([0, 1, 2, 3].map fun j => (el f8a a 8 j, el f8a b 8 j))),
         (.fdot4F8b rd ra rb fe g, fpDot f32 acc ([0, 1, 2, 3].map fun j => (el f8b a 8 j, el f8b b 8 j)))] →
       Issues s e i [a, b, d] → exec i s = .next (s.rounds e i r)))

/-- 17 R363, 18 R405, 15 R306 to R308, 18 R379, 02 R21, R31: NOP and YIELD only advance, and a lead that yields is ready again
two cycles later (log entry 30); BR, BRI, CALL and RET go to a legal target, CALL with its return address written to the link
register; END makes the issuer ending and keeps its PC. 02 R21, 15 R306 to R308, 18 R379: a target that is not canonical, or
of BRI and RET not a multiple of 4, traps ILLOPD at the branch. -/
def Obligations.ControlInstructionsGoWhereTheyPoint : Prop :=
  (∀ (s : State) (e : Env) (off : BitVec 22) (ra : Reg) (fe : Bool) (g : Guard) (a : Nat),
     let t : DWord := BitVec.ofInt 64 (e.ctx.pc.toNat + 4 * off.toInt)
     let r : DWord := BitVec.ofNat 64 a
     (Issues s e (.nop g) [] → exec (.nop g) s = .next (s.writes e (.nop g) [])) ∧
     (Issues s e (.yield g) [] → exec (.yield g) s = .next (s.retired e (.yield g)
        { state := s, ready := if e.lead then some (s.time + 2 * cycleTime) else none })) ∧
     (Issues s e (.br off g) [] → canonical t = true →
       exec (.br off g) s = .next (s.retired e (.br off g) { state := s, pc := some t })) ∧
     (Issues s e (.call off g) [] → canonical t = true →
       exec (.call off g) s = .next (s.retired e (.call off g) { state := s, vals := [(e.ctx.pc + 4).toNat], pc := some t })) ∧
     (Issues s e (.bri ra fe g) [a] → r.toNat % 4 = 0 → canonical r = true →
       exec (.bri ra fe g) s = .next (s.retired e (.bri ra fe g) { state := s, pc := some r })) ∧
     (Issues s e (.ret fe g) [a] → r.toNat % 4 = 0 → canonical r = true →
       exec (.ret fe g) s = .next (s.retired e (.ret fe g) { state := s, pc := some r })) ∧
     (Issues s e (.endIssue g) [] → exec (.endIssue g) s = .next (s.retired e (.endIssue g)
       { state := s.modMe e (fun c => { c with life := .ending }), pc := some e.ctx.pc }))) ∧
  (∀ (s : State) (e : Env) (off : BitVec 22) (ra : Reg) (fe : Bool) (g : Guard) (a : Nat) (i : Instr),
     let t : DWord := BitVec.ofInt 64 (e.ctx.pc.toNat + 4 * off.toInt)
     let r : DWord := BitVec.ofNat 64 a
     let illopd : Trap := { code := .illopd, detail := 0, addr := 0 }
     (canonical t = false → (i = .br off g ∨ i = .call off g) → Issues s e i [] →
       exec i s = .next (s.issueTrap i e (e.form i) illopd)) ∧
     ((canonical r = false ∨ r.toNat % 4 ≠ 0) → (i = .bri ra fe g ∨ i = .ret fe g) → Issues s e i [a] →
       exec i s = .next (s.issueTrap i e (e.form i) illopd)))

/-- 16 R326: ERET goes to the PC in ra and takes the predicates from rb and, with bit 31 set on a fibre, an even window base
within the allocation; it needs a legal PC and reserved bits of 0. 14 R284 to R287, 18 R378: REP fetches the word at PC + 4
and, if that instruction may be repeated so, arms the repeat of the instructions that follow from iteration 0. -/
def Obligations.EretAndRepTakeEffect : Prop :=
  (∀ (s : State) (e : Env) (ra rb : Reg) (fe : Bool) (g : Guard) (a b : Nat),
     let t : DWord := BitVec.ofNat 64 a
     let c : Word := BitVec.ofNat 32 b
     let w := c.toNat / 2 ^ 16 % 2 ^ 12
     t.toNat % 4 = 0 → canonical t = true → c.toNat / 2 ^ 28 % 8 = 0 →
     (c.getLsbD 31 = true → e.who ≠ .lead ∧ w % 2 = 0 ∧ w < e.alloc) →
     Issues s e (.eret ra rb fe g) [a, b] →
       exec (.eret ra rb fe g) s = .next (s.retired e (.eret ra rb fe g)
         { state := s, pc := some t, preds := some (BitVec.ofNat 16 b),
           wb := if c.getLsbD 31 then some (BitVec.ofNat 12 w) else none })) ∧
  (∀ (s t : State) (e : Env) (cnt : BitVec 6) (sd sa sb : BitVec 3) (w : Word),
     let r : Rep := { active := true, count := cnt.toNat, index := 0, sd := sd, sa := sa, sb := sb }
     Issues s e (.rep cnt sd sa sb) [] → s.fetch e.blk.space (e.ctx.pc + 4) = (t, .ok w) → repTrap w r e = none →
       Issues t e (.rep cnt sd sa sb) [] →
       exec (.rep cnt sd sa sb) s = .next (t.retired e (.rep cnt sd sa sb)
         { state := t, pc := some (e.ctx.pc + 4), rep := some r }))

/-- 02 R30, 03 R62, R63, 16 R335, 18 R395, R398, 06 R137: FORK gives the lowest free identifier to a new fibre at a legal PC
with register 0 set, or answers 0xFFFF_FFFF; UPUSH appends to the uniform queue below 64 entries; WAITF passes when its range
is full; WAITO passes when its counter is low enough and acquires at .core. -/
def Obligations.FibresStartAndWaitsPass : Prop :=
  ∀ (s : State) (e : Env) (rd ra rb : Reg) (imm : BitVec 8) (fe : Bool) (g : Guard) (a b : Nat),
    let t : DWord := BitVec.ofNat 64 a
    let c : Ctx := { Ctx.new t (e.ctx.uqPos + (e.form (.fork rd ra rb fe g)).pops) s.time with
      regs := sput 0 [] 0 (BitVec.ofNat 32 b) }
    let range := if e.lead then span ra.toNat (rb.toNat + 1) else span (e.ctx.wb.toNat + ra.toNat) (rb.toNat + 1)
    (Issues s e (.fork rd ra rb fe g) [a, b] → t.toNat % 4 = 0 → canonical t = true →
      (∀ k, k < e.blk.params.fibreCount → (∀ j, j < k → (aget e.blk.body.fibres j).isSome) → aget e.blk.body.fibres k = none →
        exec (.fork rd ra rb fe g) s = .next (s.retired e (.fork rd ra rb fe g)
          { state := s.modBlock e.bid (fun x => x.modBody (fun y => { y with fibres := aput y.fibres k c })),
            vals := [k] })) ∧
      ((∀ j, j < e.blk.params.fibreCount → (aget e.blk.body.fibres j).isSome) →
        exec (.fork rd ra rb fe g) s = .next (s.writes e (.fork rd ra rb fe g) [0xFFFFFFFF]))) ∧
    (Issues s e (.upush ra fe g) [a] → e.blk.body.uq.length < 64 →
      exec (.upush ra fe g) s = .next (s.retired e (.upush ra fe g)
        { state := s.modBlock e.bid (fun x => x.modBody (fun y => { y with uq := y.uq ++ [BitVec.ofNat 32 a] })) })) ∧
    (Issues s e (.waitf ra rb g) [] → (∀ n ∈ range, e.ctx.empties.contains n = false) →
      exec (.waitf ra rb g) s = .next (s.writes e (.waitf ra rb g) [])) ∧
    (Issues s e (.waito ra imm g) [] → e.ctx.counter ra.toNat ≤ imm.toNat →
      exec (.waito ra imm g) s = .next (s.retired e (.waito ra imm g) { state := s.acquire e.core 2 }))

/-- 18 R394, 14 R275, 02 R21: TRAP traps with its immediate as DETAIL, a word that gives no instruction with ILLOP or ILLOPD,
a failed fetch with its own trap; the issuer's PC stays. -/
def Obligations.TrapInstructionsTakeTheirTrap : Prop :=
  ∀ (s : State) (e : Env) (imm : BitVec 15) (g : Guard) (w : Word) (f : FetchFault),
    (Issues s e (.trap imm g) [] → exec (.trap imm g) s =
      .next (s.issueTrap (.trap imm g) e (e.form (.trap imm g)) { code := .trap, detail := imm.toNat, addr := 0 })) ∧
    (Alone s e → exec (.unassignedOpcode w) s =
      .next (s.issueTrap (.unassignedOpcode w) e (base .always false) (badWordTrap w e.lead))) ∧
    (Alone s e → exec (.instructionFetchFault f) s =
      .next (s.issueTrap (.instructionFetchFault f) e (base .always false) (fetchTrap f)))

/-- 14 R282, 17 R370, 18 R383, R384, R391: SREAD reads its number's value of the table and number 12 latches the upper half of
the cycle counter; SYSR and SYSW reach the FP status, the hit sums and the mapping block; SIGR reads the issuer's CRC in a
pair and 0 otherwise; PROG counts for a running trial of its launch, except in a trailing copy. 18 R392, R393, 06 R140:
TLBI.page removes the entries that translate the address in the ASN or are global, TLBI.asn those of the ASN that are not
global, TLBI.all every entry; the walkers' caches are emptied, after every L1's dirty bytes and what is under way by a removed
translation. It completes at once unless such a write is on its way to another device, whose acknowledgement it awaits. How
far what is under way gets is the model's choice (log entries 22, 54). -/
def Obligations.SystemInstructionsReachTheirState : Prop :=
  (∀ (s : State) (e : Env) (rd : Reg) (imm : BitVec 8) (num : BitVec 15) (g : Guard) (a : Nat),
     (Issues s e (.sread rd imm g) [] → exec (.sread rd imm g) s = .next (s.retired e (.sread rd imm g)
       { state := if imm.toNat = 12 then s.modMe e (fun c => { c with latch := BitVec.ofNat 32 (s.cycle / 2 ^ 32) }) else s,
         vals := [s.sreadValue e imm.toNat] })) ∧
     (List.range 20).map (s.sreadValue e) =
       [if e.lead then 0xFFFFFFFF else e.who.fid, if e.lead then 0xFFFFFFFF else e.who.fid % 32, e.blk.bx, e.blk.by_, e.blk.bz, e.blk.stage,
        e.blk.params.fibreCount, e.blk.params.dimX, e.blk.params.dimY, e.blk.params.dimZ, e.core, e.core / 4, s.cycle % 2 ^ 32,
        e.ctx.latch.toNat, if e.lead then 0 else e.ctx.wb.toNat,
        (s.governor (e.core / 4)).throttle + if (s.governor (e.core / 4)).emergency then 8 else 0,
        if e.blk.role = .leading then 1 else if e.blk.role = .trailing then 2 else 0, e.blk.params.lid, e.ctx.fps.toNat,
        e.blk.params.allocation] ∧
     (Issues s e (.sysr rd num g) [] → exec (.sysr rd num g) s = .next (s.writes e (.sysr rd num g)
       [if num.toNat = 18 then e.ctx.fps.toNat
        else if num.toNat < 0x1000 then s.hitSum (num.toNat - 0x200) else s.amapRead (8 * (num.toNat - 0x1000))])) ∧
     (Issues s e (.sysw rd num g) [a] → exec (.sysw rd num g) s = .next (s.retired e (.sysw rd num g)
       { state := if num.toNat = 18 then s.modMe e (fun c => { c with fps := BitVec.ofNat 5 a })
           else if e.blk.role = .trailing then s else s.amapWrite (8 * (num.toNat - 0x1000)) a })) ∧
     (Issues s e (.sigr rd g) [] → exec (.sigr rd g) s = .next (s.writes e (.sigr rd g)
       [if e.blk.role = .single then 0 else (e.again (s.flushCrc e.bid)).ctx.crc.toNat])) ∧
     (Issues s e (.sigr rd g) [] → e.who ≠ .lead ∨ e.blk.body.drains = [] → exec (.sigr rd g) s = .next (s.writes e (.sigr rd g)
       [if e.blk.role = .single then 0 else e.ctx.crc.toNat])) ∧
     (Issues s e (.prog imm g) [] → exec (.prog imm g) s = .next (s.retired e (.prog imm g)
       { state := if s.trial.run = true ∧ s.trial.lid = e.blk.params.lid ∧ e.blk.role ≠ .trailing
           then { s with trial := s.trial.progress imm.toNat } else s }))) ∧
  (∀ (s : State) (e : Env) (ra rb : Reg) (fe : Bool) (g : Guard) (a b : Nat),
     let global (x : TlbEntry) : Bool := x.entry.getLsbD 5
     let page (x : TlbEntry) : Bool := (x.asn == b % 2 ^ 16 || global x) && (decide (x.base ≤ a) && decide (a < x.base + x.size))
     let asn (x : TlbEntry) : Bool := x.asn == b % 2 ^ 16 && !global x
     ∀ (i : Instr) (vals : List Nat) (gone : TlbEntry → Bool),
       (i = .tlbiPage ra rb fe g ∧ vals = [a, b] ∧ gone = page) ∨ (i = .tlbiAsn rb fe g ∧ vals = [b] ∧ gone = asn) ∨
         (i = .tlbiAll g ∧ vals = [] ∧ gone = fun _ => true) →
       Issues s e i vals →
       let t := s.tlbi gone
       (t.tlb = s.tlb.filter (fun x => !gone x) ∧ t.walkc = []) ∧
       (e.blk.role = .trailing → e.ctx.phase.release = .none → exec i s = .next (s.writes e i [])) ∧
       (e.blk.role ≠ .trailing → e.ctx.phase.release = .none → t.undrained t.fresh = false →
         exec i s = .next (s.retired e i { state := t })) ∧
       (e.blk.role ≠ .trailing → e.ctx.phase.release = .none → t.undrained t.fresh = true → e.ctx.halt.stepper = none →
         exec i s = .next ((t.setPhase e (fun p => { p with release := .drained t.fresh })).stay i e (e.form i) .acks)) ∧
       (e.ctx.phase.release = .done → exec i s = .next (s.writes e i [])))

/-- 15 R312, 06 R128, R138, 16 R338, 11 R229, R230: CHKPT, a releasing FENCE and IFENCE complete once their commit point lets
them, take a commit ordinal and await their checkpoint; an acquiring FENCE acquires; IFENCE empties the instruction caches of
its scope, at .pod and .sys once the other devices have acknowledged. -/
def Obligations.CommitPointsCompleteWhenLetThrough : Prop :=
  ∀ (s t : State) (e : Env) (ord : BitVec 2) (sc : BitVec 4) (g : Guard) (b : Bool),
    let k := if sc.toNat ≤ 1 then 2 else if sc.toNat = 8 then 9 else sc.toNat
    (Issues s e (.chkpt g) [] → s.commitPoint e [] = .go t →
      exec (.chkpt g) s = .next (s.retired e (.chkpt g) { state := t.takeOrdinal e, sealed := e.blk.ckptMode })) ∧
    (Issues s e (.fence ord sc b) [] → ord = 2 →
      exec (.fence ord sc b) s = .next (s.retired e (.fence ord sc b) { state := s.acquire e.core sc.toNat })) ∧
    (Issues s e (.fence ord sc b) [] → ord ≠ 2 → sc.toNat ≤ 1 →
      exec (.fence ord sc b) s = .next (s.writes e (.fence ord sc b) [])) ∧
    (Issues s e (.fence ord sc b) [] → ord ≠ 2 → 2 ≤ sc.toNat → s.releasePoint e [] sc.toNat = .go t →
      exec (.fence ord sc b) s = .next (s.retired e (.fence ord sc b)
        { state := (if ord = 0 then t.acquire e.core sc.toNat else t).takeOrdinal e, sealed := e.blk.ckptMode })) ∧
    (Issues s e (.ifence sc b) [] → s.releasePoint e [] k = .go t →
      (e.ctx.phase.answer ≠ .awaiting → k < 9 → exec (.ifence sc b) s = .next (s.retired e (.ifence sc b)
        { state := (t.dropCode (scopeCores e.core k)).takeOrdinal e, sealed := e.blk.ckptMode })) ∧
      (e.ctx.phase.answer = .awaiting → exec (.ifence sc b) s = .next (s.retired e (.ifence sc b)
        { state := t.takeOrdinal e, sealed := e.blk.ckptMode })))

/-- 07 R158, R159, 15 R304, R305: BARI sets the expected count of a barrier without arrivals, BARA adds its arrivals and
answers the token of the phase they belong to, BARW passes once the barrier is past the token's phase. -/
def Obligations.BarriersCountPhases : Prop :=
  ∀ (s : State) (e : Env) (rd ra rb : Reg) (fe : Bool) (g : Guard) (a c : Nat) (x : Barrier),
    let set (n : Nat) (y : Barrier) : State :=
      s.modBlock e.bid (fun k => k.modBody (fun z => { z with barriers := z.barriers.set n y }))
    let n := a % 2 ^ 32
    let m := c % 2 ^ 32
    let unit := a % 2 ^ 32 / 2 ^ 28
    let ahead := (x.phase + 2 ^ 28 - n % 2 ^ 28) % 2 ^ 28
    (Issues s e (.bari ra rb fe g) [a, c] → n < e.blk.params.barrierCount → e.blk.body.barriers[n]? = some x →
      1 ≤ m → m ≤ 1025 → x.arrived = 0 →
      exec (.bari ra rb fe g) s = .next (s.retired e (.bari ra rb fe g) { state := set n { x with expected := m } })) ∧
    (Issues s e (.bara rd ra rb fe g) [a, c] → n < e.blk.params.barrierCount → e.blk.body.barriers[n]? = some x →
      x.expected ≠ 0 → 1 ≤ m → m ≤ 65535 →
      exec (.bara rd ra rb fe g) s = .next (s.retired e (.bara rd ra rb fe g)
        { state := set n { x with phase := (x.phase + (x.arrived + m) / x.expected) % 2 ^ 28,
                                  arrived := (x.arrived + m) % x.expected },
          vals := [n * 2 ^ 28 + (x.phase + (x.arrived + m - 1) / x.expected) % 2 ^ 28] })) ∧
    (Issues s e (.barw ra fe g) [a] → unit < e.blk.params.barrierCount → e.blk.body.barriers[unit]? = some x →
      x.expected ≠ 0 → 1 ≤ ahead → ahead < 2 ^ 27 →
      exec (.barw ra fe g) s = .next (s.writes e (.barw ra fe g) []))

/-- 17 R344, R346, R348, 06 R122, 12 R242, 13 R264: LD, LDE and an LDT that its home has answered are long-latency producers
of the value that memory and the block's store buffer show; LDE decodes the element of its formatted page to FP32; a load of
which another device holds a byte asks for it and is a producer whose value is still to come, or, where a watch slot may match
that value, waits at its PC for the bytes and is then a producer of them. That a value is read at the step in which the load
issues is the model's reading (log entry 5), and so is the ask toward another device (log entry 55). -/
def Obligations.LoadsProduceWhatTheyRead : Prop :=
  ∀ (s s1 s2 s3 s4 s5 : State) (e : Env) (rd ra rb : Reg) (sz : BitVec 3) (ord : BitVec 2) (sc : BitVec 4) (b fe : Bool) (g : Guard)
    (a n : Nat) (p q : Piece) (ps qs rs : List Piece) (bs : List Byte) (ws : List Word) (known : List (Nat × Byte)),
    let sp := e.blk.space
    let fmt := p.fmt
    let geom := pteGeom p.entry
    let i := n % 2 ^ 32 % unitElems fmt geom
    let u := (a + 65536 * (n % 2 ^ 32 / unitElems fmt geom)) % 2 ^ 64
    let at_ := u + (if fmt = 1 then i / 2 else i)
    let ld : Instr := .ld rd ra sz ord sc b
    let lde : Instr := .lde rd ra rb fe g
    let acq := acquireScope (decide (ord = 1)) sc.toNat
    (Issues s e ld [a] → (∀ k, e.ctx.phase.answer ≠ .loading k) → s.pieces sp a (sizeBytes sz) needR = (s1, .ok ps) →
      s1.beforeRead e a (sizeBytes sz) = .go s2 →
      (s2.anyAway ps = false → s2.readPieces e.core (s2.bufferFor e ps) ps = (s3, .ok bs) →
        exec ld s = .next (s.retired e ld
          { state := s3, vals := [loadValue sz bs], long := true, acquire := acq, src := s3.readSpan sp a (sizeBytes sz) })) ∧
      (s2.anyAway ps = true → s2.knownBytes e.core (s2.bufferFor e ps) a ps = (s3, .ok known) → known.length < sizeBytes sz →
        s3.holdsLoad e = false → exec ld s = .next (s.retired e ld
          { state := s3.tick1.askBytes e s3.fresh a ps, long := true, acquire := acq, src := s3.readSpan sp a (sizeBytes sz),
            pid := some s3.fresh, late := some (.load sz known) }))) ∧
    (Passes s e ld [a] → s.early e ld [a] = [] → (∀ k, e.ctx.phase.answer ≠ .loading k) →
      s.pieces sp a (sizeBytes sz) needR = (s1, .ok ps) → s1.beforeRead e a (sizeBytes sz) = .go s2 → s2.anyAway ps = true →
      s2.knownBytes e.core (s2.bufferFor e ps) a ps = (s3, .ok known) → known.length < sizeBytes sz → s3.holdsLoad e = true →
      exec ld s = .next ((s3.askHeld e a ps known).stay ld e (e.form ld) .watch)) ∧
    (Passes s e ld [a] → e.ctx.issued = true → e.ctx.phase.answer = .loading known →
      (gathered known (sizeBytes sz) = none → exec ld s = .next (s.stay ld e (e.form ld) .watch)) ∧
      (gathered known (sizeBytes sz) = some bs → s.watchesLate e ld = false →
        exec ld s = .next (s.retired e ld { state := s, vals := [loadValue sz bs], long := true, acquire := acq }))) ∧
    (Issues s e lde [a, n] → (∀ k, e.ctx.phase.answer ≠ .loading k) → a % 65536 = 0 → 1 ≤ fmt → fmt ≤ 3 →
      s.pieces sp a 1 needR = (s1, .ok (p :: ps)) → s1.pieces sp u 1 needR = (s2, .ok (q :: qs)) →
      q.fmt = fmt → pteGeom q.entry = geom → s2.pieces sp at_ 1 needR = (s3, .ok rs) → s3.beforeRead e at_ 1 = .go s4 →
      (s4.anyAway rs = false → s4.readPieces e.core (s4.bufferFor e rs) rs = (s5, .ok bs) →
        exec lde s = .next (s.retired e lde
          { state := s5, vals := [ldeValue fmt i (bs.getD 0 0)], long := true, src := s5.readSpan sp at_ 1 })) ∧
      (s4.anyAway rs = true → bufferByte (s4.bufferFor e rs) at_ = none → s4.holdsLoad e = false →
        exec lde s = .next (s.retired e lde
          { state := s4.tick1.askBytes e s4.fresh at_ rs, long := true, pid := some s4.fresh, late := some (.lde fmt i) }))) ∧
    (Issues s e (.ldt rd ra sz ord sc b) [a] → e.ctx.phase.answer = .got ws → ord ≠ 1 ∨ e.blk.ckptMode = false →
      exec (.ldt rd ra sz ord sc b) s = .next (s.retired e (.ldt rd ra sz ord sc b)
        { state := s, vals := [loadValue sz ((bytesOf ws).take (sizeBytes sz))], long := true,
          acquire := acquireScope true sc.toNat, src := s.readSpan sp a (sizeBytes sz) }))

/-- 07 R156, R157, 17 R352, 18 R390: an LDT that is aligned, permitted and on a page of FMT 4, and whose tag is ready, is a
producer of the bytes it finds as it issues; one that has to wait asks its granule's home and waits. A permitted STT that fits
enters the store buffer and asks its granule's home, at which it is performed last; its issuer waits. A consuming LDT and an
STT stand at a commit point first. That a ready LDT is decided as it issues is the model's choice (log entry 53). -/
def Obligations.TaggedAccessesAskTheirHome : Prop :=
  ∀ (s s1 s2 s3 s4 : State) (ws : List Word) (e : Env) (rd ra : Reg) (sz : BitVec 3) (ord : BitVec 2) (sc : BitVec 4) (b : Bool)
    (a d : Nat) (p : Piece) (ps : List Piece),
    let n := sizeBytes sz
    let data := toBytes n d
    let ldt : Instr := .ldt rd ra sz ord sc b
    let stt : Instr := .stt rd ra sz ord sc b
    let asked := s2.askTag e p false (decide (ord = 1)) data
    a % n = 0 → p.fmt = 4 → e.ctx.phase.answer = .none → e.blk.role ≠ .trailing → e.ctx.halt.stepper = none →
    (Issues s e ldt [a] → s.pieces e.blk.space a n needR = (s1, .ok (p :: ps)) →
      (if ord = 1 ∧ e.blk.ckptMode = true then s1.commitPoint e [] else .go s1) = .go s2 → s2.beforeRead e a n = .go s3 →
      let waits := s3.away p.pa || s3.tagWaits (s3.tagReq e p true (decide (ord = 1)) []) ||
        s3.tagAhead e.stop (s3.homeStop p.pa) none
      (waits = true → exec ldt s = .next ((s3.askTag e p true (decide (ord = 1)) []).stay ldt e (e.form ldt) .tag)) ∧
      (waits = false → s3.ldtNow e p (decide (ord = 1)) = (s4, .ok ws) → ord ≠ 1 ∨ e.blk.ckptMode = false →
        exec ldt s = .next (s.retired e ldt
          { state := s4, vals := [loadValue sz ((bytesOf ws).take n)], long := true,
            acquire := acquireScope true sc.toNat, src := s4.readSpan e.blk.space a n }))) ∧
    (Issues s e stt [a, d] → s.pieces e.blk.space a n needW = (s1, .ok (p :: ps)) → p.mig = false →
      (s1.pairPoint e (storeBytes a (sz.toNat + 0x40) data)).andThen
        (fun t => if sc.toNat ≥ 2 then t.release e sc.toNat else t.commit e) = .go s2 →
      (s2.fits e n = true →
        exec stt s = .next (asked.stay stt e (e.form stt) .answer)) ∧
      (s2.fits e n = false → exec stt s = .next (s2.stay stt e (e.form stt) .condition))) ∧
    (∃ q, asked.treqs.getLast? = some q ∧ q.rid + 1 = asked.fresh ∧ q.bid = e.bid ∧ q.who = e.who ∧ q.pa = p.pa ∧
      q.va = BitVec.ofNat 64 p.va ∧ q.load = false ∧ q.condition = decide (ord = 1) ∧ q.size = p.len ∧ q.data = data ∧
      q.waiting = false ∧ q.busy = false ∧ q.src = e.stop ∧ q.unc = p.unc ∧ q.remote = none)

/-- 06 R122, 18 R375, R376, R386, R390: a store or a RED below .core appends its bytes to the block's store buffer; a
releasing store at .core or wider releases, enters and commits again; a granted STT has been performed at its home. -/
def Obligations.StoresEnterTheStoreBuffer : Prop :=
  ∀ (s s1 s2 s3 : State) (e : Env) (rd ra rb : Reg) (sz : BitVec 3) (ord : BitVec 2) (sc : BitVec 4) (sc3 : BitVec 3) (op : BitVec 4)
    (b : Bool) (a d : Nat) (ps : List Piece) (ws : List Word),
    let n := sizeBytes sz
    let data := toBytes n d
    let ev := storeBytes a sz.toNat data
    let entry (k : SbKind) (code : Nat) (bs : List Byte) : SbEntry :=
      { kind := k, va := BitVec.ofNat 64 a, szcode := code, who := e.who, pc := e.ctx.pc, bytes := placeBytes a bs }
    let enter (t : State) (x : SbEntry) : State :=
      t.modBlock e.bid (fun k => k.modBody (fun y => { y with buffer := y.buffer ++ [x] }))
    let word4 := toBytes 4 (BitVec.ofNat 32 d).toNat
    (Issues s e (.st rd ra sz ord sc b) [a, d] → s.pieces e.blk.space a n needW = (s1, .ok ps) → ord ≠ 1 ∨ sc.toNat ≤ 1 →
      (s1.roomFor e n).andThen (fun t => t.slackGate e ev) = .go s2 →
      exec (.st rd ra sz ord sc b) s =
        .next (s.retired e (.st rd ra sz ord sc b) { state := enter s2 (entry .st sz.toNat data) })) ∧
    (Issues s e (.st rd ra sz ord sc b) [a, d] → s.pieces e.blk.space a n needW = (s1, .ok ps) → ord = 1 → 2 ≤ sc.toNat →
      e.ctx.phase.answer = .none → s1.releasePoint e ev sc.toNat = .go s2 →
      (enter s2 (entry .st sz.toNat data)).secondCommit e = .go s3 →
      exec (.st rd ra sz ord sc b) s =
        .next (s.retired e (.st rd ra sz ord sc b) { state := s3.takeOrdinal e, sealed := e.blk.ckptMode })) ∧
    (Issues s e (.red op ra rb sc3) [a, d] → a % 4 = 0 → s.pieces e.blk.space a 4 needRW = (s1, .ok ps) →
      (s1.roomFor e 4).andThen (fun t => t.slackGate e (atomBytes a (0xB0 + op.toNat) [BitVec.ofNat 32 d])) = .go s2 →
      exec (.red op ra rb sc3) s =
        .next (s.retired e (.red op ra rb sc3) { state := enter s2 (entry (.red (redOpOf op)) 4 word4) })) ∧
    (Issues s e (.stt rd ra sz ord sc b) [a, d] → e.ctx.phase.answer = .got ws →
      exec (.stt rd ra sz ord sc b) s = .next (s.retired e (.stt rd ra sz ord sc b)
        { state := (s.mark e.bid).takeOrdinal e, sealed := e.blk.ckptMode })) ∧
    (∀ (t : State) (p : Piece) (c : Bool) (y : Block), t.block? e.bid = some y →
      ∃ z x, (t.askTag e p false c data).block? e.bid = some z ∧ z.body.buffer = y.body.buffer ++ [x] ∧ x.kind = .stt ∧
        x.va = BitVec.ofNat 64 p.va ∧ x.who = e.who ∧ x.pc = e.ctx.pc ∧ x.bytes = placeBytes p.va data)

/-- 17 R344, R346, R347, 05 R94, R100, 18 R386: a load or store whose translation or permission fails takes that trap and
reads and stores nothing; a load that meets poison takes POISON. -/
def Obligations.FailedAccessesTrap : Prop :=
  ∀ (s s1 s2 s3 : State) (e : Env) (rd ra : Reg) (sz : BitVec 3) (ord : BitVec 2) (sc : BitVec 4) (b : Bool) (a d : Nat) (x : Trap)
    (ps : List Piece),
    let ld : Instr := .ld rd ra sz ord sc b
    let st : Instr := .st rd ra sz ord sc b
    (∀ k, e.ctx.phase.answer ≠ .loading k) →
    (Issues s e ld [a] → s.pieces e.blk.space a (sizeBytes sz) needR = (s1, .error x) →
      exec ld s = .next (s1.issueTrap ld e (e.form ld) x)) ∧
    (Issues s e st [a, d] → s.pieces e.blk.space a (sizeBytes sz) needW = (s1, .error x) →
      exec st s = .next (s1.issueTrap st e (e.form st) x)) ∧
    (Issues s e ld [a] → s.pieces e.blk.space a (sizeBytes sz) needR = (s1, .ok ps) →
      s1.beforeRead e a (sizeBytes sz) = .go s2 → s2.anyAway ps = false →
      s2.readPieces e.core (s2.bufferFor e ps) ps = (s3, .error x) →
      exec ld s = .next (s3.issueTrap ld e (e.form ld) x))

/-- 15 R310, R311, 17 R368, R369, 05 R102: PREF completes whatever its address meets; CFLUSH and CINV complete when no line
faults and the lines of other devices, if any, have been acted on there. Of each line CFLUSH leaves a clean copy, and CINV
none, in the L1s of its scope, and at .peer or wider in the stack cache of its home, whose dirty bytes DRAM then holds; at
.core a CFLUSH of a line with one dirty sector leaves these bytes at their home. A line of a UNC page is passed over; the
first line that faults ends the rest. How a line of another device is acted on is the model's reading (log entry 22). -/
def Obligations.CacheInstructionsComplete : Prop :=
  ∀ (s t w : State) (e : Env) (rd ra : Reg) (sc : BitVec 4) (b : Bool) (a n : Nat) (x : Trap),
    (∀ (r : State) (p : Piece) (ps : List Piece) (va k : Nat) (rest : List Nat) (discard : Bool),
      let tag := p.pa / 128
      let m := if k ≥ 7 then 6 else k
      let near := r.maintainL1 (scopeCores e.core m) tag discard
      let done := if k ≥ 7 then near.maintainHome tag discard else near
      (s.pieces e.blk.space va 128 needR = (r, .error x) → s.maintain e k discard (va :: rest) = (r, some x)) ∧
      (s.pieces e.blk.space va 128 needR = (r, .ok (p :: ps)) →
        (p.unc = true → s.maintain e k discard (va :: rest) = r.maintain e k discard rest) ∧
        (p.unc = false → r.away p.pa = true → s.maintain e k discard (va :: rest) =
          (if k ≥ 7 then r.remoteSend p.pa (.upkeep discard) .ack (some (e.bid, e.who, e.ctx.pc)) (BitVec.ofNat 64 va)
            else r).maintain e k discard rest) ∧
        (p.unc = false → r.away p.pa = false → s.maintain e k discard (va :: rest) = done.maintain e k discard rest)) ∧
      (∀ core ∈ scopeCores e.core m, ∀ l, near.l1Find core tag = some l → discard = false ∧ l.dirty = 0) ∧
      (∀ pa ∈ [tag * 128, tag * 128 + 64], ∀ c, near.paCell pa = some c →
        (∀ l, (near.maintainHome tag discard).scFind (c / 64) = some l → discard = false ∧ l.dirty = 0) ∧
        (∀ l j, near.scFind (c / 64) = some l → j < 64 → bitAt l.dirty j = true →
          (near.maintainHome tag discard).dramByte (c / 64 * 64 + j) = sget 0 l.bytes j)) ∧
      (∀ l j c i, r.l1Find e.core tag = some l → l.red = none → j < 4 → (∀ h, h < 4 → h ≠ j → bits l.dirty (32 * h) 32 = 0) →
        r.paCell (tag * 128 + 32 * j) = some c → i < 32 → bitAt l.dirty (32 * j + i) = true →
        (r.maintainL1 [e.core] tag false).homeByte (c + i) = sget 0 l.bytes (32 * j + i))) ∧
    (Issues s e (.pref ra sc b) [a] → s.pieces e.blk.space a 1 needR = (t, .error x) →
      exec (.pref ra sc b) s = .next (s.retired e (.pref ra sc b) { state := t })) ∧
    (Issues s e (.pref ra sc b) [a] → ∃ u, exec (.pref ra sc b) s = .next (s.retired e (.pref ra sc b) { state := u })) ∧
    ((if e.ctx.phase.release = .none then t.abroadGate e s.fresh else s.release e 10) = .go w →
      (Issues s e (.cflush rd ra sc b) [a, n] →
        (e.ctx.phase.release = .none → s.maintain e sc.toNat false (lineAddrs a (n % 2 ^ 32)) = (t, none)) →
        exec (.cflush rd ra sc b) s = .next (s.retired e (.cflush rd ra sc b) { state := w })) ∧
      (Issues s e (.cinv rd ra sc b) [a, n] →
        (e.ctx.phase.release = .none → s.maintain e sc.toNat true (lineAddrs a (n % 2 ^ 32)) = (t, none)) →
        exec (.cinv rd ra sc b) s = .next (s.retired e (.cinv rd ra sc b) { state := w })))

/-- 07 R160, 15 R298, R299, R302, R303, 11 R229: an atomic at an aligned, permitted, unpoisoned word commits the store buffer
(an ordered one releases at its scope), performs its operation at the word's home as one event, and produces the old word;
ACAS writes only where the old word is the expected one. Of a word of another device it asks that device and is a producer
whose value is still to come (13 R264). -/
def Obligations.AtomicsPerformAtTheHome : Prop :=
  ∀ (s s1 s2 : State) (e : Env) (i : Instr) (op : BitVec 4) (rd ra rb : Reg) (sc3 : BitVec 3) (a v d : Nat) (p : Piece)
    (ps : List Piece) (ordered : Bool) (code : Nat) (args : List Word) (f : Word → Option Word) (raises : Word → FpFlags)
    (kind : RemoteKind) (late : Late),
    let x : Word := BitVec.ofNat 32 v
    let expected : Word := BitVec.ofNat 32 d
    let sc := if ordered then sc3Scope sc3 else 0
    let home := s2.evictFor e.core p.pa
    let q := home.atHome e.core p f
    let u := (q.1.mark e.bid).forward e.blk e.who [q.2, BitVec.ofNat 32 (raises q.2).toNat]
    let swap (old : Word) : Option Word := if old = expected then some x else none
    let write (old : Word) : Option Word := some ((atomOpOf op).apply old x).1
    let flags (old : Word) : FpFlags := ((atomOpOf op).apply old x).2
    ((i = .acasRelaxed rd ra rb sc3 ∧ Issues s e i [a, v, d] ∧ ordered = false ∧ code = 0x8B ∧ args = [expected, x] ∧
        f = swap ∧ raises = (fun _ => 0) ∧ kind = .acas expected x ∧ late = .atom none 0) ∨
      (i = .acasAcqRel rd ra rb sc3 ∧ Issues s e i [a, v, d] ∧ ordered = true ∧ code = 0x8C ∧ args = [expected, x] ∧
        f = swap ∧ raises = (fun _ => 0) ∧ kind = .acas expected x ∧ late = .atom none 0) ∨
      (i = .atomRelaxed op rd ra rb sc3 ∧ Issues s e i [a, v] ∧ ordered = false ∧ code = 0x90 + op.toNat ∧ args = [x] ∧
        f = write ∧ raises = flags ∧ kind = .atom op.toNat x ∧ late = .atom (some (atomOpOf op)) x) ∨
      (i = .atomAcqRel op rd ra rb sc3 ∧ Issues s e i [a, v] ∧ ordered = true ∧ code = 0xA0 + op.toNat ∧ args = [x] ∧
        f = write ∧ raises = flags ∧ kind = .atom op.toNat x ∧ late = .atom (some (atomOpOf op)) x)) →
    a % 4 = 0 → e.blk.role ≠ .trailing → s.pieces e.blk.space a 4 needRW = (s1, .ok (p :: ps)) → p.mig = false →
    (s1.pairPoint e (atomBytes a code args)).andThen
      (fun t => if ordered = true ∧ 2 ≤ sc then t.release e sc else t.commit e) = .go s2 →
    (s2.away p.pa = false → home.piecePoison p = none →
      exec i s = .next (s.retired e i
        { state := u.takeOrdinal e, vals := [q.2.toNat], flags := raises q.2, long := true, src := u.readSpan e.blk.space a 4,
          acquire := acquireScope ordered sc, sealed := e.blk.ckptMode })) ∧
    (s2.away p.pa = true →
      exec i s = .next (s.retired e i
        { state := ((s2.mark e.bid).tick1.remoteSend p.pa kind (.atom s2.fresh) (some (e.bid, e.who, e.ctx.pc))
            (BitVec.ofNat 64 a)).takeOrdinal e,
          long := true, acquire := acquireScope ordered sc, sealed := e.blk.ckptMode, pid := some s2.fresh, late := some late }))

/-- 07 R144, R145, R150, R151, 03 R57, 11 R229, 16 R324, 15 R317: with a legal handle, full payload registers and a permitted
control block ENQ and ENQT commit or release at the queue's scope; an ENQ that need not wait takes its index and completes,
one that must, and every ENQT, asks its home; a failed check traps. DEQ and DEQT of a queue of this package with legal full
destinations complete as producers of an element that is there, past their commit point where the block takes checkpoints;
else a DEQ asks its home with its destinations empty and a DEQT writes 0 and is none. Of a queue on another device they commit
first, DEQT goes on as a producer and DEQ waits. That an element is taken as the instruction issues is DEDUCED (log entry 53),
how a queue on another device is reached the model's choice (log entries 55, 57). -/
def Obligations.QueueInstructionsAskTheHome : Prop :=
  ∀ (s s1 s2 t u : State) (e : Env) (i : Instr) (rd ra rb : Reg) (fe try_ : Bool) (g : Guard) (h code k : Nat) (base : Reg)
    (p : Payload) (cb : Piece) (op : Nat) (more vals : List Nat) (x : Trap),
    let elem := e.element p code
    let sc := (s1.reachQueue cb.pa cb.unc).queueScope cb.pa
    let empty := p.bits ++ more
    code = h % 8 → h / 8 % 8 = 0 → code ≤ 6 → e.ctx.phase.answer = .none → e.ctx.halt.stepper = none → cb.mig = false →
    e.payload base code = some p → (∀ k ∈ p.bits, e.ctx.empties.contains k = false) →
    s.controlBlock e.blk.space h needRW = (s1, .ok cb) → Issues s e i [h] → e.blk.role ≠ .trailing →
    (((i = .enq ra rb fe g ∧ base = rb ∧ try_ = false ∧ op = 0xC0) ∨
        (i = .enqt rd ra rb fe g ∧ base = rb ∧ try_ = true ∧ op = 0xC1)) →
      (s1.pairPoint e (queueBytes h op elem)).andThen (fun t => if sc ≥ 2 then t.release e sc else t.commit e) = .go s2 →
      (try_ = true → exec i s = .next ((s2.ask e true true cb code elem).stay i e (e.form i) .answer)) ∧
      (try_ = false → s2.enqNow e cb code elem = (t, .ok true) →
        exec i s = .next (s.retired e i (({ state := t } : Done).point e))) ∧
      (try_ = false → s2.enqNow e cb code elem = (t, .ok false) →
        exec i s = .next ((t.ask e true false cb code elem).stay i e (e.form i) .roll)) ∧
      (try_ = false → s2.enqNow e cb code elem = (t, .error x) → exec i s = .next (t.issueTrap i e (e.form i) x))) ∧
    (((i = .deq rd ra fe g ∧ base = rd ∧ try_ = false ∧ more = [] ∧ vals = []) ∨
        (i = .deqt rd ra rb fe g ∧ base = rb ∧ try_ = true ∧ more = (Fld.d rd 1).fullBits e.lead e.ctx.wb.toNat ∧ vals = [1] ∧
          (∀ k ∈ more, k ∉ p.bits))) →
      (if e.blk.role = .leading ∧ try_ = false then s1.commitPoint e [] else .go s1) = .go s2 →
      (s2.away cb.pa = false →
        (s2.deqNow e cb code = (t, .error x) → exec i s = .next (t.issueTrap i e (e.form i) x)) ∧
        (s2.deqNow e cb code = (t, .ok (some k)) → e.blk.ckptMode = false →
          exec i s = .next (s.retired e i (dequeuedDone t e h p vals (some k) none))) ∧
        (s2.deqNow e cb code = (t, .ok (some k)) → e.blk.ckptMode = true →
          (let v := ((if try_ then t.forward e.blk e.who [1#32] else t).setPhase e (fun p => { p with answer := .granted k none })).holdBits
            e empty
           v.commitPoint (e.again v) []) = .go u →
          exec i s = .next (s.retired e i (dequeuedDone u e h p vals (some k) none))) ∧
        (s2.deqNow e cb code = (t, .ok none) → try_ = false →
          exec i s = .next (((t.ask e false false cb code []).holdBits e empty).stay i e (e.form i) .roll)) ∧
        (s2.deqNow e cb code = (t, .ok none) → try_ = true →
          exec i s = .next (s.retired e i { state := t.forward e.blk e.who [0#32], vals := [0], long := true }))) ∧
      (s2.away cb.pa = true → (if e.blk.ckptMode then s2.commitPoint e [] else .go s2) = .go t →
        (try_ = false → exec i s = .next (((t.ask e false false cb code []).holdBits e empty).stay i e (e.form i) .roll)) ∧
        (try_ = true → exec i s = .next (s.retired e i (dequeuedDone
          (t.tick1.askFor e (.producer e.bid e.who t.fresh) false true cb code []) e h p vals (some t.fresh) none)))))

/-- 07 R150, R151, 03 R57, 11 R230: an answered ENQ completes, an answered ENQT with 1 or 0, and both are commit points; a
DEQT whose home had nothing writes 0 and is none; a DEQ or DEQT that has been granted an element, past its commit, completes
as a producer of its payload registers, DEQT after 1. 07 R148, R149, 18 R372 to R374: QINIT commits and completes, writing its
status: a nonzero one and nothing else where the area, the capacity or the page is unsuitable; 5 where requests are parked at
the queue; else 0, with the control block initialised at its home. QSTAT completes with the four words of a control block that
is not poisoned: occupied, FREE, the configuration, WAIT; both of them also on the answer of another device. -/
def Obligations.QueueInstructionsComplete : Prop :=
  (∀ (s u : State) (e : Env) (rd ra rb : Reg) (fe : Bool) (g : Guard) (h k : Nat) (p : Payload) (ws : List Word)
     (data : Option (List Word)),
     let code := h % 8
     let bits1 := (Fld.d rd 1).fullBits e.lead e.ctx.wb.toNat
     let passes (empty : List Nat) : Prop :=
       (if e.blk.ckptMode then (s.holdBits e empty).commitPoint e [] else .go (s.holdBits e empty)) = .go u
     h / 8 % 8 = 0 → code ≤ 6 →
     (e.ctx.phase.answer = .got ws →
       (Issues s e (.enq ra rb fe g) [h] → exec (.enq ra rb fe g) s =
         .next (s.retired e (.enq ra rb fe g) { state := s.takeOrdinal e, sealed := e.blk.ckptMode })) ∧
       (Issues s e (.enqt rd ra rb fe g) [h] → exec (.enqt rd ra rb fe g) s = .next (s.retired e (.enqt rd ra rb fe g)
         { state := s.takeOrdinal e, vals := [(ws.getD 0 0).toNat], sealed := e.blk.ckptMode })) ∧
       (Issues s e (.deqt rd ra rb fe g) [h] → e.payload rb code = some p → (∀ k ∈ bits1, k ∉ p.bits) →
         exec (.deqt rd ra rb fe g) s = .next (s.retired e (.deqt rd ra rb fe g) { state := s, vals := [0], long := true }))) ∧
     (e.ctx.phase.answer = .granted k data →
       (Issues s e (.deq rd ra fe g) [h] → e.payload rd code = some p → passes (p.bits ++ []) → exec (.deq rd ra fe g) s =
         .next (s.retired e (.deq rd ra fe g) (dequeuedDone u e h p [] (some k) data))) ∧
       (Issues s e (.deqt rd ra rb fe g) [h] → e.payload rb code = some p → (∀ k ∈ bits1, k ∉ p.bits) →
         passes (p.bits ++ bits1) → exec (.deqt rd ra rb fe g) s =
           .next (s.retired e (.deqt rd ra rb fe g) (dequeuedDone u e h p [1] (some k) data))))) ∧
  (∀ (s s1 s2 s3 s4 : State) (e : Env) (rd ra rb : Reg) (fe : Bool) (g : Guard) (h q : Nat) (cb p : Piece) (ps : List Piece)
     (ws : List Word),
     let area := q % 2 ^ 64
     let lcap := q / 2 ^ 64 % 2 ^ 32
     let scope := q / 2 ^ 96 % 2 ^ 32
     let status := qinitStatus p (s3.pageOf e.blk.space area) area lcap scope (h % 8) (cb.pa / 2 ^ 42)
     let u := s4.reachNow e cb
     let z := (u.initHome cb.pa p.pa lcap (h % 8) scope).1
     let leave (x : State) (st : Nat) : Done :=
       { state := (x.forward e.blk e.who [BitVec.ofNat 32 st]).takeOrdinal e, vals := [st], sealed := e.blk.ckptMode }
     let none5 (x : State) : Prop := x.parkedAt cb.pa true = [] ∧ x.parkedAt cb.pa false = []
     h / 8 % 8 = 0 → h % 8 ≤ 6 → e.blk.role ≠ .trailing →
     (Issues s e (.qinit rd ra rb fe g) [h, q] →
       (e.ctx.phase.answer = .got ws → exec (.qinit rd ra rb fe g) s = .next (s.retired e (.qinit rd ra rb fe g)
         { state := s.takeOrdinal e, vals := [(ws.getD 0 0).toNat], sealed := e.blk.ckptMode })) ∧
       (e.ctx.phase.answer = .none → s.controlBlock e.blk.space h needRW = (s1, .ok cb) →
         s1.commitPoint e (queueBytes h 0xC4 (toBytes 8 area ++ toBytes 8 lcap ++ toBytes 8 scope)) = .go s2 →
         s2.pieces e.blk.space area 1 { r := false, w := false, x := false } = (s3, .ok (p :: ps)) →
         (status ≠ 0 → exec (.qinit rd ra rb fe g) s = .next (s.retired e (.qinit rd ra rb fe g) (leave s3 status))) ∧
         (status = 0 → s3.release e scope = .go s4 → cb.mig = false → s4.away cb.pa = false →
           (¬ none5 u → exec (.qinit rd ra rb fe g) s = .next (s.retired e (.qinit rd ra rb fe g) (leave (u.mark e.bid) 5))) ∧
           (none5 u → (u.paCell cb.pa).isSome → exec (.qinit rd ra rb fe g) s =
             .next (s.retired e (.qinit rd ra rb fe g) (leave (z.mark e.bid) 0)))))) ∧
     (Issues s e (.qstat rd ra fe g) [h] →
       (e.ctx.phase.answer = .got ws → exec (.qstat rd ra fe g) s =
         .next (s.retired e (.qstat rd ra fe g) { state := s, vals := [ofBytes (bytesOf ws)] })) ∧
       (e.ctx.phase.answer = .none → s.controlBlock e.blk.space h needR = (s1, .ok cb) → cb.mig = false → s1.away cb.pa = false →
         (s1.reachNow e cb).ctlBytes cb.pa = (s2, bytesOf ws) → (s2.paCell cb.pa).bind (fun c => s2.poisonIn c 64) = none →
         let t := if queueCheck (bytesOf ws) none = none then s2 else s2.breakQueue cb.pa
         let c := t.ctl cb.pa
         let four := [BitVec.ofNat 32 c.occupied, BitVec.ofNat 32 c.free, BitVec.ofNat 32 c.conf, BitVec.ofNat 32 c.wait]
         exec (.qstat rd ra fe g) s = .next (s.retired e (.qstat rd ra fe g)
           { state := t.forward e.blk e.who four, vals := [ofBytes (bytesOf four)] }))))

/-- 08 R162, R164, R165, 15 R313 to R316, 17 R356, R357, 06 R136: CPY starts one copy between aligned addresses; CPYB, CPYS,
MLDB and MDRST read a 64-byte record, from another device too, and, if it is legal, their class has room and their grains can
be claimed, start the operation it describes; the issuer goes on and its class counter rises. What an MDRST of a pair reads
belongs into the CRC of its issuer (11 R233; log entry 11). -/
def Obligations.EngineInstructionsStartTheirOperation : Prop :=
  ∀ (s s1 s2 s3 s4 t : State) (e : Env) (i : Instr) (rd ra rb : Reg) (sz : BitVec 3) (b fe : Bool) (g : Guard) (a d tq : Nat)
    (k : EngKind) (op : Nat) (ps : List Piece) (bs : List Byte) (known : List (Nat × Byte)),
    let n := sizeBytes sz
    let h := Shape.of bs
    let raise (u : State) (o : EngOp) : State :=
      ({ u with ops := u.ops ++ [o], fresh := u.fresh + 1 } : State).modMe e
        (fun c => c.setCounter o.kind.cls (c.counter o.kind.cls + 1))
    let start (u : State) (o : EngOp) : State :=
      if o.kind = .mdrst ∧ e.blk.role ≠ .single then
        (raise u o).modBlock e.bid (fun b => b.modBody (fun y => { y with drains := y.drains ++ [(some o.oid, [])] }))
      else raise u o
    let leave (u : State) (mem : Bool) : Done :=
      if mem && e.blk.ckptMode then { state := u.takeOrdinal e, sealed := true } else { state := u }
    let t1 := if k = .mldb then t.unlatch e.core h.dindex else t
    (Issues s e (.cpy rd ra sz b) [a, d] → a % n = 0 → d % n = 0 → e.ctx.counter 0 < 255 →
      s.enginePoint e (toBytes 8 d ++ [0xC0, 0xC9]) = .go t →
      ∃ o, o.oid = t.fresh ∧ o.kind = .cpy ∧ o.who = e.who ∧ o.shape.src = BitVec.ofNat 64 a ∧ o.shape.dst = BitVec.ofNat 64 d ∧
        o.size = n ∧ exec (.cpy rd ra sz b) s = .next (s.retired e (.cpy rd ra sz b) (leave (start t o) true))) ∧
    (((i = .cpyb rd ra rb fe g ∧ k = .cpyb ∧ op = 0xCA) ∨ (i = .cpys rd ra rb fe g ∧ k = .cpys ∧ op = 0xCB) ∨
        (i = .mldb rd ra rb fe g ∧ k = .mldb ∧ op = 0xD2) ∨ (i = .mdrst rd ra rb fe g ∧ k = .mdrst ∧ op = 0xD4)) →
      Issues s e i [a, d] → a % 64 = 0 → s.pieces e.blk.space a 64 needR = (s1, .ok ps) → s1.beforeRead e a 64 = .go s2 →
      ((∀ x, e.ctx.phase.answer ≠ .loading x) → s2.anyAway ps = true →
        s2.knownBytes e.core (s2.bufferFor e ps) a ps = (s3, .ok known) → gathered known 64 = none →
        exec i s = .next ((s3.askHeld e a ps known).stay i e (e.form i) .answer)) ∧
      (((e.ctx.phase.answer = .loading known ∧ gathered known 64 = some bs ∧ s3 = s2) ∨
          ((∀ x, e.ctx.phase.answer ≠ .loading x) ∧ s2.anyAway ps = false ∧
            s2.readPieces e.core (s2.bufferFor e ps) ps = (s3, .ok bs))) →
        d = 0 ∨ (d / 8 % 8 = 0 ∧ d % 8 = 3) → (shapeZeros bs && h.codesOk && h.shapeOk && h.kindOk k) = true →
        (if h.trig = 2 then triggerHandle e rb fe else .ok 0) = .ok tq →
        (255 ≤ e.ctx.counter k.cls → exec i s = .next (s3.stay i e (e.form i) .classFull)) ∧
        (e.ctx.counter k.cls < 255 →
          (if h.dkind = 0 ∧ k ≠ .mdrst then .ok s3 else s3.claim e (h.grains k)) = .ok s4 →
          (if h.dkind = 0 then s4.enginePoint e (engineEvent a op) else .go s4) = .go t →
          ∃ o, o.oid = t1.fresh ∧ o.kind = k ∧ o.who = e.who ∧ o.shape = h ∧ o.done = 0 ∧ o.cq = BitVec.ofNat 64 d ∧
            o.tq = BitVec.ofNat 64 tq ∧ o.phase = (if h.trig = 0 then .running else .waitTrigger) ∧
            exec i s = .next (s.retired e i (leave (start t1 o) (decide (h.dkind = 0)))))))

/-- 09 R181 to R183, R187, 15 R300, R301, 17 R355: MMA and MZERO with a legal word enter the lead's command queue; AFEED
writes 16 bytes of an A buffer; ADRN produces four accumulator values, read when it completes; MDRAIN starts its contribution;
each claims its grains first, and a command that its queue or class has no room for waits. -/
def Obligations.MatrixInstructionsComplete : Prop :=
  ∀ (s t u : State) (e : Env) (rd ra rb : Reg) (fe : Bool) (g : Guard) (a b : Nat) (ev : List Byte),
    let loc := a % 2 ^ 32
    let buf := loc / 2 ^ 16 % 8
    let row := loc % 2 ^ 10
    let col := loc / 2 ^ 10 % 2 ^ 9
    let d := SummitDesc.of a
    let room := s.queueFull e = false ∧ e.ctx.counter 2 < 255
    (Issues s e (.mma ra fe g) [a] → cmdOk a = true → s.claim e (cmdGrains a) = .ok t → room →
      exec (.mma ra fe g) s = .next (s.retired e (.mma ra fe g) { state := t.enqueueCmd e false (BitVec.ofNat 64 a) })) ∧
    (Issues s e (.mzero ra fe g) [a] → a < 2 ^ 20 → zeroRow a + zeroCount a ≤ 1024 →
      s.claim e (rowGrains (zeroRow a) (zeroCount a)) = .ok t → room →
      exec (.mzero ra fe g) s = .next (s.retired e (.mzero ra fe g) { state := t.enqueueCmd e true (BitVec.ofNat 64 a) })) ∧
    (∀ i, (i = .mma ra fe g ∧ cmdOk a = true) ∨ (i = .mzero ra fe g ∧ a < 2 ^ 20 ∧ zeroRow a + zeroCount a ≤ 1024) →
      Issues s e i [a] →
      (s.queueFull e = true → exec i s = .next (s.stay i e (e.form i) .commandQueue)) ∧
      (s.queueFull e = false → 255 ≤ e.ctx.counter 2 → exec i s = .next (s.stay i e (e.form i) .classFull))) ∧
    (Issues s e (.afeed ra rb fe g) [a, b] → loc < 2 ^ 19 → loc % 16 = 0 → s.claim e [⟨.abuf, buf, buf⟩] = .ok t →
      exec (.afeed ra rb fe g) s =
        .next (s.retired e (.afeed ra rb fe g) { state := t.coreWrite e.core 1 buf (loc % 2 ^ 16) (toBytes 16 b) })) ∧
    (Issues s e (.adrn rd ra fe g) [a] → loc < 2 ^ 19 → col % 4 = 0 → col ≤ 380 → s.claim e (rowGrains row 1) = .ok t →
      exec (.adrn rd ra fe g) s = .next (s.retired e (.adrn rd ra fe g)
        { state := t, vals := [0], long := true, reads := some (row * 384 + col) })) ∧
    (Issues s e (.mdrain ra fe g) [a] → descOk a = true → s.claim e (rowGrains d.srow (d.nrow + 1)) = .ok t →
      e.ctx.counter 3 < 255 →
      ev = (if e.blk.role = .single then [] else [0xC0#8, 0xD3#8] ++ t.rowValues e.core d.srow (d.nrow + 1)) →
      t.enginePoint e ev = .go u →
      ∃ o v, o.oid = u.fresh ∧ o.kind = .mdrain ∧ o.summit = d ∧
        v = ({ u with ops := u.ops ++ [o], fresh := u.fresh + 1 } : State).modMe e (fun c => c.setCounter 3 (c.counter 3 + 1)) ∧
        exec (.mdrain ra fe g) s = .next (s.retired e (.mdrain ra fe g)
          (if e.blk.ckptMode then { state := v.takeOrdinal e, sealed := true } else { state := v })))

/-- 12 R240, R246 to R251, 16 R336, R337, 18 R400, 11 R232: with no step under way where they act the debug instructions
complete: HREAD and HWRITE with p1 telling whether the item of a halted fibre was reached, an answered HSTEP with its status
and a failing one with 3, HRUN by releasing what its level names, WSET by setting a slot, which replaces what it held and
restarts its counts, and WCLR by clearing one. HSTEP of a running fibre answers 2; of a halted one it lets that fibre take the
next turn and waits. What a trailing copy would write outside its block stays unwritten, and its HSTEP takes the leading
copy's status. -/
def Obligations.DebugInstructionsComplete : Prop :=
  ∀ (s s1 s2 s3 t : State) (e : Env) (rd ra rb : Reg) (fe : Bool) (g : Guard) (a n v : Nat) (blk : Block) (who : Who) (c c1 : Ctx)
    (ws : List Word) (ps : List Piece) (bs : List Byte) (w : Watch) (known : List (Nat × Byte)),
    let k := n % 2 ^ 32
    let slot := a % 2 ^ 32
    let lid := a / 2 ^ 48 % 2 ^ 16
    let p1 (b : Bool) := some (setPred e.ctx.preds 1 b)
    let step (u : State) (st : Nat) := Host.Outcome.next (s.retired e (.hstep rd ra fe g) { state := u, vals := [st] })
    (Issues s e (.hread rd ra rb fe g) [a, n] → s.stepUnderWay a = false →
      (s.target a = .halted blk who c → ∀ x, c.item blk.params.allocation k = some x →
        exec (.hread rd ra rb fe g) s =
          .next (s.retired e (.hread rd ra rb fe g) { state := s, vals := [x], long := true, preds := p1 true })) ∧
      (s.target a = .fails ∨ s.target a = .running ∨
          (s.target a = .halted blk who c ∧ c.item blk.params.allocation k = none) → exec (.hread rd ra rb fe g) s =
        .next (s.retired e (.hread rd ra rb fe g) { state := s, preds := p1 false }))) ∧
    (Issues s e (.hwrite rd ra rb fe g) [a, n, v] → s.stepUnderWay a = false →
      (s.target a = .halted blk who c → blk.role = .single → c.writeItem blk.params.allocation k (v % 2 ^ 32) = some c1 →
        exec (.hwrite rd ra rb fe g) s = .next (s.retired e (.hwrite rd ra rb fe g)
          { state := s.outside e (s.modCtx blk.bid who (fun _ => c1)), preds := p1 true })) ∧
      (s.target a = .fails ∨ s.target a = .running ∨ (s.target a = .halted blk who c ∧
          (blk.role ≠ .single ∨ c.writeItem blk.params.allocation k (v % 2 ^ 32) = none)) → exec (.hwrite rd ra rb fe g) s =
        .next (s.retired e (.hwrite rd ra rb fe g) { state := s, preds := p1 false }))) ∧
    (Issues s e (.hstep rd ra fe g) [a] →
      (e.blk.role ≠ .trailing → e.ctx.phase.answer = .got ws →
        exec (.hstep rd ra fe g) s = step (s.forward e.blk e.who [BitVec.ofNat 32 (ws.getD 0 0).toNat]) (ws.getD 0 0).toNat) ∧
      (e.blk.role ≠ .trailing → e.ctx.phase.answer = .none → s.stepUnderWay a = false → s.target a = .fails →
        exec (.hstep rd ra fe g) s = step (s.forward e.blk e.who [3#32]) 3) ∧
      (e.blk.role ≠ .trailing → e.ctx.phase.answer = .none → s.stepUnderWay a = false → s.target a = .running →
        (∀ b ∈ s.named a, b.role = .single) → exec (.hstep rd ra fe g) s = step (s.forward e.blk e.who [2#32]) 2) ∧
      (e.blk.role ≠ .trailing → e.ctx.phase.answer = .none → s.stepUnderWay a = false → s.target a = .halted blk who c →
        (blk.role ≠ .single → exec (.hstep rd ra fe g) s = step (s.forward e.blk e.who [3#32]) 3) ∧
        (blk.role = .single → exec (.hstep rd ra fe g) s = .next ((({ s.modCtx blk.bid who (fun c =>
            { c with halt := { c.halt with stepper := some (e.bid, e.who), exempt := true } }) with
              agenda := Turn.issue blk.bid who :: s.agenda } : State).setPhase e (fun p => { p with answer := .awaiting })).stay
          (.hstep rd ra fe g) e (e.form (.hstep rd ra fe g)) .answer))) ∧
      (e.blk.role = .trailing → s.takeForwarded e.blk e.who = some (t, ws) →
        exec (.hstep rd ra fe g) s = step t (ws.getD 0 0).toNat)) ∧
    (Issues s e (.hrun ra rb fe g) [a, n] → (∀ b ∈ s.blocks, b.params.lid = lid → b.stepping = false) →
      (k ≤ 1 → exec (.hrun ra rb fe g) s = .next (s.retired e (.hrun ra rb fe g)
        { state := s.outside e { s with blocks := s.blocks.map (fun b =>
            if (((s.named a).filter (fun b => b.core.isSome)).map (·.bid)).contains b.bid
            then b.released (fun w => decide (k = 1) || decide (w = .fibre (a / 2 ^ 14 % 2 ^ 10))) else b) } })) ∧
      (k = 2 → exec (.hrun ra rb fe g) s = .next (s.retired e (.hrun ra rb fe g)
        { state := s.outside e (({ s with blocks := s.blocks.map (fun b =>
            if b.params.lid = lid then b.released (fun _ => true) else b) } : State).modLaunch lid (fun l => { l with held := false })) }))) ∧
    (Issues s e (.wset ra rb fe g) [a, n] → slot ≤ 63 → n % 32 = 0 → s.pieces e.blk.space n 32 needR = (s1, .ok ps) →
      s1.beforeRead e n 32 = .go s2 →
      (e.ctx.phase.answer = .loading known ∧ gathered known 32 = some bs ∧ s3 = s2) ∨ ((∀ x, e.ctx.phase.answer ≠ .loading x) ∧
        s2.anyAway ps = false ∧ s2.readPieces e.core (s2.bufferFor e ps) ps = (s3, .ok bs)) →
      watchOf bs = some w →
      exec (.wset ra rb fe g) s = .next (s.retired e (.wset ra rb fe g)
        { state := s3.outside e { s3 with proctors := { slots := aput s3.proctors.slots slot w,
                                                        hits := s3.proctors.hits.filter (fun h => h.1 % 64 != slot) } } })) ∧
    (Issues s e (.wclr ra fe g) [a] → slot ≤ 63 → exec (.wclr ra fe g) s = .next (s.retired e (.wclr ra fe g)
      { state := s.outside e { s with proctors := { s.proctors with slots := adel s.proctors.slots slot } } }))

/-- 02 R38, 03 R57, R65, R66: a fibre that issues a row collective, its guard true or false, arrives at it, with its source
value and, if it will write, its destinations empty; while some live fibre of its row has not arrived, or is parked, it waits;
if all have arrived, but at two PCs, each of them traps BARERR. 02 R38, 03 R66, 18 R396, R397, R402, R404: when, with the last
fibre to arrive, every live fibre of the row has arrived at one PC, the lane collectives retire them all: an active reader of
XLANE j receives the value of lane j, of XSHF k that of the lane k above it, if a fibre of the row arrived there, with p1
saying whether it did; VOTE gives any, all or the ballot, with p1 set when all 32 fibres voted; a fibre whose guard is false
retires without a result. -/
def Obligations.LaneCollectivesCompleteForTheRow : Prop :=
  (∀ (s u : State) (e : Env) (i : Instr),
     let f := e.again u
     let mates := f.blk.rowMates f.who.fid
     collects i = true → s.Arrives e i u →
       ((∃ m ∈ mates, m.2.arrival = none ∨ m.2.parked.isSome) → exec i s = .next u) ∧
       ((∀ m ∈ mates, m.2.arrival.isSome ∧ m.2.parked = none) → (∃ m ∈ mates, m.2.pc ≠ f.ctx.pc) →
         exec i s = .next (mates.foldl (fun t m => t.takeTrap f.bid (.fibre m.1) m.2.pc (Trap.plain .barerr)) u)) ∧
       (e.ctx.arrival = none → f.ctx.wait = some .collective ∧ (∀ v, v ≠ e.who → f.blk.ctx? v = e.blk.ctx? v) ∧
         ∃ a vals, f.ctx.arrival = some a ∧ a.pc = e.ctx.pc ∧ a.op = (e.brings i vals).op ∧ a.value = (e.brings i vals).value ∧
           a.pred = (e.brings i vals).pred ∧ a.active = guardHolds (e.form i).guard e.ctx ∧ a.cells = e.written i ∧
           (a.active = true → isLong i = true → ∀ k ∈ e.writtenBits i, f.ctx.empties.contains k = true))) ∧
  (∀ (s u : State) (e : Env) (i : Instr) (rd ra rb : Reg) (imm : BitVec 8) (pn : BitVec 4) (fe : Bool) (g : Guard),
     let f := e.again u
     let as := f.arrivals
     let lane (fid : Nat) (k : Int) : Option Word :=
       if 0 ≤ k ∧ k ≤ 31 then (aget as (fid / 32 * 32 + k.toNat)).map (·.value) else none
     let votes : Nat := as.foldl (fun n v => n + (if v.2.pred then 2 ^ (v.1 % 32) else 0)) 0
     ((i = .xlane rd ra rb fe g ∨ i = .xshf rd ra imm g ∨ i = .vote rd pn rb g) → s.Arrives e i u → f.rowComplete →
       exec i s = .next (u.completeLanes f.bid as as)) ∧
     (∀ fid j, j < 32 → laneResult as fid (.xlane j) = (lane fid j, (lane fid j).isSome)) ∧
     (∀ (fid : Nat) (k : Int), laneResult as fid (.xshf k) = (lane fid ((fid % 32 : Nat) + k), (lane fid ((fid % 32 : Nat) + k)).isSome)) ∧
     (∀ fid v, laneResult as fid (.vote v) = (some (if v = 0 then (if votes = 0 then 0 else 1)
       else if v = 1 then (if as.all (fun x => x.2.pred) then 1 else 0) else BitVec.ofNat 32 votes), decide (as.length = 32))) ∧
     (∀ (t : State) (fid : Nat) (a : Arrival) (rest : List (Nat × Arrival)), t.completeLanes f.bid as ((fid, a) :: rest) =
       (t.retireMate f.bid fid [] (fun x => if a.active = false then { state := x } else
         let p := (x.ctx? f.bid (.fibre fid)).map (fun c => setPred c.preds 1 (laneResult as fid a.op).2)
         match (laneResult as fid a.op).1 with
         | none => { state := x, preds := p }
         | some w => { state := x, preds := p, long := true, cells := a.cells, fills := a.bits,
                       words := if a.cells.isEmpty then [] else [w] })).completeLanes f.bid as rest))

/-- 17 R350, 18 R388, 06 R122, R130: with the last fibre to arrive LDL reads its line once and produces each contributing
fibre's value from the store buffer or that line, or asks the device that holds it; an STL enters one entry that holds every
contributing fibre's bytes, and one that releases at .core or wider stands at a commit point, releases, enters and commits
again; all fibres of the row retire. A misaligned or outlying fibre, or a line that cannot be accessed, traps. That a value is
read at the step of completion is the model's reading (log entry 5), the ask toward another device its choice (log entry 55). -/
def Obligations.LineCollectivesCompleteForTheRow : Prop :=
  ∀ (s u s1 s2 : State) (e f0 : Env) (rd ra : Reg) (sz : BitVec 3) (ord : BitVec 2) (sc : BitVec 4) (b : Bool) (i : Instr)
    (t0 k : Nat) (a0 : Arrival) (rest : List (Nat × Arrival)) (ps : List Piece) (x : Trap) (z : BitVec 3) (addr : DWord)
    (data : List Byte) (rel : Nat),
    let f := e.again u
    let as := f.arrivals
    let ts := as.filter (fun a => a.2.active)
    let line := a0.op.addr / 128 * 128
    let n := sizeBytes a0.op.sz
    let buf := s2.bufferFor f0 ps
    let vas (a : Arrival) : List Nat := span a.op.addr (sizeBytes a.op.sz)
    let u1 := ps.foldl (fun x p => x.evictFor f.core p.pa) s2
    let q := u1.readLine f.core ps
    let value (a : Arrival) : Nat := loadValue a.op.sz ((vas a).map (fun va => (bufferByte buf va).getD (q.2.getD (va - line) 0)))
    let bytes := ts.foldl (fun m t => match t.2.op with
      | .stl _ _ addr data => (placeBytes addr.toNat data).foldl (fun m b => aput m b.1 b.2) m
      | _ => m) []
    let e0 : Env := { f0 with ctx := { f0.ctx with halt := { f0.ctx.halt with stepper := none } } }
    let entry : SbEntry :=
      { kind := .stl, va := BitVec.ofNat 64 line, szcode := z.toNat, who := .fibre t0, pc := e0.ctx.pc, bytes := bytes }
    let ldl : Instr := .ldl rd ra sz ord sc b
    let stl : Instr := .stl rd ra sz ord sc b
    (s.Arrives e i u → f.rowComplete → i = ldl ∨ i = stl →
      (ts = [] → exec i s = .next (u.retireRest f.bid as (fun _ t => { state := t }))) ∧
      (badLine ts = some k → exec i s = .next (u.trapMate f k (Trap.plain .illopd))) ∧
      (badLine ts = none → ts = (t0, a0) :: rest → u.envOf f.bid (.fibre t0) = some f0 →
        u.pieces f.blk.space line 128 (if i = ldl then needR else needW) = (s1, .error x) →
        exec i s = .next (s1.lineFault f t0 x))) ∧
    (s.Arrives e i u → f.rowComplete → badLine ts = none → ts = (t0, a0) :: rest → u.envOf f.bid (.fibre t0) = some f0 →
      (i = ldl → u.pieces f.blk.space line 128 needR = (s1, .ok ps) →
        s1.beforeReads f0 (ts.map (fun t => t.2.op.addr)) n = .go s2 →
        (s2.anyAway ps = true → exec i s =
          .next (s2.ldlAway f f0 (ps.headD { va := line, pa := 0, len := 0, entry := 0 }) line as)) ∧
        (s2.anyAway ps = false →
          (∀ t ∈ ts, ∀ x, q.1.envOf f.bid (.fibre t.1) = some x → q.1.holdsLoad x = false) →
          (∀ t ∈ ts, ∀ va ∈ vas t.2, (bufferByte buf va).isSome ∨ (u1.cellAt ps va).bind (fun c => u1.poisonIn c 1) = none) →
          exec i s = .next (as.foldl (fun t m =>
            if m.2.active then t.retireMate f.bid m.1 [] (fun x =>
              { state := x, long := true, cells := m.2.cells, fills := m.2.bits, words := wordsOfNat m.2.cells.length (value m.2),
                acquire := m.2.op.acquire, since := some u.fresh,
                src := q.1.readSpan f.blk.space m.2.op.addr (sizeBytes m.2.op.sz) })
            else t.retireMate f.bid m.1 [] (fun x => { state := x })) q.1))) ∧
      (i = stl → a0.op = .stl z rel addr data → u.pieces f.blk.space line 128 needW = (s1, .ok ps) →
        (rel ≤ 1 → (s1.roomFor e0 bytes.length).andThen (fun t => t.rowEvents e0 ts) = .go s2 →
          exec i s = .next ((s2.enterBuffer e0 entry).retireRest f.bid as (fun _ t => { state := t }))) ∧
        (2 ≤ rel →
          (if e0.ctx.phase.entered then s1.commitAgain e0 else
            ((s1.rowEvents e0 ts).andThen (fun t => t.releasePoint e0 [] rel)).andThen
              (fun t => (t.enterBuffer e0 entry).secondCommit e0)) = .go s2 →
          exec i s = .next (s2.retireRest f.bid as
            (fun k t => if k = t0 then ({ state := t } : Done).point e0 else { state := t }))))) ∧
    (∀ known bs, Passes s e ldl [addr.toNat] → e.ctx.issued = true → e.ctx.phase.answer = .loading known →
      gathered known (sizeBytes sz) = some bs → s.watchesLate e ldl = false →
      exec ldl s = .next (s.retired e ldl
        { state := s, vals := [loadValue sz bs], long := true, acquire := acquireScope (decide (ord = 1)) sc.toNat }))

/-- 03 R57, R58, 05 R112, R117, 15 R300, 06 R127: a producer whose memory requests have been served and whose answer has come
writes its words to its destinations, marks them full and brings its acquire; ADRN's words are the accumulator's at that
moment. An uncorrectable error detected in what it reads poisons its core's copies, and the homes where it was found below the
L1, and faults its reader. 05 R97, R102, 07 R161: a completed page walk leaves what translation leaves; an eviction writes a
line's dirty bytes and contributions back and drops it. -/
def Obligations.ProducersAndWalksComplete : Prop :=
  (∀ (s : State) (bid : Nat) (who : Who) (pid core origin : Nat) (e : Env) (p : Producer),
     let ws := match p.reads with
       | none => p.value
       | some k => if p.cells.isEmpty then [] else (span k 4).map (fun i => sget 0 s.matrix.acc (core * 1024 * 384 + i))
     let t := s.modCtx bid who (fun c =>
       { c.writeReg p.cells p.bits ws with producers := c.producers.filter (fun q => q.pid != pid) })
     let copies := p.src.foldl (fun t x => t.poisonCopy core x.1) s
     let homes := if origin ≤ 3 then p.src.foldl (fun t x => t.addPoison (x.1 * 32) 32 origin) copies else copies
     s.envOf bid who = some e → e.blk.core = some core → e.ctx.producers.find? (fun q => q.pid == pid) = some p →
     s.served p = true → p.late = none →
       exec (.producerComplete bid who { pid := pid, error := none }) s = .next (match p.acquire with
         | some sc => t.acquire core sc
         | none => t) ∧
       (p.src ≠ [] → exec (.producerComplete bid who { pid := pid, error := some origin }) s =
         .next (homes.poisonReaders (fun q => q.pid == p.pid) (fun _ => true) origin))) ∧
  (∀ (s : State) (bid core line : Nat) (va : DWord) (b : Block) (l : Line),
     (s.block? bid = some b → b.core.isSome = true → canonical va = true →
       exec (.pageWalkComplete bid va) s = .next (s.translate b.space va.toNat).1) ∧
     (s.l1Find core line = some l →
       ∃ t, exec (.l1Eviction core line) s = .next t ∧ t = (s.pushLine l).l1Drop core line ∧ t.l1Find core line = none))

/-- 02 R31, R33, 06 R123, 11 R229, R233: an ending issuer with nothing outstanding ends, its identifier free and its CRC kept;
a running block of which every fibre and the lead have ended commits, releases and retires; acknowledged releases let their
issuer go on. A block that a fault has stopped keeps its ending issuers. -/
def Obligations.IssuersEndAndBlocksRetire : Prop :=
  ∀ (s t : State) (bid k : Nat) (who : Who) (e : Env) (c : Ctx),
    (s.envOf bid (.fibre k) = some e → e.blk.core.isSome = true → e.blk.primary = none → e.ctx.life = .ending → e.ctx.producers = [] →
      (∀ j, j < 4 → e.ctx.counter j = 0) →
      exec (.fibreEnded bid (.fibre k)) s = .next (s.modBlock bid (fun b => (match b.ctx? (.fibre k) with
        | some c => b.modBody (fun y => { y with fibres := adel y.fibres k, endedCrc := y.endedCrc ^^^ c.crc })
        | none => b).freeUq))) ∧
    (s.envOf bid .lead = some e → e.blk.core.isSome = true → e.blk.primary = none → e.ctx.life = .ending → e.ctx.producers = [] →
      (∀ j, j < 4 → e.ctx.counter j = 0) →
      exec (.fibreEnded bid .lead) s = .next (s.modBlock bid (fun b => (match b.ctx? .lead with
        | some c => b.setCtx .lead { c with life := .ended, wait := none }
        | none => b).freeUq))) ∧
    (s.envOf bid .lead = some e → e.blk.body.fibres = [] → e.blk.body.lead.life = .ended → e.blk.running = true →
      e.blk.role ≠ .trailing → s.commitPoint e [] = .go t →
      exec (.blockRetire bid) s = .next ((t.pushCore e.core).retireBlock e.blk)) ∧
    (s.envOf bid who = some e → (e.blk.core = none ∨ e.blk.primary ≠ none) → exec (.fibreEnded bid who) s = .next s) ∧
    (s.ctx? bid who = some c →
      (c.phase.release = .awaiting ∨ (∃ n, c.phase.release = .abroad n ∧ s.unacknowledged n = false) ∨
        ∃ n, c.phase.release = .drained n ∧ s.undrained n = false) →
      ∃ u, exec (.releaseAckComplete bid who) s = .next u ∧
        u.ctx? bid who = some { c with wait := none, phase := { c.phase with release := .done } })

/-- 07 R145, R150 to R153, R155, 05 R102, 06 R126: a request at its home whose control block passes the checks, after its
issuer's core has given up the block's line, is allocated when there is room, or an unclaimed element, and nobody waits before
it; else its try form answers 0 and another parks; a failed check fails it; an acknowledged write makes the oldest enqueue
visible, and a performed read frees its slot, but not before the commit that its block owes. A request waits for those of its
pair of stops before it (01 R13), and goes to its link where the queue is on another device; a record's enqueue comes after
the release that it owes. 07 R152, R156, R157: a busy request goes on its way again; a tagged access at its home is performed,
and its granule's waiters after a change of the tag, when its condition holds, else it waits in the granule's list while a
roll entry is free, and is answered busy where none is. One toward another device leaves by its link. -/
def Obligations.HomesPerformTheirRequests : Prop :=
  (∀ (s s1 s2 : State) (req pa : Nat) (enq : Bool) (i : Instr) (q q1 : QReq) (x : Trap) (f : QFrom) (rest : List QFrom) (data : List Byte),
     let here := (s1.evictCtl q1.from_ q1.pa).reachQueue q1.pa q1.unc
     let t := if enq then s2.recordRelease q1.from_ else s2
     let a := s1.recordRelease q1.from_
     (((i = .queueEnqAtHome req ∧ enq = true) ∨ (i = .queueDeqAtHome req ∧ enq = false)) →
       s.qreqs.find? (fun r => r.rid == req) = some q → q.enq = enq → q.parked = false → q.busy = false →
       (s.resolve q = (s1, .error x) → exec i s = .next ((s1.dropReq req).queueFail q x)) ∧
       (s.resolve q = (s1, .ok (some q1)) → s.queueAhead q.src (s.homeStop q1.pa) (some req) = true → exec i s = .next s) ∧
       (s.resolve q = (s1, .ok (some q1)) → s.queueAhead q.src (s.homeStop q1.pa) (some req) = false → s.away q1.pa = true →
         exec i s = .next (if a.owesRelease q1 then a else a.queueAway q1)) ∧
       (s.resolve q = (s1, .ok (some q1)) → s.queueAhead q.src (s.homeStop q1.pa) (some req) = false → s.away q1.pa = false →
         (here.checkHome q1.pa (some q1.code) = (s2, some x) → exec i s = .next ((s2.dropReq req).queueFail q1 x)) ∧
         (here.checkHome q1.pa (some q1.code) = (s2, none) →
           (enq = true → t.owesRelease q1 = true → exec i s = .next t) ∧
           (enq = true → t.owesRelease q1 = false → 0 < t.room q1.pa → t.parkedAt q1.pa true = [] → exec i s = .next (t.allocEnq q1)) ∧
           (enq = false → 0 < t.unclaimed q1.pa → t.parkedAt q1.pa false = [] → exec i s = .next (t.allocDeq q1)) ∧
           ((enq = true ∧ t.owesRelease q1 = false ∧ (t.room q1.pa = 0 ∨ t.parkedAt q1.pa true ≠ [])) ∨
               (enq = false ∧ (t.unclaimed q1.pa = 0 ∨ t.parkedAt q1.pa false ≠ [])) →
             exec i s = .next (if q1.try_ then t.tryFails q1 else t.parkReq q1))))) ∧
     ((s.qhome pa).enqs = f :: rest →
       let s0 := ((s.evictCtl f pa).ctlBytes pa).1
       let c := s0.ctl pa
       exec (.queueEnqWriteAck pa) s = .next ((((s0.ctlUpdate pa
         { c with tail := (c.tail + 1) % 2 ^ 32, free := (c.free + 2 ^ 32 - 1) % 2 ^ 32,
                  enqcnt := (c.enqcnt + 1) % 2 ^ 64 }).setQhome { s.qhome pa with enqs := rest }).enqDone f).serve pa)) ∧
     ((s.qhome pa).deqs = f :: rest → s.beforeCommit f = false →
       let s0 := ((s.evictCtl f pa).ctlBytes pa).1
       let c := s0.ctl pa
       s0.readSlot (some f) c (4 * stackOfCell ((s0.paCell pa).getD 0)) c.head = (s1, .ok data) →
       let s2 := (s1.setQhome { s.qhome pa with deqs := rest }).ctlUpdate pa
         { c with head := (c.head + 1) % 2 ^ 32, free := (c.free + 1) % 2 ^ 32, deqcnt := (c.deqcnt + 1) % 2 ^ 64 }
       exec (.queueDeqReadDone pa) s = .next (((s2.deqDone f data).readFor f s.fresh (c.slot c.head)
         ((s2.cellsOf (c.slot c.head) (2 ^ c.lsize)).getD [])).serve pa)) ∧
     ((s.qhome pa).deqs = f :: rest → s.beforeCommit f = true → exec (.queueDeqReadDone pa) s = .next s)) ∧
  (∀ (s : State) (req c : Nat) (q : TagReq),
     let first := s.tagAhead q.src (s.homeStop q.pa) (some req) = false
     let holds := if q.load then s.tags.contains (c / 16) else !q.condition || !s.tags.contains (c / 16)
     let r := (s.recall (c / 64)).tagPerform q c
     exec (.rollBusyResend req) s =
       .next { s with qreqs := s.qreqs.map (fun q => if q.rid = req then { q with busy := false } else q),
                      treqs := s.treqs.map (fun q => if q.rid = req then { q with busy := false } else q) } ∧
     (s.treqs.find? (fun x => x.rid == req) = some q → s.paCell q.pa = some c → q.waiting = false → q.busy = false → first →
       (holds = true → exec (.taggedAccessAtHome req) s = .next (if r.2 then r.1.tagChanged (c / 16) else r.1)) ∧
       (holds = false → (q.load = true → s.poisonIn c q.size = none) → (q.remote = none → s.stepped q.bid q.who = false) →
         let t : State := { s with treqs := s.treqs.filter (fun x => x.rid != req) ++ [{ q with waiting := true }] }
         (s.rollFree q.pa = true → exec (.taggedAccessAtHome req) s =
           .next (if q.remote.isSome then t else t.modCtx q.bid q.who (fun c => { c with wait := some .tag }))) ∧
         (s.rollFree q.pa = false → exec (.taggedAccessAtHome req) s =
           .next { s with treqs := s.treqs.map (fun x => if x.rid = req then { x with busy := true } else x) }))) ∧
     (s.treqs.find? (fun x => x.rid == req) = some q → s.paCell q.pa = none → q.waiting = false → q.busy = false →
       s.away q.pa = true → first → exec (.taggedAccessAtHome req) s = .next (s.tagAway q)))

/-- 08 R162, R163, R166 to R168, R170 to R172: a running copy that is the oldest of its class reads its bytes and writes them,
and its counter falls, once another device has acknowledged what left for it; a triggered operation asks its trigger queue, or
goes on once no older MMA reads its buffer; a bulk operation writes its next unit, from memory or accumulator rows, to an
on-core unit or to memory, storing or adding, and passes it once what left for another device is acknowledged; poison ends an
on-core one; a broken block ends the operation with STATUS 2. Where an error still found in what was read lands is the model's
choice (log entry 58). -/
def Obligations.EngineOperationsAdvance : Prop :=
  ∀ (s s1 s2 : State) (op n off k at_ m : Nat) (o : EngOp) (b : Block) (bs bs2 : List Byte) (p p2 : Option (Nat × Nat)),
    let h := o.shape
    let va := h.dstAt o.done
    let copied (t : State) := t.landed b s.fresh h.dst.toNat o.size
    let fin (t : State) := if h.dkind = 0 then t.landed b s.fresh va (h.unitLen o.done * h.size) else t
    let pass (t : State) (written : Nat) : State := t.modOp o.oid (fun x =>
      { x with done := o.done + n, bytes := x.bytes + written, fetched := [], sending := false,
               phase := if o.done + n ≥ h.total then .ended else x.phase })
    let written (t : State) (k : Nat) : State :=
      if t.writesAbroad o.oid then t.modOp o.oid (fun x => { x with bytes := x.bytes + k, sending := true }) else pass t k
    let source : Prop := (h.skind = 0 ∧ s.gather b.space o o.done n = (s1, .ok bs p)) ∨
      (h.skind = 1 ∧ s1 = s ∧ bs = s.gatherRows (b.core.getD 0) h o.done n ∧ p = none)
    s.op? op = some o → s.block? o.bid = some b → b.core.isSome = true → b.role ≠ .trailing →
    (o.kind = .cpy → o.phase = .running → s.opFirst o = true →
      (o.done = 0 → s.engRead b.space o h.src.toNat o.size none = (s1, .ok bs p) →
        s1.engWrite b.space o h.dst.toNat bs none (p.map (·.1)) = (s2, .ok bs2 p2) →
        exec (.cpyComplete op) s = .next (copied (if s2.writesAbroad o.oid
          then (s2.mark b.bid).modOp o.oid (fun x => { x with done := 1 })
          else ((s2.mark b.bid).tellPartner b o.who 0).endOp o))) ∧
      (o.done ≠ 0 → exec (.cpyComplete op) s =
        .next (copied (if s.writesAbroad o.oid then s else (s.tellPartner b o.who 0).endOp o)))) ∧
    (o.phase = .waitTrigger → h.trig = 2 → s.inFlight (.trigger op) = false →
      ∃ q, q.from_ = .trigger op ∧ q.enq = false ∧ q.handle = some (o.tq, b.params.queue) ∧ q.rid = s.fresh ∧
        exec (.engineTriggerDeq op) s = .next { s with qreqs := s.qreqs ++ [q], fresh := s.fresh + 1 }) ∧
    (o.phase = .waitTrigger → h.trig = 1 →
      (∀ m ∈ s.pendingReaders (b.core.getD 0) o.bid h.tbuf, m ∉ o.readers) →
      exec (.operandsConsumedEvent op) s = .next (s.modOp op (fun x => { x with phase := .running }))) ∧
    (o.kind ≠ .cpy → o.kind ≠ .mdrain → o.phase = .running → s.opFirst o = true → n = h.unitLen o.done →
      (o.sending = true → exec (.engineUnitWrite op) s = .next (fin (if s.writesAbroad o.oid then s else pass s 0))) ∧
      (o.sending = false → o.done < h.total → h.dec = false → h.writes o.done = false →
        exec (.engineUnitWrite op) s = .next (fin (pass s 0))) ∧
      (o.sending = false → o.done < h.total → h.dec = false → h.writes o.done = true → source →
        (h.dkind ≠ 0 → p = none → exec (.engineUnitWrite op) s =
          .next (fin (pass (s1.coreWrite (b.core.getD 0) h.dkind h.dindex va bs) bs.length))) ∧
        (h.dkind ≠ 0 → p = some (k, at_) → exec (.engineUnitWrite op) s =
          .next (fin (s1.modOp o.oid (fun x => { x with phase := .ended, sending := false, status := 1, code := some .poison,
                                                        detail := k, faddr := BitVec.ofNat 64 at_ })))) ∧
        (h.dkind = 0 → h.addm = false →
          s1.tick1.engWrite b.space o va (o.blurred s1.fresh 0 va bs) (some h.dfmt) (p.map (·.1)) = (s2, .ok bs2 p2) →
          exec (.engineUnitWrite op) s = .next (fin (written ((s2.mark b.bid).drainEvent b o bs)
            (if s2.writesAbroad o.oid then 0 else bs.length)))) ∧
        (h.dkind = 0 → h.addm = true →
          s1.tick1.engAdd b.space o va (wordsOf n bs) h.dfmt (p.map (·.1)) (o.freeAt s1.fresh 0) = (s2, .ok m) →
          exec (.engineUnitWrite op) s = .next (fin (written ((s2.mark b.bid).drainEvent b o bs) m)))) ∧
      (o.sending = false → o.done < h.total → h.dec = true →
        (s.stream b.space o o.done n = (s1, .bad k) → exec (.engineUnitWrite op) s = .next (fin (s1.modOp o.oid (fun x =>
          { x with phase := .ended, status := 2, code := some .decomp, detail := k, faddr := 0 })))) ∧
        (s.stream b.space o o.done n = (s1, .next off k) → exec (.engineUnitWrite op) s =
          .next (fin (s1.modOp o.oid (fun x => { x with srcOff := off, size := k, fetched := [] })))) ∧
        (s.stream b.space o o.done n = (s1, .ok bs p) → exec (.engineUnitWrite op) s =
          .next (fin (if h.writes o.done then s1.deliver b o n (s1.streamBytes b.space o) (h.zeroed o.done n bs) p
            else pass s1 0)))))

/-- 08 R169, R170, 06 R137: an ended operation that is the oldest of its class, its writes acknowledged, without a completion
queue leaves its counter one lower, and a fault of its stops its issuer; with one its 32-byte record, with ticket, status,
bytes and fault address, is enqueued. That an operation of a pair stays, faulted, until the copies have been compared is the
model's reading (log entry 12). -/
def Obligations.EngineOperationsEndWithTheirRecord : Prop :=
  ∀ (s : State) (op : Nat) (o y : EngOp) (b : Block) (x : Trap),
    let s1 := if o.shape.dkind = 0 then s.tellPartner b o.who o.kind.cls else s
    let u := s1.engineTrap b o.who o.pc x
    let fcode := (o.code.map TrapCode.num).getD 0
    let detail := if o.status = 0 then 0 else o.detail % 2 ^ 24
    s.op? op = some o → s.block? o.bid = some b → b.core.isSome = true → s.opOldest o = true → s.writesAbroad op = false →
    o.phase = .ended →
    (o.cq = 0 → o.code = none → exec (.engineOperationEnd op) s = .next (s1.endOp o)) ∧
    (o.cq = 0 → o.trap? = some x → u.op? o.oid = none → exec (.engineOperationEnd op) s = .next u) ∧
    (o.cq = 0 → o.trap? = some x → u.op? o.oid = some y →
      (b.role = .single → exec (.engineOperationEnd op) s = .next (u.endOp y)) ∧
      (b.role ≠ .single → exec (.engineOperationEnd op) s = .next (u.modOp o.oid (fun z =>
        { z with phase := .faulted, sending := false, code := some x.code, detail := x.detail, faddr := x.addr })))) ∧
    (o.cq ≠ 0 → b.role = .trailing → exec (.engineOperationEnd op) s = .next (s1.endOp o)) ∧
    (o.cq ≠ 0 → b.role ≠ .trailing → ∃ q, q.from_ = .engine op ∧ q.enq = true ∧ q.handle = some (o.cq, b.params.queue) ∧
      q.payload = toBytes 4 o.shape.ticket ++ toBytes 4 (o.status + fcode * 2 ^ 16 + detail % 256 * 2 ^ 24) ++ toBytes 8 o.bytes ++
        toBytes 8 (if o.status = 0 then 0 else o.faddr.toNat) ++ toBytes 8 detail ∧
      exec (.engineOperationEnd op) s = .next { s1.modOp op (fun x => { x with phase := .reporting }) with
        qreqs := s1.qreqs ++ [q], fresh := s1.fresh + 1 })

/-- 09 R181 to R183, 04 R85, 01 R18: a finished slice load latches the slice in the idle set; the next command starts when its
slice is latched and the array is free; once the cycles that its throttle allows have passed a finished MZERO clears its rows,
a finished MMA writes its results and raises its exceptions at the lead; the matrix counter falls. When a slice load starts,
that a slice is latched as it stands when its load ends, and that an MMA takes its operands as it completes, is the model's
reading (log entry 23). 04 R82 to R86, 09 R177, R178, R181: an MMA writes element n of row m of its rows from row m of its A
buffer, column n of its slice and its scale extent, leaves every other accumulator element, and raises the exceptions of its
elements. An element takes its products in groups of G along K: exact products, their exact sum, the scales met exactly, one
rounding to FP32 and one addition, from the old value or from −0; INT8 without scales adds modulo 2^32. The three cases that
the manual works out come out as it gives them. -/
def Obligations.MatrixCommandsStartAndComplete : Prop :=
  (∀ (s : State) (core slice fmt done start k : Nat) (c : MatrixCmd),
     let a := s.array core
     let w := c.word.toNat
     let run (b : MArray) : MArray :=
       { b with queue := b.queue.filter (fun x => x.mid != c.mid), running := some (c, s.time), lastLead := c.lead }
     let freed := ({ a with running := none } : MArray).schedule s.time
     let lo := grainBase core .bslice slice
     let count (t : State) (fl : FpFlags) : State :=
       t.modCtx c.bid .lead (fun x => { x.setCounter 2 (x.counter 2 - 1) with fps := x.fps ||| fl })
     (a.loading = some (slice, fmt, done) → done ≤ s.time → exec (.bSliceLoadComplete core) s =
       .next (s.setArray ((({ a with loading := none } : MArray).setSet (1 - a.lastUsed)
         { slice := slice, fmt := fmt, valid := true,
           bytes := (within s.matrix.bslice lo 98304).map (fun e => (e.1 - lo, e.2)) }).schedule s.time))) ∧
     (a.running = none → a.next = some c → c.zero = true →
       exec (.matrixCommandStart core) s = .next (s.setArray ((run a).schedule s.time))) ∧
     (a.running = none → a.next = some c → c.zero = false → a.ready c = some k →
       exec (.matrixCommandStart core) s = .next (s.setArray ((run { a.setSet (1 - k) { a.set (1 - k) with valid := false } with
         lastUsed := k }).schedule s.time))) ∧
     (a.running = some (c, start) → cmdCycles c ≤ s.allowedSince core start →
       (c.zero = true → exec (.matrixCommandComplete core) s = .next (count (({ s with matrix := { s.matrix with
         acc := outside ((core * 1024 + zeroRow w) * 384) (zeroCount w * 384) s.matrix.acc } } : State).setArray freed) 0)) ∧
       (c.zero = false → exec (.matrixCommandComplete core) s = .next (count (({ s with matrix := { s.matrix with
         acc := (s.runMma core w (a.set a.lastUsed).bytes).1 } } : State).setArray freed)
           (s.runMma core w (a.set a.lastUsed).bytes).2)))) ∧
  ((∀ (s : State) (core w m n j : Nat) (slice : Memory) (arow bcol scale : List Byte) (old : Nat),
     let len := if cmdBfmt w = 4 then 128 else 256
     let out (m n : Nat) := mmaElement w (readSparse s.matrix.abuf ((core * 8 + cmdBuf w) * 65536 + 256 * m) 256)
       (readSparse slice (len * n) len)
       (if cmdScl w then readSparse s.matrix.scale (core * 262144 + cmdScale w) (cmdExtent w) else []) m n
       (sget 0 s.matrix.acc ((core * 1024 + cmdRow w + m) * 384 + n)).toNat
     let r := s.runMma core w slice
     let g := if cmdAfmt w = 2 ∨ cmdBfmt w = 2 then 16 else 32
     let k := if cmdAfmt w = 2 ∨ cmdBfmt w = 2 then 128 else 256
     let int := decide (cmdAfmt w = 3)
     let at_ (i : Nat) : Fp × Fp := (operandAt (cmdAfmt w) arow i, operandAt (cmdBfmt w) bcol i)
     let group (i : Nat) : Fp × Bool :=
       let ps := (List.range g).map (fun j => fpMul (at_ (i * g + j)).1 (at_ (i * g + j)).2)
       if ps.any (·.2) then (.nan, true)
       else if int && (fpSum (ps.map (·.1))).1.isZero then (.fin false 0 0, false) else fpSum (ps.map (·.1))
     let met (i : Nat) : Fp × Bool := if cmdScl w = false then group i else
       (groupScales w scale m n (i * g)).foldl (fun x c => ((scaleMeet c x.1).1, x.2 || (scaleMeet c x.1).2)) (group i)
     (m < cmdM w → n < 384 → sget 0 r.1 ((core * 1024 + cmdRow w + m) * 384 + n) = BitVec.ofNat 32 (out m n).1) ∧
     ((∀ m n, m < cmdM w → n < 384 → j ≠ (core * 1024 + cmdRow w + m) * 384 + n) → sget 0 r.1 j = sget 0 s.matrix.acc j) ∧
     (∀ b, b < 5 → (r.2.getLsbD b = true ↔ ∃ m n, m < cmdM w ∧ n < 384 ∧ (out m n).2.getLsbD b = true)) ∧
     (cmdAfmt w = 3 → cmdScl w = false → mmaElement w arow bcol scale m n old =
       (Int.toNat ((((List.range k).map (fun i => (at_ i).1.toInt * (at_ i).2.toInt)).sum +
         (if cmdAcc w then (old : Int) else 0)) % 2 ^ 32), 0)) ∧
     ((cmdAfmt w ≠ 3 ∨ cmdScl w = true) → mmaElement w arow bcol scale m n old =
       (List.range (k / g)).foldl (fun acc i =>
         let r := fpEncode f32 (met i).1
         let t := fpAdd f32 acc.1 r.1
         (t.1, acc.2 ||| (if (met i).2 then fInvalid else 0) ||| r.2 ||| t.2)) (if cmdAcc w then old else 0x80000000, 0))) ∧
   (∀ (c x : Fp),
     (c = .nan ∨ x = .nan → scaleMeet c x = (.nan, false)) ∧
     (∀ k e neg, c = .fin k 0 e → x = .inf neg → scaleMeet c x = (.nan, true)) ∧
     (∀ k neg m e f, c = .fin k 0 e → x = .fin neg m f → scaleMeet c x = (.fin (k != neg) 0 (e + f), false)) ∧
     (∀ k neg e, c = .inf k → x = .fin neg 0 e → scaleMeet c x = (.nan, true)) ∧
     (∀ k neg a m e f, c = .fin k a e → x = .fin neg m f → scaleMeet c x = (.fin (k != neg) (a * m) (e + f), false))) ∧
   (∀ bytes : List (Nat × Nat) → Nat → List Byte,
     bytes = (fun l n => (List.range n).map (fun i => BitVec.ofNat 8 ((aget l i).getD 0))) →
     mmaElement (2 * 2 ^ 29 + 2 * 2 ^ 32 + 2 ^ 35) (bytes [(0, 0x80), (1, 0x39), (3, 0x39)] 256)
       (bytes [(0, 0x80), (1, 0x39), (3, 0x39)] 256) [] 0 0 0x3F800000 = (0x3F800001, fInexact) ∧
     mmaElement (2 * 2 ^ 29 + 4 * 2 ^ 32 + 2 ^ 36) (bytes [(0, 0x80), (1, 0x3F)] 256) (bytes [(0, 11)] 128)
       (bytes [(0, 0x70), (2048, 0x70), (5123, 0x3F)] 11264) 0 0 0 = (0x3E2E0000, 0) ∧
     mmaElement (1 * 2 ^ 29 + 4 * 2 ^ 32 + 2 ^ 36) (bytes [(0, 0x7C)] 256) (bytes [(0, 11)] 128)
       (bytes [(0, 0x70), (5123, 0x3F)] 11264) 0 0 0 = (0x7FC00000, fInvalid)))

/-- 09 R186 to R190, 17 R355: the rows of an MDRAIN leave as one contribution and its counter falls; a contribution joins the
open instance of its launch and group, or opens one; a closed instance delivers its next row into the root core's
accumulators, or enqueues its next element of 64 columns or its notification, and ends. 09 R187 to R189: a contribution that
agrees with the first of its instance counts as one member, and the instance closes with the last; one that differs fails it,
with a record for each member so far, and each later one gets its own record. A row is delivered as one write of its 384
elements and changes no other; an integer element is the wrapping sum of the members' values, a single member's is unchanged,
and of two members an FP32 element is one rounded addition. -/
def Obligations.SummitJoinsAndDelivers : Prop :=
  (∀ (s : State) (op contrib inst core : Nat) (o : EngOp) (b : Block) (c : Contribution) (i : Instance),
     let sends (payload : List Byte) : Prop := ∃ q, q.from_ = .summit inst ∧ q.enq = true ∧ q.try_ = false ∧
       q.handle = some (i.desc.qh, i.params.queue) ∧ q.payload = payload ∧
       exec (.summitDelivery inst) s = .next { s with qreqs := s.qreqs ++ [q], fresh := s.fresh + 1 }
     (s.op? op = some o → s.block? o.bid = some b → b.core = some core → o.kind = .mdrain → o.phase = .running →
       s.opFirst o = true → b.role ≠ .trailing →
       let t := s.ridgeSend .summit (stopOf (stackOf core)) (stopOf (stackOf o.summit.root)) []
       ∃ c, c.cid = s.fresh ∧ c.src = stopOf (stackOf core) ∧ c.desc = o.summit ∧ c.bid = b.bid ∧ c.cells = s.readRows core o.summit ∧
         exec (.mdrainReadoutDone op) s =
           .next ((({ t with contribs := t.contribs ++ [c], fresh := t.fresh + 1 } : State).mark b.bid).endOp o)) ∧
     (s.contribs.find? (fun c => c.cid == contrib) = some c → s.summitAhead c = false →
       let s1 : State := { s with contribs := s.contribs.filter (fun x => x.cid != contrib) }
       let first : Instance := { iid := s.fresh, params := c.params, desc := c.desc, count := 0, parts := [], members := [],
                                 failed := none, closed := false, sent := 0 }
       (s.instances.find? (fun i => i.params.lid == c.params.lid && i.desc.group == c.desc.group && i.isOpen) = some i →
         exec (.summitContributionArrive contrib) s = .next (s1.joinInstance i c)) ∧
       (s.instances.find? (fun i => i.params.lid == c.params.lid && i.desc.group == c.desc.group && i.isOpen) = none →
         (s.instances.filter Instance.isOpen).length < 1024 → exec (.summitContributionArrive contrib) s =
           .next (({ s1 with instances := s1.instances ++ [first], fresh := s1.fresh + 1 } : State).joinInstance first c))) ∧
     (s.instances.find? (fun i => i.iid == inst) = some i → i.closed = true → s.inFlight (.summit inst) = false →
       (i.desc.dest = false → i.sent ≤ i.desc.nrow → s.refusedRow i = none →
         exec (.summitDelivery inst) s = .next (s.deliverRow i)) ∧
       (i.desc.dest = false → i.sent = i.desc.nrow + 1 → i.desc.qh ≠ 0 →
         sends (toBytes 4 i.desc.group ++ toBytes 4 0 ++ toBytes 8 (1536 * (i.desc.nrow + 1)) ++ toBytes 16 0)) ∧
       (i.desc.dest = true → i.sent < 6 * (i.desc.nrow + 1) →
         sends ((List.range 64).flatMap (fun c => toBytes 4 (i.element (i.sent / 6 * 384 + i.sent % 6 * 64 + c)).toNat))) ∧
       ((if i.desc.dest then 6 * (i.desc.nrow + 1) ≤ i.sent
         else i.desc.nrow + 1 < i.sent ∨ (i.sent = i.desc.nrow + 1 ∧ i.desc.qh = 0)) →
         exec (.summitDelivery inst) s = .next { s with instances := s.instances.filter (fun x => x.iid != inst) }))) ∧
  (∀ (s : State) (i : Instance) (c : Contribution) (f : TrapCode × Nat) (p q : WordMap) (k : Nat),
     let m := (c.block, c.bid, c.pc)
     let i1 := { i with count := i.count + 1, members := i.members ++ [m], parts := i.parts ++ [c.cells] }
     let putAs (x : Instance) : State := { s with instances := s.instances.map (fun y => if y.iid = i.iid then x else y) }
     let agrees : Prop := { i.desc with srow := 0 } = { c.desc with srow := 0 }
     let t := s.deliverRow i
     let lo := (i.desc.root * 1024 + i.desc.drow + i.sent) * 384
     (s.instances.find? (fun x => x.iid == i.iid) = some i →
       (i.failed = none → agrees → i.count < i.desc.memb → s.joinInstance i c = putAs i1) ∧
       (i.failed = none → agrees → i.count = i.desc.memb → s.refusedRow i1 = none →
         s.joinInstance i c = putAs { i1 with closed := true }) ∧
       (i.failed = none → ¬ agrees → i.count < i.desc.memb → s.joinInstance i c =
         i1.members.foldl (fun t x => t.memberRecord i.params x (.barerr, 1) 0) (putAs { i1 with failed := some (.barerr, 1) })) ∧
       (i.failed = some f → i.count < i.desc.memb → agrees → s.joinInstance i c = (putAs i1).memberRecord i.params m f 0) ∧
       (i.failed = some f → i.count < i.desc.memb → ¬ agrees → s.joinInstance i c = (putAs i1).memberRecord i.params m (.barerr, 1) 0)) ∧
     (k < 384 → sget 0 t.matrix.acc (lo + k) = i.element (i.sent * 384 + k)) ∧
     (k < lo ∨ lo + 384 ≤ k → sget 0 t.matrix.acc k = sget 0 s.matrix.acc k) ∧
     t.instances = s.instances.map (fun x => if x.iid = i.iid then { x with sent := x.sent + 1 } else x) ∧
     ({ t with matrix := { t.matrix with acc := s.matrix.acc }, instances := s.instances } : State) = s ∧
     (i.desc.iadd = true → i.element k = (i.parts.map (fun p => sget 0 p k)).foldl (· + ·) 0) ∧
     (i.parts = [p] → i.element k = sget 0 p k) ∧
     (i.parts = [p, q] → i.desc.iadd = false →
       i.element k = BitVec.ofNat 32 (fpAdd f32 (sget 0 p k).toNat (sget 0 q k).toNat).1 ∨
       i.element k = BitVec.ofNat 32 (fpAdd f32 (sget 0 q k).toNat (sget 0 p k).toNat).1))

/-- 10 R193, R198, R199: the top unit takes the record at the head of an enabled queue while it has a free place, or the one
that another device has sent, and reads its TCB. A record whose checks pass is accepted under the lowest free launch id: it is
copied to LREC, the TCB gets LID, zero counts and STATUS 2, or 1 with predecessors, and the launch is pending. One that a
check refuses gets STATUS 5 and the reason in its TCB but for reason 3 (or where the TCB cannot be written, log entry 28), a
completion record where CQ is good, and a fault record for reasons 3 and 7 or a bad CQ. 10 R198: the first check that fails
refuses a launch, in the order of the table. The TCB of reason 3 may lie on another device (log entry 28). 10 R202, R203:
after the last block of a launch its TCB gets STATUS 4, or 6 if a block was aborted, and with a CQ its completion record, read
from the TCB, is sent; until the CQ has taken it the launch waits. 10 R201, R202: a launch that is done reads NSUCC and SUCCL
afresh and decrements its successors in list order; a list that is not aligned or cannot be read brings a record and
decrements none; an aborted launch decrements none. Then its id is free. A decrement that finds PRED = 0 sets UNDER, one that
brings PRED to 0 makes a waiting launch ready, and a TCB that does not translate or lies on another device brings a record. -/
def Obligations.LaunchesAreAcceptedAndCompleted : Prop :=
  (∀ (s s1 s2 s3 : State) (queue lid : Nat) (p : Piece) (bs : List Byte) (tcb : Option (List Byte)),
     let q := s.lq queue
     let x := LaunchRecord.of bs queue (s2.lq queue)
     let w := tcb.map tcbWords
     let ws := w.getD []
     let named := { x.params with lid := lid }
     let copied := s3.agentWrite named.space (ws.getD 3 0) bs
     let pred := copied.tcbGet named 0
     let ready := decide (bits (pred.2.getD (ws.getD 0 0)) 32 16 = 0)
     let noted := (((pred.1.tcbPut named 2 (toBytes 2 lid)).tcbStatus named (if ready then 2 else 1)).tcbPut named 40 (toBytes 8 0)).tcbPut named 48
       (toBytes 8 0)
     let cq := ws.getD 4 0
     let good := bits cq 3 3 = 0 ∧ bits cq 0 3 = 3
     let told (k : Nat) : State :=
       if k = 3 ∨ s3.reachable x.params x.params.tcb.toNat 64 needRW = false then s3
       else s3.tcbPut x.params 0 (toBytes 2 (k * 2 ^ 8 + 5))
     let noticed (k : Nat) : State :=
       if k = 3 ∨ k = 7 ∨ (cq ≠ 0 ∧ ¬good) then
         (told k).sendLaunchRec x.params.queue (x.params.deanRec { code := .perm, detail := 8, addr := x.params.tcb })
       else told k
     queue < 64 → q.en = true → handleOk q.handle.toNat = true → s.judging queue = false →
     (s.launches.filter (fun l => l.params.queue / 32 == queue / 32)).length < 4096 →
     (s.takeSent queue = some (s2, bs) ∨ (s.takeSent queue = none ∧
       s.controlBlock (s.queueSpace queue (agentCore queue)) q.handle.toNat needRW = (s1, .ok p) ∧ p.mig = false ∧ s.away p.pa = false ∧
       s.readsHeld p.pa = false ∧
       s1.forgetAgent.takeNow (agentStop .refusal queue) p.pa (bits q.handle.toNat 0 3) = (s2, .ok (some bs)))) →
       (s2.agentFetch x.params.space x.params.tcb.toNat 64 (.judge queue bs) = (s3, none) → exec (.launchAccept queue) s = .next s3) ∧
       (s2.agentFetch x.params.space x.params.tcb.toNat 64 (.judge queue bs) = (s3, some tcb) → s3.lq queue = s2.lq queue →
         (w ≠ none → s3.refusal x w = none → s3.launch? lid = none → (∀ k < lid, s3.launch? k ≠ none) →
           exec (.launchAccept queue) s = .next { noted with launches := noted.launches ++ [
             { params := named, footprints := x.footprints, cq := BitVec.ofNat 64 cq, status := if ready then .ready else .waiting,
               next := 0, retired := 0, abortedBlocks := 0, cyc := 0, acceptedAt := s3.time, unseatedSince := [], held := false,
               reported := false, reportDone := false }] }) ∧
         (∀ k, s3.refusal x w = some k → exec (.launchAccept queue) s = .next (if cq ≠ 0 ∧ good then
             (noticed k).sendCompletion .refusal (BitVec.ofNat 64 cq) x.params.queue (completionRecord x.params.tcb 0 k 5 0 0)
           else noticed k)))) ∧
  (∀ (s : State) (x : LaunchRecord) (tcb : Option (List Nat)),
     let p := x.params
     let w := tcb.getD []
     let bad : List (Nat × Prop) := [
       (1, x.zeros = false ∨ 1 < x.rmode ∨ (x.rmode = 1 ∧ p.slack < 32)),
       (2, ¬(p.initialCount ≤ p.fibreCount ∧ 16 ≤ p.allocation ∧ p.allocation ≤ 4096 ∧ p.regs ≤ 1048576 ∧ p.barrierCount ≤ 16 ∧
         p.dimX ≠ 0 ∧ p.dimY ≠ 0 ∧ p.dimZ ≠ 0 ∧ p.dimX * p.dimY * p.dimZ * p.stages ≤ 16777216)),
       (3, tcb = none ∨ s.tcbPlain p needRW = false),
       (4, 2 ^ 49 ≤ w.getD 0 0 ∨ 2 ^ 16 ≤ w.getD 1 0 ∨ w.getD 7 0 ≠ 0 ∨ (w.getD 0 0 % 256 ≠ 0 ∧ w.getD 0 0 % 256 ≠ 4)),
       (5, goodPc p.code = false ∨ (p.lead ≠ 0 ∧ goodPc p.lead = false)),
       (6, w.getD 3 0 % 128 ≠ 0 ∨ s.reachable p (w.getD 3 0) 128 needW = false ∨ (w.getD 1 0 ≠ 0 ∧
         (w.getD 2 0 % 8 ≠ 0 ∨ s.reachable p (w.getD 2 0) (8 * w.getD 1 0) needR = false))),
       (7, w.getD 4 0 ≠ 0 ∧ (bits (w.getD 4 0) 3 3 ≠ 0 ∨ bits (w.getD 4 0) 0 3 ≠ 3))]
     (s.refusal x tcb = none ↔ ∀ c ∈ bad, ¬c.2) ∧
     ∀ k, s.refusal x tcb = some k ↔ (∃ c ∈ bad, c.1 = k ∧ c.2) ∧ ∀ c ∈ bad, c.1 < k → ¬c.2) ∧
  (∀ (s s3 : State) (lid : Nat) (l m : Launch) (tcb : Option (List Byte)),
     let st := if l.abortedBlocks > 0 then 6 else 4
     let s2 := ((s.tcbStatus l.params st).trialLaunchEnd l.params.lid).modLaunch l.params.lid (fun x =>
       { x with status := if st = 4 then .done else .aborted, reported := true, reportDone := decide (l.cq = 0) })
     let w := tcbWords (tcb.getD [])
     let sent := s3.sendCompletion (.launch lid) m.cq m.params.queue (completionRecord m.params.tcb (bits (w.getD 0 0) 16 16)
       (bits (w.getD 0 0) 8 8) (if m.abortedBlocks > 0 then 6 else 4) (w.getD 5 0) (w.getD 6 0))
     s.launch? lid = some l → l.retired + l.abortedBlocks ≥ l.params.total →
     (l.reported = true → l.reportDone = false ∨ s.completing lid = true → exec (.launchComplete lid) s = .next s) ∧
     (l.reported = true → l.reportDone = true → s.completing lid = false → exec (.launchComplete lid) s = .next (s.freeLaunch l)) ∧
     (l.reported = false → l.cq = 0 → s2.launch? lid = some m → s2.completing lid = false →
       exec (.launchComplete lid) s = .next (s2.freeLaunch m)) ∧
     (l.reported = false → l.cq ≠ 0 →
       (s2.agentFetch l.params.space l.params.tcb.toNat 64 (.report lid) = (s3, none) → s3.launch? lid = some m → m.reportDone = false →
         exec (.launchComplete lid) s = .next s3) ∧
       (s2.agentFetch l.params.space l.params.tcb.toNat 64 (.report lid) = (s3, some tcb) → s3.launch? lid = some m →
         m.reportDone = false → exec (.launchComplete lid) s = .next sent))) ∧
  (∀ (s s1 s2 : State) (lid va : Nat) (l : Launch) (ws list bs : List Byte) (ps : List Piece) (k : Piece) (x : Trap),
     let p := l.params
     let n := fieldAt ws 0 2
     let succl := fieldAt ws 8 8
     let record (t : State) (a : DWord) : State := t.sendLaunchRec p.queue (p.deanRec { code := .perm, detail := 8, addr := a })
     let word := ofBytes bs
     let put (t : State) (v : Nat) : State := t.writeHome p.space.core ps (toBytes 8 v) .normal
     let home := s1.readHome p.space.core ps .normal
     let waits (l : Launch) : Bool := decide (l.status = .waiting) &&
       match (s2.agentPieces l.params.space l.params.tcb.toNat 8 needRW).2 with
       | .ok (y :: _) => y.pa == k.pa
       | _ => false
     (s.launch? lid = some l → p.lid = lid → l.reported = true → l.reportDone = true → s.completing lid = false →
       l.retired + l.abortedBlocks ≥ p.total →
       (l.status ≠ .done → exec (.launchComplete lid) s = .next (s.dropLaunch lid)) ∧
       (l.status = .done → s.agentFetch p.space (p.tcb.toNat + 8) 16 (.count lid) = (s1, none) → exec (.launchComplete lid) s = .next s1) ∧
       (l.status = .done → s.agentFetch p.space (p.tcb.toNat + 8) 16 (.count lid) = (s1, some (some ws)) →
         (n = 0 → exec (.launchComplete lid) s = .next (s1.dropLaunch lid)) ∧
         (n ≠ 0 → succl % 8 ≠ 0 → exec (.launchComplete lid) s = .next ((record s1 p.tcb).dropLaunch lid)) ∧
         (n ≠ 0 → succl % 8 = 0 → s1.agentFetch p.space succl (8 * n) (.list lid) = (s2, none) → exec (.launchComplete lid) s = .next s2) ∧
         (n ≠ 0 → succl % 8 = 0 → s1.agentFetch p.space succl (8 * n) (.list lid) = (s2, some none) →
           exec (.launchComplete lid) s = .next ((record s2 p.tcb).dropLaunch lid)) ∧
         (n ≠ 0 → succl % 8 = 0 → s1.agentFetch p.space succl (8 * n) (.list lid) = (s2, some (some list)) →
           exec (.launchComplete lid) s = .next ((((List.range (list.length / 8)).map (fun i => fieldAt list (8 * i) 8)).foldl
             (fun t a => t.decrement p a) s2).dropLaunch lid)))) ∧
     (s.dropLaunch lid).launch? lid = none ∧
     (s.agentPieces p.space va 8 needRW = (s1, .error x) → s.decrement p va = record s1 (BitVec.ofNat 64 va)) ∧
     (s.agentPieces p.space va 8 needRW = (s1, .ok ps) → ps.head? = some k → home = (s2, .ok bs) →
       (bits word 32 16 = 0 → s.decrement p va = put s2 (if bitAt word 48 then word else word + 2 ^ 48)) ∧
       (bits word 32 16 ≠ 0 → (bits word 32 16 ≠ 1 ∨ word % 256 ≠ 1 ∨ s2.launches.find? waits = none) →
         s.decrement p va = put s2 (word - 2 ^ 32)) ∧
       (∀ y, bits word 32 16 = 1 → word % 256 = 1 → s2.launches.find? waits = some y →
         s.decrement p va = (put s2 (word - 2 ^ 32 + 1)).modLaunch y.params.lid (fun z => { z with status := .ready }))))

/-- 10 R194, R204 to R209, R213: what a top unit offers is of the highest priority among its queues whose oldest ready launch
has a block that can be seated; where the other unit's offer comes first it seats nothing (log entry 62); a fresh block is
seated on the cores that placement gives, its queue is billed for it, its launch runs and its period of waiting is over; a
block that has run is resumed. 10 R205, R206: by strides the queue of lowest pass wins, then the lowest number, and its pass
grows by its stride in 64 bits for each block seated; a queue that becomes ready takes the greater of its pass and the lowest
of those that were ready, or the last winner's. By deficits the queue picked has a positive deficit, the one visited last goes
on while it has, every other candidate that was visited has none left, and a queue that is not ready has deficit 0; a seating
takes the queue's estimate. -/
def Obligations.BlocksAreSeatedWhereTheyFit : Prop :=
  (∀ (s s1 : State) (unit i bid : Nat) (l : Launch) (w : Work) (b x : Block) (cores : List Nat) (rr : Bool),
     let c := l.params.coords i
     let s2 := if l.status = .ready then s1.tcbStatus l.params 3 else s1
     let s3 := (s2.logPlan l (c.1, c.2.1, c.2.2.1)).noteSeat (l.params.queue / 32) cores rr
     unit < 2 →
     ((s.seatOffer unit).2 = some (l, w) →
       (∃ n, (n, l, w) ∈ s.readyQueues unit) ∧ ∀ r ∈ s.readyQueues unit, r.2.1.params.prio ≤ l.params.prio) ∧
     (s.yields unit = true → exec (.blockSeat unit) s = .next s) ∧
     (s.yields unit = false → s.seatOffer unit = (s1, none) → exec (.blockSeat unit) s = .next s1) ∧
     (s.yields unit = false → s.seatOffer unit = (s1, some (l, .fresh i)) → s2.placeWork l (.fresh i) [] = some (cores, rr) →
       exec (.blockSeat unit) s = .next (((s3.seatFresh l.params i cores).bill l.params.queue s3.fresh).modLaunch l.params.lid
         (fun x => { x with status := .running, unseatedSince := adel x.unseatedSince i, next := i + 1 }))) ∧
     (s.yields unit = false → s.seatOffer unit = (s1, some (l, .again x)) →
       exec (.blockSeat unit) s = s2.resumeBlock x ∧
       (s.block? bid = some b → b.params.queue / 32 = unit →
         (x.bid = bid → exec (.blockResume bid) s = s2.resumeBlock x) ∧ (x.bid ≠ bid → exec (.blockResume bid) s = .next s))) ∧
     (s.block? bid = some b → b.params.queue / 32 = unit → s.yields unit = true ∨ (∃ t, s.seatOffer unit = (t, none)) ∨
       (∃ t, s.seatOffer unit = (t, some (l, .fresh i))) → exec (.blockResume bid) s = .next s)) ∧
  (∀ (s : State) (unit v n bid : Nat) (l : Launch) (w : Work),
     let t := (s.seatOffer unit).1
     let ready := s.readyQueues unit
     let won := l.params.queue
     let lowest := (∃ r ∈ ready, (s.lq r.1).wasReady = true ∧ (s.lq r.1).pass = v ∧
         ∀ x ∈ ready, (s.lq x.1).wasReady = true → v ≤ (s.lq x.1).pass) ∨
       ((∀ r ∈ ready, (s.lq r.1).wasReady = false) ∧ v = sget 0 s.dean.lastPass unit)
     let paid := (s.bill n bid).lq n
     unit < 2 → (s.seatOffer unit).2 = some (l, w) →
     (s.dean.drr = false →
       (∀ r ∈ ready, r.2.1.params.prio = l.params.prio →
         (t.lq won).pass < (t.lq r.1).pass ∨ ((t.lq won).pass = (t.lq r.1).pass ∧ won ≤ r.1)) ∧
       (lowest → ∀ r ∈ ready, (t.lq r.1).pass = if (s.lq r.1).wasReady then (s.lq r.1).pass else max (s.lq r.1).pass v) ∧
       paid.pass = ((s.lq n).pass + 2 ^ 24 / max 1 (s.lq n).tickets) % 2 ^ 64) ∧
     (s.dean.drr = true →
       0 < (t.lq won).deficit ∧
       (∀ r ∈ ready, r.2.1.params.prio = l.params.prio → aget s.dean.visit unit = some r.1 → 0 < (s.lq r.1).deficit → won = r.1) ∧
       (∀ r ∈ ready, r.2.1.params.prio = l.params.prio → r.1 ≠ won → 0 < (t.lq r.1).deficit →
         (t.lq r.1).deficit = (s.lq r.1).deficit) ∧
       (∀ k, unit * 32 ≤ k → k < unit * 32 + 32 → (∀ r ∈ ready, r.1 ≠ k) → (t.lq k).deficit = 0) ∧
       paid.deficit = (s.lq n).deficit - (((s.lq n).lastCost.getD (max 1 (s.lq n).quant) : Nat) : Int)))

/-- 10 R212, 11 R224, R232: the three causes of pre-emption. A block of a launch of higher priority that has found no place
for PWAIT takes, of the blocks whose removal helps, the youngest of the lowest priority (log entry 66); the host names a
launch or a core; in an emergency a die loses one block every 10 µs, the youngest of the lowest priority. Both copies of a
pair are asked for, or neither; a block whose pre-emption was abandoned is asked for again only after its wait (log entry 25).
10 R205, R206, R208, R213, 11 R224, R226, R231: an abandoned pre-emption is asked for again after its wait; a block that waits
to be seated is put back where placement finds it a core when its unit's choice comes to it, its image restored and its queue
billed; poison in its image is contained instead, and an image changed where the manual leaves the effect undefined stops the
machine. -/
def Obligations.BlocksArePreemptedAndResume : Prop :=
  (∀ (s : State) (lid stack : Nat) (l : Launch) (v x y : Block) (target : PreemptTarget),
     let hit (b : Block) : Bool := match target with
       | .launch k => decide (b.params.lid = k)
       | .core k => decide (b.core = some k)
     let asked (b : Block) : Block := { b with saveReq := some { kind := 0, cause := 2 }, retry := none }
     let first (u : Block) : Prop := v.params.prio < u.params.prio ∨ (v.params.prio = u.params.prio ∧ u.seatedAt ≤ v.seatedAt)
     let onDie := s.blocks.filter (fun b => b.running && !b.tooSoon s.time && decide (b.core.map stackOf = some stack))
     (s.launch? lid = some l → l.held = false → (∀ b ∈ s.blocks, ∀ r, b.saveReq = some r → r.cause ≠ 1) → s.victimFor l = some v →
       exec (.preemptPriority lid) s = .next (s.preempt v 1)) ∧
     (s.victimFor l = some v → v ∈ s.blocks ∧ v.running = true ∧ v.tooSoon s.time = false ∧ v.params.prio < l.params.prio ∧
       ∃ w ∈ s.works l, ∃ t, aget l.unseatedSince w.index = some t ∧ t + s.dean.pwait * 256 * cycleTime ≤ s.time ∧
         s.poolRoom l w = true ∧ s.placeWork l w [] = none ∧ s.helps l w (s.victims l.params.prio) v = true ∧
         ∀ u ∈ s.victims l.params.prio, s.helps l w (s.victims l.params.prio) u = true → first u) ∧
     exec (.preemptHost target) s = .next ((s.blocks.filter (fun b => b.running && hit b)).foldl (fun t b => t.preempt b 2) s) ∧
     ((s.governor stack).emergency = true → (s.governor stack).lastPreempt + nsTime 10000 ≤ s.time →
       lowestYoungest onDie = some v → (v ∈ onDie ∧ ∀ u ∈ onDie, first u) ∧
       exec (.preemptGovernor stack) s = .next { s.preempt v 3 with
         governors := aput s.governors stack { s.governor stack with lastPreempt := s.time } }) ∧
     (v.tooSoon s.time = true → s.preempt v 2 = s) ∧
     (v.tooSoon s.time = false → v.role = .single → s.block? v.bid = some v → v.running = true →
       s.preempt v 2 = s.modBlock v.bid asked) ∧
     (v.tooSoon s.time = false → v.role = .leading → s.block? v.bid = some x → s.block? v.partner = some y →
       s.preempt v 2 = if x.running && y.running then (s.modBlock v.bid asked).modBlock v.partner asked else s)) ∧
  (∀ (s u : State) (bid t c o : Nat) (b x : Block) (r : SaveReq) (l l0 : Launch) (rr : Bool) (y : BlockBody),
     let s0 := if l0.status = .ready then u.tcbStatus l0.params 3 else u
     let s1 := s0.logPlan l (b.bx, b.by_, b.bz)
     let s2 := (s1.modBlock bid (fun x => { x with body := y })).settleOn bid c
     (s.block? bid = some b → b.retry = some (t, r) → t ≤ s.time → b.running = true →
       exec (.preemptRetry bid) s = .next (s.preempt b r.cause)) ∧
     (s.block? bid = some x → x.params.queue < 64 → s.yields (x.params.queue / 32) = false →
       s.seatOffer (x.params.queue / 32) = (u, some (l0, .again b)) → b.bid = bid → b.role = .single →
       s0.launch? b.params.lid = some l → l.held = false → s0.place l (b.bx, b.by_, b.bz) b.seatee none [] = some ([c], rr) →
       (s1.restored b = .body y → exec (.blockResume bid) s =
         .next (((s2.noteSeat (l.params.queue / 32) [c] rr).bill l.params.queue bid).modLaunch l.params.lid
           (fun x => x.seatedBlock b.index))) ∧
       (s1.restored b = .poison o → exec (.blockResume bid) s = .next (s1.imageBad b o)) ∧
       (s1.restored b = .edited → exec (.blockResume bid) s = .fault .editedImage)))

/-- 11 R217, R221, R224, R228, R235: blocks asked to be saved (both copies of a pre-empted pair) withdraw what is not
allocated and, once all are settled, have their images written and sealed and leave their cores; without room a pre-emption is
abandoned, and any other save is cut short; a block whose image is not whole is discarded with a record. A fault of a copy
meanwhile ends its pair's pre-emption. (What a save that is given up leaves, and what ends a pre-emption, are log entry 25.)
11 R230, R224, R228: when a checkpoint of a settled block with an empty store buffer is due its image is sealed and the block
goes on; without room for it the block goes on unprotected; a block whose image could not be written whole is discarded with a
record. What others of the block have stored meanwhile is committed first (log entries 25, 32). -/
def Obligations.BlocksAreSavedAndCheckpointed : Prop :=
  (∀ (s : State) (bid core : Nat) (b : Block) (r : SaveReq),
     let bs := s.savedWith b r
     let s1 := bs.foldl (fun t x => t.withdrawAll x.bid) s
     let s2 := ((s1.endSteps b.bid 1).freeExcess b b.ckptExcess).pushOf b.bid
     let im := s2.imageOf b r.kind r.cause b.extent
     let room := s2.takeExcess b.bid b.extent (excessOf b.params.reserve (im.sections b.params))
     let off (t : State) (i : Image) : State := (t.park b i).tick1
     s.block? bid = some b → b.saveReq = some r → b.core = some core →
     ((∃ x ∈ bs, s1.settled x = false) → exec (.blockSave bid) s = .next s1) ∧
     ((∀ x ∈ bs, s1.settled x = true) → r.kind = 0 → (∃ x ∈ bs, x.primary.isSome = true) →
       exec (.blockSave bid) s = .next (bs.foldl (fun t x => t.goOnHere x) s1)) ∧
     (r.kind ≠ 0 ∨ (∀ x ∈ bs, x.primary = none) →
       ((∀ x ∈ bs, s1.settled x = true) →
         exec (.blockSave bid) s = .next ((bs.foldl (fun t x => t.endSteps x.bid 1) s1).saveBlocks bs r) ∧
         (bs = [b] →
           (∀ s3 extra s4 im2, room = some (s3, extra) → (s3.block? b.bid).bind (fun x => x.core) = some core →
             s3.writeImage core b im extra false = (s4, im2, .whole) →
             exec (.blockSave bid) s = .next (((off s4 im2).reportStop b (s3.imageField b.extent) false).abortSigmis b)) ∧
           (∀ s3 extra s4 im2, room = some (s3, extra) → (s3.block? b.bid).bind (fun x => x.core) = some core →
             s3.writeImage core b im extra false = (s4, im2, .unwritten) →
             exec (.blockSave bid) s = .next ((off s4 im2).saveFailed b im2 0)) ∧
           (room = none → r.kind = 0 → exec (.blockSave bid) s = .next ((s2.abandon [b] r).saveShort b.bid)) ∧
           (∀ s4 im2, room = none → r.kind ≠ 0 → (s2.block? b.bid).bind (fun x => x.core) = some core →
             (s2.saveShort b.bid).writeImage core b im [] true = (s4, im2, .truncated) →
             exec (.blockSave bid) s = .next ((off s4 im2).saveFailed b im2 (s2.imageField b.extent))))))) ∧
  (∀ (s t : State) (bid core : Nat) (b : Block),
     let s0 := s.freeExcess b []
     let b1 := b.mapCtx (fun _ c => c.unsealed)
     let im := s0.imageOf b1 2 0 b.ckptExtent
     let goOn (t : State) : State := t.modBlock bid (fun x => { x.mapCtx (fun _ c => c.unsealed) with runs := 0 })
     let room := s0.takeExcess bid b.ckptExtent (excessOf b.params.reserve (im.sections b.params))
     s.block? bid = some b → b.core = some core → b.sealDue = true → s.settledBut b true = true → b.saveReq = none →
     (b.role ≠ .single ∨ b.body.stores = [] →
       (room = none → exec (.checkpointSeal bid) s =
         .next ((goOn (s0.saveShort bid)).modBlock bid (fun x => { x with unprotected := true }))) ∧
       (∀ s1 extra s2 im2, room = some (s1, extra) → s1.writeImage core b im extra false = (s2, im2, .whole) →
         exec (.checkpointSeal bid) s =
           .next ((goOn s2).modBlock bid (fun x => { x with checkpoint := some im2, unprotected := false })).tick1) ∧
       (∀ s1 extra s2 im2, room = some (s1, extra) → s1.writeImage core b im extra false = (s2, im2, .unwritten) →
         exec (.checkpointSeal bid) s = .next (s2.sealFailed b im2 true))) ∧
     (b.role = .single → b.body.stores ≠ [] → s.drained b b.body.stores [] = .go t →
       exec (.checkpointSeal bid) s = .next (t.sealBlock ((t.block? bid).getD b) core)))

/-- 11 R218, R219: a resume record taken from the head of DN_RESQ, or sent by the device that holds it, answers what it names:
retry lets what is parked on an XLATE record go on, any other answer aborts its block; a stopped block is aborted, or its
image is taken as its supervisor edited it, at the fault or past it; a record that answers nothing is dropped and logged. -/
def Obligations.ResumeRecordsAnswerWhatTheyName : Prop :=
  ∀ (s s1 s2 : State) (i : Instr) (k : Nat) (p : Piece) (bs : List Byte) (x : XRec) (b : Block) (f : FaultRec) (y : BlockBody),
    let h := s.dean.resq.toNat
    let r := ResumeRec.of bs
    (i = .resumeRetry ∧ k = 0) ∨ (i = .resumeSkip ∧ k = 1) ∨ (i = .resumeAbort ∧ k = 2) →
    h ≠ 0 → handleOk h = true → bits h 0 3 = 3 →
    (s.takeSent 64 = some (s2, bs) ∨ (s.takeSent 64 = none ∧
      s.controlBlock (s.queueSpace s.dean.svq (agentCore s.dean.svq)) h needRW = (s1, .ok p) ∧ p.mig = false ∧ s.away p.pa = false ∧
      s.readsHeld p.pa = false ∧ s1.forgetAgent.takeNow (agentStop .trace s.dean.svq) p.pa 3 = (s2, .ok (some bs)))) → r.action = k →
    ((r.zeros = false ∨ s2.answers r = .nothing) → exec i s = .next (s2.logErr (.resumeDropped (BitVec.ofNat 64 r.handle)))) ∧
    (r.zeros = true → s2.answers r = .record x →
      exec i s = .next (if k = 0 then s2.retryRecord x else s2.abortBlock x.bid)) ∧
    (r.zeros = true → s2.answers r = .stopped b → k = 2 → exec i s = .next (s2.abortBlock b.bid)) ∧
    (r.zeros = true → s2.answers r = .stopped b → k ≠ 2 → b.primary = some f → b.role = .single → s2.block? b.bid = some b →
      (match b.saved with
        | none => some b.body
        | some im => s2.editedBody b.params b.index im) = some y →
      exec i s = .next (s2.modBlock b.bid (fun z => { z with
        body := (y.withHalts z.body).returnFrom f.who (decide (k = 1)), primary := none, seconds := [], awaiting := false })))

/-- 11 R233, R235 to R237: copies that both stand at a commit point are compared: different signatures are a mismatch, the
trailing one's changed by DN_STXOR when DN_STCTL is armed for the comparison; equal ones drain the leading copy's stores and
let both go on. The same fault at the same place stops both; a fault that the other copy has passed, or waits past, is a
mismatch. A drain that meets a missing translation parks, one that meets another fault is a mismatch, one that a locked page
holds waits (when the comparison is made and which copy waits for the other are log entry 32). -/
def Obligations.SignaturesAreCompared : Prop :=
  ∀ (s : State) (bid : Nat) (l t : Block) (wl wt who : Who) (a b : FaultRec) (pc : DWord) (x : Trap),
    let u := (s.flushCrc l.bid).flushCrc t.bid
    let l1 := (u.block? l.bid).getD l
    let t1 := (u.block? t.bid).getD t
    let armed := u.testArmed l1
    let s0 := if armed then u.disarm else u
    let d := s0.drain l1 l1.body.stores
    let out := exec (.signatureCompare bid) s
    s.pairOf bid = some (l, t) → s.frozen l = false →
    (l.primary = none → t.primary = none → l.atPoint = some wl → t.atPoint = some wt → s.rowsUnread l = false →
      s.rowsUnread t = false →
      (l1.signature ≠ (if armed then t1.signature ^^^ u.dean.stxor else t1.signature) → out = .next (s0.mismatch l1 t1 wl)) ∧
      (l1.signature = (if armed then t1.signature ^^^ u.dean.stxor else t1.signature) →
        (d.fault = none → d.left = [] →
          out = .next (((d.state.settleStores l1 t1 l1.body.stores).modBlock l1.bid (fun b => b.matched wl)).modBlock t1.bid
            (fun b => b.matched wt))) ∧
        (d.fault = none → d.left ≠ [] → out = .next u) ∧
        (d.fault = some (who, pc, x) →
          out = .next (if x.code = .xlate then u.parkOn l1 who pc x else s0.mismatch l1 t1 who)))) ∧
    (l.primary = some a → t.primary = some b →
      out = .next (if a.same b then s.stopPair l t a b else s.mismatch l t a.who)) ∧
    (l.primary = some a → t.primary = none → t.awaitsResult a = true → out = .next (s.stopPair l t a a)) ∧
    (l.primary = some a → t.primary = none → t.awaitsResult a = false → t.waitsForCopy = true → out = .next (s.mismatch l t a.who)) ∧
    (l.primary = none → t.primary = some b → l.waitsForCopy = true → out = .next (s.mismatch l t b.who))

/-- 12 R253, R254: a write of TR_CTL stores its fields, and with RUN and a delay starts a trial whose counts are 0; a baseline
window gives way to a delayed one, a delayed one adds the mean to TR_INS and ends a pair, and the last pair ends the trial;
the last cycle of a pending delay lets its core go on. -/
def Obligations.TrialsRunInWindows : Prop :=
  ∀ (s : State) (v : DWord) (core : Nat),
    let t := s.trial
    let next : Trial := { t with pending := [], waited := s.zeroWaited, windowEnd := t.windowEnd + t.win * cycleTime }
    let done : Trial := { next with inserted := (t.inserted + t.mean) % 2 ^ 64, pairs := t.pairs + 1, delayed := false }
    (∃ u, exec (.trialStart v) s = .next u ∧ u.trial.delay = bits v.toNat 48 8 ∧ u.trial.lid = bits v.toNat 32 16 ∧
      u.trial.nwin = bits v.toNat 16 16 ∧ u.trial.run = (bitAt v.toNat 63 && decide (bits v.toNat 48 8 ≠ 0)) ∧
      (u.trial.run = true → u.trial.status = 1 ∧ u.trial.pairs = 0 ∧ u.trial.inserted = 0 ∧ u.trial.pb = [] ∧ u.trial.pd = [] ∧
        u.trial.delayed = false ∧ u.trial.windowEnd = s.time + t.win * cycleTime)) ∧
    (t.run = true → t.windowEnd ≤ s.time →
      (t.delayed = false → exec .trialWindowEnd s = .next { s with trial := { next with delayed := true } }) ∧
      (t.delayed = true → t.pairs + 1 < max 1 t.nwin → exec .trialWindowEnd s = .next { s with trial := done }) ∧
      (t.delayed = true → max 1 t.nwin ≤ t.pairs + 1 →
        exec .trialWindowEnd s = .next { s with trial := { done with run := false, status := 2, waited := [] } })) ∧
    (t.run = true → sget 0 t.pending core = 1 → exec (.trialDelayExpire core) s = .next { s with trial := { t with
      pending := sput 0 t.pending core 0, waited := aput t.waited core ((aget t.waited core).getD 0 + 1) } })

/-- 13 R267: every 10 µs a governor moves by at most one throttle state: up at 100 °C, above the cap, or by the policy above
82 °C of DRAM, down below 95 °C, and T7 while an emergency lasts (log entry 35), the state it leaves being kept with the time;
an alert, 110 °C or 1 ms above 15,000 W starts one; an emergency puts the named dies into T7 at once and ends 1 ms after one
of its causes was last seen. -/
def Obligations.GovernorsMoveOneStep : Prop :=
  ∀ (s : State) (k : Nat) (r : Reading) (dies : List Nat) (cause : EmergencyCause),
    let g := s.governor k
    let up := r.junction ≥ 100 ∨ r.packagePower > s.gvCap * 10 ∨ (s.gvPolicy = false ∧ r.dram > 82)
    let alarm := r.alert = true ∨ r.junction ≥ 110 ∨ (r.packagePower > 15000 ∧ g.overSince.getD s.time + nsTime 1000000 ≤ s.time)
    (k < 32 → g.lastStep + nsTime 10000 ≤ s.time →
      ∃ t h, exec (.governorStep k r) s = .next t ∧ t.governor k = h ∧ h.lastStep = s.time ∧
        (¬alarm → h.emergency = g.emergency) ∧ (alarm → h.emergency = true ∧ h.emergencyAt = s.time) ∧
        (h.emergency = true → h.throttle = 7) ∧
        (h.emergency = false → up → h.throttle = min 7 (g.throttle + 1)) ∧
        (h.emergency = false → ¬up → r.junction < 95 → h.throttle = g.throttle - 1) ∧
        (h.emergency = false → ¬up → r.junction ≥ 95 → h.throttle = g.throttle) ∧
        h.refresh = max (refreshMult h.throttle) (dramDemand r.dram) ∧
        h.history = (if h.throttle = g.throttle then g.history else (s.time, g.throttle) :: g.history) ∧
        h.overSince = (if r.packagePower > 15000 then some (g.overSince.getD s.time) else none) ∧
        ((∃ c ∈ g.causes, causeSeen c r = true) → h.emergencyAt = s.time) ∧
        (¬alarm → (∀ c ∈ g.causes, causeSeen c r = false) → h.emergencyAt = g.emergencyAt) ∧
        ∀ j, j ≠ k → t.governor j = s.governor j) ∧
    (∃ t, exec (.governorEmergencyBegin dies cause) s = .next t ∧
      (k < 32 → k ∈ dies → (t.governor k).throttle = 7 ∧ (t.governor k).emergency = true ∧ (t.governor k).emergencyAt = s.time ∧
        cause ∈ (t.governor k).causes) ∧
      (k ∉ dies → t.governor k = g)) ∧
    (g.emergency = true → g.emergencyAt + nsTime 1000000 ≤ s.time →
      exec (.governorEmergencyEnd k) s = .next (s.setGovernor k { g with emergency := false, causes := [] }))

/-- 05 R112 to R115, 13 R267: of the requests whose bank is not in back-off a channel serves urgent ones by deadline, then a
bulk one when its share is due, then open rows, then the oldest; the share is counted in the services that bulk requests wait
for; a due deadline request becomes urgent; the end of a back-off closes the row; a write of ACTSEL selects, and with CLR
zeroes the bank's counters; an ordinary refresh closes the row and changes no counter. An uncorrectable error in what a
service reads poisons its sectors, and faults the producer that asked (05 R117; how an error is an input is log entry 58). 05
R114: an activation counts its row; a row whose counter reaches ACTTHR has refresh management done, its counter zeroed and its
bank in back-off; a hit on the open row changes nothing. -/
def Obligations.ChannelsServeAndCountActivations : Prop :=
  (∀ (s : State) (n b o : Nat) (r : DramReq) (t : Nat) (v : DWord),
     let c := s.channel n
     let served := s.setChannel n (c.serve r s.time)
     let urgent := c.candidates.filter (fun q => c.isUrgent s.time q)
     let bulk := c.candidates.filter (fun q => decide (q.cls = .bulk))
     let share := bulk ≠ [] ∧ max 1 c.bulksh ≤ c.sinceBulk + 1
     let order (rs : List DramReq) : Prop := r ∈ rs ∧
       ((c.bank r.bank).openRow = some r.row ∨ ∀ q ∈ rs, (c.bank q.bank).openRow ≠ some q.row) ∧
       (rs.find? (fun q => decide ((c.bank r.bank).openRow = some r.row → (c.bank q.bank).openRow = some q.row)) = some r)
     (c.next s.time = some r → exec (.dramRequestService ⟨n, none⟩) s = .next served ∧
       exec (.dramRequestService ⟨n, some o⟩) s = .next (served.dramError r o) ∧
       (r.reader = none → r.lands = [] → served.dramError r o = (served.addPoison (r.cell * 64) 64 o).poisonReaders
         (fun p => p.owns r.did) (fun k => [2 * r.cell, 2 * r.cell + 1].contains k) o) ∧
       r ∈ c.reqs ∧ (c.bank r.bank).backoffEnd = none ∧
       (urgent ≠ [] → r ∈ urgent ∧ ∀ q ∈ urgent, r.latest ≤ q.latest) ∧
       (urgent = [] → share → order bulk) ∧
       (urgent = [] → ¬share → order c.candidates) ∧
       (c.serve r s.time).reqs = c.reqs.filter (fun q => q.did != r.did) ∧
       (c.serve r s.time).sinceBulk = (if c.isUrgent s.time r then c.sinceBulk else if r.cls = .bulk then 0
         else if c.reqs.any (fun q => decide (q.cls = .bulk)) then c.sinceBulk + 1 else 0)) ∧
     (c.next s.time = none → ∀ e, exec (.dramRequestService ⟨n, e⟩) s = .next s) ∧
     exec (.deadlineUrgent n) s = .next (s.setChannel n { c with reqs := c.reqs.map (fun q =>
       if c.due s.time q then { q with urgent := true } else q) }) ∧
     ((c.bank b).backoffEnd = some t → t ≤ s.time → exec (.bankBackoffEnd n b) s =
       .next (s.setChannel n (c.setBank b { c.bank b with openRow := none, backoffEnd := none }))) ∧
     (bitAt v.toNat 63 = false → exec (.actselClear n v) s =
       .next (s.setChannel n { c with actsel := BitVec.ofNat 64 (v.toNat % 2 ^ 20) })) ∧
     (bitAt v.toNat 63 = true → exec (.actselClear n v) s = .next (s.setChannel n
       (({ c with actsel := BitVec.ofNat 64 (v.toNat % 2 ^ 20) } : Channel).setBank (bits v.toNat 15 5)
         { c.bank (bits v.toNat 15 5) with counts := [] }))) ∧
     exec (.ordinaryRefresh n b) s = .next (s.setChannel n (c.setBank b { c.bank b with openRow := none }))) ∧
  (∀ (b : Bank) (row thr now : Nat),
     let n := sget 0 b.counts row + 1
     (b.openRow = some row → b.serve row thr now = b) ∧
     (b.openRow ≠ some row → n < thr → (b.serve row thr now).openRow = some row ∧ sget 0 (b.serve row thr now).counts row = n ∧
       (b.serve row thr now).rfmcnt = b.rfmcnt) ∧
     (b.openRow ≠ some row → thr ≤ n → (b.serve row thr now).openRow = none ∧ sget 0 (b.serve row thr now).counts row = 0 ∧
       (b.serve row thr now).rfmcnt = (b.rfmcnt + 1) % 2 ^ 32 ∧ (b.serve row thr now).backoffEnd = some (now + nsTime 280) ∧
       (b.serve row thr now).backoff = min (b.backoff + 280) 0xFFFFFFFF))

/-- 00 R4, 10 R195, 12 R253, 13 R257, R259: a register write stores its fields under their access codes: a launch queue's are
ignored while it is enabled and LQ_CFG then takes EN alone, EN being stored only with the right size codes; a trial's are
ignored while it runs; a read-only register ignores writes, a reserved bit is not stored (log entries 38, 48). A write at an
offset of a BAR is the write of the register there. 05 R107, R108: a write of AMAP_CTL stages EN, and with COMMIT checks the
staged masks: not invertible leaves STATUS 1, a split line 2, both good BUSY; the end of a commit makes the staged mapping
active under the masks that were checked and the EN that the commit started with (log entry 48). -/
def Obligations.RegisterWritesFollowAccessCodes : Prop :=
  (∀ (s : State) (port n j : Nat) (v : DWord),
     let q := s.lq n
     let w := v.toNat
     let out (g : DevReg) := exec (.registerWrite port g v) s
     let good (x : LaunchQueue) : Bool := decide (bits x.handle.toNat 0 3 = 5) && decide (bits x.faultq.toNat 0 3 = 3)
     (n < 64 → q.en = true →
       (∀ g ∈ [DevReg.lqHandle n, .lqPtroot n, .lqQuant n, .lqSpbase n, .lqSporg n, .lqSpn n, .lqFaultq n], out g = .next s) ∧
       out (.lqCfg n) = .next (s.setLq n { q with en := bitAt w 17 && good q })) ∧
     (n < 64 → q.en = false →
       out (.lqHandle n) = .next (s.setLq n { q with handle := v }) ∧
       out (.lqFaultq n) = .next (s.setLq n { q with faultq := v }) ∧
       out (.lqQuant n) = .next (s.setLq n { q with quant := w % 2 ^ 32 }) ∧
       out (.lqSpbase n) = .next (s.setLq n { q with spbase := BitVec.ofNat 64 (w % 2 ^ 52) }) ∧
       out (.lqSpn n) = .next (s.setLq n { q with spn := w % 2 ^ 32 }) ∧
       exec (.launchQueueEnable n v) s = .next (s.setLq n { q with
         tickets := bits w 32 16, priv := bitAt w 16, asn := bits w 0 16, en := bitAt w 17 && good q })) ∧
     (∀ g ∈ [DevReg.dnTrdrop, .dnSvfail, .trStat, .trIns, .actcnt n, .qwStat n, .qwHold n j, .qwDeq n], out g = .next s) ∧
     (s.trial.run = true → ∀ g ∈ [DevReg.trWin, .trLo, .trHi], out g = .next s) ∧
     (s.trial.run = false → out .trWin = .next { s with trial := { s.trial with win := max 4096 (w % 2 ^ 32) } } ∧
       out .trLo = .next { s with trial := { s.trial with lo := v } } ∧
       out .trHi = .next { s with trial := { s.trial with hi := v } }) ∧
     out .dnCtl = .next { s with dean := { s.dean with drr := bitAt w 0, pwait := bits w 16 16 } } ∧
     out .dnSvsize = .next { s with dean := { s.dean with svsize := w % 2 ^ 32 } } ∧
     out .dnResq = .next { s with dean := { s.dean with resq := v } } ∧
     out .dnStxor = .next { s with dean := { s.dean with stxor := v } } ∧
     out .gvCtl = .next { s with gvPolicy := bitAt w 0, gvCap := min 1500 (bits w 16 16) } ∧
     (n < 1024 → out (.mccfg n) = .next (s.setChannel n { s.channel n with
       bulksh := bits w 48 4, dlbudget := bits w 32 16, dlthr := bits w 16 16, actthr := max 64 (bits w 0 16) })) ∧
     out (.expert n) = .next s ∧
     (out (.bar0 0) = out .dnCtl ∧ out (.bar0 0x148) = out .dnSvq ∧ out (.bar0 0x200) = out .trCtl ∧
       out (.bar0 0x200000) = out .gvCtl ∧ out (.bar0 0x400000) = out .hifence ∧ out (.bar0 0x400008) = out .haBase ∧
       (n < 64 → out (.bar0 (0x10000 + 0x40 * n + 0x10)) = out (.lqCfg n)) ∧
       (n < 8 → out (.bar0 (0x100000 + 0x400 * n)) = out (.amapCtl n)) ∧
       (n < 64 → out (.bar2 (0x1000 * n)) = out (.qwHandle n))) ∧
     (n < 64 → port < 2 → s.readReg port (.qwEnq n) = 0 ∧
       ∃ t, out (.qwHandle n) = .next t ∧ t.readReg port (.qwHandle n) = w)) ∧
  (∀ (s : State) (n : Nat) (v : DWord),
     let r := s.region n
     let r1 : Region := { r with staged := { r.staged with en := bitAt v.toNat 0 } }
     let masks := r.staged.masks
     (n < 8 →
       (bitAt v.toNat 1 = false ∨ r.status = 3 → exec (.amapCommit n v) s = .next (s.setRegion n r1)) ∧
       (bitAt v.toNat 1 = true → r.status ≠ 3 → ∃ t, exec (.amapCommit n v) s = .next t ∧
         (invertible masks = false → t.region n = { r1 with status := 1 }) ∧
         (invertible masks = true → keepsLines masks = false → t.region n = { r1 with status := 2 }) ∧
         (invertible masks = true → keepsLines masks = true →
           t.region n = { r1 with status := 3, checked := masks, starting := bitAt v.toNat 0 }) ∧
         (∀ j, j ≠ n → t.region j = s.region j))) ∧
     (n < 8 → r.status = 3 → ∃ t, exec (.amapCommitComplete n) s = .next t ∧
       t.region n = { r with active := { r.staged with masks := r.checked, en := r.starting }, status := 0, checked := [] } ∧
       (∀ j, j ≠ n → t.region j = s.region j)))

/-- 13 R258: a write of HIFENCE is accepted when the register is not busy and the code is 2 to 10, and refused otherwise with
ERR alone; a scope of the pod asks every other member of it; the fence ends when the cores have discarded their instruction
caches, and the fetches that other devices have yet to answer, and no member's answer is to come, or, with TMO, 1 ms after it
began (log entry 33). A member that will not answer keeps it busy until then. 13 R259: QW_HANDLE stores a handle and empties
the FIFO; QW_ENQ stages one element written at its first offset or counts a drop; the oldest staged element goes to the queue;
QW_DEQ takes the oldest visible element into QW_HOLD, or answers 0; a failed check answers 0 and sets ERR; a queue of another
device is asked by its link, as one that only takes what is visible (log entry 55). 13 R260, 06 R142: an aperture read returns
the bytes at HA_BASE plus its offset, marked when they are poisoned, and an aperture write stores there; an address outside
every region is reported and logged. -/
def Obligations.HostPortsReachQueuesAndMemory : Prop :=
  (∀ (s : State) (port rid : Nat) (v : DWord),
     let p := s.port port
     let ok := p.busy = false ∧ 2 ≤ v.toNat % 16 ∧ v.toNat % 16 ≤ 10 ∧ bits v.toNat 4 59 = 0
     let begun := s.setPort port { p with
       busy := true, err := false, tmo := false, scope := v.toNat % 16, fenceAt := s.time, fenceFrom := s.fresh, fenceDead := false }
     let every := List.range 128
     let gone : State := { s with
       icache := s.icache.filter (fun c => !every.contains c.core),
       peers := { s.peers with outstanding := s.peers.outstanding.filter (fun o => match o.use with
         | .code core _ => !every.contains core
         | _ => true) } }
     let abroad := p.fenceDead = true ∨ ∃ o ∈ s.peers.outstanding, o.use = .fence port ∧ p.fenceFrom ≤ o.rid
     port < 2 →
     (ok → exec (.hifence port v) s = .next (if v.toNat % 16 < 8 then begun
       else begun.members.foldl (fun t d => t.remoteSend (d * 2 ^ 42) .codeFence (.fence port) none 0) begun)) ∧
     (¬ok → exec (.hifence port v) s = .next (s.setPort port { p with err := true })) ∧
     (p.busy = true → ¬abroad → exec (.hifenceComplete port) s = .next (gone.setPort port { p with busy := false })) ∧
     (p.busy = true → abroad → exec (.hifenceComplete port) s = .next s) ∧
     (p.busy = true → abroad → s.time < p.fenceAt + nsTime 1000000 → exec (.hifenceTimeout port) s = .next s) ∧
     (p.busy = true → abroad → p.fenceAt + nsTime 1000000 ≤ s.time → exec (.hifenceTimeout port) s =
       .next (gone.setPort port { p with busy := false, tmo := true })) ∧
     (p.fenceFrom ≤ rid → s.fenceFails port rid = s.setPort port { p with fenceDead := true })) ∧
  (∀ (s s1 s2 : State) (port w off : Nat) (v : DWord) (el : List Byte) (rest : List (List Byte)) (p : Piece) (bs : List Byte) (x : Trap),
     let win := s.window port w
     let h := win.handle.toNat
     let code := bits h 0 3
     let access := s.controlBlock (s.queueSpace w (portCore port)) h needRW
     w < 64 → port < 2 →
     (∃ t, exec (.qwHandle port w v) s = .next t ∧ (t.window port w).handle = v ∧ (t.window port w).fifo = [] ∧
       (t.window port w).sending = none ∧ (t.window port w).drops = win.drops) ∧
     (off = 0x100 → code ≤ 6 → el.length = codeSize code → win.fifo.length < 16 →
       exec (.qwEnq port w ⟨off, el⟩) s = .next (s.modWindow port w (fun x => { x with fifo := win.fifo ++ [el] }))) ∧
     (off ≠ 0x100 ∨ 6 < code ∨ el.length ≠ codeSize code ∨ 16 ≤ win.fifo.length →
       exec (.qwEnq port w ⟨off, el⟩) s = .next (s.modWindow port w (fun x => { x with drops := min (win.drops + 1) 0xFFFFFFFF }))) ∧
     (win.fifo = el :: rest → win.sending = none → exec (.qwStagingEnqueue port w) s =
       .next ((s.sendAgent (.window port w s.fresh) win.handle w el).modWindow port w (fun y => { y with sending := some s.fresh }))) ∧
     (handleOk h = false → exec (.qwDeq port w) s = .next (s.failDeq port w (TrapCode.num .illopd))) ∧
     (handleOk h = true → access = (s1, .error x) → exec (.qwDeq port w) s = .next (s1.forgetAgent.failDeq port w x.code.num)) ∧
     (handleOk h = true → access = (s1, .ok p) → p.mig = false → s1.forgetAgent.away p.pa = true →
       exec (.qwDeq port w) s = .next (s1.forgetAgent.remoteSend p.pa (.deq code true) (.queue
         { rid := s1.forgetAgent.fresh, from_ := .window port w s1.forgetAgent.fresh, enq := false, try_ := true, pa := p.pa,
           va := BitVec.ofNat 64 p.va, handle := some (win.handle, w), code := code, payload := [], parked := false, busy := false,
           src := agentStop (.window port w s1.forgetAgent.fresh) w, unc := false }) none (BitVec.ofNat 64 p.va))) ∧
     (handleOk h = true → access = (s1, .ok p) → p.mig = false → s1.forgetAgent.away p.pa = false →
       s1.forgetAgent.readsHeld p.pa = false →
       (s1.forgetAgent.takeNow (agentStop (.window port w 0) w) p.pa code = (s2, .error x) →
         exec (.qwDeq port w) s = .next (s2.failDeq port w x.code.num)) ∧
       (s1.forgetAgent.takeNow (agentStop (.window port w 0) w) p.pa code = (s2, .ok none) →
         exec (.qwDeq port w) s = .next (s2.modWindow port w (fun x => { x with result := 0 }))) ∧
       (s1.forgetAgent.takeNow (agentStop (.window port w 0) w) p.pa code = (s2, .ok (some bs)) →
         exec (.qwDeq port w) s = .next (s2.modWindow port w (fun x => { x with hold := bs, result := 1 }))))) ∧
  (∀ (s : State) (port off n : Nat) (bs : List Byte) (cells : List (Nat × Nat)),
     let pa := s.device * 2 ^ 42 + (s.port port).haBase * 2 ^ 36 + off
     let s0 := s.recallAll cells
     let r := s0.homeRead (portCore port) cells .normal
     port < 2 →
     (off + n ≤ 2 ^ 36 → s.cellsOf pa n = some cells → exec (.hostApertureRead port off n) s =
       .next (r.1.setPort port { r.1.port port with lastRead := r.2, lastStatus := if (s0.poisonAny cells).isSome then 1 else 0 })) ∧
     (off + n ≤ 2 ^ 36 → s.cellsOf pa n = none → exec (.hostApertureRead port off n) s =
       .next ((s.setPort port { s.port port with lastRead := [], lastStatus := 2 }).logErr (.aperture port pa))) ∧
     (off + bs.length ≤ 2 ^ 36 → s.cellsOf pa bs.length = some cells →
       exec (.hostApertureWrite port off bs) s = .next (s.homeStore (portCore port) cells bs .normal)) ∧
     (off + bs.length ≤ 2 ^ 36 → s.cellsOf pa bs.length = none → exec (.hostApertureWrite port off bs) s =
       .next ((s.setPort port { s.port port with reports := (s.port port).reports + 1 }).logErr (.aperture port pa))))

/-- 13 R261 to R263: a flit with a bad CRC is answered by a NAK and counts against its lane; a data flit in sequence is
delivered and acknowledged, another is dropped with a NAK; an acknowledgement frees flits and a NAK replays from its number; a
port sends what waits while fewer than 4,095 flits are unacknowledged; a lane with 16 errors of the last 1 ms is worn, and is
repaired once, with three lanes after a retraining that sends every unacknowledged flit again; a second repair, of this lane
or another, takes the port down. (What an acknowledgement field means, and zero bits that are not zero, are log entries 36 and
61.) -/
def Obligations.PeerFlitsArriveInOrder : Prop :=
  ∀ (s : State) (port lane t now : Nat) (f : Flit) (m : Nat × PeerMsg) (rest : List (Nat × PeerMsg)),
    let x := s.peers.port port
    let good := f.crc.toNat = crc32 (flitBytes f)
    let into (y : PeerPort) : State := { s with peers := s.peers.setPort port y }
    let left := x.laneErrors.filter (fun e => e.1 != lane)
    let recent := (x.laneErrors.filter (fun e => e.1 == lane && decide (now < e.2 + nsTime 1000000))).length
    let heard := if f.nak = true then x.replayFrom f.ackseq else if f.ackv = true then x.acked f.ackseq else x
    port < 32 → x.up = true →
    (x.retrainEnd = none → ¬good → exec (.peerFlitReceive port f) s =
      .next (into { x.laneError f.lane s.time with nakOut := some x.expect })) ∧
    (x.worn = none → (x.laneError lane now).worn = if 15 ≤ recent then some lane else none) ∧
    (x.retrainEnd = none → good → f.type = .data → f.seq = x.expect → exec (.peerFlitReceive port f) s =
      .next ((into { heard with inbox := heard.inbox ++ [f.payload], expect := (x.expect + 1) % 4096, nakOut := none,
                                ackOut := some f.seq }).peerMessage port f.src f.msg)) ∧
    (x.retrainEnd = none → good → f.type = .data → f.seq ≠ x.expect → exec (.peerFlitReceive port f) s =
      .next (into { heard with nakOut := some x.expect })) ∧
    (x.retrainEnd = none → good → f.type = .idle ∨ f.type = .control → exec (.peerFlitReceive port f) s = .next (into heard)) ∧
    (x.retrainEnd = none → x.replay = [] → x.waiting = m :: rest →
      (x.unacked.length < 4095 → x.send.unacked = x.unacked ++ [(x.nextSeq, m)] ∧ x.send.waiting = rest ∧
        x.send.nextSeq = (x.nextSeq + 1) % 4096) ∧
      (4095 ≤ x.unacked.length → x.send.unacked = x.unacked ∧ x.send.waiting = x.waiting ∧ x.send.nextSeq = x.nextSeq)) ∧
    (x.retrainEnd = none → x.replay = [] → x.worn = some lane →
      (x.repairs = 0 → exec (.laneRepair port lane) s = .next (into { x with
        repairs := 1, lanes := 3, laneErrors := left, worn := (left.find? (fun e => decide (16 ≤ x.errorsOf e.1 s.time))).map (·.1),
        retrainEnd := some (s.time + nsTime 2000) })) ∧
      (x.repairs ≠ 0 → exec (.laneRepair port lane) s = .next { s with peers := (s.peers.setPort port { x with
        up := false, repairs := x.repairs + 1, laneErrors := [], worn := none }).dropRoutes port })) ∧
    (x.retrainEnd = some t → t ≤ s.time → exec (.linkRetrainComplete port) s =
      .next (into { x with retrainEnd := none, replay := x.unacked.map (·.1) }))

/-- 13 R264, 05 R118: a request outside the windows of its source, or inside a released extent, is refused and logged; a
sequence number whose result is kept is answered again without being applied, and one still under way is told so; any other is
performed (what a window allows to which kind, and how a request under way is answered, are log entries 37 and 55). 13 R264,
R265, 05 R118, 07 R155: a sequenced request without a response for 100 µs is sent again; after 1 ms, or at once if its target
was marked dead when it was made, it ends in a REMOTE fault of whoever asked, its target is dead, operations on that device's
queues end, and the extents lent to it are released; a dead mark can be cleared; a released extent is refused from then on,
and acknowledged when nothing that was let in is under way. -/
def Obligations.RemoteOperationsAreAppliedOnce : Prop :=
  (∀ (s : State) (req : RemoteReq) (cells : List (Nat × Nat)) (ws : List Word),
     let out := exec (.remoteRequestAtTarget req) s
     let home := s.device * 2 ^ 42 + req.addr
     let s1 := s.recallAll cells
     let r := s1.homeRead (remoteCore req.port) cells .normal
     (s.peers.admits req = false → out = .next ((s.logErr (.remoteRefused req.source req.addr)).answerReq req 1 [])) ∧
     (s.peers.admits req = true → s.peers.cached req = some ws → out = .next (s.answerReq req 0 (bytesOf ws))) ∧
     (s.peers.admits req = true → s.peers.cached req = none → s.cellsOf home (remoteLen req.kind) = some cells →
       (s.remoteUnderway req = true → out = .next (s.answerReq req 3 [])) ∧
       (s.remoteUnderway req = false →
         (∀ n bytes, req.kind = .write n bytes false false → out = .next
           ((s1.scatterHome (remoteCore req.port) { va := 0, pa := home, len := n, entry := 0 } bytes).answerReq req 0 [])) ∧
         (∀ d, req.kind = .upkeep d → out = .next ((s.maintainHome (home / 128) d).answerReq req 0 [])) ∧
         (req.kind = .codeFence → out = .next (s.dropAllCode.answerReq req 0 [])) ∧
         (∀ n, req.kind = .read n → out = .next (r.1.answerReq req (if (s1.poisonAny cells).isSome then 2 else 0) r.2)) ∧
         (∀ op v, req.kind = .atom op v → s1.poisonAny cells = none → out = .next
           (let old : Word := BitVec.ofNat 32 (ofBytes r.2)
            (r.1.homeScatter cells (toBytes 4 ((atomOpOf (BitVec.ofNat 4 op)).apply old v).1.toNat)).respond
             req.source req.seq true [old]))))) ∧
  (∀ (s : State) (op d base limit first last n : Nat) (o : RemoteOp),
     let s1 := (s.remoteError o 1).logErr (.remoteDead o.target o.va)
     let s2 : State := { s1 with peers := { s1.peers with dead := sins s1.peers.dead o.target } }
     let s3 := (s2.peers.outstanding.filter (fun x => RemoteKind.ofQueue x.kind && x.target == o.target)).foldl
       (fun t x => t.remoteError x 1) s2
     (s.peers.outstanding.find? (fun o => o.rid == op) = some o → o.seq = some n → o.sent = some (first, last) →
       (last + nsTime 100000 ≤ s.time → exec (.remoteResend op) s = .next (s.sendOp o)) ∧
       (s.time < last + nsTime 100000 → exec (.remoteResend op) s = .next s)) ∧
     (s.peers.outstanding.find? (fun o => o.rid == op) = some o →
       o.doomed = true ∨ (o.sent = some (first, last) ∧ first + nsTime 1000000 ≤ s.time) →
       exec (.remoteTimeout op) s = .next ((s3.peers.imports.filter (fun i => i.device == o.target)).foldl
         (fun t i => t.releaseExtent i.base i.limit) s3)) ∧
     exec (.deadMarkClear d) s = .next { s with peers := { s.peers with dead := sdel s.peers.dead d } } ∧
     (∃ t, exec (.extentRelease base limit) s = .next t ∧ t = s.releaseExtent base limit ∧ (base, limit) ∈ t.peers.released ∧
       (s.extentBusy (base, limit) = false → (base, limit) ∈ t.peers.acknowledged) ∧
       ∀ req : RemoteReq, req.kind ≠ .codeFence → req.addr < limit * 2 ^ 21 → base * 2 ^ 21 < req.addr + remoteLen req.kind →
         t.peers.admits req = false))

/-- 01 R11 to R14: the oldest message of a class between two stops is delivered once it has had a slot and its latency has
passed; the injection that has waited longest for 64 ring cycles has the next slot reserved; no injection takes a slot that a
message passing through has. An uncorrectable error of a link poisons the sectors that the message brings to their home (what
else it touches, and one slot a stop, direction and ring cycle, are log entry 58). 13 R268, R269: a reset that finds a
verified root image leaves every register at its reset value and memory initialised; without a verified service image the
device is in recovery; attestation answers a report with the nonce, the versions and measurements of what is loaded, and what
has been unlocked; the service firmware starts in a sandbox with the extents that the host driver has granted; a signed
request unlocks the expert level of its port until reset, which every later report names. Memory is initialised wherever the
root image is verified (log entry 39). 02 R28, 10 R211, 13 R267: bundles are formed again at each core cycle that is a
multiple of 4, at most 1,024 of them; a bundle with an issuer that has been ready for 32,768 allowed cycles comes before any
other; a core issues in the eighths of its cycles that its throttle state gives, at most four bundles at a time. -/
def Obligations.TheRestOfThePackageTakesItsTurns : Prop :=
  (∀ (s : State) (cls : RidgeClass) (src dst stop i e now : Nat) (up : Bool) (m x : RidgeMsg),
     (s.ridge.find? (fun m => m.on cls src dst) = some m → m.entered = some e →
       e + 3 * (6 + 4 * min ((dst + 34 - src) % 34) ((src + 34 - dst) % 34)) ≤ s.time →
       exec (.ridgeMessageDeliver cls src ⟨dst, false⟩) s = .next { s with ridge := s.ridge.erase m } ∧
       exec (.ridgeMessageDeliver cls src ⟨dst, true⟩) s = .next (({ s with ridge := s.ridge.erase m } : State).linkError m)) ∧
     (m.reader = none → m.lands = [] → m.brings = false →
       s.linkError m = m.data.foldl (fun t k => if m.dst = cellStop (k * 32) then t.addPoison (k * 32) 32 4 else t) s) ∧
     (s.ridge.findIdx? (fun m => m.overdue stop up s.time) = some i → exec (.ridgeInjectionReserve stop up) s =
       .next { s with ridge := s.ridge.modify i (fun m => { m with reserved := true }) }) ∧
     (m ∈ s.ridge → m.entered = none → x ∈ s.ridge → x.slotAt now = some (m.src, m.up) → m ∈ ringCycle now s.ridge)) ∧
  (∀ (s : State) (nonce : BitVec 512) (port : Nat) (boot : Boot),
     (verifiedImage boot.root = true → exec (.deviceReset boot) s = .next { State.reset with
       agenda := s.agenda, device := s.device, fresh := s.fresh + 1, firmware := bootFirmware boot s.firmware }) ∧
     (∃ t, exec (.deviceReset boot) s = .next t ∧ t.firmware.booted = verifiedImage boot.root ∧
       (t.firmware.recovery = true ↔ ¬(verifiedImage boot.root = true ∧ verifiedImage boot.service = true)) ∧ t.blocks = [] ∧
       t.firmware.expert = [] ∧ t.firmware.everUnlocked = s.firmware.everUnlocked) ∧
     (verifiedImage boot.root = true → verifiedImage boot.service = true → ∃ t, exec (.deviceReset boot) s = .next t ∧
       t.firmware.service = some { Sandbox.closed with extents := boot.extents }) ∧
     (∃ t r, exec (.attestationRequest nonce) s = .next t ∧ t.firmware.report = some r ∧ r.nonce = nonce ∧ r.device = s.device ∧
       r.serial = Config.serialNumber ∧ r.versions = s.firmware.images.map Config.firmwareVersion ∧
       r.measurements = s.firmware.images.map Config.measurement ++ s.firmware.configs.map Config.configMeasurement ∧
       r.unlocked = s.firmware.everUnlocked ∧ r.signature = Config.signature s.fresh r.digest ∧
       t = { s with firmware := { s.firmware with report := some r }, fresh := s.fresh + 1 }) ∧
     exec (.expertUnlock port true) s = .next { s with firmware := { s.firmware with
       expert := sins s.firmware.expert port, everUnlocked := sins s.firmware.everUnlocked port } } ∧
     exec (.expertUnlock port false) s = .next s) ∧
  (∀ (s : State) (core : Nat) (x y : Bundle) (t u : Nat),
     let made := s.byKey ((s.runningOn core).flatMap (fun b => s.blockBundles b core))
     (s.cycle % 4 = 0 → exec (.bundleReformation core) s = .next { s with
       bundles := s.bundles.filter (fun b => b.core != core) ++ made.take 1024 }) ∧
     (s.aged core ≠ [] → exec (.readyAgeOverride core) s =
       .next { s with agenda := s.portTurns core ++ s.agenda.filter (fun t => !(s.portTurns core).contains t) }) ∧
     (s.agedSince x.core t = true → s.agedSince y.core u = false → keyLess (s.bundleKey x t) (s.bundleKey y u) = true) ∧
     (s.portPicks core).length ≤ 4 ∧
     (issueEighths (s.governor (stackOf core)).throttle ≤ s.cycle % 8 → s.portPicks core = []))
end

