-- ==== Sys2Proof/Laws/Sparse.lean ====
section
/-!
SUPPORT. Laws of sparse lists: reading after writing, and the canonical form that every write keeps.
-/
namespace Sys2Proof.Machine

@[simp] theorem aget_aput_self {α : Type} (m : List (Nat × α)) (k : Nat) (v : α) : aget (aput m k v) k = some v := by
  induction m with
  | nil => simp [aput, aget]
  | cons e rest ih =>
    obtain ⟨j, w⟩ := e
    simp only [aput]
    split
    · rename_i h; simp [aget, ih, Nat.ne_of_lt h]
    · split <;> simp [aget]

theorem aget_aput_ne {α : Type} (m : List (Nat × α)) {k i : Nat} (v : α) (h : i ≠ k) :
    aget (aput m k v) i = aget m i := by
  induction m with
  | nil => simp [aput, aget, Ne.symm h]
  | cons e rest ih =>
    obtain ⟨j, w⟩ := e
    simp only [aput]
    split
    · simp [aget, ih]
    · split
      · rename_i h2; subst h2; simp [aget, Ne.symm h]
      · simp [aget, Ne.symm h]

theorem sget_eq_aget {α : Type} (d : α) (m : List (Nat × α)) (k : Nat) : sget d m k = (aget m k).getD d := by
  induction m with
  | nil => rfl
  | cons e rest ih =>
    obtain ⟨j, w⟩ := e
    simp only [sget, aget]
    split <;> simp [ih]

theorem aget_adel {α : Type} (m : List (Nat × α)) (k i : Nat) :
    aget (adel m k) i = if i = k then none else aget m i := by
  induction m with
  | nil => simp [adel, aget]
  | cons e rest ih =>
    obtain ⟨j, w⟩ := e
    simp only [adel, List.filter_cons, bne_iff_ne, ne_eq] at *
    by_cases hj : j = k
    · subst hj
      simp only [not_true_eq_false, if_false, ih, aget]
      by_cases hi : i = j
      · simp [hi]
      · simp [hi, Ne.symm hi]
    · simp only [hj, not_false_eq_true, if_true, aget, ih]
      by_cases hi : i = k
      · subst hi; simp [hj]
      · simp [hi]

/-- A sparse list holds what was written. -/
@[simp] theorem sget_sput_self {α : Type} [DecidableEq α] (d : α) (m : List (Nat × α)) (k : Nat) (v : α) :
    sget d (sput d m k v) k = v := by
  unfold sput
  split
  · rename_i h; simp [sget_eq_aget, aget_adel, h]
  · simp [sget_eq_aget]

/-- A write leaves every other entry alone. -/
theorem sget_sput_ne {α : Type} [DecidableEq α] (d : α) (m : List (Nat × α)) {k i : Nat} (v : α) (h : i ≠ k) :
    sget d (sput d m k v) i = sget d m i := by
  unfold sput
  split
  · simp [sget_eq_aget, aget_adel, h]
  · simp [sget_eq_aget, aget_aput_ne _ _ h]

theorem sget_sput {α : Type} [DecidableEq α] (d : α) (m : List (Nat × α)) (k i : Nat) (v : α) :
    sget d (sput d m k v) i = if i = k then v else sget d m i := by
  by_cases h : i = k
  · simp [h]
  · simp [h, sget_sput_ne d m v h]

/-- Cells outside a written list keep their values. -/
theorem sget_writeCells_ne (regs : WordMap) (cells : List Nat) (ws : List Word) (k : Nat) (h : k ∉ cells) :
    sget 0 (writeCells regs cells ws) k = sget 0 regs k := by
  induction cells generalizing regs ws with
  | nil => simp [writeCells]
  | cons i is ih =>
    cases ws with
    | nil => simp [writeCells]
    | cons w rest =>
      simp only [List.mem_cons, not_or] at h
      rw [writeCells, ih _ _ h.2, sget_sput_ne 0 regs w h.1]

theorem writeCells_get (regs : WordMap) (cells : List Nat) (ws : List Word) (hn : cells.Nodup) (n : Nat)
    (hc : n < cells.length) (hw : n < ws.length) : sget 0 (writeCells regs cells ws) (cells[n]) = ws[n] := by
  induction cells generalizing regs ws n with
  | nil => simp at hc
  | cons i is ih =>
    cases ws with
    | nil => simp at hw
    | cons w rest =>
      simp only [List.nodup_cons] at hn
      cases n with
      | zero =>
        show sget 0 (writeCells (sput 0 regs i w) is rest) i = w
        rw [sget_writeCells_ne _ _ _ _ hn.1, sget_sput_self]
      | succ n => simpa [writeCells] using ih (sput 0 regs i w) rest hn.2 n (by simpa using hc) (by simpa using hw)

/-! The canonical form. -/

theorem Memory.wf_cons (j : Nat) (v : BitVec 8) (rest : List Host.Cell) :
    Memory.wf ((j, v) :: rest) = true ↔ v ≠ 0 ∧ (∀ e ∈ rest, j < e.1) ∧ Memory.wf rest = true := by
  induction rest generalizing j v with
  | nil => simp [Memory.wf]
  | cons e rest ih =>
    obtain ⟨k, w⟩ := e
    have := ih k w
    simp only [Memory.wf, Bool.and_eq_true, decide_eq_true_eq] at *
    constructor
    · rintro ⟨⟨h1, h2⟩, h3⟩
      refine ⟨h1, ?_, h3⟩
      intro e he
      simp only [List.mem_cons] at he
      rcases he with rfl | he
      · exact h2
      · exact Nat.lt_trans h2 ((this.1 h3).2.1 e he)
    · rintro ⟨h1, h2, h3⟩
      exact ⟨⟨h1, h2 (k, w) (by simp)⟩, h3⟩

theorem aput_mem {α : Type} {m : List (Nat × α)} {k : Nat} {v : α} {e : Nat × α} (h : e ∈ aput m k v) : e = (k, v) ∨ e ∈ m := by
  induction m with
  | nil => simpa [aput] using h
  | cons x rest ih =>
    obtain ⟨j, w⟩ := x
    simp only [aput] at h
    split at h
    · simp only [List.mem_cons] at h ⊢
      rcases h with h | h
      · exact .inr (.inl h)
      · rcases ih h with h | h <;> simp [h]
    · split at h <;> simp only [List.mem_cons] at h ⊢ <;> tauto

theorem Memory.wf_adel (m : Memory) (k : Nat) (h : Memory.wf m = true) : Memory.wf (adel m k) = true := by
  induction m with
  | nil => exact h
  | cons e rest ih =>
    obtain ⟨j, v⟩ := e
    rw [Memory.wf_cons] at h
    simp only [adel, List.filter_cons]
    split
    · rw [Memory.wf_cons]
      exact ⟨h.1, fun e he => h.2.1 e (List.mem_filter.1 he).1, ih h.2.2⟩
    · exact ih h.2.2

theorem Memory.wf_aput (m : Memory) (k : Nat) (v : Byte) (hv : v ≠ 0) (h : Memory.wf m = true) :
    Memory.wf (aput m k v) = true := by
  induction m with
  | nil => exact decide_eq_true hv
  | cons e rest ih =>
    obtain ⟨j, w⟩ := e
    have h0 := h
    rw [Memory.wf_cons] at h
    simp only [aput]
    split
    · rename_i hj
      rw [Memory.wf_cons]
      refine ⟨h.1, ?_, ih h.2.2⟩
      intro e he
      rcases aput_mem he with rfl | he
      · exact hj
      · exact h.2.1 e he
    · split
      · rename_i hj; subst hj
        rw [Memory.wf_cons]
        exact ⟨hv, h.2.1, h.2.2⟩
      · rename_i h1 h2
        rw [Memory.wf_cons]
        refine ⟨hv, ?_, h0⟩
        intro e he
        simp only [List.mem_cons] at he
        rcases he with rfl | he
        · exact Nat.lt_of_le_of_ne (Nat.le_of_not_lt h1) (Ne.symm h2)
        · exact Nat.lt_trans (Nat.lt_of_le_of_ne (Nat.le_of_not_lt h1) (Ne.symm h2)) (h.2.1 e he)

/-- Writing one entry of a memory keeps its canonical form. -/
theorem Memory.wf_sput (m : Memory) (k : Nat) (v : Byte) (h : Memory.wf m = true) : Memory.wf (sput 0 m k v) = true := by
  unfold sput
  split
  · exact Memory.wf_adel m k h
  · rename_i hv; exact Memory.wf_aput m k v hv h

/-- Writing bytes keeps the canonical form. -/
theorem Memory.wf_writeSparse (m : Memory) (lo : Nat) (bs : List Byte) (h : Memory.wf m = true) :
    Memory.wf (writeSparse m lo bs) = true := by
  induction bs generalizing m lo with
  | nil => exact h
  | cons b rest ih => exact ih _ _ (Memory.wf_sput m lo b h)

/-- Memories in canonical form that read alike are equal. -/
theorem Memory.ext_of_wf (m n : Memory) (hm : Memory.wf m = true) (hn : Memory.wf n = true)
    (h : ∀ k, sget 0 m k = sget 0 n k) : m = n := by
  have low : ∀ (l : Memory) (i : Nat), (∀ e ∈ l, i < e.1) → sget 0 l i = 0 := by
    intro l i hl
    induction l with
    | nil => rfl
    | cons e rest ih =>
      obtain ⟨j, w⟩ := e
      have := hl (j, w) (by simp)
      simp only [sget, if_neg (Nat.ne_of_gt this)]
      exact ih (fun e he => hl e (by simp [he]))
  induction m generalizing n with
  | nil =>
    cases n with
    | nil => rfl
    | cons e rest =>
      obtain ⟨j, w⟩ := e
      have := h j
      rw [Memory.wf_cons] at hn
      simp [sget] at this
      exact absurd this.symm hn.1
  | cons e rest ih =>
    obtain ⟨j, v⟩ := e
    rw [Memory.wf_cons] at hm
    cases n with
    | nil =>
      have := h j
      simp [sget] at this
      exact absurd this hm.1
    | cons x rest2 =>
      obtain ⟨k, w⟩ := x
      rw [Memory.wf_cons] at hn
      rcases Nat.lt_trichotomy j k with hjk | hjk | hjk
      · have := h j
        simp only [sget, if_true, if_neg (Nat.ne_of_gt hjk)] at this
        rw [low rest2 j (fun e he => Nat.lt_trans hjk (hn.2.1 e he))] at this
        exact absurd this hm.1
      · subst hjk
        have h1 := h j
        simp only [sget, if_true] at h1
        subst h1
        have : rest = rest2 := ih rest2 hm.2.2 hn.2.2 (fun i => by
          have := h i
          simp only [sget] at this
          by_cases hi : j = i
          · subst hi
            rw [low rest j hm.2.1, low rest2 j hn.2.1]
          · simpa [hi] using this)
        rw [this]
      · have := h k
        simp only [sget, if_true, if_neg (Nat.ne_of_gt hjk)] at this
        rw [low rest k (fun e he => Nat.lt_trans hjk (hm.2.1 e he))] at this
        exact absurd this.symm hn.1

end Sys2Proof.Machine
end

