-- ==== Sys2Proof/Laws/Blocks.lean ====
section
/-!
SUPPORT. Laws of blocks and contexts: what reading one finds after another has been changed.
-/
namespace Sys2Proof.Machine

theorem find_map_bid (bs : List Block) (bid n : Nat) (f : Block → Block) (hf : ∀ b, (f b).bid = b.bid) :
    (bs.map (fun x => if x.bid = bid then f x else x)).find? (fun b => b.bid == n) =
      (bs.find? (fun b => b.bid == n)).map (fun x => if x.bid = bid then f x else x) := by
  induction bs with
  | nil => rfl
  | cons b rest ih =>
    have hb : (if b.bid = bid then f b else b).bid = b.bid := by split <;> simp [hf]
    simp only [List.map_cons, List.find?_cons, hb]
    split
    · rfl
    · exact ih

/-- A changed block is found changed, another as it was. -/
theorem block_modBlock (s : State) (bid n : Nat) (f : Block → Block) (hf : ∀ b, (f b).bid = b.bid) :
    (s.modBlock bid f).block? n = (s.block? n).map (fun x => if x.bid = bid then f x else x) :=
  find_map_bid s.blocks bid n f hf

theorem block_bid {s : State} {n : Nat} {b : Block} (h : s.block? n = some b) : b.bid = n := by
  have := List.find?_some h
  simpa using this

theorem block_modBlock_self {s : State} {n : Nat} {b : Block} (f : Block → Block) (hf : ∀ b, (f b).bid = b.bid)
    (h : s.block? n = some b) : (s.modBlock n f).block? n = some (f b) := by
  rw [block_modBlock s n n f hf, h]
  simp [block_bid h]

theorem block_modBlock_ne (s : State) {bid n : Nat} (f : Block → Block) (hf : ∀ b, (f b).bid = b.bid) (h : n ≠ bid) :
    (s.modBlock bid f).block? n = s.block? n := by
  rw [block_modBlock s bid n f hf]
  cases hb : s.block? n with
  | none => rfl
  | some b => simp [block_bid hb, h]

@[simp] theorem setCtx_bid (b : Block) (w : Who) (c : Ctx) : (b.setCtx w c).bid = b.bid := by cases w <;> rfl

@[simp] theorem modCtx_bid (b : Block) (w : Who) (f : Ctx → Ctx) : (b.modCtx w f).bid = b.bid := by
  unfold Block.modCtx; split <;> simp

@[simp] theorem freeUq_bid (b : Block) : b.freeUq.bid = b.bid := by unfold Block.freeUq; dsimp only; split <;> rfl

theorem ctx_setCtx_self (b : Block) (w : Who) (c : Ctx) : (b.setCtx w c).ctx? w = some c := by
  cases w <;> simp [Block.setCtx, Block.ctx?]

theorem ctx_setCtx_ne (b : Block) {w v : Who} (c : Ctx) (h : v ≠ w) : (b.setCtx w c).ctx? v = b.ctx? v := by
  cases w <;> cases v <;> simp_all [Block.setCtx, Block.ctx?, aget_aput_ne]

theorem ctx_modCtx_self {b : Block} {w : Who} {c : Ctx} (f : Ctx → Ctx) (h : b.ctx? w = some c) :
    (b.modCtx w f).ctx? w = some (f c) := by simp [Block.modCtx, h, ctx_setCtx_self]

theorem ctx_modCtx_ne (b : Block) {w v : Who} (f : Ctx → Ctx) (h : v ≠ w) : (b.modCtx w f).ctx? v = b.ctx? v := by
  unfold Block.modCtx; split
  · rfl
  · exact ctx_setCtx_ne b _ h

@[simp] theorem ctx_freeUq (b : Block) (w : Who) : b.freeUq.ctx? w = b.ctx? w := by
  unfold Block.freeUq; dsimp only; split
  · rfl
  · cases w <;> rfl

/-- The issuer's environment is its block and its context in that block. -/
theorem env_spec {s : State} {e : Env} (h : s.env? = some e) :
    s.issuer = some (e.bid, e.who) ∧ s.block? e.bid = some e.blk ∧ e.blk.ctx? e.who = some e.ctx := by
  unfold State.env? at h
  split at h
  · cases h
  · rename_i bid who hi
    unfold State.envOf at h
    split at h
    · cases h
    · rename_i b hb
      split at h
      · cases h
      · rename_i c hc
        cases h
        have := block_bid hb
        refine ⟨?_, ?_, hc⟩
        · simp [hi, Env.bid, this]
        · simpa [Env.bid, this] using hb

theorem envOf_of {s : State} {e : Env} (h : s.env? = some e) : s.envOf e.bid e.who = some e := by
  obtain ⟨_, h2, h3⟩ := env_spec h
  simp [State.envOf, h2, h3]

theorem again_self {s : State} {e : Env} (h : s.env? = some e) : e.again s = e := by
  simp [Env.again, envOf_of h]

end Sys2Proof.Machine
end

