-- ==== Sys2Proof/Laws/Codec.lean ====
section
/-!
SUPPORT. Fields of encoded words: what the decoder's field readers give on the encoder's codes.
-/
namespace Sys2Proof

/-- A truth value encoded in one bit reads back. -/
@[simp] theorem bitSet_ofBool (b : Bool) : bitSet (BitVec.ofBool b) = b := by cases b <;> rfl

/-- A guard's code reads back (14 R272). -/
@[simp] theorem Guard.ofBits_bits (g : Guard) : Guard.ofBits g.bits = g := by cases g <;> rfl

/-- The four bytes of a word make up that word (00 R2). -/
@[simp] theorem wordOfBytes_bytesOfWord (w : Word) :
    wordOfBytes (w.extractLsb' 0 8) (w.extractLsb' 8 8) (w.extractLsb' 16 8) (w.extractLsb' 24 8) = w := by
  have h3 : w.extractLsb' 24 8 ++ w.extractLsb' 16 8 = w.extractLsb' 16 16 :=
    BitVec.extractLsb'_append_extractLsb'_eq_extractLsb' rfl
  have h2 : w.extractLsb' 16 16 ++ w.extractLsb' 8 8 = w.extractLsb' 8 24 :=
    BitVec.extractLsb'_append_extractLsb'_eq_extractLsb' rfl
  have h1 : w.extractLsb' 8 24 ++ w.extractLsb' 0 8 = w.extractLsb' 0 32 :=
    BitVec.extractLsb'_append_extractLsb'_eq_extractLsb' rfl
  rw [wordOfBytes, h3, h2, h1]
  exact BitVec.extractLsb'_eq_self

/-- Decoding the bytes of a word decodes the word. -/
theorem decode_bytesOfWord (w : Word) (rest : List Byte) :
    decode (bytesOfWord w ++ rest) = (decodeWord w).map (fun i => (i, rest)) := by
  simp [decode, bytesOfWord]

/-- Bits of a concatenation that lie in its low part. -/
theorem Laws.Codec.low {n m k l : Nat} {x : BitVec n} {y : BitVec m} (h : k + l ≤ m) :
    (x ++ y).extractLsb' k l = y.extractLsb' k l := BitVec.extractLsb'_append_eq_of_add_le h

/-- Bits of a concatenation that lie in its high part. -/
theorem Laws.Codec.high {n m k l : Nat} {x : BitVec n} {y : BitVec m} (h : m ≤ k) :
    (x ++ y).extractLsb' k l = x.extractLsb' (k - m) l := BitVec.extractLsb'_append_eq_of_le h

/-- All bits of a field. -/
theorem Laws.Codec.whole {n : Nat} {x : BitVec n} : x.extractLsb' 0 n = x := BitVec.extractLsb'_eq_self

end Sys2Proof
end

