-- ==== Sys2Proof/Laws/Memory.lean ====
section
/-!
SUPPORT. What the memory operations keep: each keeps the canonical form of memory (05 R116) and changes no mapping region, no
aperture window and no governor register. A claim about an instruction cites the law of the operation that it calls.
-/
namespace Sys2Proof.Machine

/-- From s to t the canonical form of memory is kept, and what else carries an invariant is unchanged. -/
structure Preserves (s t : State) : Prop where
  mem : Memory.wf s.mem = true → Memory.wf t.mem = true
  amap : t.amap = s.amap
  apwin : t.apwin = s.apwin
  cap : t.gvCap = s.gvCap
  governors : t.governors = s.governors

namespace Preserves

theorem refl (s : State) : Preserves s s := ⟨id, rfl, rfl, rfl, rfl⟩

theorem trans {s t u : State} (h : Preserves s t) (k : Preserves t u) : Preserves s u :=
  ⟨fun w => k.mem (h.mem w), k.amap.trans h.amap, k.apwin.trans h.apwin, k.cap.trans h.cap, k.governors.trans h.governors⟩

/-- A state whose memory and invariant-carrying fields are the same. -/
theorem of_eq {s t : State} (m : t.mem = s.mem) (a : t.amap = s.amap) (w : t.apwin = s.apwin) (c : t.gvCap = s.gvCap)
    (g : t.governors = s.governors) : Preserves s t := ⟨fun h => m ▸ h, a, w, c, g⟩

/-- What every step of a fold keeps, the fold keeps. -/
theorem foldl {α : Type} (f : State → α → State) (h : ∀ s x, Preserves s (f s x)) (l : List α) (s : State) :
    Preserves s (l.foldl f s) := by
  induction l generalizing s with
  | nil => exact Preserves.refl s
  | cons x l ih => exact (h s x).trans (ih (f s x))

end Preserves

open Preserves

theorem State.preserves_dramPut (s : State) (c : Nat) (b : Byte) : Preserves s (s.dramPut c b) :=
  ⟨Memory.wf_sput s.mem c b, rfl, rfl, rfl, rfl⟩

theorem State.preserves_dramWrite (s : State) (c : Nat) (bs : List Byte) : Preserves s (s.dramWrite c bs) := by
  induction bs generalizing s c with
  | nil => exact Preserves.refl s
  | cons b bs ih => exact (s.preserves_dramPut c b).trans (ih (s.dramPut c b) (c + 1))

theorem State.preserves_scPut (s : State) (l : Line) : Preserves s (s.scPut l) := of_eq rfl rfl rfl rfl rfl

theorem State.preserves_noteDram (s : State) (unit : Nat) (cls : DramClass) (rd : Bool := false) (to_ : Option Nat := none) :
    Preserves s (s.noteDram unit cls rd to_) :=
  of_eq rfl rfl rfl rfl rfl

theorem State.preserves_msideTouch (s : State) (unit : Nat) : Preserves s (s.msideTouch unit) := of_eq rfl rfl rfl rfl rfl

theorem State.preserves_msideDrop (s : State) (unit : Nat) : Preserves s (s.msideDrop unit) := by
  unfold State.msideDrop
  dsimp only
  split
  · exact Preserves.refl s
  · exact of_eq rfl rfl rfl rfl rfl

theorem State.preserves_scClean (s : State) (l : Line) : Preserves s (s.scClean l) := by
  unfold State.scClean
  extract_lets s1 s2
  have h1 : Preserves s s1 := by
    refine Preserves.foldl _ ?_ _ s
    intro t i
    split
    · exact t.preserves_dramPut _ _
    · exact Preserves.refl t
  refine (h1.trans ?_).trans (State.preserves_scPut _ _)
  show Preserves s1 (if l.dirty = 0 then s1 else (s1.noteDram l.tag .normal).msideTouch l.tag)
  split
  · exact Preserves.refl s1
  · exact (s1.preserves_noteDram _ _ _ _).trans (State.preserves_msideTouch _ _)

theorem State.preserves_scDrop (s : State) (l : Line) : Preserves s (s.scDrop l) :=
  (s.preserves_scClean l).trans (of_eq rfl rfl rfl rfl rfl)

theorem State.preserves_scRoom (s : State) (unit : Nat) : Preserves s (s.scRoom unit) := by
  unfold State.scRoom
  dsimp only
  split
  · exact Preserves.refl s
  · split
    · exact Preserves.refl s
    · exact s.preserves_scDrop _

theorem State.preserves_scFill (s : State) (unit : Nat) : Preserves s (s.scFill unit) := by
  unfold State.scFill
  split
  · exact Preserves.refl s
  · exact (((s.preserves_scRoom unit).trans (State.preserves_noteDram _ _ _ _ _)).trans (State.preserves_msideTouch _ _)).trans
      (State.preserves_scPut _ _)

theorem State.preserves_clearPoison (s : State) (c n : Nat) : Preserves s (s.clearPoison c n) := of_eq rfl rfl rfl rfl rfl

theorem State.preserves_addPoison (s : State) (c n o : Nat) : Preserves s (s.addPoison c n o) := of_eq rfl rfl rfl rfl rfl

theorem State.preserves_homeWrite (s : State) (c : Nat) (bs : List Byte) : Preserves s (s.homeWrite c bs) := by
  unfold State.homeWrite
  dsimp only
  refine Preserves.trans ?_ (State.preserves_clearPoison _ c bs.length)
  split
  · exact s.preserves_scPut _
  · exact s.preserves_dramWrite c bs

theorem State.preserves_ridgeSend (s : State) (rc : RidgeClass) (a b : Nat) (data : List Nat) (to_ : Option Nat := none) :
    Preserves s (s.ridgeSend rc a b data to_) := by
  unfold State.ridgeSend
  split
  · exact Preserves.refl s
  · exact of_eq rfl rfl rfl rfl rfl

theorem State.preserves_note (s : State) (core c n : Nat) (cls : DramClass) (rc : RidgeClass) :
    Preserves s (s.note core c n cls rc) := by
  exact (s.preserves_noteDram _ _ _ _).trans (State.preserves_ridgeSend _ _ _ _ _ _)

/-- Reading at a home sends its request and its response. -/
theorem State.preserves_noteRead (s : State) (core c n : Nat) (cls : DramClass) : Preserves s (s.noteRead core c n cls) :=
  ((s.preserves_noteDram _ _ _ _).trans (State.preserves_ridgeSend _ _ _ _ _ _)).trans (State.preserves_ridgeSend _ _ _ _ _ _)

theorem State.preserves_putBytes (s : State) (unc : Bool) (c : Nat) (bs : List Byte) : Preserves s (s.putBytes unc c bs) := by
  unfold State.putBytes
  split
  · exact (s.preserves_dramWrite c bs).trans (State.preserves_clearPoison _ _ _)
  · exact s.preserves_homeWrite c bs

theorem State.preserves_sendAgent (s : State) (f : QFrom) (h : DWord) (q : Nat) (p : List Byte) :
    Preserves s (s.sendAgent f h q p) := of_eq rfl rfl rfl rfl rfl

theorem State.preserves_sendRecord (s : State) (q : Nat) (r : FaultRec) : Preserves s (s.sendRecord q r) :=
  s.preserves_sendAgent _ _ _ _

theorem State.preserves_combineAt (s : State) (unc : Bool) (l : Line) : Preserves s (s.combineAt unc l) := by
  unfold State.combineAt
  split
  · exact Preserves.refl s
  · refine Preserves.foldl _ ?_ _ s
    intro t off
    dsimp only
    split
    · exact Preserves.refl t
    · split
      · exact Preserves.foldl _ (fun u g => u.preserves_sendRecord _ _) _ t
      · exact (t.preserves_note _ _ _ _ _).trans (State.preserves_putBytes _ _ _ _)

theorem State.preserves_combineLine (s : State) (l : Line) : Preserves s (s.combineLine l) := s.preserves_combineAt false l

theorem State.preserves_l1Drop (s : State) (core tag : Nat) : Preserves s (s.l1Drop core tag) := of_eq rfl rfl rfl rfl rfl

theorem State.preserves_recall (s : State) (unit : Nat) : Preserves s (s.recall unit) := by
  unfold State.recall
  split
  · exact Preserves.refl s
  · refine Preserves.trans (t := { s with fresh := s.fresh + _ }) (of_eq rfl rfl rfl rfl rfl) (Preserves.foldl _ ?_ _ _)
    intro t l
    exact (t.preserves_combineLine l).trans (State.preserves_l1Drop _ _ _)

theorem State.preserves_recallAll (s : State) (cells : List (Nat × Nat)) : Preserves s (s.recallAll cells) :=
  Preserves.foldl _ (fun t _ => t.preserves_recall _) cells s

theorem State.preserves_l1Put (s : State) (l : Line) : Preserves s (s.l1Put l) := of_eq rfl rfl rfl rfl rfl

theorem State.preserves_notes (s : State) (core : Nat) (cells : List (Nat × Nat)) (cls : DramClass) (rc : RidgeClass) :
    Preserves s (cells.foldl (fun t p => t.note core p.1 p.2 cls rc) s) := by
  induction cells generalizing s with
  | nil => exact Preserves.refl s
  | cons p cells ih => exact (s.preserves_note core p.1 p.2 cls rc).trans (ih (s.note core p.1 p.2 cls rc))

theorem State.preserves_noteReads (s : State) (core : Nat) (cells : List (Nat × Nat)) (cls : DramClass) :
    Preserves s (cells.foldl (fun t p => t.noteRead core p.1 p.2 cls) s) :=
  Preserves.foldl _ (fun t _ => t.preserves_noteRead _ _ _ _) cells s

theorem State.preserves_homeRead (s : State) (core : Nat) (cells : List (Nat × Nat)) (cls : DramClass) :
    Preserves s (s.homeRead core cells cls).1 :=
  (s.preserves_recallAll cells).trans (State.preserves_noteReads _ core cells cls)

theorem State.preserves_homeGet (s : State) (unc : Bool) (core : Nat) (cells : List (Nat × Nat)) (cls : DramClass) :
    Preserves s (s.homeGet unc core cells cls).1 := by
  unfold State.homeGet
  split
  · exact ((s.preserves_recallAll cells).trans (State.preserves_noteReads _ core cells cls)).trans (of_eq rfl rfl rfl rfl rfl)
  · exact s.preserves_homeRead core cells cls

theorem State.preserves_homeScatter (s : State) (cells : List (Nat × Nat)) (bs : List Byte) :
    Preserves s (s.homeScatter cells bs) := by
  induction cells generalizing s bs with
  | nil => exact Preserves.refl s
  | cons p cells ih => exact (s.preserves_homeWrite _ _).trans (ih _ _)

theorem State.preserves_homeStore (s : State) (core : Nat) (cells : List (Nat × Nat)) (bs : List Byte) (cls : DramClass) :
    Preserves s (s.homeStore core cells bs cls) :=
  ((s.preserves_recallAll cells).trans (State.preserves_notes _ core cells cls .memory)).trans
    (State.preserves_homeScatter _ cells bs)

theorem State.preserves_dramScatter (s : State) (cells : List (Nat × Nat)) (bs : List Byte) :
    Preserves s (s.dramScatter cells bs) := by
  induction cells generalizing s bs with
  | nil => exact Preserves.refl s
  | cons p cells ih => exact (s.preserves_putBytes _ _ _).trans (ih _ _)

theorem State.preserves_homeSet (s : State) (unc : Bool) (core : Nat) (cells : List (Nat × Nat)) (bs : List Byte)
    (cls : DramClass) : Preserves s (s.homeSet unc core cells bs cls) := by
  unfold State.homeSet
  split
  · exact ((s.preserves_recallAll cells).trans (State.preserves_notes _ core cells cls .memory)).trans
      (State.preserves_dramScatter _ cells bs)
  · exact s.preserves_homeStore core cells bs cls

theorem State.preserves_writeSector (s : State) (l : Line) (k : Nat) : Preserves s (s.writeSector l k) := by
  unfold State.writeSector
  split
  · exact Preserves.refl s
  · rename_i c _
    extract_lets s1 s2
    have h1 : Preserves s s1 := s.preserves_recall (c / 64)
    have h2 : Preserves s s2 := by
      refine h1.trans ?_
      show Preserves s1 (if bits l.dirty (32 * k) 32 = 2 ^ 32 - 1 then s1.homeWrite c (readSparse l.bytes (32 * k) 32)
        else (List.range 32).foldl (fun t i =>
          if bitAt l.dirty (32 * k + i) then t.homeWrite (c + i) [sget 0 l.bytes (32 * k + i)] else t) s1)
      split
      · exact s1.preserves_homeWrite _ _
      · refine Preserves.foldl _ ?_ _ s1
        intro t i
        split
        · exact t.preserves_homeWrite _ _
        · exact Preserves.refl t
    split
    · exact h2.trans (State.preserves_addPoison _ _ _ _)
    · exact h2

theorem State.preserves_noteBack (s : State) (l : Line) (u : Nat) : Preserves s (s.noteBack l u) := by
  unfold State.noteBack
  split
  · exact Preserves.refl s
  · dsimp only
    split
    · exact Preserves.refl s
    · exact (s.preserves_noteDram _ _ _ _).trans (State.preserves_ridgeSend _ _ _ _ _ _)

theorem State.preserves_writeBack (s : State) (l : Line) : Preserves s (s.writeBack l) := by
  unfold State.writeBack
  extract_lets s1
  have h1 : Preserves s s1 := by
    refine Preserves.foldl _ ?_ (List.range 4) s
    intro t k
    split
    · exact Preserves.refl t
    · exact t.preserves_writeSector l k
  split
  · exact Preserves.refl s
  · exact h1.trans ((Preserves.foldl _ (fun t u => t.preserves_noteBack l u) [0, 1] s1).trans (State.preserves_l1Put _ _))

theorem State.preserves_pushLine (s : State) (l : Line) : Preserves s (s.pushLine l) := by
  unfold State.pushLine
  split
  · exact (s.preserves_combineLine l).trans (State.preserves_l1Drop _ _ _)
  · exact s.preserves_writeBack l

theorem State.preserves_pushCore (s : State) (core : Nat) : Preserves s (s.pushCore core) :=
  Preserves.foldl _ (fun t l => t.preserves_pushLine l) _ s

theorem State.preserves_dropClean (s : State) (core : Nat) : Preserves s (s.dropClean core) := of_eq rfl rfl rfl rfl rfl

theorem State.preserves_evictFor (s : State) (core pa : Nat) : Preserves s (s.evictFor core pa) := by
  unfold State.evictFor
  split
  · exact Preserves.refl s
  · exact (s.preserves_pushLine _).trans (State.preserves_l1Drop _ _ _)

theorem State.preserves_l1Room (s : State) (core tag : Nat) : Preserves s (s.l1Room core tag) := by
  unfold State.l1Room
  dsimp only
  split
  · exact Preserves.refl s
  · split
    · exact Preserves.refl s
    · exact (s.preserves_pushLine _).trans (State.preserves_l1Drop _ _ _)

theorem State.preserves_l1Fill (s : State) (core tag : Nat) : Preserves s (s.l1Fill core tag) := by
  unfold State.l1Fill
  extract_lets s0
  have h0 : Preserves s s0 := by
    show Preserves s (match s.l1Find core tag with
      | some l => if l.red.isSome then s.pushLine l else s
      | none => s.l1Room core tag)
    split
    · split
      · exact s.preserves_pushLine _
      · exact Preserves.refl s
    · exact s.preserves_l1Room core tag
  refine h0.trans ?_
  split
  · exact Preserves.refl s0
  · exact (s0.preserves_homeRead core _ .normal).trans (State.preserves_l1Put _ _)

theorem State.preserves_l1Read (s : State) (core pa n : Nat) : Preserves s (s.l1Read core pa n).1 := by
  have h : ∀ b : Bool, Preserves s (if b then s else s.l1Fill core (pa / 128)) := by
    intro b
    cases b
    · exact s.preserves_l1Fill core (pa / 128)
    · exact Preserves.refl s
  unfold State.l1Read
  dsimp only
  split <;> exact h _

theorem State.preserves_l1Write (s : State) (core pa : Nat) (bs : List Byte) : Preserves s (s.l1Write core pa bs) := by
  unfold State.l1Write
  dsimp only
  refine Preserves.trans ?_ (State.preserves_l1Put _ _)
  split
  · split
    · exact s.preserves_pushLine _
    · exact Preserves.refl s
  · exact s.preserves_l1Room _ _

theorem State.preserves_l1Install (s : State) (core pa : Nat) (bs : List Byte) : Preserves s (s.l1Install core pa bs) :=
  (s.preserves_l1Room _ _).trans (State.preserves_l1Put _ _)

theorem State.preserves_recallOthers (s : State) (tag : Nat) (op : AtomOp) : Preserves s (s.recallOthers tag op) := by
  refine Preserves.foldl _ ?_ _ s
  intro t pa
  split
  · exact Preserves.refl t
  · split
    · exact t.preserves_recall _
    · exact Preserves.refl t

theorem State.preserves_l1Red (s : State) (core pa : Nat) (op : AtomOp) (g : Gathered) : Preserves s (s.l1Red core pa op g) := by
  unfold State.l1Red
  dsimp only
  refine Preserves.trans (s.preserves_recallOthers (pa / 128) op) (Preserves.trans ?_ (State.preserves_l1Put _ _))
  split
  · split
    · exact Preserves.refl _
    · exact (State.preserves_pushLine _ _).trans (State.preserves_l1Drop _ _ _)
  · exact State.preserves_l1Room _ _ _

theorem State.preserves_readPte (s : State) (core pa : Nat) : Preserves s (s.readPte core pa).1 := by
  unfold State.readPte
  split
  · exact Preserves.refl s
  · split
    · exact Preserves.refl s
    · rename_i cells hc
      dsimp only
      split <;> exact s.preserves_homeRead core cells .normal

theorem State.preserves_walkFrom (s : State) (core asn va level table : Nat) :
    Preserves s (s.walkFrom core asn va level table).1 := by
  induction level generalizing s table with
  | zero =>
    unfold State.walkFrom
    dsimp only
    split
    · exact s.preserves_readPte _ _
    · repeat' split
      all_goals first
        | exact s.preserves_readPte _ _
        | exact (s.preserves_readPte _ _).trans (of_eq rfl rfl rfl rfl rfl)
  | succ level ih =>
    unfold State.walkFrom
    dsimp only
    split
    · exact s.preserves_readPte _ _
    · repeat' split
      all_goals first
        | exact s.preserves_readPte _ _
        | (refine ((s.preserves_readPte core (table + 8 * walkIndex (level + 1) va)).trans ?_).trans (ih _ _)
           exact of_eq rfl rfl rfl rfl rfl)

theorem State.preserves_translate (s : State) (sp : Space) (va : Nat) : Preserves s (s.translate sp va).1 := by
  unfold State.translate
  split
  · exact Preserves.refl s
  · dsimp only
    split
    · exact s.preserves_walkFrom _ _ _ _ _
    · exact (s.preserves_walkFrom _ _ _ _ _).trans (of_eq rfl rfl rfl rfl rfl)

theorem State.preserves_translateAll (s : State) (sp : Space) (parts : List (Nat × Nat)) :
    Preserves s (s.translateAll sp parts).1 := by
  induction parts generalizing s with
  | nil => exact Preserves.refl s
  | cons p rest ih =>
    unfold State.translateAll
    dsimp only
    split
    · exact s.preserves_translate _ _
    · split <;> exact (s.preserves_translate _ _).trans (ih _)

theorem State.preserves_pieces (s : State) (sp : Space) (va n : Nat) (need : Need) : Preserves s (s.pieces sp va n need).1 := by
  unfold State.pieces
  dsimp only
  split
  · exact Preserves.refl s
  · split
    · exact s.preserves_translateAll _ _
    · split <;> exact s.preserves_translateAll _ _

theorem State.preserves_readPiece (s : State) (core : Nat) (p : Piece) : Preserves s (s.readPiece core p).1 := by
  unfold State.readPiece
  split
  · dsimp only
    split
    · exact Preserves.refl s
    · exact s.preserves_homeGet _ _ _ _
  · dsimp only
    split <;> exact s.preserves_l1Read _ _ _

theorem State.preserves_readPieces (s : State) (core : Nat) (buf : List SbEntry) (ps : List Piece) :
    Preserves s (s.readPieces core buf ps).1 := by
  induction ps generalizing s with
  | nil => exact Preserves.refl s
  | cons p rest ih =>
    unfold State.readPieces
    dsimp only
    have h : Preserves s (if (span p.va p.len).map (bufferByte buf) |>.all Option.isSome
        then (s, Except.ok (List.replicate p.len 0)) else s.readPiece core p).1 := by
      split
      · exact Preserves.refl s
      · exact s.preserves_readPiece core p
    split
    · exact h
    · split <;> exact h.trans (ih _)

theorem State.preserves_readHome (s : State) (core : Nat) (ps : List Piece) (cls : DramClass) :
    Preserves s (s.readHome core ps cls).1 := by
  induction ps generalizing s with
  | nil => exact Preserves.refl s
  | cons p rest ih =>
    unfold State.readHome
    dsimp only
    split
    · exact s.preserves_homeGet _ _ _ _
    · split <;> exact (s.preserves_homeGet _ _ _ _).trans (ih _)

theorem State.preserves_writeHome (s : State) (core : Nat) (ps : List Piece) (bs : List Byte) (cls : DramClass) :
    Preserves s (s.writeHome core ps bs cls) := by
  induction ps generalizing s bs with
  | nil => exact Preserves.refl s
  | cons p rest ih =>
    unfold State.writeHome
    dsimp only
    exact (s.preserves_homeSet _ _ _ _ _).trans (ih _ _)

/-- The memory of the machine after reset is in canonical form: it lists nothing. -/
theorem State.reset_mem_wf : Memory.wf State.reset.mem = true := rfl

end Sys2Proof.Machine
end

