-- ==== Sys2Proof/Laws/Invariant.lean ====
section
/-!
SUPPORT. What keeps a state legal (05 R107, R108, R110; 13 R267): whatever keeps memory in its form and the registers as they are,
and the few updates that change such a register.
-/
namespace Sys2Proof.Machine

/-- Legality, part by part. -/
theorem State.legal_iff (s : State) : s.Legal ↔ Memory.wf s.mem = true ∧ (∀ e ∈ s.amap, e.2.legal = true) ∧ s.apwin < 64 ∧
    s.gvCap ≤ 1500 ∧ ∀ e ∈ s.governors, e.2.legal = true := by
  simp [State.Legal, legalFields, and_assoc]

/-- What preserves memory's form and the registers that carry an invariant keeps a state legal. -/
theorem Preserves.legal {s t : State} (h : Preserves s t) (k : s.Legal) : t.Legal := by
  rw [State.legal_iff] at *
  rw [h.amap, h.apwin, h.cap, h.governors]
  exact ⟨h.mem k.1, k.2⟩

/-- What a governor remembers does not bear on its legality. -/
theorem Governor.legal_remember (g old : Governor) (now : Nat) : (g.remember old now).legal = g.legal := by
  unfold Governor.remember; split <;> rfl

theorem State.legal_setGovernor {s : State} {n : Nat} {g : Governor} (h : s.Legal) (hg : g.legal = true) :
    (s.setGovernor n g).Legal := by
  rw [State.legal_iff] at *
  refine ⟨h.1, h.2.1, h.2.2.1, h.2.2.2.1, fun e he => ?_⟩
  rcases aput_mem he with rfl | he
  · exact (Governor.legal_remember _ _ _).trans hg
  · exact h.2.2.2.2 e he

theorem State.legal_setRegion {s : State} {n : Nat} {r : Region} (h : s.Legal) (hr : r.legal = true) :
    (s.setRegion n r).Legal := by
  rw [State.legal_iff] at *
  refine ⟨h.1, fun e he => ?_, h.2.2⟩
  rcases aput_mem he with rfl | he
  · exact hr
  · exact h.2.1 e he

theorem State.legal_setGvCtl {s : State} (v : Nat) (h : s.Legal) : (s.setGvCtl v).Legal := by
  rw [State.legal_iff] at *
  exact ⟨h.1, h.2.1, h.2.2.1, Nat.min_le_left _ _, h.2.2.2.2⟩

end Sys2Proof.Machine
end

