-- ==== Sys2Proof/Laws/Issue.lean ====
section
/-!
SUPPORT. What issuing an instruction comes to (14 R274): one lemma for an instruction that passes its checks, one for each thing
its operation can come to, and what retirement leaves.
-/
namespace Sys2Proof.Machine

/-- An operation that loads nothing late and an instruction whose late slots let its issuer pass: no late match. -/
theorem late_nil {s : State} {e : Env} {i : Instr} (h : s.watchesLate e i = false) {ld : Option SeenValue} {ra : FpFlags}
    (hl : ld.isSome = true → showsLoad i = true) :
    s.matches e { Seen.at e.ctx.pc with loaded := ld, raised := if isFp i then some ra else none } [5, 6] = [] := by
  unfold State.matches
  unfold State.watchesLate at h
  split
  · rfl
  · rename_i hw
    rw [Bool.not_eq_true] at hw
    simp only [hw, Bool.not_false, Bool.true_and, List.any_eq_false] at h
    rw [List.filterMap_eq_nil_iff]
    intro p hp
    have hp' := h p hp
    split
    · rename_i hc
      simp only [List.contains_cons, List.contains_nil, Bool.or_false, Bool.and_eq_true, Bool.or_eq_true, beq_iff_eq] at hc
      simp only [hc.2, Bool.true_and, Bool.or_eq_true, Bool.and_eq_true, decide_eq_true_eq, not_or, not_and] at hp'
      rcases hc.1 with hk | hk
      · have : ld = none := by
          cases ld with
          | none => rfl
          | some x => exact absurd (hl rfl) (hp'.1 hk)
        simp [Watch.sees, hk, this]
      · have : isFp i = false := by simpa using hp'.2 hk
        simp [Watch.sees, hk, this]
    · rfl

@[simp] theorem acting_nil (s : State) (e : Env) : s.acting e [] = none := by unfold State.acting; split <;> simp

/-- With every source full, every source is known. -/
theorem knownSrcs_full {f : Form} {e : Env} (h : firstMissing e f.srcs 0 = none) : f.srcs.take (knownSrcs f e) = f.srcs := by
  unfold knownSrcs
  rw [List.range_succ, List.filter_append]
  simp [h]

/-- An operand check that passes leaves no source missing. -/
theorem srcs_full {f : Form} {e : Env} (h : operandCheck f e = none) : firstMissing e f.srcs 0 = none := by
  unfold operandCheck at h
  split at h
  · split at h <;> cases h
  · split at h <;> cases h
  · assumption

theorem checkIssue_go {s : State} {e : Env} {i : Instr} {vals : List Nat} (h : Issues s e i vals) :
    checkIssue s i (e.form i) e = .go vals [] := by
  obtain ⟨⟨_, h1, h2, h3, h4, h5⟩, hs, _⟩ := h
  have hs : (if e.ctx.issued = true then [] else s.matches e (s.seenBefore e i vals) [1, 2, 3, 4, 7, 8]) = [] := hs
  unfold checkIssue
  simp only [h1, h2, h3, h4, knownSrcs_full (srcs_full h3), h5, hs, acting_nil, Bool.not_true, Bool.false_eq_true, if_false]

/-- An instruction that passes its checks performs its operation on its sources. -/
theorem issue_go {s : State} {e : Env} {i : Instr} {vals : List Nat} (h : Issues s e i vals)
    (body : Env → List Nat → State → Act) :
    issue i body s = .next (s.settle i e (e.form i) [] (body e vals s)) := by
  have hu : s.unhold e = s := by simp [State.unhold, h.1.1.2]
  simp only [issue, h.1.1.1, hu, again_self h.1.1.1, State.perform, checkIssue_go h]

/-- An operation that is done retires its instruction. -/
theorem settle_done {s : State} {e : Env} {i : Instr} (h : s.watchesLate e i = false) {d : Done}
    (hl : d.loaded.isSome = true → showsLoad i = true) :
    s.settle i e (e.form i) [] (.done d) = s.retired e i d := by
  simp [State.settle, late_nil h hl, State.retired]

/-- A wait in which no step stalls holds the instruction at its PC. -/
theorem settle_wait (s : State) (i : Instr) (e : Env) (f : Form) (t : State) {w : Wait}
    (h : (e.ctx.halt.stepper.isSome && w.stalls) = false) : s.settle i e f [] (.wait t w) = t.stay i e f w := by
  have : t.countBegun e [] w = t := by unfold State.countBegun; split <;> rfl
  simp [State.settle, h, this]

theorem settle_trap (s : State) (i : Instr) (e : Env) (f : Form) (t : State) (x : Trap) :
    s.settle i e f [] (.trap t x) = t.issueTrap i e f x := rfl

/-- An instruction whose operation is done completes. -/
theorem issue_done {s : State} {e : Env} {i : Instr} {vals : List Nat} (h : Issues s e i vals)
    {body : Env → List Nat → State → Act} {d : Done} (hd : body e vals s = .done d)
    (hl : d.loaded.isSome = true → showsLoad i = true := by simp) :
    issue i body s = .next (s.retired e i d) := by
  rw [issue_go h, hd, settle_done h.2.2 hl]

/-- An instruction whose operation waits stays at its PC. -/
theorem issue_wait {s : State} {e : Env} {i : Instr} {vals : List Nat} (h : Issues s e i vals)
    {body : Env → List Nat → State → Act} {t : State} {w : Wait} (hd : body e vals s = .wait t w)
    (hw : (e.ctx.halt.stepper.isSome && w.stalls) = false := by simp [Wait.stalls]) :
    issue i body s = .next (t.stay i e (e.form i) w) := by
  rw [issue_go h, hd, settle_wait _ _ _ _ _ hw]

/-- An instruction whose operation traps takes the trap. -/
theorem issue_trap {s : State} {e : Env} {i : Instr} {vals : List Nat} (h : Issues s e i vals)
    {body : Env → List Nat → State → Act} {t : State} {x : Trap} (hd : body e vals s = .trap t x) :
    issue i body s = .next (t.issueTrap i e (e.form i) x) := by
  rw [issue_go h, hd, settle_trap]

end Sys2Proof.Machine
end

