-- ==== Sys2Proof/Laws/PerInstr.lean ====
section
/-!
SUPPORT. The round trip of encoding and decoding, one lemma per constructor of Instr: a well-formed instruction's word decodes to
that instruction, whatever values its fields have (14 R271, 00 R1).
-/
namespace Sys2Proof.Laws.RoundTrip
open Sys2Proof.Laws.Codec

set_option linter.unusedSimpArgs false
set_option linter.unnecessarySeqFocus false
set_option linter.unreachableTactic false

/-- Decoding the word of a well-formed instruction gives that instruction. -/
def Statement (i : Instr) : Prop := i.wellFormed = true → ∀ w, encodeWord i = some w → decodeWord w = .ok i

/-- An instruction without a word has nothing to decode. -/
theorem of_no_word {i : Instr} (h : encodeWord i = none) : Statement i := by
  intro _ w hw
  rw [h] at hw
  cases hw

/-- A word whose opcode is assigned and whose fields give the instruction decodes to it. -/
theorem of_fields {i : Instr} (n : Nat) (w : Word) (he : encodeWord i = some w) (ho : (w.extractLsb' 24 8).toNat = n)
    (ha : assignedOpcode n = true) (hd : decodeOp n w = some i) : Statement i := by
  intro hwf v hv
  rw [he] at hv
  cases hv
  simp [decodeWord, decodeFields, ho, ha, hd, hwf]

theorem nop (g : Guard) : Statement (.nop g) :=
  of_fields 0x01 _ rfl (by simp (disch := decide) only [high, low] <;> rfl) rfl (by
    rw [show ∀ w : Word, decodeOp 0x01 w =
      (if fieldIs w 2 22 0 then some (.nop (Guard.ofBits (w.extractLsb' 0 2))) else none) from fun _ => rfl]
    simp (disch := decide) only [fieldIs, low, high, whole, Nat.reduceSub, bitSet_ofBool, Guard.ofBits_bits] <;> rfl)

theorem br (off : BitVec 22) (g : Guard) : Statement (.br off g) :=
  of_fields 0x02 _ rfl (by simp (disch := decide) only [high, low] <;> rfl) rfl (by
    rw [show ∀ w : Word, decodeOp 0x02 w =
      (some (.br (w.extractLsb' 2 22) (Guard.ofBits (w.extractLsb' 0 2)))) from fun _ => rfl]
    simp (disch := decide) only [fieldIs, low, high, whole, Nat.reduceSub, bitSet_ofBool, Guard.ofBits_bits] <;> rfl)

theorem bri (ra : Reg) (fe : Bool) (g : Guard) : Statement (.bri ra fe g) :=
  of_fields 0x03 _ rfl (by simp (disch := decide) only [high, low] <;> rfl) rfl (by
    rw [show ∀ w : Word, decodeOp 0x03 w =
      (if fieldIs w 17 7 0 && fieldIs w 3 7 0 then some (.bri (w.extractLsb' 10 7) (bitSet (w.extractLsb' 2 1)) (Guard.ofBits (w.extractLsb' 0 2))) else none) from fun _ => rfl]
    simp (disch := decide) only [fieldIs, low, high, whole, Nat.reduceSub, bitSet_ofBool, Guard.ofBits_bits] <;> rfl)

theorem call (off : BitVec 22) (g : Guard) : Statement (.call off g) :=
  of_fields 0x04 _ rfl (by simp (disch := decide) only [high, low] <;> rfl) rfl (by
    rw [show ∀ w : Word, decodeOp 0x04 w =
      (some (.call (w.extractLsb' 2 22) (Guard.ofBits (w.extractLsb' 0 2)))) from fun _ => rfl]
    simp (disch := decide) only [fieldIs, low, high, whole, Nat.reduceSub, bitSet_ofBool, Guard.ofBits_bits] <;> rfl)

theorem ret (fe : Bool) (g : Guard) : Statement (.ret fe g) :=
  of_fields 0x05 _ rfl (by simp (disch := decide) only [high, low] <;> rfl) rfl (by
    rw [show ∀ w : Word, decodeOp 0x05 w =
      (if fieldIs w 3 21 0 then some (.ret (bitSet (w.extractLsb' 2 1)) (Guard.ofBits (w.extractLsb' 0 2))) else none) from fun _ => rfl]
    simp (disch := decide) only [fieldIs, low, high, whole, Nat.reduceSub, bitSet_ofBool, Guard.ofBits_bits] <;> rfl)

theorem yield (g : Guard) : Statement (.yield g) :=
  of_fields 0x06 _ rfl (by simp (disch := decide) only [high, low] <;> rfl) rfl (by
    rw [show ∀ w : Word, decodeOp 0x06 w =
      (if fieldIs w 2 22 0 then some (.yield (Guard.ofBits (w.extractLsb' 0 2))) else none) from fun _ => rfl]
    simp (disch := decide) only [fieldIs, low, high, whole, Nat.reduceSub, bitSet_ofBool, Guard.ofBits_bits] <;> rfl)

theorem rep (cnt : BitVec 6) (sd : BitVec 3) (sa : BitVec 3) (sb : BitVec 3) : Statement (.rep cnt sd sa sb) :=
  of_fields 0x07 _ rfl (by simp (disch := decide) only [high, low] <;> rfl) rfl (by
    rw [show ∀ w : Word, decodeOp 0x07 w =
      (if fieldIs w 0 9 0 then some (.rep (w.extractLsb' 18 6) (w.extractLsb' 15 3) (w.extractLsb' 12 3) (w.extractLsb' 9 3)) else none) from fun _ => rfl]
    simp (disch := decide) only [fieldIs, low, high, whole, Nat.reduceSub, bitSet_ofBool, Guard.ofBits_bits] <;> rfl)

theorem trap (imm : BitVec 15) (g : Guard) : Statement (.trap imm g) :=
  of_fields 0x08 _ rfl (by simp (disch := decide) only [high, low] <;> rfl) rfl (by
    rw [show ∀ w : Word, decodeOp 0x08 w =
      (if fieldIs w 17 7 0 then some (.trap (w.extractLsb' 2 15) (Guard.ofBits (w.extractLsb' 0 2))) else none) from fun _ => rfl]
    simp (disch := decide) only [fieldIs, low, high, whole, Nat.reduceSub, bitSet_ofBool, Guard.ofBits_bits] <;> rfl)

theorem eret (ra : Reg) (rb : Reg) (fe : Bool) (g : Guard) : Statement (.eret ra rb fe g) :=
  of_fields 0x09 _ rfl (by simp (disch := decide) only [high, low] <;> rfl) rfl (by
    rw [show ∀ w : Word, decodeOp 0x09 w =
      (if fieldIs w 17 7 0 then some (.eret (w.extractLsb' 10 7) (w.extractLsb' 3 7) (bitSet (w.extractLsb' 2 1)) (Guard.ofBits (w.extractLsb' 0 2))) else none) from fun _ => rfl]
    simp (disch := decide) only [fieldIs, low, high, whole, Nat.reduceSub, bitSet_ofBool, Guard.ofBits_bits] <;> rfl)

theorem endIssue (g : Guard) : Statement (.endIssue g) :=
  of_fields 0x0A _ rfl (by simp (disch := decide) only [high, low] <;> rfl) rfl (by
    rw [show ∀ w : Word, decodeOp 0x0A w =
      (if fieldIs w 2 22 0 then some (.endIssue (Guard.ofBits (w.extractLsb' 0 2))) else none) from fun _ => rfl]
    simp (disch := decide) only [fieldIs, low, high, whole, Nat.reduceSub, bitSet_ofBool, Guard.ofBits_bits] <;> rfl)

theorem fork (rd : Reg) (ra : Reg) (rb : Reg) (fe : Bool) (g : Guard) : Statement (.fork rd ra rb fe g) :=
  of_fields 0x0B _ rfl (by simp (disch := decide) only [high, low] <;> rfl) rfl (by
    rw [show ∀ w : Word, decodeOp 0x0B w =
      (some (.fork (w.extractLsb' 17 7) (w.extractLsb' 10 7) (w.extractLsb' 3 7) (bitSet (w.extractLsb' 2 1)) (Guard.ofBits (w.extractLsb' 0 2)))) from fun _ => rfl]
    simp (disch := decide) only [fieldIs, low, high, whole, Nat.reduceSub, bitSet_ofBool, Guard.ofBits_bits] <;> rfl)

theorem upush (ra : Reg) (fe : Bool) (g : Guard) : Statement (.upush ra fe g) :=
  of_fields 0x0C _ rfl (by simp (disch := decide) only [high, low] <;> rfl) rfl (by
    rw [show ∀ w : Word, decodeOp 0x0C w =
      (if fieldIs w 17 7 0 && fieldIs w 3 7 0 then some (.upush (w.extractLsb' 10 7) (bitSet (w.extractLsb' 2 1)) (Guard.ofBits (w.extractLsb' 0 2))) else none) from fun _ => rfl]
    simp (disch := decide) only [fieldIs, low, high, whole, Nat.reduceSub, bitSet_ofBool, Guard.ofBits_bits] <;> rfl)

theorem sete (rd : Reg) (g : Guard) : Statement (.sete rd g) :=
  of_fields 0x0D _ rfl (by simp (disch := decide) only [high, low] <;> rfl) rfl (by
    rw [show ∀ w : Word, decodeOp 0x0D w =
      (if fieldIs w 2 15 0 then some (.sete (w.extractLsb' 17 7) (Guard.ofBits (w.extractLsb' 0 2))) else none) from fun _ => rfl]
    simp (disch := decide) only [fieldIs, low, high, whole, Nat.reduceSub, bitSet_ofBool, Guard.ofBits_bits] <;> rfl)

theorem waitf (ra : Reg) (rb : Reg) (g : Guard) : Statement (.waitf ra rb g) :=
  of_fields 0x0E _ rfl (by simp (disch := decide) only [high, low] <;> rfl) rfl (by
    rw [show ∀ w : Word, decodeOp 0x0E w =
      (if fieldIs w 17 7 0 && fieldIs w 2 1 0 then some (.waitf (w.extractLsb' 10 7) (w.extractLsb' 3 7) (Guard.ofBits (w.extractLsb' 0 2))) else none) from fun _ => rfl]
    simp (disch := decide) only [fieldIs, low, high, whole, Nat.reduceSub, bitSet_ofBool, Guard.ofBits_bits] <;> rfl)

theorem waito (ra : Reg) (imm : BitVec 8) (g : Guard) : Statement (.waito ra imm g) :=
  of_fields 0x0F _ rfl (by simp (disch := decide) only [high, low] <;> rfl) rfl (by
    rw [show ∀ w : Word, decodeOp 0x0F w =
      (if fieldIs w 17 7 0 then some (.waito (w.extractLsb' 10 7) (w.extractLsb' 2 8) (Guard.ofBits (w.extractLsb' 0 2))) else none) from fun _ => rfl]
    simp (disch := decide) only [fieldIs, low, high, whole, Nat.reduceSub, bitSet_ofBool, Guard.ofBits_bits] <;> rfl)

theorem iadd (rd : Reg) (ra : Reg) (rb : Reg) (fe : Bool) (g : Guard) : Statement (.iadd rd ra rb fe g) :=
  of_fields 0x10 _ rfl (by simp (disch := decide) only [high, low] <;> rfl) rfl (by
    rw [show ∀ w : Word, decodeOp 0x10 w =
      (some (.iadd (w.extractLsb' 17 7) (w.extractLsb' 10 7) (w.extractLsb' 3 7) (bitSet (w.extractLsb' 2 1)) (Guard.ofBits (w.extractLsb' 0 2)))) from fun _ => rfl]
    simp (disch := decide) only [fieldIs, low, high, whole, Nat.reduceSub, bitSet_ofBool, Guard.ofBits_bits] <;> rfl)

theorem isub (rd : Reg) (ra : Reg) (rb : Reg) (fe : Bool) (g : Guard) : Statement (.isub rd ra rb fe g) :=
  of_fields 0x11 _ rfl (by simp (disch := decide) only [high, low] <;> rfl) rfl (by
    rw [show ∀ w : Word, decodeOp 0x11 w =
      (some (.isub (w.extractLsb' 17 7) (w.extractLsb' 10 7) (w.extractLsb' 3 7) (bitSet (w.extractLsb' 2 1)) (Guard.ofBits (w.extractLsb' 0 2)))) from fun _ => rfl]
    simp (disch := decide) only [fieldIs, low, high, whole, Nat.reduceSub, bitSet_ofBool, Guard.ofBits_bits] <;> rfl)

theorem imul (rd : Reg) (ra : Reg) (rb : Reg) (fe : Bool) (g : Guard) : Statement (.imul rd ra rb fe g) :=
  of_fields 0x12 _ rfl (by simp (disch := decide) only [high, low] <;> rfl) rfl (by
    rw [show ∀ w : Word, decodeOp 0x12 w =
      (some (.imul (w.extractLsb' 17 7) (w.extractLsb' 10 7) (w.extractLsb' 3 7) (bitSet (w.extractLsb' 2 1)) (Guard.ofBits (w.extractLsb' 0 2)))) from fun _ => rfl]
    simp (disch := decide) only [fieldIs, low, high, whole, Nat.reduceSub, bitSet_ofBool, Guard.ofBits_bits] <;> rfl)

theorem imulh (rd : Reg) (ra : Reg) (rb : Reg) (fe : Bool) (g : Guard) : Statement (.imulh rd ra rb fe g) :=
  of_fields 0x13 _ rfl (by simp (disch := decide) only [high, low] <;> rfl) rfl (by
    rw [show ∀ w : Word, decodeOp 0x13 w =
      (some (.imulh (w.extractLsb' 17 7) (w.extractLsb' 10 7) (w.extractLsb' 3 7) (bitSet (w.extractLsb' 2 1)) (Guard.ofBits (w.extractLsb' 0 2)))) from fun _ => rfl]
    simp (disch := decide) only [fieldIs, low, high, whole, Nat.reduceSub, bitSet_ofBool, Guard.ofBits_bits] <;> rfl)

theorem imulhu (rd : Reg) (ra : Reg) (rb : Reg) (fe : Bool) (g : Guard) : Statement (.imulhu rd ra rb fe g) :=
  of_fields 0x14 _ rfl (by simp (disch := decide) only [high, low] <;> rfl) rfl (by
    rw [show ∀ w : Word, decodeOp 0x14 w =
      (some (.imulhu (w.extractLsb' 17 7) (w.extractLsb' 10 7) (w.extractLsb' 3 7) (bitSet (w.extractLsb' 2 1)) (Guard.ofBits (w.extractLsb' 0 2)))) from fun _ => rfl]
    simp (disch := decide) only [fieldIs, low, high, whole, Nat.reduceSub, bitSet_ofBool, Guard.ofBits_bits] <;> rfl)

theorem imad (rd : Reg) (ra : Reg) (rb : Reg) (fe : Bool) (g : Guard) : Statement (.imad rd ra rb fe g) :=
  of_fields 0x15 _ rfl (by simp (disch := decide) only [high, low] <;> rfl) rfl (by
    rw [show ∀ w : Word, decodeOp 0x15 w =
      (some (.imad (w.extractLsb' 17 7) (w.extractLsb' 10 7) (w.extractLsb' 3 7) (bitSet (w.extractLsb' 2 1)) (Guard.ofBits (w.extractLsb' 0 2)))) from fun _ => rfl]
    simp (disch := decide) only [fieldIs, low, high, whole, Nat.reduceSub, bitSet_ofBool, Guard.ofBits_bits] <;> rfl)

theorem div (rd : Reg) (ra : Reg) (rb : Reg) (fe : Bool) (g : Guard) : Statement (.div rd ra rb fe g) :=
  of_fields 0x16 _ rfl (by simp (disch := decide) only [high, low] <;> rfl) rfl (by
    rw [show ∀ w : Word, decodeOp 0x16 w =
      (some (.div (w.extractLsb' 17 7) (w.extractLsb' 10 7) (w.extractLsb' 3 7) (bitSet (w.extractLsb' 2 1)) (Guard.ofBits (w.extractLsb' 0 2)))) from fun _ => rfl]
    simp (disch := decide) only [fieldIs, low, high, whole, Nat.reduceSub, bitSet_ofBool, Guard.ofBits_bits] <;> rfl)

theorem divu (rd : Reg) (ra : Reg) (rb : Reg) (fe : Bool) (g : Guard) : Statement (.divu rd ra rb fe g) :=
  of_fields 0x17 _ rfl (by simp (disch := decide) only [high, low] <;> rfl) rfl (by
    rw [show ∀ w : Word, decodeOp 0x17 w =
      (some (.divu (w.extractLsb' 17 7) (w.extractLsb' 10 7) (w.extractLsb' 3 7) (bitSet (w.extractLsb' 2 1)) (Guard.ofBits (w.extractLsb' 0 2)))) from fun _ => rfl]
    simp (disch := decide) only [fieldIs, low, high, whole, Nat.reduceSub, bitSet_ofBool, Guard.ofBits_bits] <;> rfl)

theorem and (rd : Reg) (ra : Reg) (rb : Reg) (fe : Bool) (g : Guard) : Statement (.and rd ra rb fe g) :=
  of_fields 0x18 _ rfl (by simp (disch := decide) only [high, low] <;> rfl) rfl (by
    rw [show ∀ w : Word, decodeOp 0x18 w =
      (some (.and (w.extractLsb' 17 7) (w.extractLsb' 10 7) (w.extractLsb' 3 7) (bitSet (w.extractLsb' 2 1)) (Guard.ofBits (w.extractLsb' 0 2)))) from fun _ => rfl]
    simp (disch := decide) only [fieldIs, low, high, whole, Nat.reduceSub, bitSet_ofBool, Guard.ofBits_bits] <;> rfl)

theorem or (rd : Reg) (ra : Reg) (rb : Reg) (fe : Bool) (g : Guard) : Statement (.or rd ra rb fe g) :=
  of_fields 0x19 _ rfl (by simp (disch := decide) only [high, low] <;> rfl) rfl (by
    rw [show ∀ w : Word, decodeOp 0x19 w =
      (some (.or (w.extractLsb' 17 7) (w.extractLsb' 10 7) (w.extractLsb' 3 7) (bitSet (w.extractLsb' 2 1)) (Guard.ofBits (w.extractLsb' 0 2)))) from fun _ => rfl]
    simp (disch := decide) only [fieldIs, low, high, whole, Nat.reduceSub, bitSet_ofBool, Guard.ofBits_bits] <;> rfl)

theorem xor (rd : Reg) (ra : Reg) (rb : Reg) (fe : Bool) (g : Guard) : Statement (.xor rd ra rb fe g) :=
  of_fields 0x1A _ rfl (by simp (disch := decide) only [high, low] <;> rfl) rfl (by
    rw [show ∀ w : Word, decodeOp 0x1A w =
      (some (.xor (w.extractLsb' 17 7) (w.extractLsb' 10 7) (w.extractLsb' 3 7) (bitSet (w.extractLsb' 2 1)) (Guard.ofBits (w.extractLsb' 0 2)))) from fun _ => rfl]
    simp (disch := decide) only [fieldIs, low, high, whole, Nat.reduceSub, bitSet_ofBool, Guard.ofBits_bits] <;> rfl)

theorem andn (rd : Reg) (ra : Reg) (rb : Reg) (fe : Bool) (g : Guard) : Statement (.andn rd ra rb fe g) :=
  of_fields 0x1B _ rfl (by simp (disch := decide) only [high, low] <;> rfl) rfl (by
    rw [show ∀ w : Word, decodeOp 0x1B w =
      (some (.andn (w.extractLsb' 17 7) (w.extractLsb' 10 7) (w.extractLsb' 3 7) (bitSet (w.extractLsb' 2 1)) (Guard.ofBits (w.extractLsb' 0 2)))) from fun _ => rfl]
    simp (disch := decide) only [fieldIs, low, high, whole, Nat.reduceSub, bitSet_ofBool, Guard.ofBits_bits] <;> rfl)

theorem shl (rd : Reg) (ra : Reg) (rb : Reg) (fe : Bool) (g : Guard) : Statement (.shl rd ra rb fe g) :=
  of_fields 0x1C _ rfl (by simp (disch := decide) only [high, low] <;> rfl) rfl (by
    rw [show ∀ w : Word, decodeOp 0x1C w =
      (some (.shl (w.extractLsb' 17 7) (w.extractLsb' 10 7) (w.extractLsb' 3 7) (bitSet (w.extractLsb' 2 1)) (Guard.ofBits (w.extractLsb' 0 2)))) from fun _ => rfl]
    simp (disch := decide) only [fieldIs, low, high, whole, Nat.reduceSub, bitSet_ofBool, Guard.ofBits_bits] <;> rfl)

theorem shr (rd : Reg) (ra : Reg) (rb : Reg) (fe : Bool) (g : Guard) : Statement (.shr rd ra rb fe g) :=
  of_fields 0x1D _ rfl (by simp (disch := decide) only [high, low] <;> rfl) rfl (by
    rw [show ∀ w : Word, decodeOp 0x1D w =
      (some (.shr (w.extractLsb' 17 7) (w.extractLsb' 10 7) (w.extractLsb' 3 7) (bitSet (w.extractLsb' 2 1)) (Guard.ofBits (w.extractLsb' 0 2)))) from fun _ => rfl]
    simp (disch := decide) only [fieldIs, low, high, whole, Nat.reduceSub, bitSet_ofBool, Guard.ofBits_bits] <;> rfl)

theorem sar (rd : Reg) (ra : Reg) (rb : Reg) (fe : Bool) (g : Guard) : Statement (.sar rd ra rb fe g) :=
  of_fields 0x1E _ rfl (by simp (disch := decide) only [high, low] <;> rfl) rfl (by
    rw [show ∀ w : Word, decodeOp 0x1E w =
      (some (.sar (w.extractLsb' 17 7) (w.extractLsb' 10 7) (w.extractLsb' 3 7) (bitSet (w.extractLsb' 2 1)) (Guard.ofBits (w.extractLsb' 0 2)))) from fun _ => rfl]
    simp (disch := decide) only [fieldIs, low, high, whole, Nat.reduceSub, bitSet_ofBool, Guard.ofBits_bits] <;> rfl)

theorem imin (rd : Reg) (ra : Reg) (rb : Reg) (fe : Bool) (g : Guard) : Statement (.imin rd ra rb fe g) :=
  of_fields 0x1F _ rfl (by simp (disch := decide) only [high, low] <;> rfl) rfl (by
    rw [show ∀ w : Word, decodeOp 0x1F w =
      (some (.imin (w.extractLsb' 17 7) (w.extractLsb' 10 7) (w.extractLsb' 3 7) (bitSet (w.extractLsb' 2 1)) (Guard.ofBits (w.extractLsb' 0 2)))) from fun _ => rfl]
    simp (disch := decide) only [fieldIs, low, high, whole, Nat.reduceSub, bitSet_ofBool, Guard.ofBits_bits] <;> rfl)

theorem imax (rd : Reg) (ra : Reg) (rb : Reg) (fe : Bool) (g : Guard) : Statement (.imax rd ra rb fe g) :=
  of_fields 0x20 _ rfl (by simp (disch := decide) only [high, low] <;> rfl) rfl (by
    rw [show ∀ w : Word, decodeOp 0x20 w =
      (some (.imax (w.extractLsb' 17 7) (w.extractLsb' 10 7) (w.extractLsb' 3 7) (bitSet (w.extractLsb' 2 1)) (Guard.ofBits (w.extractLsb' 0 2)))) from fun _ => rfl]
    simp (disch := decide) only [fieldIs, low, high, whole, Nat.reduceSub, bitSet_ofBool, Guard.ofBits_bits] <;> rfl)

theorem iminu (rd : Reg) (ra : Reg) (rb : Reg) (fe : Bool) (g : Guard) : Statement (.iminu rd ra rb fe g) :=
  of_fields 0x21 _ rfl (by simp (disch := decide) only [high, low] <;> rfl) rfl (by
    rw [show ∀ w : Word, decodeOp 0x21 w =
      (some (.iminu (w.extractLsb' 17 7) (w.extractLsb' 10 7) (w.extractLsb' 3 7) (bitSet (w.extractLsb' 2 1)) (Guard.ofBits (w.extractLsb' 0 2)))) from fun _ => rfl]
    simp (disch := decide) only [fieldIs, low, high, whole, Nat.reduceSub, bitSet_ofBool, Guard.ofBits_bits] <;> rfl)

theorem imaxu (rd : Reg) (ra : Reg) (rb : Reg) (fe : Bool) (g : Guard) : Statement (.imaxu rd ra rb fe g) :=
  of_fields 0x22 _ rfl (by simp (disch := decide) only [high, low] <;> rfl) rfl (by
    rw [show ∀ w : Word, decodeOp 0x22 w =
      (some (.imaxu (w.extractLsb' 17 7) (w.extractLsb' 10 7) (w.extractLsb' 3 7) (bitSet (w.extractLsb' 2 1)) (Guard.ofBits (w.extractLsb' 0 2)))) from fun _ => rfl]
    simp (disch := decide) only [fieldIs, low, high, whole, Nat.reduceSub, bitSet_ofBool, Guard.ofBits_bits] <;> rfl)

theorem iadds (rd : Reg) (ra : Reg) (rb : Reg) (fe : Bool) (g : Guard) : Statement (.iadds rd ra rb fe g) :=
  of_fields 0x23 _ rfl (by simp (disch := decide) only [high, low] <;> rfl) rfl (by
    rw [show ∀ w : Word, decodeOp 0x23 w =
      (some (.iadds (w.extractLsb' 17 7) (w.extractLsb' 10 7) (w.extractLsb' 3 7) (bitSet (w.extractLsb' 2 1)) (Guard.ofBits (w.extractLsb' 0 2)))) from fun _ => rfl]
    simp (disch := decide) only [fieldIs, low, high, whole, Nat.reduceSub, bitSet_ofBool, Guard.ofBits_bits] <;> rfl)

theorem addmin (rd : Reg) (ra : Reg) (rb : Reg) (fe : Bool) (g : Guard) : Statement (.addmin rd ra rb fe g) :=
  of_fields 0x24 _ rfl (by simp (disch := decide) only [high, low] <;> rfl) rfl (by
    rw [show ∀ w : Word, decodeOp 0x24 w =
      (some (.addmin (w.extractLsb' 17 7) (w.extractLsb' 10 7) (w.extractLsb' 3 7) (bitSet (w.extractLsb' 2 1)) (Guard.ofBits (w.extractLsb' 0 2)))) from fun _ => rfl]
    simp (disch := decide) only [fieldIs, low, high, whole, Nat.reduceSub, bitSet_ofBool, Guard.ofBits_bits] <;> rfl)

theorem addmax (rd : Reg) (ra : Reg) (rb : Reg) (fe : Bool) (g : Guard) : Statement (.addmax rd ra rb fe g) :=
  of_fields 0x25 _ rfl (by simp (disch := decide) only [high, low] <;> rfl) rfl (by
    rw [show ∀ w : Word, decodeOp 0x25 w =
      (some (.addmax (w.extractLsb' 17 7) (w.extractLsb' 10 7) (w.extractLsb' 3 7) (bitSet (w.extractLsb' 2 1)) (Guard.ofBits (w.extractLsb' 0 2)))) from fun _ => rfl]
    simp (disch := decide) only [fieldIs, low, high, whole, Nat.reduceSub, bitSet_ofBool, Guard.ofBits_bits] <;> rfl)

theorem sel (rd : Reg) (ra : Reg) (rb : Reg) (fe : Bool) (g : Guard) : Statement (.sel rd ra rb fe g) :=
  of_fields 0x26 _ rfl (by simp (disch := decide) only [high, low] <;> rfl) rfl (by
    rw [show ∀ w : Word, decodeOp 0x26 w =
      (some (.sel (w.extractLsb' 17 7) (w.extractLsb' 10 7) (w.extractLsb' 3 7) (bitSet (w.extractLsb' 2 1)) (Guard.ofBits (w.extractLsb' 0 2)))) from fun _ => rfl]
    simp (disch := decide) only [fieldIs, low, high, whole, Nat.reduceSub, bitSet_ofBool, Guard.ofBits_bits] <;> rfl)

theorem lea (sh : BitVec 7) (ra : Reg) (rb : Reg) (fe : Bool) (g : Guard) : Statement (.lea sh ra rb fe g) :=
  of_fields 0x27 _ rfl (by simp (disch := decide) only [high, low] <;> rfl) rfl (by
    rw [show ∀ w : Word, decodeOp 0x27 w =
      (some (.lea (w.extractLsb' 17 7) (w.extractLsb' 10 7) (w.extractLsb' 3 7) (bitSet (w.extractLsb' 2 1)) (Guard.ofBits (w.extractLsb' 0 2)))) from fun _ => rfl]
    simp (disch := decide) only [fieldIs, low, high, whole, Nat.reduceSub, bitSet_ofBool, Guard.ofBits_bits] <;> rfl)

theorem bfx (rd : Reg) (ra : Reg) (rb : Reg) (fe : Bool) (g : Guard) : Statement (.bfx rd ra rb fe g) :=
  of_fields 0x28 _ rfl (by simp (disch := decide) only [high, low] <;> rfl) rfl (by
    rw [show ∀ w : Word, decodeOp 0x28 w =
      (some (.bfx (w.extractLsb' 17 7) (w.extractLsb' 10 7) (w.extractLsb' 3 7) (bitSet (w.extractLsb' 2 1)) (Guard.ofBits (w.extractLsb' 0 2)))) from fun _ => rfl]
    simp (disch := decide) only [fieldIs, low, high, whole, Nat.reduceSub, bitSet_ofBool, Guard.ofBits_bits] <;> rfl)

theorem bfi (rd : Reg) (ra : Reg) (rb : Reg) (fe : Bool) (g : Guard) : Statement (.bfi rd ra rb fe g) :=
  of_fields 0x29 _ rfl (by simp (disch := decide) only [high, low] <;> rfl) rfl (by
    rw [show ∀ w : Word, decodeOp 0x29 w =
      (some (.bfi (w.extractLsb' 17 7) (w.extractLsb' 10 7) (w.extractLsb' 3 7) (bitSet (w.extractLsb' 2 1)) (Guard.ofBits (w.extractLsb' 0 2)))) from fun _ => rfl]
    simp (disch := decide) only [fieldIs, low, high, whole, Nat.reduceSub, bitSet_ofBool, Guard.ofBits_bits] <;> rfl)

theorem icmp (cond : BitVec 3) (pn : BitVec 4) (ra : Reg) (rb : Reg) (fe : Bool) (g : Guard) : Statement (.icmp cond pn ra rb fe g) :=
  of_fields 0x2A _ rfl (by simp (disch := decide) only [high, low] <;> rfl) rfl (by
    rw [show ∀ w : Word, decodeOp 0x2A w =
      (some (.icmp (w.extractLsb' 21 3) (w.extractLsb' 17 4) (w.extractLsb' 10 7) (w.extractLsb' 3 7) (bitSet (w.extractLsb' 2 1)) (Guard.ofBits (w.extractLsb' 0 2)))) from fun _ => rfl]
    simp (disch := decide) only [fieldIs, low, high, whole, Nat.reduceSub, bitSet_ofBool, Guard.ofBits_bits] <;> rfl)

theorem icmpu (cond : BitVec 3) (pn : BitVec 4) (ra : Reg) (rb : Reg) (fe : Bool) (g : Guard) : Statement (.icmpu cond pn ra rb fe g) :=
  of_fields 0x2B _ rfl (by simp (disch := decide) only [high, low] <;> rfl) rfl (by
    rw [show ∀ w : Word, decodeOp 0x2B w =
      (some (.icmpu (w.extractLsb' 21 3) (w.extractLsb' 17 4) (w.extractLsb' 10 7) (w.extractLsb' 3 7) (bitSet (w.extractLsb' 2 1)) (Guard.ofBits (w.extractLsb' 0 2)))) from fun _ => rfl]
    simp (disch := decide) only [fieldIs, low, high, whole, Nat.reduceSub, bitSet_ofBool, Guard.ofBits_bits] <;> rfl)

theorem iabs (rd : Reg) (ra : Reg) (fe : Bool) (g : Guard) : Statement (.iabs rd ra fe g) :=
  of_fields 0x2C _ rfl (by simp (disch := decide) only [high, low] <;> rfl) rfl (by
    rw [show ∀ w : Word, decodeOp 0x2C w =
      (if fieldIs w 3 7 0 then some (.iabs (w.extractLsb' 17 7) (w.extractLsb' 10 7) (bitSet (w.extractLsb' 2 1)) (Guard.ofBits (w.extractLsb' 0 2))) else none) from fun _ => rfl]
    simp (disch := decide) only [fieldIs, low, high, whole, Nat.reduceSub, bitSet_ofBool, Guard.ofBits_bits] <;> rfl)

theorem popc (rd : Reg) (ra : Reg) (fe : Bool) (g : Guard) : Statement (.popc rd ra fe g) :=
  of_fields 0x2D _ rfl (by simp (disch := decide) only [high, low] <;> rfl) rfl (by
    rw [show ∀ w : Word, decodeOp 0x2D w =
      (if fieldIs w 3 7 0 then some (.popc (w.extractLsb' 17 7) (w.extractLsb' 10 7) (bitSet (w.extractLsb' 2 1)) (Guard.ofBits (w.extractLsb' 0 2))) else none) from fun _ => rfl]
    simp (disch := decide) only [fieldIs, low, high, whole, Nat.reduceSub, bitSet_ofBool, Guard.ofBits_bits] <;> rfl)

theorem clz (rd : Reg) (ra : Reg) (fe : Bool) (g : Guard) : Statement (.clz rd ra fe g) :=
  of_fields 0x2E _ rfl (by simp (disch := decide) only [high, low] <;> rfl) rfl (by
    rw [show ∀ w : Word, decodeOp 0x2E w =
      (if fieldIs w 3 7 0 then some (.clz (w.extractLsb' 17 7) (w.extractLsb' 10 7) (bitSet (w.extractLsb' 2 1)) (Guard.ofBits (w.extractLsb' 0 2))) else none) from fun _ => rfl]
    simp (disch := decide) only [fieldIs, low, high, whole, Nat.reduceSub, bitSet_ofBool, Guard.ofBits_bits] <;> rfl)

theorem brev (rd : Reg) (ra : Reg) (fe : Bool) (g : Guard) : Statement (.brev rd ra fe g) :=
  of_fields 0x2F _ rfl (by simp (disch := decide) only [high, low] <;> rfl) rfl (by
    rw [show ∀ w : Word, decodeOp 0x2F w =
      (if fieldIs w 3 7 0 then some (.brev (w.extractLsb' 17 7) (w.extractLsb' 10 7) (bitSet (w.extractLsb' 2 1)) (Guard.ofBits (w.extractLsb' 0 2))) else none) from fun _ => rfl]
    simp (disch := decide) only [fieldIs, low, high, whole, Nat.reduceSub, bitSet_ofBool, Guard.ofBits_bits] <;> rfl)

theorem mov (rd : Reg) (ra : Reg) (fe : Bool) (g : Guard) : Statement (.mov rd ra fe g) :=
  of_fields 0x30 _ rfl (by simp (disch := decide) only [high, low] <;> rfl) rfl (by
    rw [show ∀ w : Word, decodeOp 0x30 w =
      (if fieldIs w 3 7 0 then some (.mov (w.extractLsb' 17 7) (w.extractLsb' 10 7) (bitSet (w.extractLsb' 2 1)) (Guard.ofBits (w.extractLsb' 0 2))) else none) from fun _ => rfl]
    simp (disch := decide) only [fieldIs, low, high, whole, Nat.reduceSub, bitSet_ofBool, Guard.ofBits_bits] <;> rfl)

theorem movi (rd : Reg) (imm : BitVec 15) (g : Guard) : Statement (.movi rd imm g) :=
  of_fields 0x31 _ rfl (by simp (disch := decide) only [high, low] <;> rfl) rfl (by
    rw [show ∀ w : Word, decodeOp 0x31 w =
      (some (.movi (w.extractLsb' 17 7) (w.extractLsb' 2 15) (Guard.ofBits (w.extractLsb' 0 2)))) from fun _ => rfl]
    simp (disch := decide) only [fieldIs, low, high, whole, Nat.reduceSub, bitSet_ofBool, Guard.ofBits_bits] <;> rfl)

theorem movhi (rd : Reg) (imm : BitVec 17) : Statement (.movhi rd imm) :=
  of_fields 0x32 _ rfl (by simp (disch := decide) only [high, low] <;> rfl) rfl (by
    rw [show ∀ w : Word, decodeOp 0x32 w =
      (some (.movhi (w.extractLsb' 17 7) (w.extractLsb' 0 17))) from fun _ => rfl]
    simp (disch := decide) only [fieldIs, low, high, whole, Nat.reduceSub, bitSet_ofBool, Guard.ofBits_bits] <;> rfl)

theorem iaddi (rd : Reg) (ra : Reg) (imm : BitVec 8) (g : Guard) : Statement (.iaddi rd ra imm g) :=
  of_fields 0x33 _ rfl (by simp (disch := decide) only [high, low] <;> rfl) rfl (by
    rw [show ∀ w : Word, decodeOp 0x33 w =
      (some (.iaddi (w.extractLsb' 17 7) (w.extractLsb' 10 7) (w.extractLsb' 2 8) (Guard.ofBits (w.extractLsb' 0 2)))) from fun _ => rfl]
    simp (disch := decide) only [fieldIs, low, high, whole, Nat.reduceSub, bitSet_ofBool, Guard.ofBits_bits] <;> rfl)

theorem andImm (rd : Reg) (ra : Reg) (imm : BitVec 8) (g : Guard) : Statement (.andImm rd ra imm g) :=
  of_fields 0x34 _ rfl (by simp (disch := decide) only [high, low] <;> rfl) rfl (by
    rw [show ∀ w : Word, decodeOp 0x34 w =
      (some (.andImm (w.extractLsb' 17 7) (w.extractLsb' 10 7) (w.extractLsb' 2 8) (Guard.ofBits (w.extractLsb' 0 2)))) from fun _ => rfl]
    simp (disch := decide) only [fieldIs, low, high, whole, Nat.reduceSub, bitSet_ofBool, Guard.ofBits_bits] <;> rfl)

theorem orImm (rd : Reg) (ra : Reg) (imm : BitVec 8) (g : Guard) : Statement (.orImm rd ra imm g) :=
  of_fields 0x35 _ rfl (by simp (disch := decide) only [high, low] <;> rfl) rfl (by
    rw [show ∀ w : Word, decodeOp 0x35 w =
      (some (.orImm (w.extractLsb' 17 7) (w.extractLsb' 10 7) (w.extractLsb' 2 8) (Guard.ofBits (w.extractLsb' 0 2)))) from fun _ => rfl]
    simp (disch := decide) only [fieldIs, low, high, whole, Nat.reduceSub, bitSet_ofBool, Guard.ofBits_bits] <;> rfl)

theorem xorImm (rd : Reg) (ra : Reg) (imm : BitVec 8) (g : Guard) : Statement (.xorImm rd ra imm g) :=
  of_fields 0x36 _ rfl (by simp (disch := decide) only [high, low] <;> rfl) rfl (by
    rw [show ∀ w : Word, decodeOp 0x36 w =
      (some (.xorImm (w.extractLsb' 17 7) (w.extractLsb' 10 7) (w.extractLsb' 2 8) (Guard.ofBits (w.extractLsb' 0 2)))) from fun _ => rfl]
    simp (disch := decide) only [fieldIs, low, high, whole, Nat.reduceSub, bitSet_ofBool, Guard.ofBits_bits] <;> rfl)

theorem shlImm (rd : Reg) (ra : Reg) (imm : BitVec 8) (g : Guard) : Statement (.shlImm rd ra imm g) :=
  of_fields 0x37 _ rfl (by simp (disch := decide) only [high, low] <;> rfl) rfl (by
    rw [show ∀ w : Word, decodeOp 0x37 w =
      (some (.shlImm (w.extractLsb' 17 7) (w.extractLsb' 10 7) (w.extractLsb' 2 8) (Guard.ofBits (w.extractLsb' 0 2)))) from fun _ => rfl]
    simp (disch := decide) only [fieldIs, low, high, whole, Nat.reduceSub, bitSet_ofBool, Guard.ofBits_bits] <;> rfl)

theorem shrImm (rd : Reg) (ra : Reg) (imm : BitVec 8) (g : Guard) : Statement (.shrImm rd ra imm g) :=
  of_fields 0x38 _ rfl (by simp (disch := decide) only [high, low] <;> rfl) rfl (by
    rw [show ∀ w : Word, decodeOp 0x38 w =
      (some (.shrImm (w.extractLsb' 17 7) (w.extractLsb' 10 7) (w.extractLsb' 2 8) (Guard.ofBits (w.extractLsb' 0 2)))) from fun _ => rfl]
    simp (disch := decide) only [fieldIs, low, high, whole, Nat.reduceSub, bitSet_ofBool, Guard.ofBits_bits] <;> rfl)

theorem sarImm (rd : Reg) (ra : Reg) (imm : BitVec 8) (g : Guard) : Statement (.sarImm rd ra imm g) :=
  of_fields 0x39 _ rfl (by simp (disch := decide) only [high, low] <;> rfl) rfl (by
    rw [show ∀ w : Word, decodeOp 0x39 w =
      (some (.sarImm (w.extractLsb' 17 7) (w.extractLsb' 10 7) (w.extractLsb' 2 8) (Guard.ofBits (w.extractLsb' 0 2)))) from fun _ => rfl]
    simp (disch := decide) only [fieldIs, low, high, whole, Nat.reduceSub, bitSet_ofBool, Guard.ofBits_bits] <;> rfl)

theorem movx (rd : Reg) (ra : Reg) (fe : Bool) (g : Guard) : Statement (.movx rd ra fe g) :=
  of_fields 0x3A _ rfl (by simp (disch := decide) only [high, low] <;> rfl) rfl (by
    rw [show ∀ w : Word, decodeOp 0x3A w =
      (if fieldIs w 3 7 0 then some (.movx (w.extractLsb' 17 7) (w.extractLsb' 10 7) (bitSet (w.extractLsb' 2 1)) (Guard.ofBits (w.extractLsb' 0 2))) else none) from fun _ => rfl]
    simp (disch := decide) only [fieldIs, low, high, whole, Nat.reduceSub, bitSet_ofBool, Guard.ofBits_bits] <;> rfl)

theorem movxw (ra : Reg) (rb : Reg) (fe : Bool) (g : Guard) : Statement (.movxw ra rb fe g) :=
  of_fields 0x3B _ rfl (by simp (disch := decide) only [high, low] <;> rfl) rfl (by
    rw [show ∀ w : Word, decodeOp 0x3B w =
      (if fieldIs w 17 7 0 then some (.movxw (w.extractLsb' 10 7) (w.extractLsb' 3 7) (bitSet (w.extractLsb' 2 1)) (Guard.ofBits (w.extractLsb' 0 2))) else none) from fun _ => rfl]
    simp (disch := decide) only [fieldIs, low, high, whole, Nat.reduceSub, bitSet_ofBool, Guard.ofBits_bits] <;> rfl)

theorem win (imm : BitVec 15) (g : Guard) : Statement (.win imm g) :=
  of_fields 0x3C _ rfl (by simp (disch := decide) only [high, low] <;> rfl) rfl (by
    rw [show ∀ w : Word, decodeOp 0x3C w =
      (if fieldIs w 17 7 0 then some (.win (w.extractLsb' 2 15) (Guard.ofBits (w.extractLsb' 0 2))) else none) from fun _ => rfl]
    simp (disch := decide) only [fieldIs, low, high, whole, Nat.reduceSub, bitSet_ofBool, Guard.ofBits_bits] <;> rfl)

theorem winadd (imm : BitVec 8) (g : Guard) : Statement (.winadd imm g) :=
  of_fields 0x3D _ rfl (by simp (disch := decide) only [high, low] <;> rfl) rfl (by
    rw [show ∀ w : Word, decodeOp 0x3D w =
      (if fieldIs w 10 14 0 then some (.winadd (w.extractLsb' 2 8) (Guard.ofBits (w.extractLsb' 0 2))) else none) from fun _ => rfl]
    simp (disch := decide) only [fieldIs, low, high, whole, Nat.reduceSub, bitSet_ofBool, Guard.ofBits_bits] <;> rfl)

theorem xlane (rd : Reg) (ra : Reg) (rb : Reg) (fe : Bool) (g : Guard) : Statement (.xlane rd ra rb fe g) :=
  of_fields 0x3E _ rfl (by simp (disch := decide) only [high, low] <;> rfl) rfl (by
    rw [show ∀ w : Word, decodeOp 0x3E w =
      (some (.xlane (w.extractLsb' 17 7) (w.extractLsb' 10 7) (w.extractLsb' 3 7) (bitSet (w.extractLsb' 2 1)) (Guard.ofBits (w.extractLsb' 0 2)))) from fun _ => rfl]
    simp (disch := decide) only [fieldIs, low, high, whole, Nat.reduceSub, bitSet_ofBool, Guard.ofBits_bits] <;> rfl)

theorem xshf (rd : Reg) (ra : Reg) (imm : BitVec 8) (g : Guard) : Statement (.xshf rd ra imm g) :=
  of_fields 0x3F _ rfl (by simp (disch := decide) only [high, low] <;> rfl) rfl (by
    rw [show ∀ w : Word, decodeOp 0x3F w =
      (some (.xshf (w.extractLsb' 17 7) (w.extractLsb' 10 7) (w.extractLsb' 2 8) (Guard.ofBits (w.extractLsb' 0 2)))) from fun _ => rfl]
    simp (disch := decide) only [fieldIs, low, high, whole, Nat.reduceSub, bitSet_ofBool, Guard.ofBits_bits] <;> rfl)

theorem pand (rd : Reg) (ra : Reg) (rb : Reg) (g : Guard) : Statement (.pand rd ra rb g) :=
  of_fields 0x40 _ rfl (by simp (disch := decide) only [high, low] <;> rfl) rfl (by
    rw [show ∀ w : Word, decodeOp 0x40 w =
      (if fieldIs w 2 1 0 then some (.pand (w.extractLsb' 17 7) (w.extractLsb' 10 7) (w.extractLsb' 3 7) (Guard.ofBits (w.extractLsb' 0 2))) else none) from fun _ => rfl]
    simp (disch := decide) only [fieldIs, low, high, whole, Nat.reduceSub, bitSet_ofBool, Guard.ofBits_bits] <;> rfl)

theorem por (rd : Reg) (ra : Reg) (rb : Reg) (g : Guard) : Statement (.por rd ra rb g) :=
  of_fields 0x41 _ rfl (by simp (disch := decide) only [high, low] <;> rfl) rfl (by
    rw [show ∀ w : Word, decodeOp 0x41 w =
      (if fieldIs w 2 1 0 then some (.por (w.extractLsb' 17 7) (w.extractLsb' 10 7) (w.extractLsb' 3 7) (Guard.ofBits (w.extractLsb' 0 2))) else none) from fun _ => rfl]
    simp (disch := decide) only [fieldIs, low, high, whole, Nat.reduceSub, bitSet_ofBool, Guard.ofBits_bits] <;> rfl)

theorem pxor (rd : Reg) (ra : Reg) (rb : Reg) (g : Guard) : Statement (.pxor rd ra rb g) :=
  of_fields 0x42 _ rfl (by simp (disch := decide) only [high, low] <;> rfl) rfl (by
    rw [show ∀ w : Word, decodeOp 0x42 w =
      (if fieldIs w 2 1 0 then some (.pxor (w.extractLsb' 17 7) (w.extractLsb' 10 7) (w.extractLsb' 3 7) (Guard.ofBits (w.extractLsb' 0 2))) else none) from fun _ => rfl]
    simp (disch := decide) only [fieldIs, low, high, whole, Nat.reduceSub, bitSet_ofBool, Guard.ofBits_bits] <;> rfl)

theorem pnot (rd : Reg) (ra : Reg) (g : Guard) : Statement (.pnot rd ra g) :=
  of_fields 0x43 _ rfl (by simp (disch := decide) only [high, low] <;> rfl) rfl (by
    rw [show ∀ w : Word, decodeOp 0x43 w =
      (if fieldIs w 2 8 0 then some (.pnot (w.extractLsb' 17 7) (w.extractLsb' 10 7) (Guard.ofBits (w.extractLsb' 0 2))) else none) from fun _ => rfl]
    simp (disch := decide) only [fieldIs, low, high, whole, Nat.reduceSub, bitSet_ofBool, Guard.ofBits_bits] <;> rfl)

theorem pmovToPredicate (rd : Reg) (ra : Reg) (fe : Bool) (g : Guard) : Statement (.pmovToPredicate rd ra fe g) :=
  of_fields 0x44 _ rfl (by simp (disch := decide) only [high, low] <;> rfl) rfl (by
    rw [show ∀ w : Word, decodeOp 0x44 w =
      (if fieldIs w 3 7 0 then some (.pmovToPredicate (w.extractLsb' 17 7) (w.extractLsb' 10 7) (bitSet (w.extractLsb' 2 1)) (Guard.ofBits (w.extractLsb' 0 2))) else none) from fun _ => rfl]
    simp (disch := decide) only [fieldIs, low, high, whole, Nat.reduceSub, bitSet_ofBool, Guard.ofBits_bits] <;> rfl)

theorem pmovFromWord (rd : Reg) (g : Guard) : Statement (.pmovFromWord rd g) :=
  of_fields 0x45 _ rfl (by simp (disch := decide) only [high, low] <;> rfl) rfl (by
    rw [show ∀ w : Word, decodeOp 0x45 w =
      (if fieldIs w 2 15 0 then some (.pmovFromWord (w.extractLsb' 17 7) (Guard.ofBits (w.extractLsb' 0 2))) else none) from fun _ => rfl]
    simp (disch := decide) only [fieldIs, low, high, whole, Nat.reduceSub, bitSet_ofBool, Guard.ofBits_bits] <;> rfl)

theorem vote (rd : Reg) (pn : BitVec 4) (rb : Reg) (g : Guard) : Statement (.vote rd pn rb g) :=
  of_fields 0x46 _ rfl (by simp (disch := decide) only [high, low] <;> rfl) rfl (by
    rw [show ∀ w : Word, decodeOp 0x46 w =
      (if fieldIs w 14 3 0 && fieldIs w 2 1 0 then some (.vote (w.extractLsb' 17 7) (w.extractLsb' 10 4) (w.extractLsb' 3 7) (Guard.ofBits (w.extractLsb' 0 2))) else none) from fun _ => rfl]
    simp (disch := decide) only [fieldIs, low, high, whole, Nat.reduceSub, bitSet_ofBool, Guard.ofBits_bits] <;> rfl)

theorem sread (rd : Reg) (imm : BitVec 8) (g : Guard) : Statement (.sread rd imm g) :=
  of_fields 0x47 _ rfl (by simp (disch := decide) only [high, low] <;> rfl) rfl (by
    rw [show ∀ w : Word, decodeOp 0x47 w =
      (if fieldIs w 10 7 0 then some (.sread (w.extractLsb' 17 7) (w.extractLsb' 2 8) (Guard.ofBits (w.extractLsb' 0 2))) else none) from fun _ => rfl]
    simp (disch := decide) only [fieldIs, low, high, whole, Nat.reduceSub, bitSet_ofBool, Guard.ofBits_bits] <;> rfl)

theorem sysr (rd : Reg) (imm : BitVec 15) (g : Guard) : Statement (.sysr rd imm g) :=
  of_fields 0x48 _ rfl (by simp (disch := decide) only [high, low] <;> rfl) rfl (by
    rw [show ∀ w : Word, decodeOp 0x48 w =
      (some (.sysr (w.extractLsb' 17 7) (w.extractLsb' 2 15) (Guard.ofBits (w.extractLsb' 0 2)))) from fun _ => rfl]
    simp (disch := decide) only [fieldIs, low, high, whole, Nat.reduceSub, bitSet_ofBool, Guard.ofBits_bits] <;> rfl)

theorem sysw (rd : Reg) (imm : BitVec 15) (g : Guard) : Statement (.sysw rd imm g) :=
  of_fields 0x49 _ rfl (by simp (disch := decide) only [high, low] <;> rfl) rfl (by
    rw [show ∀ w : Word, decodeOp 0x49 w =
      (some (.sysw (w.extractLsb' 17 7) (w.extractLsb' 2 15) (Guard.ofBits (w.extractLsb' 0 2)))) from fun _ => rfl]
    simp (disch := decide) only [fieldIs, low, high, whole, Nat.reduceSub, bitSet_ofBool, Guard.ofBits_bits] <;> rfl)

theorem tlbiPage (ra : Reg) (rb : Reg) (fe : Bool) (g : Guard) : Statement (.tlbiPage ra rb fe g) :=
  of_fields 0x4A _ rfl (by simp (disch := decide) only [high, low] <;> rfl) rfl (by
    rw [show ∀ w : Word, decodeOp 0x4A w =
      (if fieldIs w 17 7 0 then some (.tlbiPage (w.extractLsb' 10 7) (w.extractLsb' 3 7) (bitSet (w.extractLsb' 2 1)) (Guard.ofBits (w.extractLsb' 0 2)))
        else if fieldIs w 10 14 0x80 then some (.tlbiAsn (w.extractLsb' 3 7) (bitSet (w.extractLsb' 2 1)) (Guard.ofBits (w.extractLsb' 0 2)))
        else if fieldIs w 2 22 0x10000 then some (.tlbiAll (Guard.ofBits (w.extractLsb' 0 2)))
        else none) from fun _ => rfl]
    simp (disch := decide) only [fieldIs, low, high, whole, Nat.reduceSub, bitSet_ofBool, Guard.ofBits_bits] <;> rfl)

theorem tlbiAsn (rb : Reg) (fe : Bool) (g : Guard) : Statement (.tlbiAsn rb fe g) :=
  of_fields 0x4A _ rfl (by simp (disch := decide) only [high, low] <;> rfl) rfl (by
    rw [show ∀ w : Word, decodeOp 0x4A w =
      (if fieldIs w 17 7 0 then some (.tlbiPage (w.extractLsb' 10 7) (w.extractLsb' 3 7) (bitSet (w.extractLsb' 2 1)) (Guard.ofBits (w.extractLsb' 0 2)))
        else if fieldIs w 10 14 0x80 then some (.tlbiAsn (w.extractLsb' 3 7) (bitSet (w.extractLsb' 2 1)) (Guard.ofBits (w.extractLsb' 0 2)))
        else if fieldIs w 2 22 0x10000 then some (.tlbiAll (Guard.ofBits (w.extractLsb' 0 2)))
        else none) from fun _ => rfl]
    simp (disch := decide) only [fieldIs, low, high, whole, Nat.reduceSub, bitSet_ofBool, Guard.ofBits_bits] <;> rfl)

theorem tlbiAll (g : Guard) : Statement (.tlbiAll g) :=
  of_fields 0x4A _ rfl (by simp (disch := decide) only [high, low] <;> rfl) rfl (by
    rw [show ∀ w : Word, decodeOp 0x4A w =
      (if fieldIs w 17 7 0 then some (.tlbiPage (w.extractLsb' 10 7) (w.extractLsb' 3 7) (bitSet (w.extractLsb' 2 1)) (Guard.ofBits (w.extractLsb' 0 2)))
        else if fieldIs w 10 14 0x80 then some (.tlbiAsn (w.extractLsb' 3 7) (bitSet (w.extractLsb' 2 1)) (Guard.ofBits (w.extractLsb' 0 2)))
        else if fieldIs w 2 22 0x10000 then some (.tlbiAll (Guard.ofBits (w.extractLsb' 0 2)))
        else none) from fun _ => rfl]
    simp (disch := decide) only [fieldIs, low, high, whole, Nat.reduceSub, bitSet_ofBool, Guard.ofBits_bits] <;> rfl)

theorem sigr (rd : Reg) (g : Guard) : Statement (.sigr rd g) :=
  of_fields 0x4B _ rfl (by simp (disch := decide) only [high, low] <;> rfl) rfl (by
    rw [show ∀ w : Word, decodeOp 0x4B w =
      (if fieldIs w 2 15 0 then some (.sigr (w.extractLsb' 17 7) (Guard.ofBits (w.extractLsb' 0 2))) else none) from fun _ => rfl]
    simp (disch := decide) only [fieldIs, low, high, whole, Nat.reduceSub, bitSet_ofBool, Guard.ofBits_bits] <;> rfl)

theorem chkpt (g : Guard) : Statement (.chkpt g) :=
  of_fields 0x4C _ rfl (by simp (disch := decide) only [high, low] <;> rfl) rfl (by
    rw [show ∀ w : Word, decodeOp 0x4C w =
      (if fieldIs w 2 22 0 then some (.chkpt (Guard.ofBits (w.extractLsb' 0 2))) else none) from fun _ => rfl]
    simp (disch := decide) only [fieldIs, low, high, whole, Nat.reduceSub, bitSet_ofBool, Guard.ofBits_bits] <;> rfl)

theorem prog (imm : BitVec 8) (g : Guard) : Statement (.prog imm g) :=
  of_fields 0x4D _ rfl (by simp (disch := decide) only [high, low] <;> rfl) rfl (by
    rw [show ∀ w : Word, decodeOp 0x4D w =
      (if fieldIs w 10 14 0 then some (.prog (w.extractLsb' 2 8) (Guard.ofBits (w.extractLsb' 0 2))) else none) from fun _ => rfl]
    simp (disch := decide) only [fieldIs, low, high, whole, Nat.reduceSub, bitSet_ofBool, Guard.ofBits_bits] <;> rfl)

theorem ifence (sc : BitVec 4) (g : Bool) : Statement (.ifence sc g) :=
  of_fields 0x4E _ rfl (by simp (disch := decide) only [high, low] <;> rfl) rfl (by
    rw [show ∀ w : Word, decodeOp 0x4E w =
      (if fieldIs w 5 19 0 then some (.ifence (w.extractLsb' 1 4) (bitSet (w.extractLsb' 0 1))) else none) from fun _ => rfl]
    simp (disch := decide) only [fieldIs, low, high, whole, Nat.reduceSub, bitSet_ofBool, Guard.ofBits_bits] <;> rfl)

theorem faddF32 (rd : Reg) (ra : Reg) (rb : Reg) (fe : Bool) (g : Guard) : Statement (.faddF32 rd ra rb fe g) :=
  of_fields 0x50 _ rfl (by simp (disch := decide) only [high, low] <;> rfl) rfl (by
    rw [show ∀ w : Word, decodeOp 0x50 w =
      (some (.faddF32 (w.extractLsb' 17 7) (w.extractLsb' 10 7) (w.extractLsb' 3 7) (bitSet (w.extractLsb' 2 1)) (Guard.ofBits (w.extractLsb' 0 2)))) from fun _ => rfl]
    simp (disch := decide) only [fieldIs, low, high, whole, Nat.reduceSub, bitSet_ofBool, Guard.ofBits_bits] <;> rfl)

theorem faddBf16x2 (rd : Reg) (ra : Reg) (rb : Reg) (fe : Bool) (g : Guard) : Statement (.faddBf16x2 rd ra rb fe g) :=
  of_fields 0x51 _ rfl (by simp (disch := decide) only [high, low] <;> rfl) rfl (by
    rw [show ∀ w : Word, decodeOp 0x51 w =
      (some (.faddBf16x2 (w.extractLsb' 17 7) (w.extractLsb' 10 7) (w.extractLsb' 3 7) (bitSet (w.extractLsb' 2 1)) (Guard.ofBits (w.extractLsb' 0 2)))) from fun _ => rfl]
    simp (disch := decide) only [fieldIs, low, high, whole, Nat.reduceSub, bitSet_ofBool, Guard.ofBits_bits] <;> rfl)

theorem faddF16x2 (rd : Reg) (ra : Reg) (rb : Reg) (fe : Bool) (g : Guard) : Statement (.faddF16x2 rd ra rb fe g) :=
  of_fields 0x52 _ rfl (by simp (disch := decide) only [high, low] <;> rfl) rfl (by
    rw [show ∀ w : Word, decodeOp 0x52 w =
      (some (.faddF16x2 (w.extractLsb' 17 7) (w.extractLsb' 10 7) (w.extractLsb' 3 7) (bitSet (w.extractLsb' 2 1)) (Guard.ofBits (w.extractLsb' 0 2)))) from fun _ => rfl]
    simp (disch := decide) only [fieldIs, low, high, whole, Nat.reduceSub, bitSet_ofBool, Guard.ofBits_bits] <;> rfl)

theorem fsubF32 (rd : Reg) (ra : Reg) (rb : Reg) (fe : Bool) (g : Guard) : Statement (.fsubF32 rd ra rb fe g) :=
  of_fields 0x53 _ rfl (by simp (disch := decide) only [high, low] <;> rfl) rfl (by
    rw [show ∀ w : Word, decodeOp 0x53 w =
      (some (.fsubF32 (w.extractLsb' 17 7) (w.extractLsb' 10 7) (w.extractLsb' 3 7) (bitSet (w.extractLsb' 2 1)) (Guard.ofBits (w.extractLsb' 0 2)))) from fun _ => rfl]
    simp (disch := decide) only [fieldIs, low, high, whole, Nat.reduceSub, bitSet_ofBool, Guard.ofBits_bits] <;> rfl)

theorem fsubBf16x2 (rd : Reg) (ra : Reg) (rb : Reg) (fe : Bool) (g : Guard) : Statement (.fsubBf16x2 rd ra rb fe g) :=
  of_fields 0x54 _ rfl (by simp (disch := decide) only [high, low] <;> rfl) rfl (by
    rw [show ∀ w : Word, decodeOp 0x54 w =
      (some (.fsubBf16x2 (w.extractLsb' 17 7) (w.extractLsb' 10 7) (w.extractLsb' 3 7) (bitSet (w.extractLsb' 2 1)) (Guard.ofBits (w.extractLsb' 0 2)))) from fun _ => rfl]
    simp (disch := decide) only [fieldIs, low, high, whole, Nat.reduceSub, bitSet_ofBool, Guard.ofBits_bits] <;> rfl)

theorem fsubF16x2 (rd : Reg) (ra : Reg) (rb : Reg) (fe : Bool) (g : Guard) : Statement (.fsubF16x2 rd ra rb fe g) :=
  of_fields 0x55 _ rfl (by simp (disch := decide) only [high, low] <;> rfl) rfl (by
    rw [show ∀ w : Word, decodeOp 0x55 w =
      (some (.fsubF16x2 (w.extractLsb' 17 7) (w.extractLsb' 10 7) (w.extractLsb' 3 7) (bitSet (w.extractLsb' 2 1)) (Guard.ofBits (w.extractLsb' 0 2)))) from fun _ => rfl]
    simp (disch := decide) only [fieldIs, low, high, whole, Nat.reduceSub, bitSet_ofBool, Guard.ofBits_bits] <;> rfl)

theorem fmulF32 (rd : Reg) (ra : Reg) (rb : Reg) (fe : Bool) (g : Guard) : Statement (.fmulF32 rd ra rb fe g) :=
  of_fields 0x56 _ rfl (by simp (disch := decide) only [high, low] <;> rfl) rfl (by
    rw [show ∀ w : Word, decodeOp 0x56 w =
      (some (.fmulF32 (w.extractLsb' 17 7) (w.extractLsb' 10 7) (w.extractLsb' 3 7) (bitSet (w.extractLsb' 2 1)) (Guard.ofBits (w.extractLsb' 0 2)))) from fun _ => rfl]
    simp (disch := decide) only [fieldIs, low, high, whole, Nat.reduceSub, bitSet_ofBool, Guard.ofBits_bits] <;> rfl)

theorem fmulBf16x2 (rd : Reg) (ra : Reg) (rb : Reg) (fe : Bool) (g : Guard) : Statement (.fmulBf16x2 rd ra rb fe g) :=
  of_fields 0x57 _ rfl (by simp (disch := decide) only [high, low] <;> rfl) rfl (by
    rw [show ∀ w : Word, decodeOp 0x57 w =
      (some (.fmulBf16x2 (w.extractLsb' 17 7) (w.extractLsb' 10 7) (w.extractLsb' 3 7) (bitSet (w.extractLsb' 2 1)) (Guard.ofBits (w.extractLsb' 0 2)))) from fun _ => rfl]
    simp (disch := decide) only [fieldIs, low, high, whole, Nat.reduceSub, bitSet_ofBool, Guard.ofBits_bits] <;> rfl)

theorem fmulF16x2 (rd : Reg) (ra : Reg) (rb : Reg) (fe : Bool) (g : Guard) : Statement (.fmulF16x2 rd ra rb fe g) :=
  of_fields 0x58 _ rfl (by simp (disch := decide) only [high, low] <;> rfl) rfl (by
    rw [show ∀ w : Word, decodeOp 0x58 w =
      (some (.fmulF16x2 (w.extractLsb' 17 7) (w.extractLsb' 10 7) (w.extractLsb' 3 7) (bitSet (w.extractLsb' 2 1)) (Guard.ofBits (w.extractLsb' 0 2)))) from fun _ => rfl]
    simp (disch := decide) only [fieldIs, low, high, whole, Nat.reduceSub, bitSet_ofBool, Guard.ofBits_bits] <;> rfl)

theorem fmaF32 (rd : Reg) (ra : Reg) (rb : Reg) (fe : Bool) (g : Guard) : Statement (.fmaF32 rd ra rb fe g) :=
  of_fields 0x59 _ rfl (by simp (disch := decide) only [high, low] <;> rfl) rfl (by
    rw [show ∀ w : Word, decodeOp 0x59 w =
      (some (.fmaF32 (w.extractLsb' 17 7) (w.extractLsb' 10 7) (w.extractLsb' 3 7) (bitSet (w.extractLsb' 2 1)) (Guard.ofBits (w.extractLsb' 0 2)))) from fun _ => rfl]
    simp (disch := decide) only [fieldIs, low, high, whole, Nat.reduceSub, bitSet_ofBool, Guard.ofBits_bits] <;> rfl)

theorem fmaBf16x2 (rd : Reg) (ra : Reg) (rb : Reg) (fe : Bool) (g : Guard) : Statement (.fmaBf16x2 rd ra rb fe g) :=
  of_fields 0x5A _ rfl (by simp (disch := decide) only [high, low] <;> rfl) rfl (by
    rw [show ∀ w : Word, decodeOp 0x5A w =
      (some (.fmaBf16x2 (w.extractLsb' 17 7) (w.extractLsb' 10 7) (w.extractLsb' 3 7) (bitSet (w.extractLsb' 2 1)) (Guard.ofBits (w.extractLsb' 0 2)))) from fun _ => rfl]
    simp (disch := decide) only [fieldIs, low, high, whole, Nat.reduceSub, bitSet_ofBool, Guard.ofBits_bits] <;> rfl)

theorem fmaF16x2 (rd : Reg) (ra : Reg) (rb : Reg) (fe : Bool) (g : Guard) : Statement (.fmaF16x2 rd ra rb fe g) :=
  of_fields 0x5B _ rfl (by simp (disch := decide) only [high, low] <;> rfl) rfl (by
    rw [show ∀ w : Word, decodeOp 0x5B w =
      (some (.fmaF16x2 (w.extractLsb' 17 7) (w.extractLsb' 10 7) (w.extractLsb' 3 7) (bitSet (w.extractLsb' 2 1)) (Guard.ofBits (w.extractLsb' 0 2)))) from fun _ => rfl]
    simp (disch := decide) only [fieldIs, low, high, whole, Nat.reduceSub, bitSet_ofBool, Guard.ofBits_bits] <;> rfl)

theorem fminF32 (rd : Reg) (ra : Reg) (rb : Reg) (fe : Bool) (g : Guard) : Statement (.fminF32 rd ra rb fe g) :=
  of_fields 0x5C _ rfl (by simp (disch := decide) only [high, low] <;> rfl) rfl (by
    rw [show ∀ w : Word, decodeOp 0x5C w =
      (some (.fminF32 (w.extractLsb' 17 7) (w.extractLsb' 10 7) (w.extractLsb' 3 7) (bitSet (w.extractLsb' 2 1)) (Guard.ofBits (w.extractLsb' 0 2)))) from fun _ => rfl]
    simp (disch := decide) only [fieldIs, low, high, whole, Nat.reduceSub, bitSet_ofBool, Guard.ofBits_bits] <;> rfl)

theorem fminBf16x2 (rd : Reg) (ra : Reg) (rb : Reg) (fe : Bool) (g : Guard) : Statement (.fminBf16x2 rd ra rb fe g) :=
  of_fields 0x5D _ rfl (by simp (disch := decide) only [high, low] <;> rfl) rfl (by
    rw [show ∀ w : Word, decodeOp 0x5D w =
      (some (.fminBf16x2 (w.extractLsb' 17 7) (w.extractLsb' 10 7) (w.extractLsb' 3 7) (bitSet (w.extractLsb' 2 1)) (Guard.ofBits (w.extractLsb' 0 2)))) from fun _ => rfl]
    simp (disch := decide) only [fieldIs, low, high, whole, Nat.reduceSub, bitSet_ofBool, Guard.ofBits_bits] <;> rfl)

theorem fminF16x2 (rd : Reg) (ra : Reg) (rb : Reg) (fe : Bool) (g : Guard) : Statement (.fminF16x2 rd ra rb fe g) :=
  of_fields 0x5E _ rfl (by simp (disch := decide) only [high, low] <;> rfl) rfl (by
    rw [show ∀ w : Word, decodeOp 0x5E w =
      (some (.fminF16x2 (w.extractLsb' 17 7) (w.extractLsb' 10 7) (w.extractLsb' 3 7) (bitSet (w.extractLsb' 2 1)) (Guard.ofBits (w.extractLsb' 0 2)))) from fun _ => rfl]
    simp (disch := decide) only [fieldIs, low, high, whole, Nat.reduceSub, bitSet_ofBool, Guard.ofBits_bits] <;> rfl)

theorem fmaxF32 (rd : Reg) (ra : Reg) (rb : Reg) (fe : Bool) (g : Guard) : Statement (.fmaxF32 rd ra rb fe g) :=
  of_fields 0x5F _ rfl (by simp (disch := decide) only [high, low] <;> rfl) rfl (by
    rw [show ∀ w : Word, decodeOp 0x5F w =
      (some (.fmaxF32 (w.extractLsb' 17 7) (w.extractLsb' 10 7) (w.extractLsb' 3 7) (bitSet (w.extractLsb' 2 1)) (Guard.ofBits (w.extractLsb' 0 2)))) from fun _ => rfl]
    simp (disch := decide) only [fieldIs, low, high, whole, Nat.reduceSub, bitSet_ofBool, Guard.ofBits_bits] <;> rfl)

theorem fmaxBf16x2 (rd : Reg) (ra : Reg) (rb : Reg) (fe : Bool) (g : Guard) : Statement (.fmaxBf16x2 rd ra rb fe g) :=
  of_fields 0x60 _ rfl (by simp (disch := decide) only [high, low] <;> rfl) rfl (by
    rw [show ∀ w : Word, decodeOp 0x60 w =
      (some (.fmaxBf16x2 (w.extractLsb' 17 7) (w.extractLsb' 10 7) (w.extractLsb' 3 7) (bitSet (w.extractLsb' 2 1)) (Guard.ofBits (w.extractLsb' 0 2)))) from fun _ => rfl]
    simp (disch := decide) only [fieldIs, low, high, whole, Nat.reduceSub, bitSet_ofBool, Guard.ofBits_bits] <;> rfl)

theorem fmaxF16x2 (rd : Reg) (ra : Reg) (rb : Reg) (fe : Bool) (g : Guard) : Statement (.fmaxF16x2 rd ra rb fe g) :=
  of_fields 0x61 _ rfl (by simp (disch := decide) only [high, low] <;> rfl) rfl (by
    rw [show ∀ w : Word, decodeOp 0x61 w =
      (some (.fmaxF16x2 (w.extractLsb' 17 7) (w.extractLsb' 10 7) (w.extractLsb' 3 7) (bitSet (w.extractLsb' 2 1)) (Guard.ofBits (w.extractLsb' 0 2)))) from fun _ => rfl]
    simp (disch := decide) only [fieldIs, low, high, whole, Nat.reduceSub, bitSet_ofBool, Guard.ofBits_bits] <;> rfl)

theorem fcmpF32 (cond : BitVec 3) (pn : BitVec 4) (ra : Reg) (rb : Reg) (fe : Bool) (g : Guard) : Statement (.fcmpF32 cond pn ra rb fe g) :=
  of_fields 0x62 _ rfl (by simp (disch := decide) only [high, low] <;> rfl) rfl (by
    rw [show ∀ w : Word, decodeOp 0x62 w =
      (some (.fcmpF32 (w.extractLsb' 21 3) (w.extractLsb' 17 4) (w.extractLsb' 10 7) (w.extractLsb' 3 7) (bitSet (w.extractLsb' 2 1)) (Guard.ofBits (w.extractLsb' 0 2)))) from fun _ => rfl]
    simp (disch := decide) only [fieldIs, low, high, whole, Nat.reduceSub, bitSet_ofBool, Guard.ofBits_bits] <;> rfl)

theorem fcmpBf16x2 (cond : BitVec 3) (pn : BitVec 4) (ra : Reg) (rb : Reg) (fe : Bool) (g : Guard) : Statement (.fcmpBf16x2 cond pn ra rb fe g) :=
  of_fields 0x63 _ rfl (by simp (disch := decide) only [high, low] <;> rfl) rfl (by
    rw [show ∀ w : Word, decodeOp 0x63 w =
      (some (.fcmpBf16x2 (w.extractLsb' 21 3) (w.extractLsb' 17 4) (w.extractLsb' 10 7) (w.extractLsb' 3 7) (bitSet (w.extractLsb' 2 1)) (Guard.ofBits (w.extractLsb' 0 2)))) from fun _ => rfl]
    simp (disch := decide) only [fieldIs, low, high, whole, Nat.reduceSub, bitSet_ofBool, Guard.ofBits_bits] <;> rfl)

theorem fcmpF16x2 (cond : BitVec 3) (pn : BitVec 4) (ra : Reg) (rb : Reg) (fe : Bool) (g : Guard) : Statement (.fcmpF16x2 cond pn ra rb fe g) :=
  of_fields 0x64 _ rfl (by simp (disch := decide) only [high, low] <;> rfl) rfl (by
    rw [show ∀ w : Word, decodeOp 0x64 w =
      (some (.fcmpF16x2 (w.extractLsb' 21 3) (w.extractLsb' 17 4) (w.extractLsb' 10 7) (w.extractLsb' 3 7) (bitSet (w.extractLsb' 2 1)) (Guard.ofBits (w.extractLsb' 0 2)))) from fun _ => rfl]
    simp (disch := decide) only [fieldIs, low, high, whole, Nat.reduceSub, bitSet_ofBool, Guard.ofBits_bits] <;> rfl)

theorem fabs (rd : Reg) (ra : Reg) (fmt : BitVec 7) (fe : Bool) (g : Guard) : Statement (.fabs rd ra fmt fe g) :=
  of_fields 0x65 _ rfl (by simp (disch := decide) only [high, low] <;> rfl) rfl (by
    rw [show ∀ w : Word, decodeOp 0x65 w =
      (some (.fabs (w.extractLsb' 17 7) (w.extractLsb' 10 7) (w.extractLsb' 3 7) (bitSet (w.extractLsb' 2 1)) (Guard.ofBits (w.extractLsb' 0 2)))) from fun _ => rfl]
    simp (disch := decide) only [fieldIs, low, high, whole, Nat.reduceSub, bitSet_ofBool, Guard.ofBits_bits] <;> rfl)

theorem fneg (rd : Reg) (ra : Reg) (fmt : BitVec 7) (fe : Bool) (g : Guard) : Statement (.fneg rd ra fmt fe g) :=
  of_fields 0x66 _ rfl (by simp (disch := decide) only [high, low] <;> rfl) rfl (by
    rw [show ∀ w : Word, decodeOp 0x66 w =
      (some (.fneg (w.extractLsb' 17 7) (w.extractLsb' 10 7) (w.extractLsb' 3 7) (bitSet (w.extractLsb' 2 1)) (Guard.ofBits (w.extractLsb' 0 2)))) from fun _ => rfl]
    simp (disch := decide) only [fieldIs, low, high, whole, Nat.reduceSub, bitSet_ofBool, Guard.ofBits_bits] <;> rfl)

theorem fcvt (rd : Reg) (ra : Reg) (src : BitVec 4) (dst : BitVec 3) (fe : Bool) (g : Guard) : Statement (.fcvt rd ra src dst fe g) :=
  of_fields 0x67 _ rfl (by simp (disch := decide) only [high, low] <;> rfl) rfl (by
    rw [show ∀ w : Word, decodeOp 0x67 w =
      (some (.fcvt (w.extractLsb' 17 7) (w.extractLsb' 10 7) (w.extractLsb' 6 4) (w.extractLsb' 3 3) (bitSet (w.extractLsb' 2 1)) (Guard.ofBits (w.extractLsb' 0 2)))) from fun _ => rfl]
    simp (disch := decide) only [fieldIs, low, high, whole, Nat.reduceSub, bitSet_ofBool, Guard.ofBits_bits] <;> rfl)

theorem fcvti (rd : Reg) (ra : Reg) (mode : BitVec 7) (fe : Bool) (g : Guard) : Statement (.fcvti rd ra mode fe g) :=
  of_fields 0x68 _ rfl (by simp (disch := decide) only [high, low] <;> rfl) rfl (by
    rw [show ∀ w : Word, decodeOp 0x68 w =
      (some (.fcvti (w.extractLsb' 17 7) (w.extractLsb' 10 7) (w.extractLsb' 3 7) (bitSet (w.extractLsb' 2 1)) (Guard.ofBits (w.extractLsb' 0 2)))) from fun _ => rfl]
    simp (disch := decide) only [fieldIs, low, high, whole, Nat.reduceSub, bitSet_ofBool, Guard.ofBits_bits] <;> rfl)

theorem icvtf (rd : Reg) (ra : Reg) (mode : BitVec 7) (fe : Bool) (g : Guard) : Statement (.icvtf rd ra mode fe g) :=
  of_fields 0x69 _ rfl (by simp (disch := decide) only [high, low] <;> rfl) rfl (by
    rw [show ∀ w : Word, decodeOp 0x69 w =
      (some (.icvtf (w.extractLsb' 17 7) (w.extractLsb' 10 7) (w.extractLsb' 3 7) (bitSet (w.extractLsb' 2 1)) (Guard.ofBits (w.extractLsb' 0 2)))) from fun _ => rfl]
    simp (disch := decide) only [fieldIs, low, high, whole, Nat.reduceSub, bitSet_ofBool, Guard.ofBits_bits] <;> rfl)

theorem frcp (rd : Reg) (ra : Reg) (fe : Bool) (g : Guard) : Statement (.frcp rd ra fe g) :=
  of_fields 0x6A _ rfl (by simp (disch := decide) only [high, low] <;> rfl) rfl (by
    rw [show ∀ w : Word, decodeOp 0x6A w =
      (if fieldIs w 3 7 0 then some (.frcp (w.extractLsb' 17 7) (w.extractLsb' 10 7) (bitSet (w.extractLsb' 2 1)) (Guard.ofBits (w.extractLsb' 0 2))) else none) from fun _ => rfl]
    simp (disch := decide) only [fieldIs, low, high, whole, Nat.reduceSub, bitSet_ofBool, Guard.ofBits_bits] <;> rfl)

theorem frsq (rd : Reg) (ra : Reg) (fe : Bool) (g : Guard) : Statement (.frsq rd ra fe g) :=
  of_fields 0x6B _ rfl (by simp (disch := decide) only [high, low] <;> rfl) rfl (by
    rw [show ∀ w : Word, decodeOp 0x6B w =
      (if fieldIs w 3 7 0 then some (.frsq (w.extractLsb' 17 7) (w.extractLsb' 10 7) (bitSet (w.extractLsb' 2 1)) (Guard.ofBits (w.extractLsb' 0 2))) else none) from fun _ => rfl]
    simp (disch := decide) only [fieldIs, low, high, whole, Nat.reduceSub, bitSet_ofBool, Guard.ofBits_bits] <;> rfl)

theorem fexp2 (rd : Reg) (ra : Reg) (fe : Bool) (g : Guard) : Statement (.fexp2 rd ra fe g) :=
  of_fields 0x6C _ rfl (by simp (disch := decide) only [high, low] <;> rfl) rfl (by
    rw [show ∀ w : Word, decodeOp 0x6C w =
      (if fieldIs w 3 7 0 then some (.fexp2 (w.extractLsb' 17 7) (w.extractLsb' 10 7) (bitSet (w.extractLsb' 2 1)) (Guard.ofBits (w.extractLsb' 0 2))) else none) from fun _ => rfl]
    simp (disch := decide) only [fieldIs, low, high, whole, Nat.reduceSub, bitSet_ofBool, Guard.ofBits_bits] <;> rfl)

theorem flog2 (rd : Reg) (ra : Reg) (fe : Bool) (g : Guard) : Statement (.flog2 rd ra fe g) :=
  of_fields 0x6D _ rfl (by simp (disch := decide) only [high, low] <;> rfl) rfl (by
    rw [show ∀ w : Word, decodeOp 0x6D w =
      (if fieldIs w 3 7 0 then some (.flog2 (w.extractLsb' 17 7) (w.extractLsb' 10 7) (bitSet (w.extractLsb' 2 1)) (Guard.ofBits (w.extractLsb' 0 2))) else none) from fun _ => rfl]
    simp (disch := decide) only [fieldIs, low, high, whole, Nat.reduceSub, bitSet_ofBool, Guard.ofBits_bits] <;> rfl)

theorem frnd (rd : Reg) (ra : Reg) (mode : BitVec 7) (fe : Bool) (g : Guard) : Statement (.frnd rd ra mode fe g) :=
  of_fields 0x6E _ rfl (by simp (disch := decide) only [high, low] <;> rfl) rfl (by
    rw [show ∀ w : Word, decodeOp 0x6E w =
      (some (.frnd (w.extractLsb' 17 7) (w.extractLsb' 10 7) (w.extractLsb' 3 7) (bitSet (w.extractLsb' 2 1)) (Guard.ofBits (w.extractLsb' 0 2)))) from fun _ => rfl]
    simp (disch := decide) only [fieldIs, low, high, whole, Nat.reduceSub, bitSet_ofBool, Guard.ofBits_bits] <;> rfl)

theorem fclass (rd : Reg) (ra : Reg) (fe : Bool) (g : Guard) : Statement (.fclass rd ra fe g) :=
  of_fields 0x6F _ rfl (by simp (disch := decide) only [high, low] <;> rfl) rfl (by
    rw [show ∀ w : Word, decodeOp 0x6F w =
      (if fieldIs w 3 7 0 then some (.fclass (w.extractLsb' 17 7) (w.extractLsb' 10 7) (bitSet (w.extractLsb' 2 1)) (Guard.ofBits (w.extractLsb' 0 2))) else none) from fun _ => rfl]
    simp (disch := decide) only [fieldIs, low, high, whole, Nat.reduceSub, bitSet_ofBool, Guard.ofBits_bits] <;> rfl)

theorem fdot2Bf16 (rd : Reg) (ra : Reg) (rb : Reg) (fe : Bool) (g : Guard) : Statement (.fdot2Bf16 rd ra rb fe g) :=
  of_fields 0x70 _ rfl (by simp (disch := decide) only [high, low] <;> rfl) rfl (by
    rw [show ∀ w : Word, decodeOp 0x70 w =
      (some (.fdot2Bf16 (w.extractLsb' 17 7) (w.extractLsb' 10 7) (w.extractLsb' 3 7) (bitSet (w.extractLsb' 2 1)) (Guard.ofBits (w.extractLsb' 0 2)))) from fun _ => rfl]
    simp (disch := decide) only [fieldIs, low, high, whole, Nat.reduceSub, bitSet_ofBool, Guard.ofBits_bits] <;> rfl)

theorem fdot2F16 (rd : Reg) (ra : Reg) (rb : Reg) (fe : Bool) (g : Guard) : Statement (.fdot2F16 rd ra rb fe g) :=
  of_fields 0x71 _ rfl (by simp (disch := decide) only [high, low] <;> rfl) rfl (by
    rw [show ∀ w : Word, decodeOp 0x71 w =
      (some (.fdot2F16 (w.extractLsb' 17 7) (w.extractLsb' 10 7) (w.extractLsb' 3 7) (bitSet (w.extractLsb' 2 1)) (Guard.ofBits (w.extractLsb' 0 2)))) from fun _ => rfl]
    simp (disch := decide) only [fieldIs, low, high, whole, Nat.reduceSub, bitSet_ofBool, Guard.ofBits_bits] <;> rfl)

theorem fdot4F8a (rd : Reg) (ra : Reg) (rb : Reg) (fe : Bool) (g : Guard) : Statement (.fdot4F8a rd ra rb fe g) :=
  of_fields 0x72 _ rfl (by simp (disch := decide) only [high, low] <;> rfl) rfl (by
    rw [show ∀ w : Word, decodeOp 0x72 w =
      (some (.fdot4F8a (w.extractLsb' 17 7) (w.extractLsb' 10 7) (w.extractLsb' 3 7) (bitSet (w.extractLsb' 2 1)) (Guard.ofBits (w.extractLsb' 0 2)))) from fun _ => rfl]
    simp (disch := decide) only [fieldIs, low, high, whole, Nat.reduceSub, bitSet_ofBool, Guard.ofBits_bits] <;> rfl)

theorem fdot4F8b (rd : Reg) (ra : Reg) (rb : Reg) (fe : Bool) (g : Guard) : Statement (.fdot4F8b rd ra rb fe g) :=
  of_fields 0x73 _ rfl (by simp (disch := decide) only [high, low] <;> rfl) rfl (by
    rw [show ∀ w : Word, decodeOp 0x73 w =
      (some (.fdot4F8b (w.extractLsb' 17 7) (w.extractLsb' 10 7) (w.extractLsb' 3 7) (bitSet (w.extractLsb' 2 1)) (Guard.ofBits (w.extractLsb' 0 2)))) from fun _ => rfl]
    simp (disch := decide) only [fieldIs, low, high, whole, Nat.reduceSub, bitSet_ofBool, Guard.ofBits_bits] <;> rfl)

theorem ld (rd : Reg) (ra : Reg) (sz : BitVec 3) (ord : BitVec 2) (sc : BitVec 4) (g : Bool) : Statement (.ld rd ra sz ord sc g) :=
  of_fields 0x80 _ rfl (by simp (disch := decide) only [high, low] <;> rfl) rfl (by
    rw [show ∀ w : Word, decodeOp 0x80 w =
      (some (.ld (w.extractLsb' 17 7) (w.extractLsb' 10 7) (w.extractLsb' 7 3) (w.extractLsb' 5 2) (w.extractLsb' 1 4) (bitSet (w.extractLsb' 0 1)))) from fun _ => rfl]
    simp (disch := decide) only [fieldIs, low, high, whole, Nat.reduceSub, bitSet_ofBool, Guard.ofBits_bits] <;> rfl)

theorem st (rd : Reg) (ra : Reg) (sz : BitVec 3) (ord : BitVec 2) (sc : BitVec 4) (g : Bool) : Statement (.st rd ra sz ord sc g) :=
  of_fields 0x81 _ rfl (by simp (disch := decide) only [high, low] <;> rfl) rfl (by
    rw [show ∀ w : Word, decodeOp 0x81 w =
      (some (.st (w.extractLsb' 17 7) (w.extractLsb' 10 7) (w.extractLsb' 7 3) (w.extractLsb' 5 2) (w.extractLsb' 1 4) (bitSet (w.extractLsb' 0 1)))) from fun _ => rfl]
    simp (disch := decide) only [fieldIs, low, high, whole, Nat.reduceSub, bitSet_ofBool, Guard.ofBits_bits] <;> rfl)

theorem ldl (rd : Reg) (ra : Reg) (sz : BitVec 3) (ord : BitVec 2) (sc : BitVec 4) (g : Bool) : Statement (.ldl rd ra sz ord sc g) :=
  of_fields 0x82 _ rfl (by simp (disch := decide) only [high, low] <;> rfl) rfl (by
    rw [show ∀ w : Word, decodeOp 0x82 w =
      (some (.ldl (w.extractLsb' 17 7) (w.extractLsb' 10 7) (w.extractLsb' 7 3) (w.extractLsb' 5 2) (w.extractLsb' 1 4) (bitSet (w.extractLsb' 0 1)))) from fun _ => rfl]
    simp (disch := decide) only [fieldIs, low, high, whole, Nat.reduceSub, bitSet_ofBool, Guard.ofBits_bits] <;> rfl)

theorem stl (rd : Reg) (ra : Reg) (sz : BitVec 3) (ord : BitVec 2) (sc : BitVec 4) (g : Bool) : Statement (.stl rd ra sz ord sc g) :=
  of_fields 0x83 _ rfl (by simp (disch := decide) only [high, low] <;> rfl) rfl (by
    rw [show ∀ w : Word, decodeOp 0x83 w =
      (some (.stl (w.extractLsb' 17 7) (w.extractLsb' 10 7) (w.extractLsb' 7 3) (w.extractLsb' 5 2) (w.extractLsb' 1 4) (bitSet (w.extractLsb' 0 1)))) from fun _ => rfl]
    simp (disch := decide) only [fieldIs, low, high, whole, Nat.reduceSub, bitSet_ofBool, Guard.ofBits_bits] <;> rfl)

theorem ldt (rd : Reg) (ra : Reg) (sz : BitVec 3) (ord : BitVec 2) (sc : BitVec 4) (g : Bool) : Statement (.ldt rd ra sz ord sc g) :=
  of_fields 0x84 _ rfl (by simp (disch := decide) only [high, low] <;> rfl) rfl (by
    rw [show ∀ w : Word, decodeOp 0x84 w =
      (some (.ldt (w.extractLsb' 17 7) (w.extractLsb' 10 7) (w.extractLsb' 7 3) (w.extractLsb' 5 2) (w.extractLsb' 1 4) (bitSet (w.extractLsb' 0 1)))) from fun _ => rfl]
    simp (disch := decide) only [fieldIs, low, high, whole, Nat.reduceSub, bitSet_ofBool, Guard.ofBits_bits] <;> rfl)

theorem stt (rd : Reg) (ra : Reg) (sz : BitVec 3) (ord : BitVec 2) (sc : BitVec 4) (g : Bool) : Statement (.stt rd ra sz ord sc g) :=
  of_fields 0x85 _ rfl (by simp (disch := decide) only [high, low] <;> rfl) rfl (by
    rw [show ∀ w : Word, decodeOp 0x85 w =
      (some (.stt (w.extractLsb' 17 7) (w.extractLsb' 10 7) (w.extractLsb' 7 3) (w.extractLsb' 5 2) (w.extractLsb' 1 4) (bitSet (w.extractLsb' 0 1)))) from fun _ => rfl]
    simp (disch := decide) only [fieldIs, low, high, whole, Nat.reduceSub, bitSet_ofBool, Guard.ofBits_bits] <;> rfl)

theorem lde (rd : Reg) (ra : Reg) (rb : Reg) (fe : Bool) (g : Guard) : Statement (.lde rd ra rb fe g) :=
  of_fields 0x86 _ rfl (by simp (disch := decide) only [high, low] <;> rfl) rfl (by
    rw [show ∀ w : Word, decodeOp 0x86 w =
      (some (.lde (w.extractLsb' 17 7) (w.extractLsb' 10 7) (w.extractLsb' 3 7) (bitSet (w.extractLsb' 2 1)) (Guard.ofBits (w.extractLsb' 0 2)))) from fun _ => rfl]
    simp (disch := decide) only [fieldIs, low, high, whole, Nat.reduceSub, bitSet_ofBool, Guard.ofBits_bits] <;> rfl)

theorem pref (ra : Reg) (sc : BitVec 4) (g : Bool) : Statement (.pref ra sc g) :=
  of_fields 0x87 _ rfl (by simp (disch := decide) only [high, low] <;> rfl) rfl (by
    rw [show ∀ w : Word, decodeOp 0x87 w =
      (if fieldIs w 17 7 0 && fieldIs w 5 5 0 then some (.pref (w.extractLsb' 10 7) (w.extractLsb' 1 4) (bitSet (w.extractLsb' 0 1))) else none) from fun _ => rfl]
    simp (disch := decide) only [fieldIs, low, high, whole, Nat.reduceSub, bitSet_ofBool, Guard.ofBits_bits] <;> rfl)

theorem cflush (rd : Reg) (ra : Reg) (sc : BitVec 4) (g : Bool) : Statement (.cflush rd ra sc g) :=
  of_fields 0x88 _ rfl (by simp (disch := decide) only [high, low] <;> rfl) rfl (by
    rw [show ∀ w : Word, decodeOp 0x88 w =
      (if fieldIs w 5 5 0 then some (.cflush (w.extractLsb' 17 7) (w.extractLsb' 10 7) (w.extractLsb' 1 4) (bitSet (w.extractLsb' 0 1))) else none) from fun _ => rfl]
    simp (disch := decide) only [fieldIs, low, high, whole, Nat.reduceSub, bitSet_ofBool, Guard.ofBits_bits] <;> rfl)

theorem cinv (rd : Reg) (ra : Reg) (sc : BitVec 4) (g : Bool) : Statement (.cinv rd ra sc g) :=
  of_fields 0x89 _ rfl (by simp (disch := decide) only [high, low] <;> rfl) rfl (by
    rw [show ∀ w : Word, decodeOp 0x89 w =
      (if fieldIs w 5 5 0 then some (.cinv (w.extractLsb' 17 7) (w.extractLsb' 10 7) (w.extractLsb' 1 4) (bitSet (w.extractLsb' 0 1))) else none) from fun _ => rfl]
    simp (disch := decide) only [fieldIs, low, high, whole, Nat.reduceSub, bitSet_ofBool, Guard.ofBits_bits] <;> rfl)

theorem fence (ord : BitVec 2) (sc : BitVec 4) (g : Bool) : Statement (.fence ord sc g) :=
  of_fields 0x8A _ rfl (by simp (disch := decide) only [high, low] <;> rfl) rfl (by
    rw [show ∀ w : Word, decodeOp 0x8A w =
      (if fieldIs w 7 17 0 then some (.fence (w.extractLsb' 5 2) (w.extractLsb' 1 4) (bitSet (w.extractLsb' 0 1))) else none) from fun _ => rfl]
    simp (disch := decide) only [fieldIs, low, high, whole, Nat.reduceSub, bitSet_ofBool, Guard.ofBits_bits] <;> rfl)

theorem acasRelaxed (rd : Reg) (ra : Reg) (rb : Reg) (sc3 : BitVec 3) : Statement (.acasRelaxed rd ra rb sc3) :=
  of_fields 0x8B _ rfl (by simp (disch := decide) only [high, low] <;> rfl) rfl (by
    rw [show ∀ w : Word, decodeOp 0x8B w =
      (some (.acasRelaxed (w.extractLsb' 17 7) (w.extractLsb' 10 7) (w.extractLsb' 3 7) (w.extractLsb' 0 3))) from fun _ => rfl]
    simp (disch := decide) only [fieldIs, low, high, whole, Nat.reduceSub, bitSet_ofBool, Guard.ofBits_bits] <;> rfl)

theorem acasAcqRel (rd : Reg) (ra : Reg) (rb : Reg) (sc3 : BitVec 3) : Statement (.acasAcqRel rd ra rb sc3) :=
  of_fields 0x8C _ rfl (by simp (disch := decide) only [high, low] <;> rfl) rfl (by
    rw [show ∀ w : Word, decodeOp 0x8C w =
      (some (.acasAcqRel (w.extractLsb' 17 7) (w.extractLsb' 10 7) (w.extractLsb' 3 7) (w.extractLsb' 0 3))) from fun _ => rfl]
    simp (disch := decide) only [fieldIs, low, high, whole, Nat.reduceSub, bitSet_ofBool, Guard.ofBits_bits] <;> rfl)

theorem atomRelaxed (op : BitVec 4) (rd : Reg) (ra : Reg) (rb : Reg) (sc3 : BitVec 3) : Statement (.atomRelaxed op rd ra rb sc3) := by
  intro hwf
  have h : op.toNat ≤ 9 := by simpa [Instr.wellFormed] using hwf
  have h2 : op = 0 ∨ op = 1 ∨ op = 2 ∨ op = 3 ∨ op = 4 ∨ op = 5 ∨ op = 6 ∨ op = 7 ∨ op = 8 ∨ op = 9 := by
    clear hwf; revert op; decide
  rcases h2 with rfl | rfl | rfl | rfl | rfl | rfl | rfl | rfl | rfl | rfl
  · exact of_fields 0x90 _ rfl (by simp (disch := decide) only [high, low] <;> rfl) rfl (by
      rw [show ∀ w : Word, decodeOp 0x90 w =
        (some (.atomRelaxed (w.extractLsb' 24 4) (w.extractLsb' 17 7) (w.extractLsb' 10 7) (w.extractLsb' 3 7) (w.extractLsb' 0 3))) from fun _ => rfl]
      simp (disch := decide) only [fieldIs, low, high, whole, Nat.reduceSub, bitSet_ofBool, Guard.ofBits_bits] <;> rfl) hwf
  · exact of_fields 0x91 _ rfl (by simp (disch := decide) only [high, low] <;> rfl) rfl (by
      rw [show ∀ w : Word, decodeOp 0x91 w =
        (some (.atomRelaxed (w.extractLsb' 24 4) (w.extractLsb' 17 7) (w.extractLsb' 10 7) (w.extractLsb' 3 7) (w.extractLsb' 0 3))) from fun _ => rfl]
      simp (disch := decide) only [fieldIs, low, high, whole, Nat.reduceSub, bitSet_ofBool, Guard.ofBits_bits] <;> rfl) hwf
  · exact of_fields 0x92 _ rfl (by simp (disch := decide) only [high, low] <;> rfl) rfl (by
      rw [show ∀ w : Word, decodeOp 0x92 w =
        (some (.atomRelaxed (w.extractLsb' 24 4) (w.extractLsb' 17 7) (w.extractLsb' 10 7) (w.extractLsb' 3 7) (w.extractLsb' 0 3))) from fun _ => rfl]
      simp (disch := decide) only [fieldIs, low, high, whole, Nat.reduceSub, bitSet_ofBool, Guard.ofBits_bits] <;> rfl) hwf
  · exact of_fields 0x93 _ rfl (by simp (disch := decide) only [high, low] <;> rfl) rfl (by
      rw [show ∀ w : Word, decodeOp 0x93 w =
        (some (.atomRelaxed (w.extractLsb' 24 4) (w.extractLsb' 17 7) (w.extractLsb' 10 7) (w.extractLsb' 3 7) (w.extractLsb' 0 3))) from fun _ => rfl]
      simp (disch := decide) only [fieldIs, low, high, whole, Nat.reduceSub, bitSet_ofBool, Guard.ofBits_bits] <;> rfl) hwf
  · exact of_fields 0x94 _ rfl (by simp (disch := decide) only [high, low] <;> rfl) rfl (by
      rw [show ∀ w : Word, decodeOp 0x94 w =
        (some (.atomRelaxed (w.extractLsb' 24 4) (w.extractLsb' 17 7) (w.extractLsb' 10 7) (w.extractLsb' 3 7) (w.extractLsb' 0 3))) from fun _ => rfl]
      simp (disch := decide) only [fieldIs, low, high, whole, Nat.reduceSub, bitSet_ofBool, Guard.ofBits_bits] <;> rfl) hwf
  · exact of_fields 0x95 _ rfl (by simp (disch := decide) only [high, low] <;> rfl) rfl (by
      rw [show ∀ w : Word, decodeOp 0x95 w =
        (some (.atomRelaxed (w.extractLsb' 24 4) (w.extractLsb' 17 7) (w.extractLsb' 10 7) (w.extractLsb' 3 7) (w.extractLsb' 0 3))) from fun _ => rfl]
      simp (disch := decide) only [fieldIs, low, high, whole, Nat.reduceSub, bitSet_ofBool, Guard.ofBits_bits] <;> rfl) hwf
  · exact of_fields 0x96 _ rfl (by simp (disch := decide) only [high, low] <;> rfl) rfl (by
      rw [show ∀ w : Word, decodeOp 0x96 w =
        (some (.atomRelaxed (w.extractLsb' 24 4) (w.extractLsb' 17 7) (w.extractLsb' 10 7) (w.extractLsb' 3 7) (w.extractLsb' 0 3))) from fun _ => rfl]
      simp (disch := decide) only [fieldIs, low, high, whole, Nat.reduceSub, bitSet_ofBool, Guard.ofBits_bits] <;> rfl) hwf
  · exact of_fields 0x97 _ rfl (by simp (disch := decide) only [high, low] <;> rfl) rfl (by
      rw [show ∀ w : Word, decodeOp 0x97 w =
        (some (.atomRelaxed (w.extractLsb' 24 4) (w.extractLsb' 17 7) (w.extractLsb' 10 7) (w.extractLsb' 3 7) (w.extractLsb' 0 3))) from fun _ => rfl]
      simp (disch := decide) only [fieldIs, low, high, whole, Nat.reduceSub, bitSet_ofBool, Guard.ofBits_bits] <;> rfl) hwf
  · exact of_fields 0x98 _ rfl (by simp (disch := decide) only [high, low] <;> rfl) rfl (by
      rw [show ∀ w : Word, decodeOp 0x98 w =
        (some (.atomRelaxed (w.extractLsb' 24 4) (w.extractLsb' 17 7) (w.extractLsb' 10 7) (w.extractLsb' 3 7) (w.extractLsb' 0 3))) from fun _ => rfl]
      simp (disch := decide) only [fieldIs, low, high, whole, Nat.reduceSub, bitSet_ofBool, Guard.ofBits_bits] <;> rfl) hwf
  · exact of_fields 0x99 _ rfl (by simp (disch := decide) only [high, low] <;> rfl) rfl (by
      rw [show ∀ w : Word, decodeOp 0x99 w =
        (some (.atomRelaxed (w.extractLsb' 24 4) (w.extractLsb' 17 7) (w.extractLsb' 10 7) (w.extractLsb' 3 7) (w.extractLsb' 0 3))) from fun _ => rfl]
      simp (disch := decide) only [fieldIs, low, high, whole, Nat.reduceSub, bitSet_ofBool, Guard.ofBits_bits] <;> rfl) hwf

theorem atomAcqRel (op : BitVec 4) (rd : Reg) (ra : Reg) (rb : Reg) (sc3 : BitVec 3) : Statement (.atomAcqRel op rd ra rb sc3) := by
  intro hwf
  have h : op.toNat ≤ 9 := by simpa [Instr.wellFormed] using hwf
  have h2 : op = 0 ∨ op = 1 ∨ op = 2 ∨ op = 3 ∨ op = 4 ∨ op = 5 ∨ op = 6 ∨ op = 7 ∨ op = 8 ∨ op = 9 := by
    clear hwf; revert op; decide
  rcases h2 with rfl | rfl | rfl | rfl | rfl | rfl | rfl | rfl | rfl | rfl
  · exact of_fields 0xA0 _ rfl (by simp (disch := decide) only [high, low] <;> rfl) rfl (by
      rw [show ∀ w : Word, decodeOp 0xA0 w =
        (some (.atomAcqRel (w.extractLsb' 24 4) (w.extractLsb' 17 7) (w.extractLsb' 10 7) (w.extractLsb' 3 7) (w.extractLsb' 0 3))) from fun _ => rfl]
      simp (disch := decide) only [fieldIs, low, high, whole, Nat.reduceSub, bitSet_ofBool, Guard.ofBits_bits] <;> rfl) hwf
  · exact of_fields 0xA1 _ rfl (by simp (disch := decide) only [high, low] <;> rfl) rfl (by
      rw [show ∀ w : Word, decodeOp 0xA1 w =
        (some (.atomAcqRel (w.extractLsb' 24 4) (w.extractLsb' 17 7) (w.extractLsb' 10 7) (w.extractLsb' 3 7) (w.extractLsb' 0 3))) from fun _ => rfl]
      simp (disch := decide) only [fieldIs, low, high, whole, Nat.reduceSub, bitSet_ofBool, Guard.ofBits_bits] <;> rfl) hwf
  · exact of_fields 0xA2 _ rfl (by simp (disch := decide) only [high, low] <;> rfl) rfl (by
      rw [show ∀ w : Word, decodeOp 0xA2 w =
        (some (.atomAcqRel (w.extractLsb' 24 4) (w.extractLsb' 17 7) (w.extractLsb' 10 7) (w.extractLsb' 3 7) (w.extractLsb' 0 3))) from fun _ => rfl]
      simp (disch := decide) only [fieldIs, low, high, whole, Nat.reduceSub, bitSet_ofBool, Guard.ofBits_bits] <;> rfl) hwf
  · exact of_fields 0xA3 _ rfl (by simp (disch := decide) only [high, low] <;> rfl) rfl (by
      rw [show ∀ w : Word, decodeOp 0xA3 w =
        (some (.atomAcqRel (w.extractLsb' 24 4) (w.extractLsb' 17 7) (w.extractLsb' 10 7) (w.extractLsb' 3 7) (w.extractLsb' 0 3))) from fun _ => rfl]
      simp (disch := decide) only [fieldIs, low, high, whole, Nat.reduceSub, bitSet_ofBool, Guard.ofBits_bits] <;> rfl) hwf
  · exact of_fields 0xA4 _ rfl (by simp (disch := decide) only [high, low] <;> rfl) rfl (by
      rw [show ∀ w : Word, decodeOp 0xA4 w =
        (some (.atomAcqRel (w.extractLsb' 24 4) (w.extractLsb' 17 7) (w.extractLsb' 10 7) (w.extractLsb' 3 7) (w.extractLsb' 0 3))) from fun _ => rfl]
      simp (disch := decide) only [fieldIs, low, high, whole, Nat.reduceSub, bitSet_ofBool, Guard.ofBits_bits] <;> rfl) hwf
  · exact of_fields 0xA5 _ rfl (by simp (disch := decide) only [high, low] <;> rfl) rfl (by
      rw [show ∀ w : Word, decodeOp 0xA5 w =
        (some (.atomAcqRel (w.extractLsb' 24 4) (w.extractLsb' 17 7) (w.extractLsb' 10 7) (w.extractLsb' 3 7) (w.extractLsb' 0 3))) from fun _ => rfl]
      simp (disch := decide) only [fieldIs, low, high, whole, Nat.reduceSub, bitSet_ofBool, Guard.ofBits_bits] <;> rfl) hwf
  · exact of_fields 0xA6 _ rfl (by simp (disch := decide) only [high, low] <;> rfl) rfl (by
      rw [show ∀ w : Word, decodeOp 0xA6 w =
        (some (.atomAcqRel (w.extractLsb' 24 4) (w.extractLsb' 17 7) (w.extractLsb' 10 7) (w.extractLsb' 3 7) (w.extractLsb' 0 3))) from fun _ => rfl]
      simp (disch := decide) only [fieldIs, low, high, whole, Nat.reduceSub, bitSet_ofBool, Guard.ofBits_bits] <;> rfl) hwf
  · exact of_fields 0xA7 _ rfl (by simp (disch := decide) only [high, low] <;> rfl) rfl (by
      rw [show ∀ w : Word, decodeOp 0xA7 w =
        (some (.atomAcqRel (w.extractLsb' 24 4) (w.extractLsb' 17 7) (w.extractLsb' 10 7) (w.extractLsb' 3 7) (w.extractLsb' 0 3))) from fun _ => rfl]
      simp (disch := decide) only [fieldIs, low, high, whole, Nat.reduceSub, bitSet_ofBool, Guard.ofBits_bits] <;> rfl) hwf
  · exact of_fields 0xA8 _ rfl (by simp (disch := decide) only [high, low] <;> rfl) rfl (by
      rw [show ∀ w : Word, decodeOp 0xA8 w =
        (some (.atomAcqRel (w.extractLsb' 24 4) (w.extractLsb' 17 7) (w.extractLsb' 10 7) (w.extractLsb' 3 7) (w.extractLsb' 0 3))) from fun _ => rfl]
      simp (disch := decide) only [fieldIs, low, high, whole, Nat.reduceSub, bitSet_ofBool, Guard.ofBits_bits] <;> rfl) hwf
  · exact of_fields 0xA9 _ rfl (by simp (disch := decide) only [high, low] <;> rfl) rfl (by
      rw [show ∀ w : Word, decodeOp 0xA9 w =
        (some (.atomAcqRel (w.extractLsb' 24 4) (w.extractLsb' 17 7) (w.extractLsb' 10 7) (w.extractLsb' 3 7) (w.extractLsb' 0 3))) from fun _ => rfl]
      simp (disch := decide) only [fieldIs, low, high, whole, Nat.reduceSub, bitSet_ofBool, Guard.ofBits_bits] <;> rfl) hwf

theorem red (op : BitVec 4) (ra : Reg) (rb : Reg) (sc3 : BitVec 3) : Statement (.red op ra rb sc3) := by
  intro hwf
  have h : op.toNat ≤ 8 := by simpa [Instr.wellFormed] using hwf
  have h2 : op = 0 ∨ op = 1 ∨ op = 2 ∨ op = 3 ∨ op = 4 ∨ op = 5 ∨ op = 6 ∨ op = 7 ∨ op = 8 := by
    clear hwf; revert op; decide
  rcases h2 with rfl | rfl | rfl | rfl | rfl | rfl | rfl | rfl | rfl
  · exact of_fields 0xB0 _ rfl (by simp (disch := decide) only [high, low] <;> rfl) rfl (by
      rw [show ∀ w : Word, decodeOp 0xB0 w =
        (if fieldIs w 17 7 0 then some (.red (w.extractLsb' 24 4) (w.extractLsb' 10 7) (w.extractLsb' 3 7) (w.extractLsb' 0 3)) else none) from fun _ => rfl]
      simp (disch := decide) only [fieldIs, low, high, whole, Nat.reduceSub, bitSet_ofBool, Guard.ofBits_bits] <;> rfl) hwf
  · exact of_fields 0xB1 _ rfl (by simp (disch := decide) only [high, low] <;> rfl) rfl (by
      rw [show ∀ w : Word, decodeOp 0xB1 w =
        (if fieldIs w 17 7 0 then some (.red (w.extractLsb' 24 4) (w.extractLsb' 10 7) (w.extractLsb' 3 7) (w.extractLsb' 0 3)) else none) from fun _ => rfl]
      simp (disch := decide) only [fieldIs, low, high, whole, Nat.reduceSub, bitSet_ofBool, Guard.ofBits_bits] <;> rfl) hwf
  · exact of_fields 0xB2 _ rfl (by simp (disch := decide) only [high, low] <;> rfl) rfl (by
      rw [show ∀ w : Word, decodeOp 0xB2 w =
        (if fieldIs w 17 7 0 then some (.red (w.extractLsb' 24 4) (w.extractLsb' 10 7) (w.extractLsb' 3 7) (w.extractLsb' 0 3)) else none) from fun _ => rfl]
      simp (disch := decide) only [fieldIs, low, high, whole, Nat.reduceSub, bitSet_ofBool, Guard.ofBits_bits] <;> rfl) hwf
  · exact of_fields 0xB3 _ rfl (by simp (disch := decide) only [high, low] <;> rfl) rfl (by
      rw [show ∀ w : Word, decodeOp 0xB3 w =
        (if fieldIs w 17 7 0 then some (.red (w.extractLsb' 24 4) (w.extractLsb' 10 7) (w.extractLsb' 3 7) (w.extractLsb' 0 3)) else none) from fun _ => rfl]
      simp (disch := decide) only [fieldIs, low, high, whole, Nat.reduceSub, bitSet_ofBool, Guard.ofBits_bits] <;> rfl) hwf
  · exact of_fields 0xB4 _ rfl (by simp (disch := decide) only [high, low] <;> rfl) rfl (by
      rw [show ∀ w : Word, decodeOp 0xB4 w =
        (if fieldIs w 17 7 0 then some (.red (w.extractLsb' 24 4) (w.extractLsb' 10 7) (w.extractLsb' 3 7) (w.extractLsb' 0 3)) else none) from fun _ => rfl]
      simp (disch := decide) only [fieldIs, low, high, whole, Nat.reduceSub, bitSet_ofBool, Guard.ofBits_bits] <;> rfl) hwf
  · exact of_fields 0xB5 _ rfl (by simp (disch := decide) only [high, low] <;> rfl) rfl (by
      rw [show ∀ w : Word, decodeOp 0xB5 w =
        (if fieldIs w 17 7 0 then some (.red (w.extractLsb' 24 4) (w.extractLsb' 10 7) (w.extractLsb' 3 7) (w.extractLsb' 0 3)) else none) from fun _ => rfl]
      simp (disch := decide) only [fieldIs, low, high, whole, Nat.reduceSub, bitSet_ofBool, Guard.ofBits_bits] <;> rfl) hwf
  · exact of_fields 0xB6 _ rfl (by simp (disch := decide) only [high, low] <;> rfl) rfl (by
      rw [show ∀ w : Word, decodeOp 0xB6 w =
        (if fieldIs w 17 7 0 then some (.red (w.extractLsb' 24 4) (w.extractLsb' 10 7) (w.extractLsb' 3 7) (w.extractLsb' 0 3)) else none) from fun _ => rfl]
      simp (disch := decide) only [fieldIs, low, high, whole, Nat.reduceSub, bitSet_ofBool, Guard.ofBits_bits] <;> rfl) hwf
  · exact of_fields 0xB7 _ rfl (by simp (disch := decide) only [high, low] <;> rfl) rfl (by
      rw [show ∀ w : Word, decodeOp 0xB7 w =
        (if fieldIs w 17 7 0 then some (.red (w.extractLsb' 24 4) (w.extractLsb' 10 7) (w.extractLsb' 3 7) (w.extractLsb' 0 3)) else none) from fun _ => rfl]
      simp (disch := decide) only [fieldIs, low, high, whole, Nat.reduceSub, bitSet_ofBool, Guard.ofBits_bits] <;> rfl) hwf
  · exact of_fields 0xB8 _ rfl (by simp (disch := decide) only [high, low] <;> rfl) rfl (by
      rw [show ∀ w : Word, decodeOp 0xB8 w =
        (if fieldIs w 17 7 0 then some (.red (w.extractLsb' 24 4) (w.extractLsb' 10 7) (w.extractLsb' 3 7) (w.extractLsb' 0 3)) else none) from fun _ => rfl]
      simp (disch := decide) only [fieldIs, low, high, whole, Nat.reduceSub, bitSet_ofBool, Guard.ofBits_bits] <;> rfl) hwf

theorem enq (ra : Reg) (rb : Reg) (fe : Bool) (g : Guard) : Statement (.enq ra rb fe g) :=
  of_fields 0xC0 _ rfl (by simp (disch := decide) only [high, low] <;> rfl) rfl (by
    rw [show ∀ w : Word, decodeOp 0xC0 w =
      (if fieldIs w 17 7 0 then some (.enq (w.extractLsb' 10 7) (w.extractLsb' 3 7) (bitSet (w.extractLsb' 2 1)) (Guard.ofBits (w.extractLsb' 0 2))) else none) from fun _ => rfl]
    simp (disch := decide) only [fieldIs, low, high, whole, Nat.reduceSub, bitSet_ofBool, Guard.ofBits_bits] <;> rfl)

theorem enqt (rd : Reg) (ra : Reg) (rb : Reg) (fe : Bool) (g : Guard) : Statement (.enqt rd ra rb fe g) :=
  of_fields 0xC1 _ rfl (by simp (disch := decide) only [high, low] <;> rfl) rfl (by
    rw [show ∀ w : Word, decodeOp 0xC1 w =
      (some (.enqt (w.extractLsb' 17 7) (w.extractLsb' 10 7) (w.extractLsb' 3 7) (bitSet (w.extractLsb' 2 1)) (Guard.ofBits (w.extractLsb' 0 2)))) from fun _ => rfl]
    simp (disch := decide) only [fieldIs, low, high, whole, Nat.reduceSub, bitSet_ofBool, Guard.ofBits_bits] <;> rfl)

theorem deq (rd : Reg) (ra : Reg) (fe : Bool) (g : Guard) : Statement (.deq rd ra fe g) :=
  of_fields 0xC2 _ rfl (by simp (disch := decide) only [high, low] <;> rfl) rfl (by
    rw [show ∀ w : Word, decodeOp 0xC2 w =
      (if fieldIs w 3 7 0 then some (.deq (w.extractLsb' 17 7) (w.extractLsb' 10 7) (bitSet (w.extractLsb' 2 1)) (Guard.ofBits (w.extractLsb' 0 2))) else none) from fun _ => rfl]
    simp (disch := decide) only [fieldIs, low, high, whole, Nat.reduceSub, bitSet_ofBool, Guard.ofBits_bits] <;> rfl)

theorem deqt (rd : Reg) (ra : Reg) (rb : Reg) (fe : Bool) (g : Guard) : Statement (.deqt rd ra rb fe g) :=
  of_fields 0xC3 _ rfl (by simp (disch := decide) only [high, low] <;> rfl) rfl (by
    rw [show ∀ w : Word, decodeOp 0xC3 w =
      (some (.deqt (w.extractLsb' 17 7) (w.extractLsb' 10 7) (w.extractLsb' 3 7) (bitSet (w.extractLsb' 2 1)) (Guard.ofBits (w.extractLsb' 0 2)))) from fun _ => rfl]
    simp (disch := decide) only [fieldIs, low, high, whole, Nat.reduceSub, bitSet_ofBool, Guard.ofBits_bits] <;> rfl)

theorem qinit (rd : Reg) (ra : Reg) (rb : Reg) (fe : Bool) (g : Guard) : Statement (.qinit rd ra rb fe g) :=
  of_fields 0xC4 _ rfl (by simp (disch := decide) only [high, low] <;> rfl) rfl (by
    rw [show ∀ w : Word, decodeOp 0xC4 w =
      (some (.qinit (w.extractLsb' 17 7) (w.extractLsb' 10 7) (w.extractLsb' 3 7) (bitSet (w.extractLsb' 2 1)) (Guard.ofBits (w.extractLsb' 0 2)))) from fun _ => rfl]
    simp (disch := decide) only [fieldIs, low, high, whole, Nat.reduceSub, bitSet_ofBool, Guard.ofBits_bits] <;> rfl)

theorem qstat (rd : Reg) (ra : Reg) (fe : Bool) (g : Guard) : Statement (.qstat rd ra fe g) :=
  of_fields 0xC5 _ rfl (by simp (disch := decide) only [high, low] <;> rfl) rfl (by
    rw [show ∀ w : Word, decodeOp 0xC5 w =
      (if fieldIs w 3 7 0 then some (.qstat (w.extractLsb' 17 7) (w.extractLsb' 10 7) (bitSet (w.extractLsb' 2 1)) (Guard.ofBits (w.extractLsb' 0 2))) else none) from fun _ => rfl]
    simp (disch := decide) only [fieldIs, low, high, whole, Nat.reduceSub, bitSet_ofBool, Guard.ofBits_bits] <;> rfl)

theorem bari (ra : Reg) (rb : Reg) (fe : Bool) (g : Guard) : Statement (.bari ra rb fe g) :=
  of_fields 0xC6 _ rfl (by simp (disch := decide) only [high, low] <;> rfl) rfl (by
    rw [show ∀ w : Word, decodeOp 0xC6 w =
      (if fieldIs w 17 7 0 then some (.bari (w.extractLsb' 10 7) (w.extractLsb' 3 7) (bitSet (w.extractLsb' 2 1)) (Guard.ofBits (w.extractLsb' 0 2))) else none) from fun _ => rfl]
    simp (disch := decide) only [fieldIs, low, high, whole, Nat.reduceSub, bitSet_ofBool, Guard.ofBits_bits] <;> rfl)

theorem bara (rd : Reg) (ra : Reg) (rb : Reg) (fe : Bool) (g : Guard) : Statement (.bara rd ra rb fe g) :=
  of_fields 0xC7 _ rfl (by simp (disch := decide) only [high, low] <;> rfl) rfl (by
    rw [show ∀ w : Word, decodeOp 0xC7 w =
      (some (.bara (w.extractLsb' 17 7) (w.extractLsb' 10 7) (w.extractLsb' 3 7) (bitSet (w.extractLsb' 2 1)) (Guard.ofBits (w.extractLsb' 0 2)))) from fun _ => rfl]
    simp (disch := decide) only [fieldIs, low, high, whole, Nat.reduceSub, bitSet_ofBool, Guard.ofBits_bits] <;> rfl)

theorem barw (ra : Reg) (fe : Bool) (g : Guard) : Statement (.barw ra fe g) :=
  of_fields 0xC8 _ rfl (by simp (disch := decide) only [high, low] <;> rfl) rfl (by
    rw [show ∀ w : Word, decodeOp 0xC8 w =
      (if fieldIs w 17 7 0 && fieldIs w 3 7 0 then some (.barw (w.extractLsb' 10 7) (bitSet (w.extractLsb' 2 1)) (Guard.ofBits (w.extractLsb' 0 2))) else none) from fun _ => rfl]
    simp (disch := decide) only [fieldIs, low, high, whole, Nat.reduceSub, bitSet_ofBool, Guard.ofBits_bits] <;> rfl)

theorem cpy (rd : Reg) (ra : Reg) (sz : BitVec 3) (g : Bool) : Statement (.cpy rd ra sz g) :=
  of_fields 0xC9 _ rfl (by simp (disch := decide) only [high, low] <;> rfl) rfl (by
    rw [show ∀ w : Word, decodeOp 0xC9 w =
      (if fieldIs w 1 6 0 then some (.cpy (w.extractLsb' 17 7) (w.extractLsb' 10 7) (w.extractLsb' 7 3) (bitSet (w.extractLsb' 0 1))) else none) from fun _ => rfl]
    simp (disch := decide) only [fieldIs, low, high, whole, Nat.reduceSub, bitSet_ofBool, Guard.ofBits_bits] <;> rfl)

theorem cpyb (rd : Reg) (ra : Reg) (rb : Reg) (fe : Bool) (g : Guard) : Statement (.cpyb rd ra rb fe g) :=
  of_fields 0xCA _ rfl (by simp (disch := decide) only [high, low] <;> rfl) rfl (by
    rw [show ∀ w : Word, decodeOp 0xCA w =
      (some (.cpyb (w.extractLsb' 17 7) (w.extractLsb' 10 7) (w.extractLsb' 3 7) (bitSet (w.extractLsb' 2 1)) (Guard.ofBits (w.extractLsb' 0 2)))) from fun _ => rfl]
    simp (disch := decide) only [fieldIs, low, high, whole, Nat.reduceSub, bitSet_ofBool, Guard.ofBits_bits] <;> rfl)

theorem cpys (rd : Reg) (ra : Reg) (rb : Reg) (fe : Bool) (g : Guard) : Statement (.cpys rd ra rb fe g) :=
  of_fields 0xCB _ rfl (by simp (disch := decide) only [high, low] <;> rfl) rfl (by
    rw [show ∀ w : Word, decodeOp 0xCB w =
      (some (.cpys (w.extractLsb' 17 7) (w.extractLsb' 10 7) (w.extractLsb' 3 7) (bitSet (w.extractLsb' 2 1)) (Guard.ofBits (w.extractLsb' 0 2)))) from fun _ => rfl]
    simp (disch := decide) only [fieldIs, low, high, whole, Nat.reduceSub, bitSet_ofBool, Guard.ofBits_bits] <;> rfl)

theorem mma (ra : Reg) (fe : Bool) (g : Guard) : Statement (.mma ra fe g) :=
  of_fields 0xD0 _ rfl (by simp (disch := decide) only [high, low] <;> rfl) rfl (by
    rw [show ∀ w : Word, decodeOp 0xD0 w =
      (if fieldIs w 17 7 0 && fieldIs w 3 7 0 then some (.mma (w.extractLsb' 10 7) (bitSet (w.extractLsb' 2 1)) (Guard.ofBits (w.extractLsb' 0 2))) else none) from fun _ => rfl]
    simp (disch := decide) only [fieldIs, low, high, whole, Nat.reduceSub, bitSet_ofBool, Guard.ofBits_bits] <;> rfl)

theorem mzero (ra : Reg) (fe : Bool) (g : Guard) : Statement (.mzero ra fe g) :=
  of_fields 0xD1 _ rfl (by simp (disch := decide) only [high, low] <;> rfl) rfl (by
    rw [show ∀ w : Word, decodeOp 0xD1 w =
      (if fieldIs w 17 7 0 && fieldIs w 3 7 0 then some (.mzero (w.extractLsb' 10 7) (bitSet (w.extractLsb' 2 1)) (Guard.ofBits (w.extractLsb' 0 2))) else none) from fun _ => rfl]
    simp (disch := decide) only [fieldIs, low, high, whole, Nat.reduceSub, bitSet_ofBool, Guard.ofBits_bits] <;> rfl)

theorem mldb (rd : Reg) (ra : Reg) (rb : Reg) (fe : Bool) (g : Guard) : Statement (.mldb rd ra rb fe g) :=
  of_fields 0xD2 _ rfl (by simp (disch := decide) only [high, low] <;> rfl) rfl (by
    rw [show ∀ w : Word, decodeOp 0xD2 w =
      (some (.mldb (w.extractLsb' 17 7) (w.extractLsb' 10 7) (w.extractLsb' 3 7) (bitSet (w.extractLsb' 2 1)) (Guard.ofBits (w.extractLsb' 0 2)))) from fun _ => rfl]
    simp (disch := decide) only [fieldIs, low, high, whole, Nat.reduceSub, bitSet_ofBool, Guard.ofBits_bits] <;> rfl)

theorem mdrain (ra : Reg) (fe : Bool) (g : Guard) : Statement (.mdrain ra fe g) :=
  of_fields 0xD3 _ rfl (by simp (disch := decide) only [high, low] <;> rfl) rfl (by
    rw [show ∀ w : Word, decodeOp 0xD3 w =
      (if fieldIs w 17 7 0 && fieldIs w 3 7 0 then some (.mdrain (w.extractLsb' 10 7) (bitSet (w.extractLsb' 2 1)) (Guard.ofBits (w.extractLsb' 0 2))) else none) from fun _ => rfl]
    simp (disch := decide) only [fieldIs, low, high, whole, Nat.reduceSub, bitSet_ofBool, Guard.ofBits_bits] <;> rfl)

theorem mdrst (rd : Reg) (ra : Reg) (rb : Reg) (fe : Bool) (g : Guard) : Statement (.mdrst rd ra rb fe g) :=
  of_fields 0xD4 _ rfl (by simp (disch := decide) only [high, low] <;> rfl) rfl (by
    rw [show ∀ w : Word, decodeOp 0xD4 w =
      (some (.mdrst (w.extractLsb' 17 7) (w.extractLsb' 10 7) (w.extractLsb' 3 7) (bitSet (w.extractLsb' 2 1)) (Guard.ofBits (w.extractLsb' 0 2)))) from fun _ => rfl]
    simp (disch := decide) only [fieldIs, low, high, whole, Nat.reduceSub, bitSet_ofBool, Guard.ofBits_bits] <;> rfl)

theorem afeed (ra : Reg) (rb : Reg) (fe : Bool) (g : Guard) : Statement (.afeed ra rb fe g) :=
  of_fields 0xD5 _ rfl (by simp (disch := decide) only [high, low] <;> rfl) rfl (by
    rw [show ∀ w : Word, decodeOp 0xD5 w =
      (if fieldIs w 17 7 0 then some (.afeed (w.extractLsb' 10 7) (w.extractLsb' 3 7) (bitSet (w.extractLsb' 2 1)) (Guard.ofBits (w.extractLsb' 0 2))) else none) from fun _ => rfl]
    simp (disch := decide) only [fieldIs, low, high, whole, Nat.reduceSub, bitSet_ofBool, Guard.ofBits_bits] <;> rfl)

theorem adrn (rd : Reg) (ra : Reg) (fe : Bool) (g : Guard) : Statement (.adrn rd ra fe g) :=
  of_fields 0xD6 _ rfl (by simp (disch := decide) only [high, low] <;> rfl) rfl (by
    rw [show ∀ w : Word, decodeOp 0xD6 w =
      (if fieldIs w 3 7 0 then some (.adrn (w.extractLsb' 17 7) (w.extractLsb' 10 7) (bitSet (w.extractLsb' 2 1)) (Guard.ofBits (w.extractLsb' 0 2))) else none) from fun _ => rfl]
    simp (disch := decide) only [fieldIs, low, high, whole, Nat.reduceSub, bitSet_ofBool, Guard.ofBits_bits] <;> rfl)

theorem hread (rd : Reg) (ra : Reg) (rb : Reg) (fe : Bool) (g : Guard) : Statement (.hread rd ra rb fe g) :=
  of_fields 0xE0 _ rfl (by simp (disch := decide) only [high, low] <;> rfl) rfl (by
    rw [show ∀ w : Word, decodeOp 0xE0 w =
      (some (.hread (w.extractLsb' 17 7) (w.extractLsb' 10 7) (w.extractLsb' 3 7) (bitSet (w.extractLsb' 2 1)) (Guard.ofBits (w.extractLsb' 0 2)))) from fun _ => rfl]
    simp (disch := decide) only [fieldIs, low, high, whole, Nat.reduceSub, bitSet_ofBool, Guard.ofBits_bits] <;> rfl)

theorem hwrite (rd : Reg) (ra : Reg) (rb : Reg) (fe : Bool) (g : Guard) : Statement (.hwrite rd ra rb fe g) :=
  of_fields 0xE1 _ rfl (by simp (disch := decide) only [high, low] <;> rfl) rfl (by
    rw [show ∀ w : Word, decodeOp 0xE1 w =
      (some (.hwrite (w.extractLsb' 17 7) (w.extractLsb' 10 7) (w.extractLsb' 3 7) (bitSet (w.extractLsb' 2 1)) (Guard.ofBits (w.extractLsb' 0 2)))) from fun _ => rfl]
    simp (disch := decide) only [fieldIs, low, high, whole, Nat.reduceSub, bitSet_ofBool, Guard.ofBits_bits] <;> rfl)

theorem hstep (rd : Reg) (ra : Reg) (fe : Bool) (g : Guard) : Statement (.hstep rd ra fe g) :=
  of_fields 0xE2 _ rfl (by simp (disch := decide) only [high, low] <;> rfl) rfl (by
    rw [show ∀ w : Word, decodeOp 0xE2 w =
      (if fieldIs w 3 7 0 then some (.hstep (w.extractLsb' 17 7) (w.extractLsb' 10 7) (bitSet (w.extractLsb' 2 1)) (Guard.ofBits (w.extractLsb' 0 2))) else none) from fun _ => rfl]
    simp (disch := decide) only [fieldIs, low, high, whole, Nat.reduceSub, bitSet_ofBool, Guard.ofBits_bits] <;> rfl)

theorem hrun (ra : Reg) (rb : Reg) (fe : Bool) (g : Guard) : Statement (.hrun ra rb fe g) :=
  of_fields 0xE3 _ rfl (by simp (disch := decide) only [high, low] <;> rfl) rfl (by
    rw [show ∀ w : Word, decodeOp 0xE3 w =
      (if fieldIs w 17 7 0 then some (.hrun (w.extractLsb' 10 7) (w.extractLsb' 3 7) (bitSet (w.extractLsb' 2 1)) (Guard.ofBits (w.extractLsb' 0 2))) else none) from fun _ => rfl]
    simp (disch := decide) only [fieldIs, low, high, whole, Nat.reduceSub, bitSet_ofBool, Guard.ofBits_bits] <;> rfl)

theorem wset (ra : Reg) (rb : Reg) (fe : Bool) (g : Guard) : Statement (.wset ra rb fe g) :=
  of_fields 0xE4 _ rfl (by simp (disch := decide) only [high, low] <;> rfl) rfl (by
    rw [show ∀ w : Word, decodeOp 0xE4 w =
      (if fieldIs w 17 7 0 then some (.wset (w.extractLsb' 10 7) (w.extractLsb' 3 7) (bitSet (w.extractLsb' 2 1)) (Guard.ofBits (w.extractLsb' 0 2))) else none) from fun _ => rfl]
    simp (disch := decide) only [fieldIs, low, high, whole, Nat.reduceSub, bitSet_ofBool, Guard.ofBits_bits] <;> rfl)

theorem wclr (ra : Reg) (fe : Bool) (g : Guard) : Statement (.wclr ra fe g) :=
  of_fields 0xE5 _ rfl (by simp (disch := decide) only [high, low] <;> rfl) rfl (by
    rw [show ∀ w : Word, decodeOp 0xE5 w =
      (if fieldIs w 17 7 0 && fieldIs w 3 7 0 then some (.wclr (w.extractLsb' 10 7) (bitSet (w.extractLsb' 2 1)) (Guard.ofBits (w.extractLsb' 0 2))) else none) from fun _ => rfl]
    simp (disch := decide) only [fieldIs, low, high, whole, Nat.reduceSub, bitSet_ofBool, Guard.ofBits_bits] <;> rfl)

theorem deviceReset (boot : Boot) : Statement (.deviceReset boot) :=
  of_no_word rfl

theorem bundleReformation (core : Nat) : Statement (.bundleReformation core) :=
  of_no_word rfl

theorem readyAgeOverride (core : Nat) : Statement (.readyAgeOverride core) :=
  of_no_word rfl

theorem producerComplete (bid : Nat) (who : Who) (pid : ProducerEnd) : Statement (.producerComplete bid who pid) :=
  of_no_word rfl

theorem fibreEnded (bid : Nat) (who : Who) : Statement (.fibreEnded bid who) :=
  of_no_word rfl

theorem blockRetire (bid : Nat) : Statement (.blockRetire bid) :=
  of_no_word rfl

theorem releaseAckComplete (bid : Nat) (who : Who) : Statement (.releaseAckComplete bid who) :=
  of_no_word rfl

theorem pageWalkComplete (bid : Nat) (va : DWord) : Statement (.pageWalkComplete bid va) :=
  of_no_word rfl

theorem l1Eviction (core : Nat) (line : Nat) : Statement (.l1Eviction core line) :=
  of_no_word rfl

theorem queueEnqAtHome (req : Nat) : Statement (.queueEnqAtHome req) :=
  of_no_word rfl

theorem queueEnqWriteAck (cb : Nat) : Statement (.queueEnqWriteAck cb) :=
  of_no_word rfl

theorem queueDeqAtHome (req : Nat) : Statement (.queueDeqAtHome req) :=
  of_no_word rfl

theorem queueDeqReadDone (cb : Nat) : Statement (.queueDeqReadDone cb) :=
  of_no_word rfl

theorem rollBusyResend (req : Nat) : Statement (.rollBusyResend req) :=
  of_no_word rfl

theorem taggedAccessAtHome (req : Nat) : Statement (.taggedAccessAtHome req) :=
  of_no_word rfl

theorem cpyComplete (op : Nat) : Statement (.cpyComplete op) :=
  of_no_word rfl

theorem engineTriggerDeq (op : Nat) : Statement (.engineTriggerDeq op) :=
  of_no_word rfl

theorem operandsConsumedEvent (op : Nat) : Statement (.operandsConsumedEvent op) :=
  of_no_word rfl

theorem engineUnitWrite (op : Nat) : Statement (.engineUnitWrite op) :=
  of_no_word rfl

theorem engineOperationEnd (op : Nat) : Statement (.engineOperationEnd op) :=
  of_no_word rfl

theorem bSliceLoadComplete (core : Nat) : Statement (.bSliceLoadComplete core) :=
  of_no_word rfl

theorem matrixCommandStart (core : Nat) : Statement (.matrixCommandStart core) :=
  of_no_word rfl

theorem matrixCommandComplete (core : Nat) : Statement (.matrixCommandComplete core) :=
  of_no_word rfl

theorem mdrainReadoutDone (op : Nat) : Statement (.mdrainReadoutDone op) :=
  of_no_word rfl

theorem summitContributionArrive (contrib : Nat) : Statement (.summitContributionArrive contrib) :=
  of_no_word rfl

theorem summitDelivery (inst : Nat) : Statement (.summitDelivery inst) :=
  of_no_word rfl

theorem launchAccept (queue : Nat) : Statement (.launchAccept queue) :=
  of_no_word rfl

theorem blockSeat (unit : Nat) : Statement (.blockSeat unit) :=
  of_no_word rfl

theorem launchComplete (lid : Nat) : Statement (.launchComplete lid) :=
  of_no_word rfl

theorem preemptPriority (lid : Nat) : Statement (.preemptPriority lid) :=
  of_no_word rfl

theorem preemptHost (target : PreemptTarget) : Statement (.preemptHost target) :=
  of_no_word rfl

theorem preemptGovernor (stack : Nat) : Statement (.preemptGovernor stack) :=
  of_no_word rfl

theorem blockSave (bid : Nat) : Statement (.blockSave bid) :=
  of_no_word rfl

theorem preemptRetry (bid : Nat) : Statement (.preemptRetry bid) :=
  of_no_word rfl

theorem blockResume (bid : Nat) : Statement (.blockResume bid) :=
  of_no_word rfl

theorem resumeRetry : Statement .resumeRetry :=
  of_no_word rfl

theorem resumeSkip : Statement .resumeSkip :=
  of_no_word rfl

theorem resumeAbort : Statement .resumeAbort :=
  of_no_word rfl

theorem checkpointSeal (bid : Nat) : Statement (.checkpointSeal bid) :=
  of_no_word rfl

theorem signatureCompare (bid : Nat) : Statement (.signatureCompare bid) :=
  of_no_word rfl

theorem trialStart (value : DWord) : Statement (.trialStart value) :=
  of_no_word rfl

theorem trialWindowEnd : Statement .trialWindowEnd :=
  of_no_word rfl

theorem trialDelayExpire (core : Nat) : Statement (.trialDelayExpire core) :=
  of_no_word rfl

theorem governorStep (stack : Nat) (reading : Reading) : Statement (.governorStep stack reading) :=
  of_no_word rfl

theorem governorEmergencyBegin (dies : List Nat) (cause : EmergencyCause) : Statement (.governorEmergencyBegin dies cause) :=
  of_no_word rfl

theorem governorEmergencyEnd (stack : Nat) : Statement (.governorEmergencyEnd stack) :=
  of_no_word rfl

theorem dramRequestService (visit : DramVisit) : Statement (.dramRequestService visit) :=
  of_no_word rfl

theorem deadlineUrgent (channel : Nat) : Statement (.deadlineUrgent channel) :=
  of_no_word rfl

theorem bankBackoffEnd (channel : Nat) (bank : Nat) : Statement (.bankBackoffEnd channel bank) :=
  of_no_word rfl

theorem actselClear (channel : Nat) (value : DWord) : Statement (.actselClear channel value) :=
  of_no_word rfl

theorem amapCommit (region : Nat) (value : DWord) : Statement (.amapCommit region value) :=
  of_no_word rfl

theorem launchQueueEnable (queue : Nat) (value : DWord) : Statement (.launchQueueEnable queue value) :=
  of_no_word rfl

theorem registerWrite (port : Nat) (reg : DevReg) (value : DWord) : Statement (.registerWrite port reg value) :=
  of_no_word rfl

theorem hifence (port : Nat) (value : DWord) : Statement (.hifence port value) :=
  of_no_word rfl

theorem hifenceComplete (port : Nat) : Statement (.hifenceComplete port) :=
  of_no_word rfl

theorem hifenceTimeout (port : Nat) : Statement (.hifenceTimeout port) :=
  of_no_word rfl

theorem qwHandle (port : Nat) (window : Nat) (value : DWord) : Statement (.qwHandle port window value) :=
  of_no_word rfl

theorem qwEnq (port : Nat) (window : Nat) (write : WindowWrite) : Statement (.qwEnq port window write) :=
  of_no_word rfl

theorem qwStagingEnqueue (port : Nat) (window : Nat) : Statement (.qwStagingEnqueue port window) :=
  of_no_word rfl

theorem qwDeq (port : Nat) (window : Nat) : Statement (.qwDeq port window) :=
  of_no_word rfl

theorem hostApertureRead (port : Nat) (offset : Nat) (len : Nat) : Statement (.hostApertureRead port offset len) :=
  of_no_word rfl

theorem hostApertureWrite (port : Nat) (offset : Nat) (bytes : List Byte) : Statement (.hostApertureWrite port offset bytes) :=
  of_no_word rfl

theorem peerFlitReceive (port : Nat) (flit : Flit) : Statement (.peerFlitReceive port flit) :=
  of_no_word rfl

theorem laneRepair (port : Nat) (lane : Nat) : Statement (.laneRepair port lane) :=
  of_no_word rfl

theorem remoteRequestAtTarget (req : RemoteReq) : Statement (.remoteRequestAtTarget req) :=
  of_no_word rfl

theorem remoteResend (op : Nat) : Statement (.remoteResend op) :=
  of_no_word rfl

theorem remoteTimeout (op : Nat) : Statement (.remoteTimeout op) :=
  of_no_word rfl

theorem deadMarkClear (device : Nat) : Statement (.deadMarkClear device) :=
  of_no_word rfl

theorem extentRelease (base : Nat) (limit : Nat) : Statement (.extentRelease base limit) :=
  of_no_word rfl

theorem ridgeMessageDeliver (cls : RidgeClass) (src : Nat) (dst : RidgeEnd) : Statement (.ridgeMessageDeliver cls src dst) :=
  of_no_word rfl

theorem ridgeInjectionReserve (stop : Nat) (ascending : Bool) : Statement (.ridgeInjectionReserve stop ascending) :=
  of_no_word rfl

theorem attestationRequest (nonce : BitVec 512) : Statement (.attestationRequest nonce) :=
  of_no_word rfl

theorem expertUnlock (port : Nat) (signed : Bool) : Statement (.expertUnlock port signed) :=
  of_no_word rfl

theorem ordinaryRefresh (channel : Nat) (bank : Nat) : Statement (.ordinaryRefresh channel bank) :=
  of_no_word rfl

theorem linkRetrainComplete (port : Nat) : Statement (.linkRetrainComplete port) :=
  of_no_word rfl

theorem amapCommitComplete (region : Nat) : Statement (.amapCommitComplete region) :=
  of_no_word rfl

theorem unassignedOpcode (word : Word) : Statement (.unassignedOpcode word) :=
  of_no_word rfl

theorem instructionFetchFault (fault : FetchFault) : Statement (.instructionFetchFault fault) :=
  of_no_word rfl

end Sys2Proof.Laws.RoundTrip
end

