-- ==== Sys2Proof/Laws/Retire.lean ====
section
/-!
SUPPORT. What retirement leaves (14 R270): the state around the issuer's block, the block around the issuer, the issuer's context
around what its instruction writes.
-/
namespace Sys2Proof.Machine

@[simp] theorem writeReg_regs (c : Ctx) (cs bs : List Nat) (ws : List Word) : (c.writeReg cs bs ws).regs = writeCells c.regs cs ws := rfl

theorem contains_filter_not (l bs : List Nat) (k : Nat) (h : k ∉ bs) :
    (l.filter (fun b => !bs.contains b)).contains k = l.contains k := by
  rw [Bool.eq_iff_iff, List.contains_iff_mem, List.contains_iff_mem, List.mem_filter]
  simp [h]

theorem sins_mem (l : List Nat) (k n : Nat) : n ∈ sins l k ↔ n = k ∨ n ∈ l := by
  induction l with
  | nil => simp [sins]
  | cons j rest ih =>
    simp only [sins]
    split
    · simp only [List.mem_cons, ih]; tauto
    · split
      · rename_i h; subst h; simp only [List.mem_cons]; tauto
      · simp only [List.mem_cons]

theorem foldl_sins_mem (bs l : List Nat) (n : Nat) : n ∈ bs.foldl sins l ↔ n ∈ bs ∨ n ∈ l := by
  induction bs generalizing l with
  | nil => simp
  | cons b rest ih => simp only [List.foldl_cons, ih, sins_mem, List.mem_cons]; tauto

/-- Registers that an instruction does not write keep their values. -/
theorem writeDsts_regs (e : Env) (c : Ctx) (ds : List Fld) (vs : List Nat) (k : Nat)
    (h : k ∉ ds.flatMap (fun x => x.cells e.lead e.ctx.wb.toNat)) :
    sget 0 (writeDsts e c ds vs).regs k = sget 0 c.regs k := by
  induction ds generalizing c vs with
  | nil => simp [writeDsts]
  | cons f fs ih =>
    simp only [List.flatMap_cons, List.mem_append, not_or] at h
    cases vs with
    | nil => simp [writeDsts]
    | cons v vs => rw [writeDsts, ih _ _ h.2, writeReg_regs, sget_writeCells_ne _ _ _ _ h.1]

theorem writeDsts_empties (e : Env) (c : Ctx) (ds : List Fld) (vs : List Nat) (k : Nat)
    (h : k ∉ ds.flatMap (fun x => x.fullBits e.lead e.ctx.wb.toNat)) :
    (writeDsts e c ds vs).empties.contains k = c.empties.contains k := by
  induction ds generalizing c vs with
  | nil => simp [writeDsts]
  | cons f fs ih =>
    simp only [List.flatMap_cons, List.mem_append, not_or] at h
    cases vs with
    | nil => simp [writeDsts]
    | cons v vs => rw [writeDsts, ih _ _ h.2]; exact contains_filter_not _ _ _ h.1

/-- Writing destinations changes nothing of a context but registers and their full bits. -/
theorem writeDsts_rest (e : Env) (c : Ctx) (ds : List Fld) (vs : List Nat) :
    ∃ r m, writeDsts e c ds vs = { c with regs := r, empties := m } := by
  induction ds generalizing c vs with
  | nil => exact ⟨c.regs, c.empties, by simp [writeDsts]⟩
  | cons f fs ih =>
    cases vs with
    | nil => exact ⟨c.regs, c.empties, by simp [writeDsts]⟩
    | cons v vs =>
      obtain ⟨r, m, h⟩ := ih (c.writeReg (f.cells e.lead e.ctx.wb.toNat) (f.fullBits e.lead e.ctx.wb.toNat) (f.words e.lead v)) vs
      exact ⟨r, m, by rw [writeDsts, h]; rfl⟩

/-- A register that a single destination names holds the value written, and is full. -/
theorem writeDsts_single (e : Env) (c : Ctx) (f : Fld) (v : Nat) :
    writeDsts e c [f] [v] =
      c.writeReg (f.cells e.lead e.ctx.wb.toNat) (f.fullBits e.lead e.ctx.wb.toNat) (f.words e.lead v) := by
  simp [writeDsts]

/-- What a retired context keeps, and its predicates, window base and flags, for an instruction without further cells. -/
theorem retired_keeps (c : Ctx) (e : Env) (f : Form) (d : Done) (pid now : Nat) (hc : d.cells = []) (hf : d.fills = []) :
    let r := c.retired e f d pid now
    (∀ k, k ∉ f.dsts.flatMap (fun x => x.cells e.lead e.ctx.wb.toNat) → sget 0 r.regs k = sget 0 c.regs k) ∧
    (∀ k, k ∉ f.dsts.flatMap (fun x => x.fullBits e.lead e.ctx.wb.toNat) → r.empties.contains k = c.empties.contains k) ∧
    (r.preds = d.preds.getD c.preds ∧ r.wb = d.wb.getD c.wb ∧ r.fps = c.fps ||| d.flags) ∧
    (r.life = c.life ∧ r.cnt0 = c.cnt0 ∧ r.cnt1 = c.cnt1 ∧ r.cnt2 = c.cnt2 ∧ r.cnt3 = c.cnt3 ∧ r.latch = c.latch ∧
      r.crc = c.crc ∧ r.parked = c.parked ∧ r.arrival = c.arrival) := by
  have hadv : ∀ (x : Ctx) (t : Option DWord), ∃ q w, x.advance t = { x with pc := q, rep := w } := by
    intro x t
    unfold Ctx.advance
    split
    · exact ⟨_, _, rfl⟩
    · split
      · exact ⟨x.pc, _, rfl⟩
      · exact ⟨_, _, rfl⟩
  dsimp only
  cases hl : d.long
  · obtain ⟨r, m, hw⟩ := writeDsts_rest e { c with uqPos := c.uqPos + f.pops } f.dsts d.vals
    have hr := fun k h => writeDsts_regs e { c with uqPos := c.uqPos + f.pops } f.dsts d.vals k h
    have hm := fun k h => writeDsts_empties e { c with uqPos := c.uqPos + f.pops } f.dsts d.vals k h
    rw [hw] at hr hm
    simp only [Ctx.retired, hl, Bool.false_eq_true, if_false, hw]
    obtain ⟨q, w, ha⟩ := hadv _ d.pc
    rw [ha]
    cases d.rep <;> exact ⟨hr, hm, ⟨rfl, rfl, rfl⟩, rfl, rfl, rfl, rfl, rfl, rfl, rfl, rfl, rfl⟩
  · simp only [Ctx.retired, hl, if_true]
    obtain ⟨q, w, ha⟩ := hadv _ d.pc
    rw [ha]
    have hm : ∀ k, k ∉ f.dsts.flatMap (fun x => x.fullBits e.lead e.ctx.wb.toNat) →
        (({ c with uqPos := c.uqPos + f.pops } : Ctx).markEmpty
          (f.dsts.flatMap (fun x => x.fullBits e.lead e.ctx.wb.toNat) ++ d.fills)).empties.contains k = c.empties.contains k := by
      intro k hk
      rw [Bool.eq_iff_iff, List.contains_iff_mem, List.contains_iff_mem, Ctx.markEmpty, foldl_sins_mem, hf, List.append_nil]
      simp [hk]
    cases d.rep <;> exact ⟨fun _ _ => rfl, hm, ⟨rfl, rfl, rfl⟩, rfl, rfl, rfl, rfl, rfl, rfl, rfl, rfl, rfl⟩

@[simp] theorem freeUq_frame (b : Block) : b.freeUq.frame = b.frame := by unfold Block.freeUq; dsimp only; split <;> rfl

theorem setCtx_frame (b : Block) (w : Who) (c : Ctx) : (b.setCtx w c).frame = b.frame := by cases w <;> rfl

theorem endStep_none {s : State} {e : Env} (h : e.ctx.halt.stepper = none) (n : Nat) : s.endStep e n = s := by
  simp [State.endStep, h]

theorem trialRetire_idle {s : State} (e : Env) (h : s.trial.run = false) : s.trialRetire e = s := by
  simp [State.trialRetire, h]

theorem acquired_none {d : Done} (h : d.acquire = none) (core : Nat) : d.acquired core = d.state := by
  unfold Done.acquired; rw [h]

/-- Counting an instruction in its block's cost changes that cost alone. -/
theorem chargeOnce_eq (s : State) (bid : Nat) (c : Ctx) :
    s.chargeOnce bid c = s.modBlock bid (fun b => { b with cost := b.cost + if c.counted then 0 else 1 }) := by
  unfold State.chargeOnce
  split
  · have : (fun x : Block => if x.bid = bid then { x with cost := x.cost + 0 } else x) = id := by
      funext x; split <;> rfl
    show s = { s with blocks := s.blocks.map _ }
    rw [this, List.map_id]
  · rfl

/-- The block and the counter of fresh numbers are all that retirement changes. -/
theorem retire_eq {s : State} {e : Env} (f : Form) (d : Done) (hd : d.state = s) (hq : d.acquire = none) (hu : Unobserved s e) :
    retire e f [] d = { s with
      blocks := (((s.modBlock e.bid (fun b => (b.modCtx e.who (fun c => c.retired e f d s.fresh s.time)).freeUq)).tick1).chargeOnce
        e.bid e.ctx).blocks,
      fresh := s.fresh + 1 } := by
  subst hd
  unfold retire
  rw [endStep_none hu.2, acquired_none hq, chargeOnce_eq]
  exact trialRetire_idle e hu.1

/-- What a completing instruction that touches nothing but its issuer leaves. -/
theorem retired_only {s : State} {e : Env} (i : Instr) (d : Done) (he : s.env? = some e) (hu : Unobserved s e)
    (hd : d.state = s) (hq : d.acquire = none) (hc : d.cells = []) (hf : d.fills = []) :
    OnlyIssuer s (s.retired e i d) e i (d.preds.getD e.ctx.preds) (d.wb.getD e.ctx.wb)
      (e.ctx.fps ||| d.flags) := by
  obtain ⟨_, hb, hx⟩ := env_spec he
  have hr := retire_eq (e.form i) { d with since := some s.fresh } hd hq hu
  have hbid1 : ∀ b : Block, ((b.modCtx e.who (fun c => c.retired e (e.form i) { d with since := some s.fresh } s.fresh s.time)).freeUq).bid = b.bid := by
    intro b; simp
  have hfind : ∀ n, (s.retired e i d).block? n =
      (((s.modBlock e.bid (fun b => (b.modCtx e.who (fun c => c.retired e (e.form i) { d with since := some s.fresh } s.fresh s.time)).freeUq)).tick1).chargeOnce
        e.bid e.ctx).block? n := by
    intro n; unfold State.retired; rw [hr]; rfl
  have htick : ∀ n, ((s.modBlock e.bid (fun b => (b.modCtx e.who (fun c => c.retired e (e.form i) { d with since := some s.fresh } s.fresh s.time)).freeUq)).tick1).block? n =
      (s.modBlock e.bid (fun b => (b.modCtx e.who (fun c => c.retired e (e.form i) { d with since := some s.fresh } s.fresh s.time)).freeUq)).block? n := fun _ => rfl
  have keep := retired_keeps e.ctx e (e.form i) { d with since := some s.fresh } s.fresh s.time hc hf
  refine ⟨?_, ?_, ?_, ?_⟩
  · unfold State.retired; rw [hr]
  · intro c; unfold State.retired; rw [hr]; rfl
  · intro n hn
    rw [hfind, chargeOnce_eq, block_modBlock_ne _ (fun b => { b with cost := b.cost + if e.ctx.counted then 0 else 1 })
      (fun _ => rfl) hn, htick,
      block_modBlock_ne _ _ hbid1 hn]
  · have h1 := block_modBlock_self (fun b => (b.modCtx e.who (fun c => c.retired e (e.form i) { d with since := some s.fresh } s.fresh s.time)).freeUq) hbid1 hb
    rw [← htick] at h1
    have h2 := block_modBlock_self (fun b => { b with cost := b.cost + if e.ctx.counted then 0 else 1 }) (fun _ => rfl) h1
    rw [← chargeOnce_eq] at h2
    have hctx : (e.blk.modCtx e.who (fun c => c.retired e (e.form i) { d with since := some s.fresh } s.fresh s.time)) =
        e.blk.setCtx e.who (e.ctx.retired e (e.form i) { d with since := some s.fresh } s.fresh s.time) := by
      simp [Block.modCtx, hx]
    rw [hctx] at h2
    refine ⟨_, _, (hfind e.bid).trans h2, ?_, ?_, ?_, ?_, keep⟩
    · show ((e.blk.setCtx e.who _).freeUq).ctx? e.who = _
      rw [ctx_freeUq, ctx_setCtx_self]
    · show ((e.blk.setCtx e.who _).freeUq).frame = _
      rw [freeUq_frame, setCtx_frame]
    · intro v hv
      show ((e.blk.setCtx e.who _).freeUq).ctx? v = _
      rw [ctx_freeUq, ctx_setCtx_ne _ _ hv]
    · show ((e.blk.setCtx e.who _).freeUq).body.barriers = _ ∧ _
      unfold Block.freeUq
      dsimp only
      cases e.who <;> split <;> exact ⟨rfl, rfl, rfl, rfl, rfl⟩

end Sys2Proof.Machine
end

