-- ==== Sys2Proof/Laws/Row.lean ====
section
/-!
SUPPORT. What a row collective comes to (02 R38): an issuer that arrives, or had arrived, leaves what going on with its row gives.
-/
namespace Sys2Proof.Machine

/-- An instruction that passes its checks, and whose matches do not act, goes on with its matches. -/
theorem checkIssue_pass {s : State} {e : Env} {i : Instr} {vals : List Nat} (h : Passes s e i vals)
    (ha : s.acting e (s.early e i vals) = none) : checkIssue s i (e.form i) e = .go vals (s.early e i vals) := by
  obtain ⟨_, h1, h2, h3, h4, h5⟩ := h
  unfold checkIssue
  unfold State.early at ha ⊢
  simp only [h1, h2, h3, h4, knownSrcs_full (srcs_full h3), h5, ha, Bool.not_true, Bool.false_eq_true, if_false]

/-- An instruction whose guard is false is skipped. -/
theorem checkIssue_skip {s : State} {e : Env} {i : Instr} (h : staticCheck i (e.form i) e = none)
    (hg : guardHolds (e.form i).guard e.ctx = false) : checkIssue s i (e.form i) e = .skip := by
  simp [checkIssue, h, hg]

/-- A row collective of an issuer that arrives at it goes on with its row. -/
theorem collective_arrives {s u : State} {e : Env} {i : Instr} (h : s.Arrives e i u) (bring : Env → List Nat → Bring)
    (hb : bring e = e.brings i) : collective i bring s = .next (u.rowTry (e.again u)) := by
  obtain ⟨he, hs, -, h⟩ := h
  rcases h with ⟨a, vals, ha, -, rfl⟩ | ⟨ha, vals, hp, hm, rfl⟩ | ⟨ha, hl, hc, hg, vals, hv, rfl⟩
  · simp [collective, he, ha, again_self he, State.performRow, hs]
  · have hu : s.unhold e = s := by simp [State.unhold, hp.1.2]
    simp [collective, he, ha, hu, again_self he, State.performRow, hs, State.arriveOne, checkIssue_pass hp hm, hb]
  · have hu : s.unhold e = s := by simp [State.unhold, hl.2]
    rcases hv with ⟨h1, rfl⟩ | ⟨h1, h2, rfl⟩ <;>
      simp [collective, again_self he, State.performRow, State.arriveOne, checkIssue_skip hc hg, *]

/-- A row of which a fibre is still to arrive, or is parked, waits. -/
theorem rowTry_waits {u : State} {f : Env} (h : ∃ m ∈ f.blk.rowMates f.who.fid, m.2.arrival = none ∨ m.2.parked.isSome) :
    u.rowTry f = u := by
  unfold State.rowTry
  simp only []
  rw [if_pos]
  obtain ⟨m, hm, hq⟩ := h
  simp only [List.any_eq_true, Bool.or_eq_true, Option.isNone_iff_eq_none]
  exact ⟨m, hm, hq⟩

/-- A row that is complete performs its operation. -/
theorem rowTry_complete {u : State} {f : Env} {a : Arrival} (h : f.rowComplete) (ha : f.ctx.arrival = some a) :
    u.rowTry f = match a.op with
      | .ldl .. => u.completeLdl f f.arrivals
      | .stl .. => u.completeStl f f.arrivals
      | _ => u.completeLanes f.bid f.arrivals f.arrivals := by
  unfold State.rowTry
  simp only []
  rw [if_neg, if_neg]
  · simp only [ha, Env.arrivals] <;> cases a.op <;> rfl
  · simp only [List.any_eq_true, not_exists, not_and]
    intro m hm
    simp [(h m hm).2.2]
  · simp only [List.any_eq_true, not_exists, not_and]
    intro m hm
    obtain ⟨p, q, -⟩ := h m hm
    cases hh : m.2.arrival <;> simp_all

end Sys2Proof.Machine
end

