-- ==== Sys2Proof/Laws/State.lean ====
section
/-!
SUPPORT. What each named update of the state leaves: one lemma for each field, so that no proof unfolds a record update.
-/
namespace Sys2Proof.Machine

set_option linter.unusedVariables false

@[simp] theorem State.setBlock_agenda (s : State) (b : Block) : (s.setBlock b).agenda = s.agenda := rfl
@[simp] theorem State.setBlock_issuer (s : State) (b : Block) : (s.setBlock b).issuer = s.issuer := rfl
@[simp] theorem State.setBlock_time (s : State) (b : Block) : (s.setBlock b).time = s.time := rfl
@[simp] theorem State.setBlock_fresh (s : State) (b : Block) : (s.setBlock b).fresh = s.fresh := rfl
@[simp] theorem State.setBlock_device (s : State) (b : Block) : (s.setBlock b).device = s.device := rfl
@[simp] theorem State.setBlock_mem (s : State) (b : Block) : (s.setBlock b).mem = s.mem := rfl
@[simp] theorem State.setBlock_blur (s : State) (b : Block) : (s.setBlock b).blur = s.blur := rfl
@[simp] theorem State.setBlock_scache (s : State) (b : Block) : (s.setBlock b).scache = s.scache := rfl
@[simp] theorem State.setBlock_mside (s : State) (b : Block) : (s.setBlock b).mside = s.mside := rfl
@[simp] theorem State.setBlock_poison (s : State) (b : Block) : (s.setBlock b).poison = s.poison := rfl
@[simp] theorem State.setBlock_tags (s : State) (b : Block) : (s.setBlock b).tags = s.tags := rfl
@[simp] theorem State.setBlock_l1 (s : State) (b : Block) : (s.setBlock b).l1 = s.l1 := rfl
@[simp] theorem State.setBlock_tlb (s : State) (b : Block) : (s.setBlock b).tlb = s.tlb := rfl
@[simp] theorem State.setBlock_walkc (s : State) (b : Block) : (s.setBlock b).walkc = s.walkc := rfl
@[simp] theorem State.setBlock_icache (s : State) (b : Block) : (s.setBlock b).icache = s.icache := rfl
@[simp] theorem State.setBlock_queues (s : State) (b : Block) : (s.setBlock b).queues = s.queues := rfl
@[simp] theorem State.setBlock_qreqs (s : State) (b : Block) : (s.setBlock b).qreqs = s.qreqs := rfl
@[simp] theorem State.setBlock_treqs (s : State) (b : Block) : (s.setBlock b).treqs = s.treqs := rfl
@[simp] theorem State.setBlock_blocks (s : State) (b : Block) : (s.setBlock b).blocks = s.blocks.map (fun x => if x.bid = b.bid then b else x) := rfl
@[simp] theorem State.setBlock_launches (s : State) (b : Block) : (s.setBlock b).launches = s.launches := rfl
@[simp] theorem State.setBlock_xrecs (s : State) (b : Block) : (s.setBlock b).xrecs = s.xrecs := rfl
@[simp] theorem State.setBlock_images (s : State) (b : Block) : (s.setBlock b).images = s.images := rfl
@[simp] theorem State.setBlock_ops (s : State) (b : Block) : (s.setBlock b).ops = s.ops := rfl
@[simp] theorem State.setBlock_matrix (s : State) (b : Block) : (s.setBlock b).matrix = s.matrix := rfl
@[simp] theorem State.setBlock_contribs (s : State) (b : Block) : (s.setBlock b).contribs = s.contribs := rfl
@[simp] theorem State.setBlock_instances (s : State) (b : Block) : (s.setBlock b).instances = s.instances := rfl
@[simp] theorem State.setBlock_dean (s : State) (b : Block) : (s.setBlock b).dean = s.dean := rfl
@[simp] theorem State.setBlock_amap (s : State) (b : Block) : (s.setBlock b).amap = s.amap := rfl
@[simp] theorem State.setBlock_apwin (s : State) (b : Block) : (s.setBlock b).apwin = s.apwin := rfl
@[simp] theorem State.setBlock_channels (s : State) (b : Block) : (s.setBlock b).channels = s.channels := rfl
@[simp] theorem State.setBlock_ports (s : State) (b : Block) : (s.setBlock b).ports = s.ports := rfl
@[simp] theorem State.setBlock_gvPolicy (s : State) (b : Block) : (s.setBlock b).gvPolicy = s.gvPolicy := rfl
@[simp] theorem State.setBlock_gvCap (s : State) (b : Block) : (s.setBlock b).gvCap = s.gvCap := rfl
@[simp] theorem State.setBlock_governors (s : State) (b : Block) : (s.setBlock b).governors = s.governors := rfl
@[simp] theorem State.setBlock_peers (s : State) (b : Block) : (s.setBlock b).peers = s.peers := rfl
@[simp] theorem State.setBlock_ridge (s : State) (b : Block) : (s.setBlock b).ridge = s.ridge := rfl
@[simp] theorem State.setBlock_proctors (s : State) (b : Block) : (s.setBlock b).proctors = s.proctors := rfl
@[simp] theorem State.setBlock_trial (s : State) (b : Block) : (s.setBlock b).trial = s.trial := rfl
@[simp] theorem State.setBlock_firmware (s : State) (b : Block) : (s.setBlock b).firmware = s.firmware := rfl
@[simp] theorem State.setBlock_errlog (s : State) (b : Block) : (s.setBlock b).errlog = s.errlog := rfl
@[simp] theorem State.setBlock_bundles (s : State) (b : Block) : (s.setBlock b).bundles = s.bundles := rfl

@[simp] theorem State.modBlock_agenda (s : State) (n : Nat) (f : Block → Block) : (s.modBlock n f).agenda = s.agenda := rfl
@[simp] theorem State.modBlock_issuer (s : State) (n : Nat) (f : Block → Block) : (s.modBlock n f).issuer = s.issuer := rfl
@[simp] theorem State.modBlock_time (s : State) (n : Nat) (f : Block → Block) : (s.modBlock n f).time = s.time := rfl
@[simp] theorem State.modBlock_fresh (s : State) (n : Nat) (f : Block → Block) : (s.modBlock n f).fresh = s.fresh := rfl
@[simp] theorem State.modBlock_device (s : State) (n : Nat) (f : Block → Block) : (s.modBlock n f).device = s.device := rfl
@[simp] theorem State.modBlock_mem (s : State) (n : Nat) (f : Block → Block) : (s.modBlock n f).mem = s.mem := rfl
@[simp] theorem State.modBlock_blur (s : State) (n : Nat) (f : Block → Block) : (s.modBlock n f).blur = s.blur := rfl
@[simp] theorem State.modBlock_scache (s : State) (n : Nat) (f : Block → Block) : (s.modBlock n f).scache = s.scache := rfl
@[simp] theorem State.modBlock_mside (s : State) (n : Nat) (f : Block → Block) : (s.modBlock n f).mside = s.mside := rfl
@[simp] theorem State.modBlock_poison (s : State) (n : Nat) (f : Block → Block) : (s.modBlock n f).poison = s.poison := rfl
@[simp] theorem State.modBlock_tags (s : State) (n : Nat) (f : Block → Block) : (s.modBlock n f).tags = s.tags := rfl
@[simp] theorem State.modBlock_l1 (s : State) (n : Nat) (f : Block → Block) : (s.modBlock n f).l1 = s.l1 := rfl
@[simp] theorem State.modBlock_tlb (s : State) (n : Nat) (f : Block → Block) : (s.modBlock n f).tlb = s.tlb := rfl
@[simp] theorem State.modBlock_walkc (s : State) (n : Nat) (f : Block → Block) : (s.modBlock n f).walkc = s.walkc := rfl
@[simp] theorem State.modBlock_icache (s : State) (n : Nat) (f : Block → Block) : (s.modBlock n f).icache = s.icache := rfl
@[simp] theorem State.modBlock_queues (s : State) (n : Nat) (f : Block → Block) : (s.modBlock n f).queues = s.queues := rfl
@[simp] theorem State.modBlock_qreqs (s : State) (n : Nat) (f : Block → Block) : (s.modBlock n f).qreqs = s.qreqs := rfl
@[simp] theorem State.modBlock_treqs (s : State) (n : Nat) (f : Block → Block) : (s.modBlock n f).treqs = s.treqs := rfl
@[simp] theorem State.modBlock_blocks (s : State) (n : Nat) (f : Block → Block) : (s.modBlock n f).blocks = s.blocks.map (fun x => if x.bid = n then f x else x) := rfl
@[simp] theorem State.modBlock_launches (s : State) (n : Nat) (f : Block → Block) : (s.modBlock n f).launches = s.launches := rfl
@[simp] theorem State.modBlock_xrecs (s : State) (n : Nat) (f : Block → Block) : (s.modBlock n f).xrecs = s.xrecs := rfl
@[simp] theorem State.modBlock_images (s : State) (n : Nat) (f : Block → Block) : (s.modBlock n f).images = s.images := rfl
@[simp] theorem State.modBlock_ops (s : State) (n : Nat) (f : Block → Block) : (s.modBlock n f).ops = s.ops := rfl
@[simp] theorem State.modBlock_matrix (s : State) (n : Nat) (f : Block → Block) : (s.modBlock n f).matrix = s.matrix := rfl
@[simp] theorem State.modBlock_contribs (s : State) (n : Nat) (f : Block → Block) : (s.modBlock n f).contribs = s.contribs := rfl
@[simp] theorem State.modBlock_instances (s : State) (n : Nat) (f : Block → Block) : (s.modBlock n f).instances = s.instances := rfl
@[simp] theorem State.modBlock_dean (s : State) (n : Nat) (f : Block → Block) : (s.modBlock n f).dean = s.dean := rfl
@[simp] theorem State.modBlock_amap (s : State) (n : Nat) (f : Block → Block) : (s.modBlock n f).amap = s.amap := rfl
@[simp] theorem State.modBlock_apwin (s : State) (n : Nat) (f : Block → Block) : (s.modBlock n f).apwin = s.apwin := rfl
@[simp] theorem State.modBlock_channels (s : State) (n : Nat) (f : Block → Block) : (s.modBlock n f).channels = s.channels := rfl
@[simp] theorem State.modBlock_ports (s : State) (n : Nat) (f : Block → Block) : (s.modBlock n f).ports = s.ports := rfl
@[simp] theorem State.modBlock_gvPolicy (s : State) (n : Nat) (f : Block → Block) : (s.modBlock n f).gvPolicy = s.gvPolicy := rfl
@[simp] theorem State.modBlock_gvCap (s : State) (n : Nat) (f : Block → Block) : (s.modBlock n f).gvCap = s.gvCap := rfl
@[simp] theorem State.modBlock_governors (s : State) (n : Nat) (f : Block → Block) : (s.modBlock n f).governors = s.governors := rfl
@[simp] theorem State.modBlock_peers (s : State) (n : Nat) (f : Block → Block) : (s.modBlock n f).peers = s.peers := rfl
@[simp] theorem State.modBlock_ridge (s : State) (n : Nat) (f : Block → Block) : (s.modBlock n f).ridge = s.ridge := rfl
@[simp] theorem State.modBlock_proctors (s : State) (n : Nat) (f : Block → Block) : (s.modBlock n f).proctors = s.proctors := rfl
@[simp] theorem State.modBlock_trial (s : State) (n : Nat) (f : Block → Block) : (s.modBlock n f).trial = s.trial := rfl
@[simp] theorem State.modBlock_firmware (s : State) (n : Nat) (f : Block → Block) : (s.modBlock n f).firmware = s.firmware := rfl
@[simp] theorem State.modBlock_errlog (s : State) (n : Nat) (f : Block → Block) : (s.modBlock n f).errlog = s.errlog := rfl
@[simp] theorem State.modBlock_bundles (s : State) (n : Nat) (f : Block → Block) : (s.modBlock n f).bundles = s.bundles := rfl

@[simp] theorem State.setLq_agenda (s : State) (n : Nat) (q : LaunchQueue) : (s.setLq n q).agenda = s.agenda := rfl
@[simp] theorem State.setLq_issuer (s : State) (n : Nat) (q : LaunchQueue) : (s.setLq n q).issuer = s.issuer := rfl
@[simp] theorem State.setLq_time (s : State) (n : Nat) (q : LaunchQueue) : (s.setLq n q).time = s.time := rfl
@[simp] theorem State.setLq_fresh (s : State) (n : Nat) (q : LaunchQueue) : (s.setLq n q).fresh = s.fresh := rfl
@[simp] theorem State.setLq_device (s : State) (n : Nat) (q : LaunchQueue) : (s.setLq n q).device = s.device := rfl
@[simp] theorem State.setLq_mem (s : State) (n : Nat) (q : LaunchQueue) : (s.setLq n q).mem = s.mem := rfl
@[simp] theorem State.setLq_blur (s : State) (n : Nat) (q : LaunchQueue) : (s.setLq n q).blur = s.blur := rfl
@[simp] theorem State.setLq_scache (s : State) (n : Nat) (q : LaunchQueue) : (s.setLq n q).scache = s.scache := rfl
@[simp] theorem State.setLq_mside (s : State) (n : Nat) (q : LaunchQueue) : (s.setLq n q).mside = s.mside := rfl
@[simp] theorem State.setLq_poison (s : State) (n : Nat) (q : LaunchQueue) : (s.setLq n q).poison = s.poison := rfl
@[simp] theorem State.setLq_tags (s : State) (n : Nat) (q : LaunchQueue) : (s.setLq n q).tags = s.tags := rfl
@[simp] theorem State.setLq_l1 (s : State) (n : Nat) (q : LaunchQueue) : (s.setLq n q).l1 = s.l1 := rfl
@[simp] theorem State.setLq_tlb (s : State) (n : Nat) (q : LaunchQueue) : (s.setLq n q).tlb = s.tlb := rfl
@[simp] theorem State.setLq_walkc (s : State) (n : Nat) (q : LaunchQueue) : (s.setLq n q).walkc = s.walkc := rfl
@[simp] theorem State.setLq_icache (s : State) (n : Nat) (q : LaunchQueue) : (s.setLq n q).icache = s.icache := rfl
@[simp] theorem State.setLq_queues (s : State) (n : Nat) (q : LaunchQueue) : (s.setLq n q).queues = s.queues := rfl
@[simp] theorem State.setLq_qreqs (s : State) (n : Nat) (q : LaunchQueue) : (s.setLq n q).qreqs = s.qreqs := rfl
@[simp] theorem State.setLq_treqs (s : State) (n : Nat) (q : LaunchQueue) : (s.setLq n q).treqs = s.treqs := rfl
@[simp] theorem State.setLq_blocks (s : State) (n : Nat) (q : LaunchQueue) : (s.setLq n q).blocks = s.blocks := rfl
@[simp] theorem State.setLq_launches (s : State) (n : Nat) (q : LaunchQueue) : (s.setLq n q).launches = s.launches := rfl
@[simp] theorem State.setLq_xrecs (s : State) (n : Nat) (q : LaunchQueue) : (s.setLq n q).xrecs = s.xrecs := rfl
@[simp] theorem State.setLq_images (s : State) (n : Nat) (q : LaunchQueue) : (s.setLq n q).images = s.images := rfl
@[simp] theorem State.setLq_ops (s : State) (n : Nat) (q : LaunchQueue) : (s.setLq n q).ops = s.ops := rfl
@[simp] theorem State.setLq_matrix (s : State) (n : Nat) (q : LaunchQueue) : (s.setLq n q).matrix = s.matrix := rfl
@[simp] theorem State.setLq_contribs (s : State) (n : Nat) (q : LaunchQueue) : (s.setLq n q).contribs = s.contribs := rfl
@[simp] theorem State.setLq_instances (s : State) (n : Nat) (q : LaunchQueue) : (s.setLq n q).instances = s.instances := rfl
@[simp] theorem State.setLq_dean (s : State) (n : Nat) (q : LaunchQueue) : (s.setLq n q).dean = { s.dean with queues := aput s.dean.queues n q } := rfl
@[simp] theorem State.setLq_amap (s : State) (n : Nat) (q : LaunchQueue) : (s.setLq n q).amap = s.amap := rfl
@[simp] theorem State.setLq_apwin (s : State) (n : Nat) (q : LaunchQueue) : (s.setLq n q).apwin = s.apwin := rfl
@[simp] theorem State.setLq_channels (s : State) (n : Nat) (q : LaunchQueue) : (s.setLq n q).channels = s.channels := rfl
@[simp] theorem State.setLq_ports (s : State) (n : Nat) (q : LaunchQueue) : (s.setLq n q).ports = s.ports := rfl
@[simp] theorem State.setLq_gvPolicy (s : State) (n : Nat) (q : LaunchQueue) : (s.setLq n q).gvPolicy = s.gvPolicy := rfl
@[simp] theorem State.setLq_gvCap (s : State) (n : Nat) (q : LaunchQueue) : (s.setLq n q).gvCap = s.gvCap := rfl
@[simp] theorem State.setLq_governors (s : State) (n : Nat) (q : LaunchQueue) : (s.setLq n q).governors = s.governors := rfl
@[simp] theorem State.setLq_peers (s : State) (n : Nat) (q : LaunchQueue) : (s.setLq n q).peers = s.peers := rfl
@[simp] theorem State.setLq_ridge (s : State) (n : Nat) (q : LaunchQueue) : (s.setLq n q).ridge = s.ridge := rfl
@[simp] theorem State.setLq_proctors (s : State) (n : Nat) (q : LaunchQueue) : (s.setLq n q).proctors = s.proctors := rfl
@[simp] theorem State.setLq_trial (s : State) (n : Nat) (q : LaunchQueue) : (s.setLq n q).trial = s.trial := rfl
@[simp] theorem State.setLq_firmware (s : State) (n : Nat) (q : LaunchQueue) : (s.setLq n q).firmware = s.firmware := rfl
@[simp] theorem State.setLq_errlog (s : State) (n : Nat) (q : LaunchQueue) : (s.setLq n q).errlog = s.errlog := rfl
@[simp] theorem State.setLq_bundles (s : State) (n : Nat) (q : LaunchQueue) : (s.setLq n q).bundles = s.bundles := rfl

@[simp] theorem State.modCtx_agenda (s : State) (n : Nat) (w : Who) (f : Ctx → Ctx) : (s.modCtx n w f).agenda = s.agenda := rfl
@[simp] theorem State.modCtx_issuer (s : State) (n : Nat) (w : Who) (f : Ctx → Ctx) : (s.modCtx n w f).issuer = s.issuer := rfl
@[simp] theorem State.modCtx_time (s : State) (n : Nat) (w : Who) (f : Ctx → Ctx) : (s.modCtx n w f).time = s.time := rfl
@[simp] theorem State.modCtx_fresh (s : State) (n : Nat) (w : Who) (f : Ctx → Ctx) : (s.modCtx n w f).fresh = s.fresh := rfl
@[simp] theorem State.modCtx_device (s : State) (n : Nat) (w : Who) (f : Ctx → Ctx) : (s.modCtx n w f).device = s.device := rfl
@[simp] theorem State.modCtx_mem (s : State) (n : Nat) (w : Who) (f : Ctx → Ctx) : (s.modCtx n w f).mem = s.mem := rfl
@[simp] theorem State.modCtx_blur (s : State) (n : Nat) (w : Who) (f : Ctx → Ctx) : (s.modCtx n w f).blur = s.blur := rfl
@[simp] theorem State.modCtx_scache (s : State) (n : Nat) (w : Who) (f : Ctx → Ctx) : (s.modCtx n w f).scache = s.scache := rfl
@[simp] theorem State.modCtx_mside (s : State) (n : Nat) (w : Who) (f : Ctx → Ctx) : (s.modCtx n w f).mside = s.mside := rfl
@[simp] theorem State.modCtx_poison (s : State) (n : Nat) (w : Who) (f : Ctx → Ctx) : (s.modCtx n w f).poison = s.poison := rfl
@[simp] theorem State.modCtx_tags (s : State) (n : Nat) (w : Who) (f : Ctx → Ctx) : (s.modCtx n w f).tags = s.tags := rfl
@[simp] theorem State.modCtx_l1 (s : State) (n : Nat) (w : Who) (f : Ctx → Ctx) : (s.modCtx n w f).l1 = s.l1 := rfl
@[simp] theorem State.modCtx_tlb (s : State) (n : Nat) (w : Who) (f : Ctx → Ctx) : (s.modCtx n w f).tlb = s.tlb := rfl
@[simp] theorem State.modCtx_walkc (s : State) (n : Nat) (w : Who) (f : Ctx → Ctx) : (s.modCtx n w f).walkc = s.walkc := rfl
@[simp] theorem State.modCtx_icache (s : State) (n : Nat) (w : Who) (f : Ctx → Ctx) : (s.modCtx n w f).icache = s.icache := rfl
@[simp] theorem State.modCtx_queues (s : State) (n : Nat) (w : Who) (f : Ctx → Ctx) : (s.modCtx n w f).queues = s.queues := rfl
@[simp] theorem State.modCtx_qreqs (s : State) (n : Nat) (w : Who) (f : Ctx → Ctx) : (s.modCtx n w f).qreqs = s.qreqs := rfl
@[simp] theorem State.modCtx_treqs (s : State) (n : Nat) (w : Who) (f : Ctx → Ctx) : (s.modCtx n w f).treqs = s.treqs := rfl
@[simp] theorem State.modCtx_launches (s : State) (n : Nat) (w : Who) (f : Ctx → Ctx) : (s.modCtx n w f).launches = s.launches := rfl
@[simp] theorem State.modCtx_xrecs (s : State) (n : Nat) (w : Who) (f : Ctx → Ctx) : (s.modCtx n w f).xrecs = s.xrecs := rfl
@[simp] theorem State.modCtx_images (s : State) (n : Nat) (w : Who) (f : Ctx → Ctx) : (s.modCtx n w f).images = s.images := rfl
@[simp] theorem State.modCtx_ops (s : State) (n : Nat) (w : Who) (f : Ctx → Ctx) : (s.modCtx n w f).ops = s.ops := rfl
@[simp] theorem State.modCtx_matrix (s : State) (n : Nat) (w : Who) (f : Ctx → Ctx) : (s.modCtx n w f).matrix = s.matrix := rfl
@[simp] theorem State.modCtx_contribs (s : State) (n : Nat) (w : Who) (f : Ctx → Ctx) : (s.modCtx n w f).contribs = s.contribs := rfl
@[simp] theorem State.modCtx_instances (s : State) (n : Nat) (w : Who) (f : Ctx → Ctx) : (s.modCtx n w f).instances = s.instances := rfl
@[simp] theorem State.modCtx_dean (s : State) (n : Nat) (w : Who) (f : Ctx → Ctx) : (s.modCtx n w f).dean = s.dean := rfl
@[simp] theorem State.modCtx_amap (s : State) (n : Nat) (w : Who) (f : Ctx → Ctx) : (s.modCtx n w f).amap = s.amap := rfl
@[simp] theorem State.modCtx_apwin (s : State) (n : Nat) (w : Who) (f : Ctx → Ctx) : (s.modCtx n w f).apwin = s.apwin := rfl
@[simp] theorem State.modCtx_channels (s : State) (n : Nat) (w : Who) (f : Ctx → Ctx) : (s.modCtx n w f).channels = s.channels := rfl
@[simp] theorem State.modCtx_ports (s : State) (n : Nat) (w : Who) (f : Ctx → Ctx) : (s.modCtx n w f).ports = s.ports := rfl
@[simp] theorem State.modCtx_gvPolicy (s : State) (n : Nat) (w : Who) (f : Ctx → Ctx) : (s.modCtx n w f).gvPolicy = s.gvPolicy := rfl
@[simp] theorem State.modCtx_gvCap (s : State) (n : Nat) (w : Who) (f : Ctx → Ctx) : (s.modCtx n w f).gvCap = s.gvCap := rfl
@[simp] theorem State.modCtx_governors (s : State) (n : Nat) (w : Who) (f : Ctx → Ctx) : (s.modCtx n w f).governors = s.governors := rfl
@[simp] theorem State.modCtx_peers (s : State) (n : Nat) (w : Who) (f : Ctx → Ctx) : (s.modCtx n w f).peers = s.peers := rfl
@[simp] theorem State.modCtx_ridge (s : State) (n : Nat) (w : Who) (f : Ctx → Ctx) : (s.modCtx n w f).ridge = s.ridge := rfl
@[simp] theorem State.modCtx_proctors (s : State) (n : Nat) (w : Who) (f : Ctx → Ctx) : (s.modCtx n w f).proctors = s.proctors := rfl
@[simp] theorem State.modCtx_trial (s : State) (n : Nat) (w : Who) (f : Ctx → Ctx) : (s.modCtx n w f).trial = s.trial := rfl
@[simp] theorem State.modCtx_firmware (s : State) (n : Nat) (w : Who) (f : Ctx → Ctx) : (s.modCtx n w f).firmware = s.firmware := rfl
@[simp] theorem State.modCtx_errlog (s : State) (n : Nat) (w : Who) (f : Ctx → Ctx) : (s.modCtx n w f).errlog = s.errlog := rfl
@[simp] theorem State.modCtx_bundles (s : State) (n : Nat) (w : Who) (f : Ctx → Ctx) : (s.modCtx n w f).bundles = s.bundles := rfl

@[simp] theorem State.modLaunch_agenda (s : State) (n : Nat) (f : Launch → Launch) : (s.modLaunch n f).agenda = s.agenda := rfl
@[simp] theorem State.modLaunch_issuer (s : State) (n : Nat) (f : Launch → Launch) : (s.modLaunch n f).issuer = s.issuer := rfl
@[simp] theorem State.modLaunch_time (s : State) (n : Nat) (f : Launch → Launch) : (s.modLaunch n f).time = s.time := rfl
@[simp] theorem State.modLaunch_fresh (s : State) (n : Nat) (f : Launch → Launch) : (s.modLaunch n f).fresh = s.fresh := rfl
@[simp] theorem State.modLaunch_device (s : State) (n : Nat) (f : Launch → Launch) : (s.modLaunch n f).device = s.device := rfl
@[simp] theorem State.modLaunch_mem (s : State) (n : Nat) (f : Launch → Launch) : (s.modLaunch n f).mem = s.mem := rfl
@[simp] theorem State.modLaunch_blur (s : State) (n : Nat) (f : Launch → Launch) : (s.modLaunch n f).blur = s.blur := rfl
@[simp] theorem State.modLaunch_scache (s : State) (n : Nat) (f : Launch → Launch) : (s.modLaunch n f).scache = s.scache := rfl
@[simp] theorem State.modLaunch_mside (s : State) (n : Nat) (f : Launch → Launch) : (s.modLaunch n f).mside = s.mside := rfl
@[simp] theorem State.modLaunch_poison (s : State) (n : Nat) (f : Launch → Launch) : (s.modLaunch n f).poison = s.poison := rfl
@[simp] theorem State.modLaunch_tags (s : State) (n : Nat) (f : Launch → Launch) : (s.modLaunch n f).tags = s.tags := rfl
@[simp] theorem State.modLaunch_l1 (s : State) (n : Nat) (f : Launch → Launch) : (s.modLaunch n f).l1 = s.l1 := rfl
@[simp] theorem State.modLaunch_tlb (s : State) (n : Nat) (f : Launch → Launch) : (s.modLaunch n f).tlb = s.tlb := rfl
@[simp] theorem State.modLaunch_walkc (s : State) (n : Nat) (f : Launch → Launch) : (s.modLaunch n f).walkc = s.walkc := rfl
@[simp] theorem State.modLaunch_icache (s : State) (n : Nat) (f : Launch → Launch) : (s.modLaunch n f).icache = s.icache := rfl
@[simp] theorem State.modLaunch_queues (s : State) (n : Nat) (f : Launch → Launch) : (s.modLaunch n f).queues = s.queues := rfl
@[simp] theorem State.modLaunch_qreqs (s : State) (n : Nat) (f : Launch → Launch) : (s.modLaunch n f).qreqs = s.qreqs := rfl
@[simp] theorem State.modLaunch_treqs (s : State) (n : Nat) (f : Launch → Launch) : (s.modLaunch n f).treqs = s.treqs := rfl
@[simp] theorem State.modLaunch_blocks (s : State) (n : Nat) (f : Launch → Launch) : (s.modLaunch n f).blocks = s.blocks := rfl
@[simp] theorem State.modLaunch_launches (s : State) (n : Nat) (f : Launch → Launch) : (s.modLaunch n f).launches = s.launches.map (fun l => if l.params.lid = n then f l else l) := rfl
@[simp] theorem State.modLaunch_xrecs (s : State) (n : Nat) (f : Launch → Launch) : (s.modLaunch n f).xrecs = s.xrecs := rfl
@[simp] theorem State.modLaunch_images (s : State) (n : Nat) (f : Launch → Launch) : (s.modLaunch n f).images = s.images := rfl
@[simp] theorem State.modLaunch_ops (s : State) (n : Nat) (f : Launch → Launch) : (s.modLaunch n f).ops = s.ops := rfl
@[simp] theorem State.modLaunch_matrix (s : State) (n : Nat) (f : Launch → Launch) : (s.modLaunch n f).matrix = s.matrix := rfl
@[simp] theorem State.modLaunch_contribs (s : State) (n : Nat) (f : Launch → Launch) : (s.modLaunch n f).contribs = s.contribs := rfl
@[simp] theorem State.modLaunch_instances (s : State) (n : Nat) (f : Launch → Launch) : (s.modLaunch n f).instances = s.instances := rfl
@[simp] theorem State.modLaunch_dean (s : State) (n : Nat) (f : Launch → Launch) : (s.modLaunch n f).dean = s.dean := rfl
@[simp] theorem State.modLaunch_amap (s : State) (n : Nat) (f : Launch → Launch) : (s.modLaunch n f).amap = s.amap := rfl
@[simp] theorem State.modLaunch_apwin (s : State) (n : Nat) (f : Launch → Launch) : (s.modLaunch n f).apwin = s.apwin := rfl
@[simp] theorem State.modLaunch_channels (s : State) (n : Nat) (f : Launch → Launch) : (s.modLaunch n f).channels = s.channels := rfl
@[simp] theorem State.modLaunch_ports (s : State) (n : Nat) (f : Launch → Launch) : (s.modLaunch n f).ports = s.ports := rfl
@[simp] theorem State.modLaunch_gvPolicy (s : State) (n : Nat) (f : Launch → Launch) : (s.modLaunch n f).gvPolicy = s.gvPolicy := rfl
@[simp] theorem State.modLaunch_gvCap (s : State) (n : Nat) (f : Launch → Launch) : (s.modLaunch n f).gvCap = s.gvCap := rfl
@[simp] theorem State.modLaunch_governors (s : State) (n : Nat) (f : Launch → Launch) : (s.modLaunch n f).governors = s.governors := rfl
@[simp] theorem State.modLaunch_peers (s : State) (n : Nat) (f : Launch → Launch) : (s.modLaunch n f).peers = s.peers := rfl
@[simp] theorem State.modLaunch_ridge (s : State) (n : Nat) (f : Launch → Launch) : (s.modLaunch n f).ridge = s.ridge := rfl
@[simp] theorem State.modLaunch_proctors (s : State) (n : Nat) (f : Launch → Launch) : (s.modLaunch n f).proctors = s.proctors := rfl
@[simp] theorem State.modLaunch_trial (s : State) (n : Nat) (f : Launch → Launch) : (s.modLaunch n f).trial = s.trial := rfl
@[simp] theorem State.modLaunch_firmware (s : State) (n : Nat) (f : Launch → Launch) : (s.modLaunch n f).firmware = s.firmware := rfl
@[simp] theorem State.modLaunch_errlog (s : State) (n : Nat) (f : Launch → Launch) : (s.modLaunch n f).errlog = s.errlog := rfl
@[simp] theorem State.modLaunch_bundles (s : State) (n : Nat) (f : Launch → Launch) : (s.modLaunch n f).bundles = s.bundles := rfl

@[simp] theorem State.modOp_agenda (s : State) (n : Nat) (f : EngOp → EngOp) : (s.modOp n f).agenda = s.agenda := rfl
@[simp] theorem State.modOp_issuer (s : State) (n : Nat) (f : EngOp → EngOp) : (s.modOp n f).issuer = s.issuer := rfl
@[simp] theorem State.modOp_time (s : State) (n : Nat) (f : EngOp → EngOp) : (s.modOp n f).time = s.time := rfl
@[simp] theorem State.modOp_fresh (s : State) (n : Nat) (f : EngOp → EngOp) : (s.modOp n f).fresh = s.fresh := rfl
@[simp] theorem State.modOp_device (s : State) (n : Nat) (f : EngOp → EngOp) : (s.modOp n f).device = s.device := rfl
@[simp] theorem State.modOp_mem (s : State) (n : Nat) (f : EngOp → EngOp) : (s.modOp n f).mem = s.mem := rfl
@[simp] theorem State.modOp_blur (s : State) (n : Nat) (f : EngOp → EngOp) : (s.modOp n f).blur = s.blur := rfl
@[simp] theorem State.modOp_scache (s : State) (n : Nat) (f : EngOp → EngOp) : (s.modOp n f).scache = s.scache := rfl
@[simp] theorem State.modOp_mside (s : State) (n : Nat) (f : EngOp → EngOp) : (s.modOp n f).mside = s.mside := rfl
@[simp] theorem State.modOp_poison (s : State) (n : Nat) (f : EngOp → EngOp) : (s.modOp n f).poison = s.poison := rfl
@[simp] theorem State.modOp_tags (s : State) (n : Nat) (f : EngOp → EngOp) : (s.modOp n f).tags = s.tags := rfl
@[simp] theorem State.modOp_l1 (s : State) (n : Nat) (f : EngOp → EngOp) : (s.modOp n f).l1 = s.l1 := rfl
@[simp] theorem State.modOp_tlb (s : State) (n : Nat) (f : EngOp → EngOp) : (s.modOp n f).tlb = s.tlb := rfl
@[simp] theorem State.modOp_walkc (s : State) (n : Nat) (f : EngOp → EngOp) : (s.modOp n f).walkc = s.walkc := rfl
@[simp] theorem State.modOp_icache (s : State) (n : Nat) (f : EngOp → EngOp) : (s.modOp n f).icache = s.icache := rfl
@[simp] theorem State.modOp_queues (s : State) (n : Nat) (f : EngOp → EngOp) : (s.modOp n f).queues = s.queues := rfl
@[simp] theorem State.modOp_qreqs (s : State) (n : Nat) (f : EngOp → EngOp) : (s.modOp n f).qreqs = s.qreqs := rfl
@[simp] theorem State.modOp_treqs (s : State) (n : Nat) (f : EngOp → EngOp) : (s.modOp n f).treqs = s.treqs := rfl
@[simp] theorem State.modOp_blocks (s : State) (n : Nat) (f : EngOp → EngOp) : (s.modOp n f).blocks = s.blocks := rfl
@[simp] theorem State.modOp_launches (s : State) (n : Nat) (f : EngOp → EngOp) : (s.modOp n f).launches = s.launches := rfl
@[simp] theorem State.modOp_xrecs (s : State) (n : Nat) (f : EngOp → EngOp) : (s.modOp n f).xrecs = s.xrecs := rfl
@[simp] theorem State.modOp_images (s : State) (n : Nat) (f : EngOp → EngOp) : (s.modOp n f).images = s.images := rfl
@[simp] theorem State.modOp_ops (s : State) (n : Nat) (f : EngOp → EngOp) : (s.modOp n f).ops = s.ops.map (fun o => if o.oid = n then f o else o) := rfl
@[simp] theorem State.modOp_matrix (s : State) (n : Nat) (f : EngOp → EngOp) : (s.modOp n f).matrix = s.matrix := rfl
@[simp] theorem State.modOp_contribs (s : State) (n : Nat) (f : EngOp → EngOp) : (s.modOp n f).contribs = s.contribs := rfl
@[simp] theorem State.modOp_instances (s : State) (n : Nat) (f : EngOp → EngOp) : (s.modOp n f).instances = s.instances := rfl
@[simp] theorem State.modOp_dean (s : State) (n : Nat) (f : EngOp → EngOp) : (s.modOp n f).dean = s.dean := rfl
@[simp] theorem State.modOp_amap (s : State) (n : Nat) (f : EngOp → EngOp) : (s.modOp n f).amap = s.amap := rfl
@[simp] theorem State.modOp_apwin (s : State) (n : Nat) (f : EngOp → EngOp) : (s.modOp n f).apwin = s.apwin := rfl
@[simp] theorem State.modOp_channels (s : State) (n : Nat) (f : EngOp → EngOp) : (s.modOp n f).channels = s.channels := rfl
@[simp] theorem State.modOp_ports (s : State) (n : Nat) (f : EngOp → EngOp) : (s.modOp n f).ports = s.ports := rfl
@[simp] theorem State.modOp_gvPolicy (s : State) (n : Nat) (f : EngOp → EngOp) : (s.modOp n f).gvPolicy = s.gvPolicy := rfl
@[simp] theorem State.modOp_gvCap (s : State) (n : Nat) (f : EngOp → EngOp) : (s.modOp n f).gvCap = s.gvCap := rfl
@[simp] theorem State.modOp_governors (s : State) (n : Nat) (f : EngOp → EngOp) : (s.modOp n f).governors = s.governors := rfl
@[simp] theorem State.modOp_peers (s : State) (n : Nat) (f : EngOp → EngOp) : (s.modOp n f).peers = s.peers := rfl
@[simp] theorem State.modOp_ridge (s : State) (n : Nat) (f : EngOp → EngOp) : (s.modOp n f).ridge = s.ridge := rfl
@[simp] theorem State.modOp_proctors (s : State) (n : Nat) (f : EngOp → EngOp) : (s.modOp n f).proctors = s.proctors := rfl
@[simp] theorem State.modOp_trial (s : State) (n : Nat) (f : EngOp → EngOp) : (s.modOp n f).trial = s.trial := rfl
@[simp] theorem State.modOp_firmware (s : State) (n : Nat) (f : EngOp → EngOp) : (s.modOp n f).firmware = s.firmware := rfl
@[simp] theorem State.modOp_errlog (s : State) (n : Nat) (f : EngOp → EngOp) : (s.modOp n f).errlog = s.errlog := rfl
@[simp] theorem State.modOp_bundles (s : State) (n : Nat) (f : EngOp → EngOp) : (s.modOp n f).bundles = s.bundles := rfl

@[simp] theorem State.dropOp_agenda (s : State) (n : Nat) : (s.dropOp n).agenda = s.agenda := rfl
@[simp] theorem State.dropOp_issuer (s : State) (n : Nat) : (s.dropOp n).issuer = s.issuer := rfl
@[simp] theorem State.dropOp_time (s : State) (n : Nat) : (s.dropOp n).time = s.time := rfl
@[simp] theorem State.dropOp_fresh (s : State) (n : Nat) : (s.dropOp n).fresh = s.fresh := rfl
@[simp] theorem State.dropOp_device (s : State) (n : Nat) : (s.dropOp n).device = s.device := rfl
@[simp] theorem State.dropOp_mem (s : State) (n : Nat) : (s.dropOp n).mem = s.mem := rfl
@[simp] theorem State.dropOp_blur (s : State) (n : Nat) : (s.dropOp n).blur = s.blur := rfl
@[simp] theorem State.dropOp_scache (s : State) (n : Nat) : (s.dropOp n).scache = s.scache := rfl
@[simp] theorem State.dropOp_mside (s : State) (n : Nat) : (s.dropOp n).mside = s.mside := rfl
@[simp] theorem State.dropOp_poison (s : State) (n : Nat) : (s.dropOp n).poison = s.poison := rfl
@[simp] theorem State.dropOp_tags (s : State) (n : Nat) : (s.dropOp n).tags = s.tags := rfl
@[simp] theorem State.dropOp_l1 (s : State) (n : Nat) : (s.dropOp n).l1 = s.l1 := rfl
@[simp] theorem State.dropOp_tlb (s : State) (n : Nat) : (s.dropOp n).tlb = s.tlb := rfl
@[simp] theorem State.dropOp_walkc (s : State) (n : Nat) : (s.dropOp n).walkc = s.walkc := rfl
@[simp] theorem State.dropOp_icache (s : State) (n : Nat) : (s.dropOp n).icache = s.icache := rfl
@[simp] theorem State.dropOp_queues (s : State) (n : Nat) : (s.dropOp n).queues = s.queues := rfl
@[simp] theorem State.dropOp_qreqs (s : State) (n : Nat) : (s.dropOp n).qreqs = s.qreqs := rfl
@[simp] theorem State.dropOp_treqs (s : State) (n : Nat) : (s.dropOp n).treqs = s.treqs := rfl
@[simp] theorem State.dropOp_blocks (s : State) (n : Nat) : (s.dropOp n).blocks = s.blocks := rfl
@[simp] theorem State.dropOp_launches (s : State) (n : Nat) : (s.dropOp n).launches = s.launches := rfl
@[simp] theorem State.dropOp_xrecs (s : State) (n : Nat) : (s.dropOp n).xrecs = s.xrecs := rfl
@[simp] theorem State.dropOp_images (s : State) (n : Nat) : (s.dropOp n).images = s.images := rfl
@[simp] theorem State.dropOp_ops (s : State) (n : Nat) : (s.dropOp n).ops = s.ops.filter (fun o => o.oid != n) := rfl
@[simp] theorem State.dropOp_matrix (s : State) (n : Nat) : (s.dropOp n).matrix = s.matrix := rfl
@[simp] theorem State.dropOp_contribs (s : State) (n : Nat) : (s.dropOp n).contribs = s.contribs := rfl
@[simp] theorem State.dropOp_instances (s : State) (n : Nat) : (s.dropOp n).instances = s.instances := rfl
@[simp] theorem State.dropOp_dean (s : State) (n : Nat) : (s.dropOp n).dean = s.dean := rfl
@[simp] theorem State.dropOp_amap (s : State) (n : Nat) : (s.dropOp n).amap = s.amap := rfl
@[simp] theorem State.dropOp_apwin (s : State) (n : Nat) : (s.dropOp n).apwin = s.apwin := rfl
@[simp] theorem State.dropOp_channels (s : State) (n : Nat) : (s.dropOp n).channels = s.channels := rfl
@[simp] theorem State.dropOp_ports (s : State) (n : Nat) : (s.dropOp n).ports = s.ports := rfl
@[simp] theorem State.dropOp_gvPolicy (s : State) (n : Nat) : (s.dropOp n).gvPolicy = s.gvPolicy := rfl
@[simp] theorem State.dropOp_gvCap (s : State) (n : Nat) : (s.dropOp n).gvCap = s.gvCap := rfl
@[simp] theorem State.dropOp_governors (s : State) (n : Nat) : (s.dropOp n).governors = s.governors := rfl
@[simp] theorem State.dropOp_peers (s : State) (n : Nat) : (s.dropOp n).peers = s.peers := rfl
@[simp] theorem State.dropOp_ridge (s : State) (n : Nat) : (s.dropOp n).ridge = s.ridge := rfl
@[simp] theorem State.dropOp_proctors (s : State) (n : Nat) : (s.dropOp n).proctors = s.proctors := rfl
@[simp] theorem State.dropOp_trial (s : State) (n : Nat) : (s.dropOp n).trial = s.trial := rfl
@[simp] theorem State.dropOp_firmware (s : State) (n : Nat) : (s.dropOp n).firmware = s.firmware := rfl
@[simp] theorem State.dropOp_errlog (s : State) (n : Nat) : (s.dropOp n).errlog = s.errlog := rfl
@[simp] theorem State.dropOp_bundles (s : State) (n : Nat) : (s.dropOp n).bundles = s.bundles := rfl

@[simp] theorem State.setChannel_agenda (s : State) (n : Nat) (c : Channel) : (s.setChannel n c).agenda = s.agenda := rfl
@[simp] theorem State.setChannel_issuer (s : State) (n : Nat) (c : Channel) : (s.setChannel n c).issuer = s.issuer := rfl
@[simp] theorem State.setChannel_time (s : State) (n : Nat) (c : Channel) : (s.setChannel n c).time = s.time := rfl
@[simp] theorem State.setChannel_fresh (s : State) (n : Nat) (c : Channel) : (s.setChannel n c).fresh = s.fresh := rfl
@[simp] theorem State.setChannel_device (s : State) (n : Nat) (c : Channel) : (s.setChannel n c).device = s.device := rfl
@[simp] theorem State.setChannel_mem (s : State) (n : Nat) (c : Channel) : (s.setChannel n c).mem = s.mem := rfl
@[simp] theorem State.setChannel_blur (s : State) (n : Nat) (c : Channel) : (s.setChannel n c).blur = s.blur := rfl
@[simp] theorem State.setChannel_scache (s : State) (n : Nat) (c : Channel) : (s.setChannel n c).scache = s.scache := rfl
@[simp] theorem State.setChannel_mside (s : State) (n : Nat) (c : Channel) : (s.setChannel n c).mside = s.mside := rfl
@[simp] theorem State.setChannel_poison (s : State) (n : Nat) (c : Channel) : (s.setChannel n c).poison = s.poison := rfl
@[simp] theorem State.setChannel_tags (s : State) (n : Nat) (c : Channel) : (s.setChannel n c).tags = s.tags := rfl
@[simp] theorem State.setChannel_l1 (s : State) (n : Nat) (c : Channel) : (s.setChannel n c).l1 = s.l1 := rfl
@[simp] theorem State.setChannel_tlb (s : State) (n : Nat) (c : Channel) : (s.setChannel n c).tlb = s.tlb := rfl
@[simp] theorem State.setChannel_walkc (s : State) (n : Nat) (c : Channel) : (s.setChannel n c).walkc = s.walkc := rfl
@[simp] theorem State.setChannel_icache (s : State) (n : Nat) (c : Channel) : (s.setChannel n c).icache = s.icache := rfl
@[simp] theorem State.setChannel_queues (s : State) (n : Nat) (c : Channel) : (s.setChannel n c).queues = s.queues := rfl
@[simp] theorem State.setChannel_qreqs (s : State) (n : Nat) (c : Channel) : (s.setChannel n c).qreqs = s.qreqs := rfl
@[simp] theorem State.setChannel_treqs (s : State) (n : Nat) (c : Channel) : (s.setChannel n c).treqs = s.treqs := rfl
@[simp] theorem State.setChannel_blocks (s : State) (n : Nat) (c : Channel) : (s.setChannel n c).blocks = s.blocks := rfl
@[simp] theorem State.setChannel_launches (s : State) (n : Nat) (c : Channel) : (s.setChannel n c).launches = s.launches := rfl
@[simp] theorem State.setChannel_xrecs (s : State) (n : Nat) (c : Channel) : (s.setChannel n c).xrecs = s.xrecs := rfl
@[simp] theorem State.setChannel_images (s : State) (n : Nat) (c : Channel) : (s.setChannel n c).images = s.images := rfl
@[simp] theorem State.setChannel_ops (s : State) (n : Nat) (c : Channel) : (s.setChannel n c).ops = s.ops := rfl
@[simp] theorem State.setChannel_matrix (s : State) (n : Nat) (c : Channel) : (s.setChannel n c).matrix = s.matrix := rfl
@[simp] theorem State.setChannel_contribs (s : State) (n : Nat) (c : Channel) : (s.setChannel n c).contribs = s.contribs := rfl
@[simp] theorem State.setChannel_instances (s : State) (n : Nat) (c : Channel) : (s.setChannel n c).instances = s.instances := rfl
@[simp] theorem State.setChannel_dean (s : State) (n : Nat) (c : Channel) : (s.setChannel n c).dean = s.dean := rfl
@[simp] theorem State.setChannel_amap (s : State) (n : Nat) (c : Channel) : (s.setChannel n c).amap = s.amap := rfl
@[simp] theorem State.setChannel_apwin (s : State) (n : Nat) (c : Channel) : (s.setChannel n c).apwin = s.apwin := rfl
@[simp] theorem State.setChannel_channels (s : State) (n : Nat) (c : Channel) : (s.setChannel n c).channels = aput s.channels n c := rfl
@[simp] theorem State.setChannel_ports (s : State) (n : Nat) (c : Channel) : (s.setChannel n c).ports = s.ports := rfl
@[simp] theorem State.setChannel_gvPolicy (s : State) (n : Nat) (c : Channel) : (s.setChannel n c).gvPolicy = s.gvPolicy := rfl
@[simp] theorem State.setChannel_gvCap (s : State) (n : Nat) (c : Channel) : (s.setChannel n c).gvCap = s.gvCap := rfl
@[simp] theorem State.setChannel_governors (s : State) (n : Nat) (c : Channel) : (s.setChannel n c).governors = s.governors := rfl
@[simp] theorem State.setChannel_peers (s : State) (n : Nat) (c : Channel) : (s.setChannel n c).peers = s.peers := rfl
@[simp] theorem State.setChannel_ridge (s : State) (n : Nat) (c : Channel) : (s.setChannel n c).ridge = s.ridge := rfl
@[simp] theorem State.setChannel_proctors (s : State) (n : Nat) (c : Channel) : (s.setChannel n c).proctors = s.proctors := rfl
@[simp] theorem State.setChannel_trial (s : State) (n : Nat) (c : Channel) : (s.setChannel n c).trial = s.trial := rfl
@[simp] theorem State.setChannel_firmware (s : State) (n : Nat) (c : Channel) : (s.setChannel n c).firmware = s.firmware := rfl
@[simp] theorem State.setChannel_errlog (s : State) (n : Nat) (c : Channel) : (s.setChannel n c).errlog = s.errlog := rfl
@[simp] theorem State.setChannel_bundles (s : State) (n : Nat) (c : Channel) : (s.setChannel n c).bundles = s.bundles := rfl

@[simp] theorem State.setRegion_agenda (s : State) (n : Nat) (r : Region) : (s.setRegion n r).agenda = s.agenda := rfl
@[simp] theorem State.setRegion_issuer (s : State) (n : Nat) (r : Region) : (s.setRegion n r).issuer = s.issuer := rfl
@[simp] theorem State.setRegion_time (s : State) (n : Nat) (r : Region) : (s.setRegion n r).time = s.time := rfl
@[simp] theorem State.setRegion_fresh (s : State) (n : Nat) (r : Region) : (s.setRegion n r).fresh = s.fresh := rfl
@[simp] theorem State.setRegion_device (s : State) (n : Nat) (r : Region) : (s.setRegion n r).device = s.device := rfl
@[simp] theorem State.setRegion_mem (s : State) (n : Nat) (r : Region) : (s.setRegion n r).mem = s.mem := rfl
@[simp] theorem State.setRegion_blur (s : State) (n : Nat) (r : Region) : (s.setRegion n r).blur = s.blur := rfl
@[simp] theorem State.setRegion_scache (s : State) (n : Nat) (r : Region) : (s.setRegion n r).scache = s.scache := rfl
@[simp] theorem State.setRegion_mside (s : State) (n : Nat) (r : Region) : (s.setRegion n r).mside = s.mside := rfl
@[simp] theorem State.setRegion_poison (s : State) (n : Nat) (r : Region) : (s.setRegion n r).poison = s.poison := rfl
@[simp] theorem State.setRegion_tags (s : State) (n : Nat) (r : Region) : (s.setRegion n r).tags = s.tags := rfl
@[simp] theorem State.setRegion_l1 (s : State) (n : Nat) (r : Region) : (s.setRegion n r).l1 = s.l1 := rfl
@[simp] theorem State.setRegion_tlb (s : State) (n : Nat) (r : Region) : (s.setRegion n r).tlb = s.tlb := rfl
@[simp] theorem State.setRegion_walkc (s : State) (n : Nat) (r : Region) : (s.setRegion n r).walkc = s.walkc := rfl
@[simp] theorem State.setRegion_icache (s : State) (n : Nat) (r : Region) : (s.setRegion n r).icache = s.icache := rfl
@[simp] theorem State.setRegion_queues (s : State) (n : Nat) (r : Region) : (s.setRegion n r).queues = s.queues := rfl
@[simp] theorem State.setRegion_qreqs (s : State) (n : Nat) (r : Region) : (s.setRegion n r).qreqs = s.qreqs := rfl
@[simp] theorem State.setRegion_treqs (s : State) (n : Nat) (r : Region) : (s.setRegion n r).treqs = s.treqs := rfl
@[simp] theorem State.setRegion_blocks (s : State) (n : Nat) (r : Region) : (s.setRegion n r).blocks = s.blocks := rfl
@[simp] theorem State.setRegion_launches (s : State) (n : Nat) (r : Region) : (s.setRegion n r).launches = s.launches := rfl
@[simp] theorem State.setRegion_xrecs (s : State) (n : Nat) (r : Region) : (s.setRegion n r).xrecs = s.xrecs := rfl
@[simp] theorem State.setRegion_images (s : State) (n : Nat) (r : Region) : (s.setRegion n r).images = s.images := rfl
@[simp] theorem State.setRegion_ops (s : State) (n : Nat) (r : Region) : (s.setRegion n r).ops = s.ops := rfl
@[simp] theorem State.setRegion_matrix (s : State) (n : Nat) (r : Region) : (s.setRegion n r).matrix = s.matrix := rfl
@[simp] theorem State.setRegion_contribs (s : State) (n : Nat) (r : Region) : (s.setRegion n r).contribs = s.contribs := rfl
@[simp] theorem State.setRegion_instances (s : State) (n : Nat) (r : Region) : (s.setRegion n r).instances = s.instances := rfl
@[simp] theorem State.setRegion_dean (s : State) (n : Nat) (r : Region) : (s.setRegion n r).dean = s.dean := rfl
@[simp] theorem State.setRegion_amap (s : State) (n : Nat) (r : Region) : (s.setRegion n r).amap = aput s.amap n r := rfl
@[simp] theorem State.setRegion_apwin (s : State) (n : Nat) (r : Region) : (s.setRegion n r).apwin = s.apwin := rfl
@[simp] theorem State.setRegion_channels (s : State) (n : Nat) (r : Region) : (s.setRegion n r).channels = s.channels := rfl
@[simp] theorem State.setRegion_ports (s : State) (n : Nat) (r : Region) : (s.setRegion n r).ports = s.ports := rfl
@[simp] theorem State.setRegion_gvPolicy (s : State) (n : Nat) (r : Region) : (s.setRegion n r).gvPolicy = s.gvPolicy := rfl
@[simp] theorem State.setRegion_gvCap (s : State) (n : Nat) (r : Region) : (s.setRegion n r).gvCap = s.gvCap := rfl
@[simp] theorem State.setRegion_governors (s : State) (n : Nat) (r : Region) : (s.setRegion n r).governors = s.governors := rfl
@[simp] theorem State.setRegion_peers (s : State) (n : Nat) (r : Region) : (s.setRegion n r).peers = s.peers := rfl
@[simp] theorem State.setRegion_ridge (s : State) (n : Nat) (r : Region) : (s.setRegion n r).ridge = s.ridge := rfl
@[simp] theorem State.setRegion_proctors (s : State) (n : Nat) (r : Region) : (s.setRegion n r).proctors = s.proctors := rfl
@[simp] theorem State.setRegion_trial (s : State) (n : Nat) (r : Region) : (s.setRegion n r).trial = s.trial := rfl
@[simp] theorem State.setRegion_firmware (s : State) (n : Nat) (r : Region) : (s.setRegion n r).firmware = s.firmware := rfl
@[simp] theorem State.setRegion_errlog (s : State) (n : Nat) (r : Region) : (s.setRegion n r).errlog = s.errlog := rfl
@[simp] theorem State.setRegion_bundles (s : State) (n : Nat) (r : Region) : (s.setRegion n r).bundles = s.bundles := rfl

@[simp] theorem State.dramPut_agenda (s : State) (c : Nat) (b : Byte) : (s.dramPut c b).agenda = s.agenda := rfl
@[simp] theorem State.dramPut_issuer (s : State) (c : Nat) (b : Byte) : (s.dramPut c b).issuer = s.issuer := rfl
@[simp] theorem State.dramPut_time (s : State) (c : Nat) (b : Byte) : (s.dramPut c b).time = s.time := rfl
@[simp] theorem State.dramPut_fresh (s : State) (c : Nat) (b : Byte) : (s.dramPut c b).fresh = s.fresh := rfl
@[simp] theorem State.dramPut_device (s : State) (c : Nat) (b : Byte) : (s.dramPut c b).device = s.device := rfl
@[simp] theorem State.dramPut_mem (s : State) (c : Nat) (b : Byte) : (s.dramPut c b).mem = sput 0 s.mem c b := rfl
@[simp] theorem State.dramPut_scache (s : State) (c : Nat) (b : Byte) : (s.dramPut c b).scache = s.scache := rfl
@[simp] theorem State.dramPut_mside (s : State) (c : Nat) (b : Byte) : (s.dramPut c b).mside = s.mside := rfl
@[simp] theorem State.dramPut_poison (s : State) (c : Nat) (b : Byte) : (s.dramPut c b).poison = s.poison := rfl
@[simp] theorem State.dramPut_tags (s : State) (c : Nat) (b : Byte) : (s.dramPut c b).tags = s.tags := rfl
@[simp] theorem State.dramPut_l1 (s : State) (c : Nat) (b : Byte) : (s.dramPut c b).l1 = s.l1 := rfl
@[simp] theorem State.dramPut_tlb (s : State) (c : Nat) (b : Byte) : (s.dramPut c b).tlb = s.tlb := rfl
@[simp] theorem State.dramPut_walkc (s : State) (c : Nat) (b : Byte) : (s.dramPut c b).walkc = s.walkc := rfl
@[simp] theorem State.dramPut_icache (s : State) (c : Nat) (b : Byte) : (s.dramPut c b).icache = s.icache := rfl
@[simp] theorem State.dramPut_queues (s : State) (c : Nat) (b : Byte) : (s.dramPut c b).queues = s.queues := rfl
@[simp] theorem State.dramPut_qreqs (s : State) (c : Nat) (b : Byte) : (s.dramPut c b).qreqs = s.qreqs := rfl
@[simp] theorem State.dramPut_treqs (s : State) (c : Nat) (b : Byte) : (s.dramPut c b).treqs = s.treqs := rfl
@[simp] theorem State.dramPut_blocks (s : State) (c : Nat) (b : Byte) : (s.dramPut c b).blocks = s.blocks := rfl
@[simp] theorem State.dramPut_launches (s : State) (c : Nat) (b : Byte) : (s.dramPut c b).launches = s.launches := rfl
@[simp] theorem State.dramPut_xrecs (s : State) (c : Nat) (b : Byte) : (s.dramPut c b).xrecs = s.xrecs := rfl
@[simp] theorem State.dramPut_images (s : State) (c : Nat) (b : Byte) : (s.dramPut c b).images = s.images := rfl
@[simp] theorem State.dramPut_ops (s : State) (c : Nat) (b : Byte) : (s.dramPut c b).ops = s.ops := rfl
@[simp] theorem State.dramPut_matrix (s : State) (c : Nat) (b : Byte) : (s.dramPut c b).matrix = s.matrix := rfl
@[simp] theorem State.dramPut_contribs (s : State) (c : Nat) (b : Byte) : (s.dramPut c b).contribs = s.contribs := rfl
@[simp] theorem State.dramPut_instances (s : State) (c : Nat) (b : Byte) : (s.dramPut c b).instances = s.instances := rfl
@[simp] theorem State.dramPut_dean (s : State) (c : Nat) (b : Byte) : (s.dramPut c b).dean = s.dean := rfl
@[simp] theorem State.dramPut_amap (s : State) (c : Nat) (b : Byte) : (s.dramPut c b).amap = s.amap := rfl
@[simp] theorem State.dramPut_apwin (s : State) (c : Nat) (b : Byte) : (s.dramPut c b).apwin = s.apwin := rfl
@[simp] theorem State.dramPut_channels (s : State) (c : Nat) (b : Byte) : (s.dramPut c b).channels = s.channels := rfl
@[simp] theorem State.dramPut_ports (s : State) (c : Nat) (b : Byte) : (s.dramPut c b).ports = s.ports := rfl
@[simp] theorem State.dramPut_gvPolicy (s : State) (c : Nat) (b : Byte) : (s.dramPut c b).gvPolicy = s.gvPolicy := rfl
@[simp] theorem State.dramPut_gvCap (s : State) (c : Nat) (b : Byte) : (s.dramPut c b).gvCap = s.gvCap := rfl
@[simp] theorem State.dramPut_governors (s : State) (c : Nat) (b : Byte) : (s.dramPut c b).governors = s.governors := rfl
@[simp] theorem State.dramPut_peers (s : State) (c : Nat) (b : Byte) : (s.dramPut c b).peers = s.peers := rfl
@[simp] theorem State.dramPut_ridge (s : State) (c : Nat) (b : Byte) : (s.dramPut c b).ridge = s.ridge := rfl
@[simp] theorem State.dramPut_proctors (s : State) (c : Nat) (b : Byte) : (s.dramPut c b).proctors = s.proctors := rfl
@[simp] theorem State.dramPut_trial (s : State) (c : Nat) (b : Byte) : (s.dramPut c b).trial = s.trial := rfl
@[simp] theorem State.dramPut_firmware (s : State) (c : Nat) (b : Byte) : (s.dramPut c b).firmware = s.firmware := rfl
@[simp] theorem State.dramPut_errlog (s : State) (c : Nat) (b : Byte) : (s.dramPut c b).errlog = s.errlog := rfl
@[simp] theorem State.dramPut_bundles (s : State) (c : Nat) (b : Byte) : (s.dramPut c b).bundles = s.bundles := rfl

@[simp] theorem State.scPut_agenda (s : State) (l : Line) : (s.scPut l).agenda = s.agenda := rfl
@[simp] theorem State.scPut_issuer (s : State) (l : Line) : (s.scPut l).issuer = s.issuer := rfl
@[simp] theorem State.scPut_time (s : State) (l : Line) : (s.scPut l).time = s.time := rfl
@[simp] theorem State.scPut_fresh (s : State) (l : Line) : (s.scPut l).fresh = s.fresh := rfl
@[simp] theorem State.scPut_device (s : State) (l : Line) : (s.scPut l).device = s.device := rfl
@[simp] theorem State.scPut_mem (s : State) (l : Line) : (s.scPut l).mem = s.mem := rfl
@[simp] theorem State.scPut_blur (s : State) (l : Line) : (s.scPut l).blur = s.blur := rfl
@[simp] theorem State.scPut_mside (s : State) (l : Line) : (s.scPut l).mside = s.mside := rfl
@[simp] theorem State.scPut_poison (s : State) (l : Line) : (s.scPut l).poison = s.poison := rfl
@[simp] theorem State.scPut_tags (s : State) (l : Line) : (s.scPut l).tags = s.tags := rfl
@[simp] theorem State.scPut_l1 (s : State) (l : Line) : (s.scPut l).l1 = s.l1 := rfl
@[simp] theorem State.scPut_tlb (s : State) (l : Line) : (s.scPut l).tlb = s.tlb := rfl
@[simp] theorem State.scPut_walkc (s : State) (l : Line) : (s.scPut l).walkc = s.walkc := rfl
@[simp] theorem State.scPut_icache (s : State) (l : Line) : (s.scPut l).icache = s.icache := rfl
@[simp] theorem State.scPut_queues (s : State) (l : Line) : (s.scPut l).queues = s.queues := rfl
@[simp] theorem State.scPut_qreqs (s : State) (l : Line) : (s.scPut l).qreqs = s.qreqs := rfl
@[simp] theorem State.scPut_treqs (s : State) (l : Line) : (s.scPut l).treqs = s.treqs := rfl
@[simp] theorem State.scPut_blocks (s : State) (l : Line) : (s.scPut l).blocks = s.blocks := rfl
@[simp] theorem State.scPut_launches (s : State) (l : Line) : (s.scPut l).launches = s.launches := rfl
@[simp] theorem State.scPut_xrecs (s : State) (l : Line) : (s.scPut l).xrecs = s.xrecs := rfl
@[simp] theorem State.scPut_images (s : State) (l : Line) : (s.scPut l).images = s.images := rfl
@[simp] theorem State.scPut_ops (s : State) (l : Line) : (s.scPut l).ops = s.ops := rfl
@[simp] theorem State.scPut_matrix (s : State) (l : Line) : (s.scPut l).matrix = s.matrix := rfl
@[simp] theorem State.scPut_contribs (s : State) (l : Line) : (s.scPut l).contribs = s.contribs := rfl
@[simp] theorem State.scPut_instances (s : State) (l : Line) : (s.scPut l).instances = s.instances := rfl
@[simp] theorem State.scPut_dean (s : State) (l : Line) : (s.scPut l).dean = s.dean := rfl
@[simp] theorem State.scPut_amap (s : State) (l : Line) : (s.scPut l).amap = s.amap := rfl
@[simp] theorem State.scPut_apwin (s : State) (l : Line) : (s.scPut l).apwin = s.apwin := rfl
@[simp] theorem State.scPut_channels (s : State) (l : Line) : (s.scPut l).channels = s.channels := rfl
@[simp] theorem State.scPut_ports (s : State) (l : Line) : (s.scPut l).ports = s.ports := rfl
@[simp] theorem State.scPut_gvPolicy (s : State) (l : Line) : (s.scPut l).gvPolicy = s.gvPolicy := rfl
@[simp] theorem State.scPut_gvCap (s : State) (l : Line) : (s.scPut l).gvCap = s.gvCap := rfl
@[simp] theorem State.scPut_governors (s : State) (l : Line) : (s.scPut l).governors = s.governors := rfl
@[simp] theorem State.scPut_peers (s : State) (l : Line) : (s.scPut l).peers = s.peers := rfl
@[simp] theorem State.scPut_ridge (s : State) (l : Line) : (s.scPut l).ridge = s.ridge := rfl
@[simp] theorem State.scPut_proctors (s : State) (l : Line) : (s.scPut l).proctors = s.proctors := rfl
@[simp] theorem State.scPut_trial (s : State) (l : Line) : (s.scPut l).trial = s.trial := rfl
@[simp] theorem State.scPut_firmware (s : State) (l : Line) : (s.scPut l).firmware = s.firmware := rfl
@[simp] theorem State.scPut_errlog (s : State) (l : Line) : (s.scPut l).errlog = s.errlog := rfl
@[simp] theorem State.scPut_bundles (s : State) (l : Line) : (s.scPut l).bundles = s.bundles := rfl

@[simp] theorem State.clearPoison_agenda (s : State) (c n : Nat) : (s.clearPoison c n).agenda = s.agenda := rfl
@[simp] theorem State.clearPoison_issuer (s : State) (c n : Nat) : (s.clearPoison c n).issuer = s.issuer := rfl
@[simp] theorem State.clearPoison_time (s : State) (c n : Nat) : (s.clearPoison c n).time = s.time := rfl
@[simp] theorem State.clearPoison_fresh (s : State) (c n : Nat) : (s.clearPoison c n).fresh = s.fresh := rfl
@[simp] theorem State.clearPoison_device (s : State) (c n : Nat) : (s.clearPoison c n).device = s.device := rfl
@[simp] theorem State.clearPoison_mem (s : State) (c n : Nat) : (s.clearPoison c n).mem = s.mem := rfl
@[simp] theorem State.clearPoison_blur (s : State) (c n : Nat) : (s.clearPoison c n).blur = s.blur := rfl
@[simp] theorem State.clearPoison_scache (s : State) (c n : Nat) : (s.clearPoison c n).scache = s.scache := rfl
@[simp] theorem State.clearPoison_mside (s : State) (c n : Nat) : (s.clearPoison c n).mside = s.mside := rfl
@[simp] theorem State.clearPoison_tags (s : State) (c n : Nat) : (s.clearPoison c n).tags = s.tags := rfl
@[simp] theorem State.clearPoison_l1 (s : State) (c n : Nat) : (s.clearPoison c n).l1 = s.l1 := rfl
@[simp] theorem State.clearPoison_tlb (s : State) (c n : Nat) : (s.clearPoison c n).tlb = s.tlb := rfl
@[simp] theorem State.clearPoison_walkc (s : State) (c n : Nat) : (s.clearPoison c n).walkc = s.walkc := rfl
@[simp] theorem State.clearPoison_icache (s : State) (c n : Nat) : (s.clearPoison c n).icache = s.icache := rfl
@[simp] theorem State.clearPoison_queues (s : State) (c n : Nat) : (s.clearPoison c n).queues = s.queues := rfl
@[simp] theorem State.clearPoison_qreqs (s : State) (c n : Nat) : (s.clearPoison c n).qreqs = s.qreqs := rfl
@[simp] theorem State.clearPoison_treqs (s : State) (c n : Nat) : (s.clearPoison c n).treqs = s.treqs := rfl
@[simp] theorem State.clearPoison_blocks (s : State) (c n : Nat) : (s.clearPoison c n).blocks = s.blocks := rfl
@[simp] theorem State.clearPoison_launches (s : State) (c n : Nat) : (s.clearPoison c n).launches = s.launches := rfl
@[simp] theorem State.clearPoison_xrecs (s : State) (c n : Nat) : (s.clearPoison c n).xrecs = s.xrecs := rfl
@[simp] theorem State.clearPoison_images (s : State) (c n : Nat) : (s.clearPoison c n).images = s.images := rfl
@[simp] theorem State.clearPoison_ops (s : State) (c n : Nat) : (s.clearPoison c n).ops = s.ops := rfl
@[simp] theorem State.clearPoison_matrix (s : State) (c n : Nat) : (s.clearPoison c n).matrix = s.matrix := rfl
@[simp] theorem State.clearPoison_contribs (s : State) (c n : Nat) : (s.clearPoison c n).contribs = s.contribs := rfl
@[simp] theorem State.clearPoison_instances (s : State) (c n : Nat) : (s.clearPoison c n).instances = s.instances := rfl
@[simp] theorem State.clearPoison_dean (s : State) (c n : Nat) : (s.clearPoison c n).dean = s.dean := rfl
@[simp] theorem State.clearPoison_amap (s : State) (c n : Nat) : (s.clearPoison c n).amap = s.amap := rfl
@[simp] theorem State.clearPoison_apwin (s : State) (c n : Nat) : (s.clearPoison c n).apwin = s.apwin := rfl
@[simp] theorem State.clearPoison_channels (s : State) (c n : Nat) : (s.clearPoison c n).channels = s.channels := rfl
@[simp] theorem State.clearPoison_ports (s : State) (c n : Nat) : (s.clearPoison c n).ports = s.ports := rfl
@[simp] theorem State.clearPoison_gvPolicy (s : State) (c n : Nat) : (s.clearPoison c n).gvPolicy = s.gvPolicy := rfl
@[simp] theorem State.clearPoison_gvCap (s : State) (c n : Nat) : (s.clearPoison c n).gvCap = s.gvCap := rfl
@[simp] theorem State.clearPoison_governors (s : State) (c n : Nat) : (s.clearPoison c n).governors = s.governors := rfl
@[simp] theorem State.clearPoison_peers (s : State) (c n : Nat) : (s.clearPoison c n).peers = s.peers := rfl
@[simp] theorem State.clearPoison_ridge (s : State) (c n : Nat) : (s.clearPoison c n).ridge = s.ridge := rfl
@[simp] theorem State.clearPoison_proctors (s : State) (c n : Nat) : (s.clearPoison c n).proctors = s.proctors := rfl
@[simp] theorem State.clearPoison_trial (s : State) (c n : Nat) : (s.clearPoison c n).trial = s.trial := rfl
@[simp] theorem State.clearPoison_firmware (s : State) (c n : Nat) : (s.clearPoison c n).firmware = s.firmware := rfl
@[simp] theorem State.clearPoison_errlog (s : State) (c n : Nat) : (s.clearPoison c n).errlog = s.errlog := rfl
@[simp] theorem State.clearPoison_bundles (s : State) (c n : Nat) : (s.clearPoison c n).bundles = s.bundles := rfl

@[simp] theorem State.l1Put_agenda (s : State) (l : Line) : (s.l1Put l).agenda = s.agenda := rfl
@[simp] theorem State.l1Put_issuer (s : State) (l : Line) : (s.l1Put l).issuer = s.issuer := rfl
@[simp] theorem State.l1Put_time (s : State) (l : Line) : (s.l1Put l).time = s.time := rfl
@[simp] theorem State.l1Put_fresh (s : State) (l : Line) : (s.l1Put l).fresh = s.fresh := rfl
@[simp] theorem State.l1Put_device (s : State) (l : Line) : (s.l1Put l).device = s.device := rfl
@[simp] theorem State.l1Put_mem (s : State) (l : Line) : (s.l1Put l).mem = s.mem := rfl
@[simp] theorem State.l1Put_blur (s : State) (l : Line) : (s.l1Put l).blur = s.blur := rfl
@[simp] theorem State.l1Put_scache (s : State) (l : Line) : (s.l1Put l).scache = s.scache := rfl
@[simp] theorem State.l1Put_mside (s : State) (l : Line) : (s.l1Put l).mside = s.mside := rfl
@[simp] theorem State.l1Put_poison (s : State) (l : Line) : (s.l1Put l).poison = s.poison := rfl
@[simp] theorem State.l1Put_tags (s : State) (l : Line) : (s.l1Put l).tags = s.tags := rfl
@[simp] theorem State.l1Put_tlb (s : State) (l : Line) : (s.l1Put l).tlb = s.tlb := rfl
@[simp] theorem State.l1Put_walkc (s : State) (l : Line) : (s.l1Put l).walkc = s.walkc := rfl
@[simp] theorem State.l1Put_icache (s : State) (l : Line) : (s.l1Put l).icache = s.icache := rfl
@[simp] theorem State.l1Put_queues (s : State) (l : Line) : (s.l1Put l).queues = s.queues := rfl
@[simp] theorem State.l1Put_qreqs (s : State) (l : Line) : (s.l1Put l).qreqs = s.qreqs := rfl
@[simp] theorem State.l1Put_treqs (s : State) (l : Line) : (s.l1Put l).treqs = s.treqs := rfl
@[simp] theorem State.l1Put_blocks (s : State) (l : Line) : (s.l1Put l).blocks = s.blocks := rfl
@[simp] theorem State.l1Put_launches (s : State) (l : Line) : (s.l1Put l).launches = s.launches := rfl
@[simp] theorem State.l1Put_xrecs (s : State) (l : Line) : (s.l1Put l).xrecs = s.xrecs := rfl
@[simp] theorem State.l1Put_images (s : State) (l : Line) : (s.l1Put l).images = s.images := rfl
@[simp] theorem State.l1Put_ops (s : State) (l : Line) : (s.l1Put l).ops = s.ops := rfl
@[simp] theorem State.l1Put_matrix (s : State) (l : Line) : (s.l1Put l).matrix = s.matrix := rfl
@[simp] theorem State.l1Put_contribs (s : State) (l : Line) : (s.l1Put l).contribs = s.contribs := rfl
@[simp] theorem State.l1Put_instances (s : State) (l : Line) : (s.l1Put l).instances = s.instances := rfl
@[simp] theorem State.l1Put_dean (s : State) (l : Line) : (s.l1Put l).dean = s.dean := rfl
@[simp] theorem State.l1Put_amap (s : State) (l : Line) : (s.l1Put l).amap = s.amap := rfl
@[simp] theorem State.l1Put_apwin (s : State) (l : Line) : (s.l1Put l).apwin = s.apwin := rfl
@[simp] theorem State.l1Put_channels (s : State) (l : Line) : (s.l1Put l).channels = s.channels := rfl
@[simp] theorem State.l1Put_ports (s : State) (l : Line) : (s.l1Put l).ports = s.ports := rfl
@[simp] theorem State.l1Put_gvPolicy (s : State) (l : Line) : (s.l1Put l).gvPolicy = s.gvPolicy := rfl
@[simp] theorem State.l1Put_gvCap (s : State) (l : Line) : (s.l1Put l).gvCap = s.gvCap := rfl
@[simp] theorem State.l1Put_governors (s : State) (l : Line) : (s.l1Put l).governors = s.governors := rfl
@[simp] theorem State.l1Put_peers (s : State) (l : Line) : (s.l1Put l).peers = s.peers := rfl
@[simp] theorem State.l1Put_ridge (s : State) (l : Line) : (s.l1Put l).ridge = s.ridge := rfl
@[simp] theorem State.l1Put_proctors (s : State) (l : Line) : (s.l1Put l).proctors = s.proctors := rfl
@[simp] theorem State.l1Put_trial (s : State) (l : Line) : (s.l1Put l).trial = s.trial := rfl
@[simp] theorem State.l1Put_firmware (s : State) (l : Line) : (s.l1Put l).firmware = s.firmware := rfl
@[simp] theorem State.l1Put_errlog (s : State) (l : Line) : (s.l1Put l).errlog = s.errlog := rfl
@[simp] theorem State.l1Put_bundles (s : State) (l : Line) : (s.l1Put l).bundles = s.bundles := rfl

@[simp] theorem State.l1Drop_agenda (s : State) (c n : Nat) : (s.l1Drop c n).agenda = s.agenda := rfl
@[simp] theorem State.l1Drop_issuer (s : State) (c n : Nat) : (s.l1Drop c n).issuer = s.issuer := rfl
@[simp] theorem State.l1Drop_time (s : State) (c n : Nat) : (s.l1Drop c n).time = s.time := rfl
@[simp] theorem State.l1Drop_fresh (s : State) (c n : Nat) : (s.l1Drop c n).fresh = s.fresh := rfl
@[simp] theorem State.l1Drop_device (s : State) (c n : Nat) : (s.l1Drop c n).device = s.device := rfl
@[simp] theorem State.l1Drop_mem (s : State) (c n : Nat) : (s.l1Drop c n).mem = s.mem := rfl
@[simp] theorem State.l1Drop_blur (s : State) (c n : Nat) : (s.l1Drop c n).blur = s.blur := rfl
@[simp] theorem State.l1Drop_scache (s : State) (c n : Nat) : (s.l1Drop c n).scache = s.scache := rfl
@[simp] theorem State.l1Drop_mside (s : State) (c n : Nat) : (s.l1Drop c n).mside = s.mside := rfl
@[simp] theorem State.l1Drop_poison (s : State) (c n : Nat) : (s.l1Drop c n).poison = s.poison := rfl
@[simp] theorem State.l1Drop_tags (s : State) (c n : Nat) : (s.l1Drop c n).tags = s.tags := rfl
@[simp] theorem State.l1Drop_tlb (s : State) (c n : Nat) : (s.l1Drop c n).tlb = s.tlb := rfl
@[simp] theorem State.l1Drop_walkc (s : State) (c n : Nat) : (s.l1Drop c n).walkc = s.walkc := rfl
@[simp] theorem State.l1Drop_icache (s : State) (c n : Nat) : (s.l1Drop c n).icache = s.icache := rfl
@[simp] theorem State.l1Drop_queues (s : State) (c n : Nat) : (s.l1Drop c n).queues = s.queues := rfl
@[simp] theorem State.l1Drop_qreqs (s : State) (c n : Nat) : (s.l1Drop c n).qreqs = s.qreqs := rfl
@[simp] theorem State.l1Drop_treqs (s : State) (c n : Nat) : (s.l1Drop c n).treqs = s.treqs := rfl
@[simp] theorem State.l1Drop_blocks (s : State) (c n : Nat) : (s.l1Drop c n).blocks = s.blocks := rfl
@[simp] theorem State.l1Drop_launches (s : State) (c n : Nat) : (s.l1Drop c n).launches = s.launches := rfl
@[simp] theorem State.l1Drop_xrecs (s : State) (c n : Nat) : (s.l1Drop c n).xrecs = s.xrecs := rfl
@[simp] theorem State.l1Drop_images (s : State) (c n : Nat) : (s.l1Drop c n).images = s.images := rfl
@[simp] theorem State.l1Drop_ops (s : State) (c n : Nat) : (s.l1Drop c n).ops = s.ops := rfl
@[simp] theorem State.l1Drop_matrix (s : State) (c n : Nat) : (s.l1Drop c n).matrix = s.matrix := rfl
@[simp] theorem State.l1Drop_contribs (s : State) (c n : Nat) : (s.l1Drop c n).contribs = s.contribs := rfl
@[simp] theorem State.l1Drop_instances (s : State) (c n : Nat) : (s.l1Drop c n).instances = s.instances := rfl
@[simp] theorem State.l1Drop_dean (s : State) (c n : Nat) : (s.l1Drop c n).dean = s.dean := rfl
@[simp] theorem State.l1Drop_amap (s : State) (c n : Nat) : (s.l1Drop c n).amap = s.amap := rfl
@[simp] theorem State.l1Drop_apwin (s : State) (c n : Nat) : (s.l1Drop c n).apwin = s.apwin := rfl
@[simp] theorem State.l1Drop_channels (s : State) (c n : Nat) : (s.l1Drop c n).channels = s.channels := rfl
@[simp] theorem State.l1Drop_ports (s : State) (c n : Nat) : (s.l1Drop c n).ports = s.ports := rfl
@[simp] theorem State.l1Drop_gvPolicy (s : State) (c n : Nat) : (s.l1Drop c n).gvPolicy = s.gvPolicy := rfl
@[simp] theorem State.l1Drop_gvCap (s : State) (c n : Nat) : (s.l1Drop c n).gvCap = s.gvCap := rfl
@[simp] theorem State.l1Drop_governors (s : State) (c n : Nat) : (s.l1Drop c n).governors = s.governors := rfl
@[simp] theorem State.l1Drop_peers (s : State) (c n : Nat) : (s.l1Drop c n).peers = s.peers := rfl
@[simp] theorem State.l1Drop_ridge (s : State) (c n : Nat) : (s.l1Drop c n).ridge = s.ridge := rfl
@[simp] theorem State.l1Drop_proctors (s : State) (c n : Nat) : (s.l1Drop c n).proctors = s.proctors := rfl
@[simp] theorem State.l1Drop_trial (s : State) (c n : Nat) : (s.l1Drop c n).trial = s.trial := rfl
@[simp] theorem State.l1Drop_firmware (s : State) (c n : Nat) : (s.l1Drop c n).firmware = s.firmware := rfl
@[simp] theorem State.l1Drop_errlog (s : State) (c n : Nat) : (s.l1Drop c n).errlog = s.errlog := rfl
@[simp] theorem State.l1Drop_bundles (s : State) (c n : Nat) : (s.l1Drop c n).bundles = s.bundles := rfl

@[simp] theorem State.setArray_agenda (s : State) (a : MArray) : (s.setArray a).agenda = s.agenda := rfl
@[simp] theorem State.setArray_issuer (s : State) (a : MArray) : (s.setArray a).issuer = s.issuer := rfl
@[simp] theorem State.setArray_time (s : State) (a : MArray) : (s.setArray a).time = s.time := rfl
@[simp] theorem State.setArray_fresh (s : State) (a : MArray) : (s.setArray a).fresh = s.fresh := rfl
@[simp] theorem State.setArray_device (s : State) (a : MArray) : (s.setArray a).device = s.device := rfl
@[simp] theorem State.setArray_mem (s : State) (a : MArray) : (s.setArray a).mem = s.mem := rfl
@[simp] theorem State.setArray_blur (s : State) (a : MArray) : (s.setArray a).blur = s.blur := rfl
@[simp] theorem State.setArray_scache (s : State) (a : MArray) : (s.setArray a).scache = s.scache := rfl
@[simp] theorem State.setArray_mside (s : State) (a : MArray) : (s.setArray a).mside = s.mside := rfl
@[simp] theorem State.setArray_poison (s : State) (a : MArray) : (s.setArray a).poison = s.poison := rfl
@[simp] theorem State.setArray_tags (s : State) (a : MArray) : (s.setArray a).tags = s.tags := rfl
@[simp] theorem State.setArray_l1 (s : State) (a : MArray) : (s.setArray a).l1 = s.l1 := rfl
@[simp] theorem State.setArray_tlb (s : State) (a : MArray) : (s.setArray a).tlb = s.tlb := rfl
@[simp] theorem State.setArray_walkc (s : State) (a : MArray) : (s.setArray a).walkc = s.walkc := rfl
@[simp] theorem State.setArray_icache (s : State) (a : MArray) : (s.setArray a).icache = s.icache := rfl
@[simp] theorem State.setArray_queues (s : State) (a : MArray) : (s.setArray a).queues = s.queues := rfl
@[simp] theorem State.setArray_qreqs (s : State) (a : MArray) : (s.setArray a).qreqs = s.qreqs := rfl
@[simp] theorem State.setArray_treqs (s : State) (a : MArray) : (s.setArray a).treqs = s.treqs := rfl
@[simp] theorem State.setArray_blocks (s : State) (a : MArray) : (s.setArray a).blocks = s.blocks := rfl
@[simp] theorem State.setArray_launches (s : State) (a : MArray) : (s.setArray a).launches = s.launches := rfl
@[simp] theorem State.setArray_xrecs (s : State) (a : MArray) : (s.setArray a).xrecs = s.xrecs := rfl
@[simp] theorem State.setArray_images (s : State) (a : MArray) : (s.setArray a).images = s.images := rfl
@[simp] theorem State.setArray_ops (s : State) (a : MArray) : (s.setArray a).ops = s.ops := rfl
@[simp] theorem State.setArray_contribs (s : State) (a : MArray) : (s.setArray a).contribs = s.contribs := rfl
@[simp] theorem State.setArray_instances (s : State) (a : MArray) : (s.setArray a).instances = s.instances := rfl
@[simp] theorem State.setArray_dean (s : State) (a : MArray) : (s.setArray a).dean = s.dean := rfl
@[simp] theorem State.setArray_amap (s : State) (a : MArray) : (s.setArray a).amap = s.amap := rfl
@[simp] theorem State.setArray_apwin (s : State) (a : MArray) : (s.setArray a).apwin = s.apwin := rfl
@[simp] theorem State.setArray_channels (s : State) (a : MArray) : (s.setArray a).channels = s.channels := rfl
@[simp] theorem State.setArray_ports (s : State) (a : MArray) : (s.setArray a).ports = s.ports := rfl
@[simp] theorem State.setArray_gvPolicy (s : State) (a : MArray) : (s.setArray a).gvPolicy = s.gvPolicy := rfl
@[simp] theorem State.setArray_gvCap (s : State) (a : MArray) : (s.setArray a).gvCap = s.gvCap := rfl
@[simp] theorem State.setArray_governors (s : State) (a : MArray) : (s.setArray a).governors = s.governors := rfl
@[simp] theorem State.setArray_peers (s : State) (a : MArray) : (s.setArray a).peers = s.peers := rfl
@[simp] theorem State.setArray_ridge (s : State) (a : MArray) : (s.setArray a).ridge = s.ridge := rfl
@[simp] theorem State.setArray_proctors (s : State) (a : MArray) : (s.setArray a).proctors = s.proctors := rfl
@[simp] theorem State.setArray_trial (s : State) (a : MArray) : (s.setArray a).trial = s.trial := rfl
@[simp] theorem State.setArray_firmware (s : State) (a : MArray) : (s.setArray a).firmware = s.firmware := rfl
@[simp] theorem State.setArray_errlog (s : State) (a : MArray) : (s.setArray a).errlog = s.errlog := rfl
@[simp] theorem State.setArray_bundles (s : State) (a : MArray) : (s.setArray a).bundles = s.bundles := rfl

@[simp] theorem State.modPeers_agenda (s : State) (f : Peers → Peers) : (s.modPeers f).agenda = s.agenda := rfl
@[simp] theorem State.modPeers_issuer (s : State) (f : Peers → Peers) : (s.modPeers f).issuer = s.issuer := rfl
@[simp] theorem State.modPeers_time (s : State) (f : Peers → Peers) : (s.modPeers f).time = s.time := rfl
@[simp] theorem State.modPeers_fresh (s : State) (f : Peers → Peers) : (s.modPeers f).fresh = s.fresh := rfl
@[simp] theorem State.modPeers_device (s : State) (f : Peers → Peers) : (s.modPeers f).device = s.device := rfl
@[simp] theorem State.modPeers_mem (s : State) (f : Peers → Peers) : (s.modPeers f).mem = s.mem := rfl
@[simp] theorem State.modPeers_blur (s : State) (f : Peers → Peers) : (s.modPeers f).blur = s.blur := rfl
@[simp] theorem State.modPeers_scache (s : State) (f : Peers → Peers) : (s.modPeers f).scache = s.scache := rfl
@[simp] theorem State.modPeers_mside (s : State) (f : Peers → Peers) : (s.modPeers f).mside = s.mside := rfl
@[simp] theorem State.modPeers_poison (s : State) (f : Peers → Peers) : (s.modPeers f).poison = s.poison := rfl
@[simp] theorem State.modPeers_tags (s : State) (f : Peers → Peers) : (s.modPeers f).tags = s.tags := rfl
@[simp] theorem State.modPeers_l1 (s : State) (f : Peers → Peers) : (s.modPeers f).l1 = s.l1 := rfl
@[simp] theorem State.modPeers_tlb (s : State) (f : Peers → Peers) : (s.modPeers f).tlb = s.tlb := rfl
@[simp] theorem State.modPeers_walkc (s : State) (f : Peers → Peers) : (s.modPeers f).walkc = s.walkc := rfl
@[simp] theorem State.modPeers_icache (s : State) (f : Peers → Peers) : (s.modPeers f).icache = s.icache := rfl
@[simp] theorem State.modPeers_queues (s : State) (f : Peers → Peers) : (s.modPeers f).queues = s.queues := rfl
@[simp] theorem State.modPeers_qreqs (s : State) (f : Peers → Peers) : (s.modPeers f).qreqs = s.qreqs := rfl
@[simp] theorem State.modPeers_treqs (s : State) (f : Peers → Peers) : (s.modPeers f).treqs = s.treqs := rfl
@[simp] theorem State.modPeers_blocks (s : State) (f : Peers → Peers) : (s.modPeers f).blocks = s.blocks := rfl
@[simp] theorem State.modPeers_launches (s : State) (f : Peers → Peers) : (s.modPeers f).launches = s.launches := rfl
@[simp] theorem State.modPeers_xrecs (s : State) (f : Peers → Peers) : (s.modPeers f).xrecs = s.xrecs := rfl
@[simp] theorem State.modPeers_images (s : State) (f : Peers → Peers) : (s.modPeers f).images = s.images := rfl
@[simp] theorem State.modPeers_ops (s : State) (f : Peers → Peers) : (s.modPeers f).ops = s.ops := rfl
@[simp] theorem State.modPeers_matrix (s : State) (f : Peers → Peers) : (s.modPeers f).matrix = s.matrix := rfl
@[simp] theorem State.modPeers_contribs (s : State) (f : Peers → Peers) : (s.modPeers f).contribs = s.contribs := rfl
@[simp] theorem State.modPeers_instances (s : State) (f : Peers → Peers) : (s.modPeers f).instances = s.instances := rfl
@[simp] theorem State.modPeers_dean (s : State) (f : Peers → Peers) : (s.modPeers f).dean = s.dean := rfl
@[simp] theorem State.modPeers_amap (s : State) (f : Peers → Peers) : (s.modPeers f).amap = s.amap := rfl
@[simp] theorem State.modPeers_apwin (s : State) (f : Peers → Peers) : (s.modPeers f).apwin = s.apwin := rfl
@[simp] theorem State.modPeers_channels (s : State) (f : Peers → Peers) : (s.modPeers f).channels = s.channels := rfl
@[simp] theorem State.modPeers_ports (s : State) (f : Peers → Peers) : (s.modPeers f).ports = s.ports := rfl
@[simp] theorem State.modPeers_gvPolicy (s : State) (f : Peers → Peers) : (s.modPeers f).gvPolicy = s.gvPolicy := rfl
@[simp] theorem State.modPeers_gvCap (s : State) (f : Peers → Peers) : (s.modPeers f).gvCap = s.gvCap := rfl
@[simp] theorem State.modPeers_governors (s : State) (f : Peers → Peers) : (s.modPeers f).governors = s.governors := rfl
@[simp] theorem State.modPeers_peers (s : State) (f : Peers → Peers) : (s.modPeers f).peers = f s.peers := rfl
@[simp] theorem State.modPeers_ridge (s : State) (f : Peers → Peers) : (s.modPeers f).ridge = s.ridge := rfl
@[simp] theorem State.modPeers_proctors (s : State) (f : Peers → Peers) : (s.modPeers f).proctors = s.proctors := rfl
@[simp] theorem State.modPeers_trial (s : State) (f : Peers → Peers) : (s.modPeers f).trial = s.trial := rfl
@[simp] theorem State.modPeers_firmware (s : State) (f : Peers → Peers) : (s.modPeers f).firmware = s.firmware := rfl
@[simp] theorem State.modPeers_errlog (s : State) (f : Peers → Peers) : (s.modPeers f).errlog = s.errlog := rfl
@[simp] theorem State.modPeers_bundles (s : State) (f : Peers → Peers) : (s.modPeers f).bundles = s.bundles := rfl

@[simp] theorem State.setGovernor_agenda (s : State) (n : Nat) (g : Governor) : (s.setGovernor n g).agenda = s.agenda := rfl
@[simp] theorem State.setGovernor_issuer (s : State) (n : Nat) (g : Governor) : (s.setGovernor n g).issuer = s.issuer := rfl
@[simp] theorem State.setGovernor_time (s : State) (n : Nat) (g : Governor) : (s.setGovernor n g).time = s.time := rfl
@[simp] theorem State.setGovernor_fresh (s : State) (n : Nat) (g : Governor) : (s.setGovernor n g).fresh = s.fresh := rfl
@[simp] theorem State.setGovernor_device (s : State) (n : Nat) (g : Governor) : (s.setGovernor n g).device = s.device := rfl
@[simp] theorem State.setGovernor_mem (s : State) (n : Nat) (g : Governor) : (s.setGovernor n g).mem = s.mem := rfl
@[simp] theorem State.setGovernor_blur (s : State) (n : Nat) (g : Governor) : (s.setGovernor n g).blur = s.blur := rfl
@[simp] theorem State.setGovernor_scache (s : State) (n : Nat) (g : Governor) : (s.setGovernor n g).scache = s.scache := rfl
@[simp] theorem State.setGovernor_mside (s : State) (n : Nat) (g : Governor) : (s.setGovernor n g).mside = s.mside := rfl
@[simp] theorem State.setGovernor_poison (s : State) (n : Nat) (g : Governor) : (s.setGovernor n g).poison = s.poison := rfl
@[simp] theorem State.setGovernor_tags (s : State) (n : Nat) (g : Governor) : (s.setGovernor n g).tags = s.tags := rfl
@[simp] theorem State.setGovernor_l1 (s : State) (n : Nat) (g : Governor) : (s.setGovernor n g).l1 = s.l1 := rfl
@[simp] theorem State.setGovernor_tlb (s : State) (n : Nat) (g : Governor) : (s.setGovernor n g).tlb = s.tlb := rfl
@[simp] theorem State.setGovernor_walkc (s : State) (n : Nat) (g : Governor) : (s.setGovernor n g).walkc = s.walkc := rfl
@[simp] theorem State.setGovernor_icache (s : State) (n : Nat) (g : Governor) : (s.setGovernor n g).icache = s.icache := rfl
@[simp] theorem State.setGovernor_queues (s : State) (n : Nat) (g : Governor) : (s.setGovernor n g).queues = s.queues := rfl
@[simp] theorem State.setGovernor_qreqs (s : State) (n : Nat) (g : Governor) : (s.setGovernor n g).qreqs = s.qreqs := rfl
@[simp] theorem State.setGovernor_treqs (s : State) (n : Nat) (g : Governor) : (s.setGovernor n g).treqs = s.treqs := rfl
@[simp] theorem State.setGovernor_blocks (s : State) (n : Nat) (g : Governor) : (s.setGovernor n g).blocks = s.blocks := rfl
@[simp] theorem State.setGovernor_launches (s : State) (n : Nat) (g : Governor) : (s.setGovernor n g).launches = s.launches := rfl
@[simp] theorem State.setGovernor_xrecs (s : State) (n : Nat) (g : Governor) : (s.setGovernor n g).xrecs = s.xrecs := rfl
@[simp] theorem State.setGovernor_images (s : State) (n : Nat) (g : Governor) : (s.setGovernor n g).images = s.images := rfl
@[simp] theorem State.setGovernor_ops (s : State) (n : Nat) (g : Governor) : (s.setGovernor n g).ops = s.ops := rfl
@[simp] theorem State.setGovernor_matrix (s : State) (n : Nat) (g : Governor) : (s.setGovernor n g).matrix = s.matrix := rfl
@[simp] theorem State.setGovernor_contribs (s : State) (n : Nat) (g : Governor) : (s.setGovernor n g).contribs = s.contribs := rfl
@[simp] theorem State.setGovernor_instances (s : State) (n : Nat) (g : Governor) : (s.setGovernor n g).instances = s.instances := rfl
@[simp] theorem State.setGovernor_dean (s : State) (n : Nat) (g : Governor) : (s.setGovernor n g).dean = s.dean := rfl
@[simp] theorem State.setGovernor_amap (s : State) (n : Nat) (g : Governor) : (s.setGovernor n g).amap = s.amap := rfl
@[simp] theorem State.setGovernor_apwin (s : State) (n : Nat) (g : Governor) : (s.setGovernor n g).apwin = s.apwin := rfl
@[simp] theorem State.setGovernor_channels (s : State) (n : Nat) (g : Governor) : (s.setGovernor n g).channels = s.channels := rfl
@[simp] theorem State.setGovernor_ports (s : State) (n : Nat) (g : Governor) : (s.setGovernor n g).ports = s.ports := rfl
@[simp] theorem State.setGovernor_gvPolicy (s : State) (n : Nat) (g : Governor) : (s.setGovernor n g).gvPolicy = s.gvPolicy := rfl
@[simp] theorem State.setGovernor_gvCap (s : State) (n : Nat) (g : Governor) : (s.setGovernor n g).gvCap = s.gvCap := rfl
@[simp] theorem State.setGovernor_governors (s : State) (n : Nat) (g : Governor) : (s.setGovernor n g).governors = aput s.governors n (g.remember (s.governor n) s.time) := rfl
@[simp] theorem State.setGovernor_peers (s : State) (n : Nat) (g : Governor) : (s.setGovernor n g).peers = s.peers := rfl
@[simp] theorem State.setGovernor_ridge (s : State) (n : Nat) (g : Governor) : (s.setGovernor n g).ridge = s.ridge := rfl
@[simp] theorem State.setGovernor_proctors (s : State) (n : Nat) (g : Governor) : (s.setGovernor n g).proctors = s.proctors := rfl
@[simp] theorem State.setGovernor_trial (s : State) (n : Nat) (g : Governor) : (s.setGovernor n g).trial = s.trial := rfl
@[simp] theorem State.setGovernor_firmware (s : State) (n : Nat) (g : Governor) : (s.setGovernor n g).firmware = s.firmware := rfl
@[simp] theorem State.setGovernor_errlog (s : State) (n : Nat) (g : Governor) : (s.setGovernor n g).errlog = s.errlog := rfl
@[simp] theorem State.setGovernor_bundles (s : State) (n : Nat) (g : Governor) : (s.setGovernor n g).bundles = s.bundles := rfl

@[simp] theorem State.setPort_agenda (s : State) (n : Nat) (p : Port) : (s.setPort n p).agenda = s.agenda := rfl
@[simp] theorem State.setPort_issuer (s : State) (n : Nat) (p : Port) : (s.setPort n p).issuer = s.issuer := rfl
@[simp] theorem State.setPort_time (s : State) (n : Nat) (p : Port) : (s.setPort n p).time = s.time := rfl
@[simp] theorem State.setPort_fresh (s : State) (n : Nat) (p : Port) : (s.setPort n p).fresh = s.fresh := rfl
@[simp] theorem State.setPort_device (s : State) (n : Nat) (p : Port) : (s.setPort n p).device = s.device := rfl
@[simp] theorem State.setPort_mem (s : State) (n : Nat) (p : Port) : (s.setPort n p).mem = s.mem := rfl
@[simp] theorem State.setPort_blur (s : State) (n : Nat) (p : Port) : (s.setPort n p).blur = s.blur := rfl
@[simp] theorem State.setPort_scache (s : State) (n : Nat) (p : Port) : (s.setPort n p).scache = s.scache := rfl
@[simp] theorem State.setPort_mside (s : State) (n : Nat) (p : Port) : (s.setPort n p).mside = s.mside := rfl
@[simp] theorem State.setPort_poison (s : State) (n : Nat) (p : Port) : (s.setPort n p).poison = s.poison := rfl
@[simp] theorem State.setPort_tags (s : State) (n : Nat) (p : Port) : (s.setPort n p).tags = s.tags := rfl
@[simp] theorem State.setPort_l1 (s : State) (n : Nat) (p : Port) : (s.setPort n p).l1 = s.l1 := rfl
@[simp] theorem State.setPort_tlb (s : State) (n : Nat) (p : Port) : (s.setPort n p).tlb = s.tlb := rfl
@[simp] theorem State.setPort_walkc (s : State) (n : Nat) (p : Port) : (s.setPort n p).walkc = s.walkc := rfl
@[simp] theorem State.setPort_icache (s : State) (n : Nat) (p : Port) : (s.setPort n p).icache = s.icache := rfl
@[simp] theorem State.setPort_queues (s : State) (n : Nat) (p : Port) : (s.setPort n p).queues = s.queues := rfl
@[simp] theorem State.setPort_qreqs (s : State) (n : Nat) (p : Port) : (s.setPort n p).qreqs = s.qreqs := rfl
@[simp] theorem State.setPort_treqs (s : State) (n : Nat) (p : Port) : (s.setPort n p).treqs = s.treqs := rfl
@[simp] theorem State.setPort_blocks (s : State) (n : Nat) (p : Port) : (s.setPort n p).blocks = s.blocks := rfl
@[simp] theorem State.setPort_launches (s : State) (n : Nat) (p : Port) : (s.setPort n p).launches = s.launches := rfl
@[simp] theorem State.setPort_xrecs (s : State) (n : Nat) (p : Port) : (s.setPort n p).xrecs = s.xrecs := rfl
@[simp] theorem State.setPort_images (s : State) (n : Nat) (p : Port) : (s.setPort n p).images = s.images := rfl
@[simp] theorem State.setPort_ops (s : State) (n : Nat) (p : Port) : (s.setPort n p).ops = s.ops := rfl
@[simp] theorem State.setPort_matrix (s : State) (n : Nat) (p : Port) : (s.setPort n p).matrix = s.matrix := rfl
@[simp] theorem State.setPort_contribs (s : State) (n : Nat) (p : Port) : (s.setPort n p).contribs = s.contribs := rfl
@[simp] theorem State.setPort_instances (s : State) (n : Nat) (p : Port) : (s.setPort n p).instances = s.instances := rfl
@[simp] theorem State.setPort_dean (s : State) (n : Nat) (p : Port) : (s.setPort n p).dean = s.dean := rfl
@[simp] theorem State.setPort_amap (s : State) (n : Nat) (p : Port) : (s.setPort n p).amap = s.amap := rfl
@[simp] theorem State.setPort_apwin (s : State) (n : Nat) (p : Port) : (s.setPort n p).apwin = s.apwin := rfl
@[simp] theorem State.setPort_channels (s : State) (n : Nat) (p : Port) : (s.setPort n p).channels = s.channels := rfl
@[simp] theorem State.setPort_ports (s : State) (n : Nat) (p : Port) : (s.setPort n p).ports = if n < 2 then aput s.ports n p else s.ports := rfl
@[simp] theorem State.setPort_gvPolicy (s : State) (n : Nat) (p : Port) : (s.setPort n p).gvPolicy = s.gvPolicy := rfl
@[simp] theorem State.setPort_gvCap (s : State) (n : Nat) (p : Port) : (s.setPort n p).gvCap = s.gvCap := rfl
@[simp] theorem State.setPort_governors (s : State) (n : Nat) (p : Port) : (s.setPort n p).governors = s.governors := rfl
@[simp] theorem State.setPort_peers (s : State) (n : Nat) (p : Port) : (s.setPort n p).peers = s.peers := rfl
@[simp] theorem State.setPort_ridge (s : State) (n : Nat) (p : Port) : (s.setPort n p).ridge = s.ridge := rfl
@[simp] theorem State.setPort_proctors (s : State) (n : Nat) (p : Port) : (s.setPort n p).proctors = s.proctors := rfl
@[simp] theorem State.setPort_trial (s : State) (n : Nat) (p : Port) : (s.setPort n p).trial = s.trial := rfl
@[simp] theorem State.setPort_firmware (s : State) (n : Nat) (p : Port) : (s.setPort n p).firmware = s.firmware := rfl
@[simp] theorem State.setPort_errlog (s : State) (n : Nat) (p : Port) : (s.setPort n p).errlog = s.errlog := rfl
@[simp] theorem State.setPort_bundles (s : State) (n : Nat) (p : Port) : (s.setPort n p).bundles = s.bundles := rfl

@[simp] theorem State.modDean_agenda (s : State) (f : Dean → Dean) : (s.modDean f).agenda = s.agenda := rfl
@[simp] theorem State.modDean_issuer (s : State) (f : Dean → Dean) : (s.modDean f).issuer = s.issuer := rfl
@[simp] theorem State.modDean_time (s : State) (f : Dean → Dean) : (s.modDean f).time = s.time := rfl
@[simp] theorem State.modDean_fresh (s : State) (f : Dean → Dean) : (s.modDean f).fresh = s.fresh := rfl
@[simp] theorem State.modDean_device (s : State) (f : Dean → Dean) : (s.modDean f).device = s.device := rfl
@[simp] theorem State.modDean_mem (s : State) (f : Dean → Dean) : (s.modDean f).mem = s.mem := rfl
@[simp] theorem State.modDean_blur (s : State) (f : Dean → Dean) : (s.modDean f).blur = s.blur := rfl
@[simp] theorem State.modDean_scache (s : State) (f : Dean → Dean) : (s.modDean f).scache = s.scache := rfl
@[simp] theorem State.modDean_mside (s : State) (f : Dean → Dean) : (s.modDean f).mside = s.mside := rfl
@[simp] theorem State.modDean_poison (s : State) (f : Dean → Dean) : (s.modDean f).poison = s.poison := rfl
@[simp] theorem State.modDean_tags (s : State) (f : Dean → Dean) : (s.modDean f).tags = s.tags := rfl
@[simp] theorem State.modDean_l1 (s : State) (f : Dean → Dean) : (s.modDean f).l1 = s.l1 := rfl
@[simp] theorem State.modDean_tlb (s : State) (f : Dean → Dean) : (s.modDean f).tlb = s.tlb := rfl
@[simp] theorem State.modDean_walkc (s : State) (f : Dean → Dean) : (s.modDean f).walkc = s.walkc := rfl
@[simp] theorem State.modDean_icache (s : State) (f : Dean → Dean) : (s.modDean f).icache = s.icache := rfl
@[simp] theorem State.modDean_queues (s : State) (f : Dean → Dean) : (s.modDean f).queues = s.queues := rfl
@[simp] theorem State.modDean_qreqs (s : State) (f : Dean → Dean) : (s.modDean f).qreqs = s.qreqs := rfl
@[simp] theorem State.modDean_treqs (s : State) (f : Dean → Dean) : (s.modDean f).treqs = s.treqs := rfl
@[simp] theorem State.modDean_blocks (s : State) (f : Dean → Dean) : (s.modDean f).blocks = s.blocks := rfl
@[simp] theorem State.modDean_launches (s : State) (f : Dean → Dean) : (s.modDean f).launches = s.launches := rfl
@[simp] theorem State.modDean_xrecs (s : State) (f : Dean → Dean) : (s.modDean f).xrecs = s.xrecs := rfl
@[simp] theorem State.modDean_images (s : State) (f : Dean → Dean) : (s.modDean f).images = s.images := rfl
@[simp] theorem State.modDean_ops (s : State) (f : Dean → Dean) : (s.modDean f).ops = s.ops := rfl
@[simp] theorem State.modDean_matrix (s : State) (f : Dean → Dean) : (s.modDean f).matrix = s.matrix := rfl
@[simp] theorem State.modDean_contribs (s : State) (f : Dean → Dean) : (s.modDean f).contribs = s.contribs := rfl
@[simp] theorem State.modDean_instances (s : State) (f : Dean → Dean) : (s.modDean f).instances = s.instances := rfl
@[simp] theorem State.modDean_dean (s : State) (f : Dean → Dean) : (s.modDean f).dean = f s.dean := rfl
@[simp] theorem State.modDean_amap (s : State) (f : Dean → Dean) : (s.modDean f).amap = s.amap := rfl
@[simp] theorem State.modDean_apwin (s : State) (f : Dean → Dean) : (s.modDean f).apwin = s.apwin := rfl
@[simp] theorem State.modDean_channels (s : State) (f : Dean → Dean) : (s.modDean f).channels = s.channels := rfl
@[simp] theorem State.modDean_ports (s : State) (f : Dean → Dean) : (s.modDean f).ports = s.ports := rfl
@[simp] theorem State.modDean_gvPolicy (s : State) (f : Dean → Dean) : (s.modDean f).gvPolicy = s.gvPolicy := rfl
@[simp] theorem State.modDean_gvCap (s : State) (f : Dean → Dean) : (s.modDean f).gvCap = s.gvCap := rfl
@[simp] theorem State.modDean_governors (s : State) (f : Dean → Dean) : (s.modDean f).governors = s.governors := rfl
@[simp] theorem State.modDean_peers (s : State) (f : Dean → Dean) : (s.modDean f).peers = s.peers := rfl
@[simp] theorem State.modDean_ridge (s : State) (f : Dean → Dean) : (s.modDean f).ridge = s.ridge := rfl
@[simp] theorem State.modDean_proctors (s : State) (f : Dean → Dean) : (s.modDean f).proctors = s.proctors := rfl
@[simp] theorem State.modDean_trial (s : State) (f : Dean → Dean) : (s.modDean f).trial = s.trial := rfl
@[simp] theorem State.modDean_firmware (s : State) (f : Dean → Dean) : (s.modDean f).firmware = s.firmware := rfl
@[simp] theorem State.modDean_errlog (s : State) (f : Dean → Dean) : (s.modDean f).errlog = s.errlog := rfl
@[simp] theorem State.modDean_bundles (s : State) (f : Dean → Dean) : (s.modDean f).bundles = s.bundles := rfl

@[simp] theorem State.dropReq_agenda (s : State) (n : Nat) : (s.dropReq n).agenda = s.agenda := rfl
@[simp] theorem State.dropReq_issuer (s : State) (n : Nat) : (s.dropReq n).issuer = s.issuer := rfl
@[simp] theorem State.dropReq_time (s : State) (n : Nat) : (s.dropReq n).time = s.time := rfl
@[simp] theorem State.dropReq_fresh (s : State) (n : Nat) : (s.dropReq n).fresh = s.fresh := rfl
@[simp] theorem State.dropReq_device (s : State) (n : Nat) : (s.dropReq n).device = s.device := rfl
@[simp] theorem State.dropReq_mem (s : State) (n : Nat) : (s.dropReq n).mem = s.mem := rfl
@[simp] theorem State.dropReq_blur (s : State) (n : Nat) : (s.dropReq n).blur = s.blur := rfl
@[simp] theorem State.dropReq_scache (s : State) (n : Nat) : (s.dropReq n).scache = s.scache := rfl
@[simp] theorem State.dropReq_mside (s : State) (n : Nat) : (s.dropReq n).mside = s.mside := rfl
@[simp] theorem State.dropReq_poison (s : State) (n : Nat) : (s.dropReq n).poison = s.poison := rfl
@[simp] theorem State.dropReq_tags (s : State) (n : Nat) : (s.dropReq n).tags = s.tags := rfl
@[simp] theorem State.dropReq_l1 (s : State) (n : Nat) : (s.dropReq n).l1 = s.l1 := rfl
@[simp] theorem State.dropReq_tlb (s : State) (n : Nat) : (s.dropReq n).tlb = s.tlb := rfl
@[simp] theorem State.dropReq_walkc (s : State) (n : Nat) : (s.dropReq n).walkc = s.walkc := rfl
@[simp] theorem State.dropReq_icache (s : State) (n : Nat) : (s.dropReq n).icache = s.icache := rfl
@[simp] theorem State.dropReq_queues (s : State) (n : Nat) : (s.dropReq n).queues = s.queues := rfl
@[simp] theorem State.dropReq_qreqs (s : State) (n : Nat) : (s.dropReq n).qreqs = s.qreqs.filter (fun q => q.rid != n) := rfl
@[simp] theorem State.dropReq_treqs (s : State) (n : Nat) : (s.dropReq n).treqs = s.treqs := rfl
@[simp] theorem State.dropReq_blocks (s : State) (n : Nat) : (s.dropReq n).blocks = s.blocks := rfl
@[simp] theorem State.dropReq_launches (s : State) (n : Nat) : (s.dropReq n).launches = s.launches := rfl
@[simp] theorem State.dropReq_xrecs (s : State) (n : Nat) : (s.dropReq n).xrecs = s.xrecs := rfl
@[simp] theorem State.dropReq_images (s : State) (n : Nat) : (s.dropReq n).images = s.images := rfl
@[simp] theorem State.dropReq_ops (s : State) (n : Nat) : (s.dropReq n).ops = s.ops := rfl
@[simp] theorem State.dropReq_matrix (s : State) (n : Nat) : (s.dropReq n).matrix = s.matrix := rfl
@[simp] theorem State.dropReq_contribs (s : State) (n : Nat) : (s.dropReq n).contribs = s.contribs := rfl
@[simp] theorem State.dropReq_instances (s : State) (n : Nat) : (s.dropReq n).instances = s.instances := rfl
@[simp] theorem State.dropReq_dean (s : State) (n : Nat) : (s.dropReq n).dean = s.dean := rfl
@[simp] theorem State.dropReq_amap (s : State) (n : Nat) : (s.dropReq n).amap = s.amap := rfl
@[simp] theorem State.dropReq_apwin (s : State) (n : Nat) : (s.dropReq n).apwin = s.apwin := rfl
@[simp] theorem State.dropReq_channels (s : State) (n : Nat) : (s.dropReq n).channels = s.channels := rfl
@[simp] theorem State.dropReq_ports (s : State) (n : Nat) : (s.dropReq n).ports = s.ports := rfl
@[simp] theorem State.dropReq_gvPolicy (s : State) (n : Nat) : (s.dropReq n).gvPolicy = s.gvPolicy := rfl
@[simp] theorem State.dropReq_gvCap (s : State) (n : Nat) : (s.dropReq n).gvCap = s.gvCap := rfl
@[simp] theorem State.dropReq_governors (s : State) (n : Nat) : (s.dropReq n).governors = s.governors := rfl
@[simp] theorem State.dropReq_peers (s : State) (n : Nat) : (s.dropReq n).peers = s.peers := rfl
@[simp] theorem State.dropReq_ridge (s : State) (n : Nat) : (s.dropReq n).ridge = s.ridge := rfl
@[simp] theorem State.dropReq_proctors (s : State) (n : Nat) : (s.dropReq n).proctors = s.proctors := rfl
@[simp] theorem State.dropReq_trial (s : State) (n : Nat) : (s.dropReq n).trial = s.trial := rfl
@[simp] theorem State.dropReq_firmware (s : State) (n : Nat) : (s.dropReq n).firmware = s.firmware := rfl
@[simp] theorem State.dropReq_errlog (s : State) (n : Nat) : (s.dropReq n).errlog = s.errlog := rfl
@[simp] theorem State.dropReq_bundles (s : State) (n : Nat) : (s.dropReq n).bundles = s.bundles := rfl

@[simp] theorem State.setTag_agenda (s : State) (c : Nat) (b : Bool) : (s.setTag c b).agenda = s.agenda := rfl
@[simp] theorem State.setTag_issuer (s : State) (c : Nat) (b : Bool) : (s.setTag c b).issuer = s.issuer := rfl
@[simp] theorem State.setTag_time (s : State) (c : Nat) (b : Bool) : (s.setTag c b).time = s.time := rfl
@[simp] theorem State.setTag_fresh (s : State) (c : Nat) (b : Bool) : (s.setTag c b).fresh = s.fresh := rfl
@[simp] theorem State.setTag_device (s : State) (c : Nat) (b : Bool) : (s.setTag c b).device = s.device := rfl
@[simp] theorem State.setTag_mem (s : State) (c : Nat) (b : Bool) : (s.setTag c b).mem = s.mem := rfl
@[simp] theorem State.setTag_blur (s : State) (c : Nat) (b : Bool) : (s.setTag c b).blur = s.blur := rfl
@[simp] theorem State.setTag_scache (s : State) (c : Nat) (b : Bool) : (s.setTag c b).scache = s.scache := rfl
@[simp] theorem State.setTag_mside (s : State) (c : Nat) (b : Bool) : (s.setTag c b).mside = s.mside := rfl
@[simp] theorem State.setTag_poison (s : State) (c : Nat) (b : Bool) : (s.setTag c b).poison = s.poison := rfl
@[simp] theorem State.setTag_l1 (s : State) (c : Nat) (b : Bool) : (s.setTag c b).l1 = s.l1 := rfl
@[simp] theorem State.setTag_tlb (s : State) (c : Nat) (b : Bool) : (s.setTag c b).tlb = s.tlb := rfl
@[simp] theorem State.setTag_walkc (s : State) (c : Nat) (b : Bool) : (s.setTag c b).walkc = s.walkc := rfl
@[simp] theorem State.setTag_icache (s : State) (c : Nat) (b : Bool) : (s.setTag c b).icache = s.icache := rfl
@[simp] theorem State.setTag_queues (s : State) (c : Nat) (b : Bool) : (s.setTag c b).queues = s.queues := rfl
@[simp] theorem State.setTag_qreqs (s : State) (c : Nat) (b : Bool) : (s.setTag c b).qreqs = s.qreqs := rfl
@[simp] theorem State.setTag_treqs (s : State) (c : Nat) (b : Bool) : (s.setTag c b).treqs = s.treqs := rfl
@[simp] theorem State.setTag_blocks (s : State) (c : Nat) (b : Bool) : (s.setTag c b).blocks = s.blocks := rfl
@[simp] theorem State.setTag_launches (s : State) (c : Nat) (b : Bool) : (s.setTag c b).launches = s.launches := rfl
@[simp] theorem State.setTag_xrecs (s : State) (c : Nat) (b : Bool) : (s.setTag c b).xrecs = s.xrecs := rfl
@[simp] theorem State.setTag_images (s : State) (c : Nat) (b : Bool) : (s.setTag c b).images = s.images := rfl
@[simp] theorem State.setTag_ops (s : State) (c : Nat) (b : Bool) : (s.setTag c b).ops = s.ops := rfl
@[simp] theorem State.setTag_matrix (s : State) (c : Nat) (b : Bool) : (s.setTag c b).matrix = s.matrix := rfl
@[simp] theorem State.setTag_contribs (s : State) (c : Nat) (b : Bool) : (s.setTag c b).contribs = s.contribs := rfl
@[simp] theorem State.setTag_instances (s : State) (c : Nat) (b : Bool) : (s.setTag c b).instances = s.instances := rfl
@[simp] theorem State.setTag_dean (s : State) (c : Nat) (b : Bool) : (s.setTag c b).dean = s.dean := rfl
@[simp] theorem State.setTag_amap (s : State) (c : Nat) (b : Bool) : (s.setTag c b).amap = s.amap := rfl
@[simp] theorem State.setTag_apwin (s : State) (c : Nat) (b : Bool) : (s.setTag c b).apwin = s.apwin := rfl
@[simp] theorem State.setTag_channels (s : State) (c : Nat) (b : Bool) : (s.setTag c b).channels = s.channels := rfl
@[simp] theorem State.setTag_ports (s : State) (c : Nat) (b : Bool) : (s.setTag c b).ports = s.ports := rfl
@[simp] theorem State.setTag_gvPolicy (s : State) (c : Nat) (b : Bool) : (s.setTag c b).gvPolicy = s.gvPolicy := rfl
@[simp] theorem State.setTag_gvCap (s : State) (c : Nat) (b : Bool) : (s.setTag c b).gvCap = s.gvCap := rfl
@[simp] theorem State.setTag_governors (s : State) (c : Nat) (b : Bool) : (s.setTag c b).governors = s.governors := rfl
@[simp] theorem State.setTag_peers (s : State) (c : Nat) (b : Bool) : (s.setTag c b).peers = s.peers := rfl
@[simp] theorem State.setTag_ridge (s : State) (c : Nat) (b : Bool) : (s.setTag c b).ridge = s.ridge := rfl
@[simp] theorem State.setTag_proctors (s : State) (c : Nat) (b : Bool) : (s.setTag c b).proctors = s.proctors := rfl
@[simp] theorem State.setTag_trial (s : State) (c : Nat) (b : Bool) : (s.setTag c b).trial = s.trial := rfl
@[simp] theorem State.setTag_firmware (s : State) (c : Nat) (b : Bool) : (s.setTag c b).firmware = s.firmware := rfl
@[simp] theorem State.setTag_errlog (s : State) (c : Nat) (b : Bool) : (s.setTag c b).errlog = s.errlog := rfl
@[simp] theorem State.setTag_bundles (s : State) (c : Nat) (b : Bool) : (s.setTag c b).bundles = s.bundles := rfl

@[simp] theorem State.logErr_agenda (s : State) (x : LogEntry) : (s.logErr x).agenda = s.agenda := rfl
@[simp] theorem State.logErr_issuer (s : State) (x : LogEntry) : (s.logErr x).issuer = s.issuer := rfl
@[simp] theorem State.logErr_time (s : State) (x : LogEntry) : (s.logErr x).time = s.time := rfl
@[simp] theorem State.logErr_fresh (s : State) (x : LogEntry) : (s.logErr x).fresh = s.fresh := rfl
@[simp] theorem State.logErr_device (s : State) (x : LogEntry) : (s.logErr x).device = s.device := rfl
@[simp] theorem State.logErr_mem (s : State) (x : LogEntry) : (s.logErr x).mem = s.mem := rfl
@[simp] theorem State.logErr_blur (s : State) (x : LogEntry) : (s.logErr x).blur = s.blur := rfl
@[simp] theorem State.logErr_scache (s : State) (x : LogEntry) : (s.logErr x).scache = s.scache := rfl
@[simp] theorem State.logErr_mside (s : State) (x : LogEntry) : (s.logErr x).mside = s.mside := rfl
@[simp] theorem State.logErr_poison (s : State) (x : LogEntry) : (s.logErr x).poison = s.poison := rfl
@[simp] theorem State.logErr_tags (s : State) (x : LogEntry) : (s.logErr x).tags = s.tags := rfl
@[simp] theorem State.logErr_l1 (s : State) (x : LogEntry) : (s.logErr x).l1 = s.l1 := rfl
@[simp] theorem State.logErr_tlb (s : State) (x : LogEntry) : (s.logErr x).tlb = s.tlb := rfl
@[simp] theorem State.logErr_walkc (s : State) (x : LogEntry) : (s.logErr x).walkc = s.walkc := rfl
@[simp] theorem State.logErr_icache (s : State) (x : LogEntry) : (s.logErr x).icache = s.icache := rfl
@[simp] theorem State.logErr_queues (s : State) (x : LogEntry) : (s.logErr x).queues = s.queues := rfl
@[simp] theorem State.logErr_qreqs (s : State) (x : LogEntry) : (s.logErr x).qreqs = s.qreqs := rfl
@[simp] theorem State.logErr_treqs (s : State) (x : LogEntry) : (s.logErr x).treqs = s.treqs := rfl
@[simp] theorem State.logErr_blocks (s : State) (x : LogEntry) : (s.logErr x).blocks = s.blocks := rfl
@[simp] theorem State.logErr_launches (s : State) (x : LogEntry) : (s.logErr x).launches = s.launches := rfl
@[simp] theorem State.logErr_xrecs (s : State) (x : LogEntry) : (s.logErr x).xrecs = s.xrecs := rfl
@[simp] theorem State.logErr_images (s : State) (x : LogEntry) : (s.logErr x).images = s.images := rfl
@[simp] theorem State.logErr_ops (s : State) (x : LogEntry) : (s.logErr x).ops = s.ops := rfl
@[simp] theorem State.logErr_matrix (s : State) (x : LogEntry) : (s.logErr x).matrix = s.matrix := rfl
@[simp] theorem State.logErr_contribs (s : State) (x : LogEntry) : (s.logErr x).contribs = s.contribs := rfl
@[simp] theorem State.logErr_instances (s : State) (x : LogEntry) : (s.logErr x).instances = s.instances := rfl
@[simp] theorem State.logErr_dean (s : State) (x : LogEntry) : (s.logErr x).dean = s.dean := rfl
@[simp] theorem State.logErr_amap (s : State) (x : LogEntry) : (s.logErr x).amap = s.amap := rfl
@[simp] theorem State.logErr_apwin (s : State) (x : LogEntry) : (s.logErr x).apwin = s.apwin := rfl
@[simp] theorem State.logErr_channels (s : State) (x : LogEntry) : (s.logErr x).channels = s.channels := rfl
@[simp] theorem State.logErr_ports (s : State) (x : LogEntry) : (s.logErr x).ports = s.ports := rfl
@[simp] theorem State.logErr_gvPolicy (s : State) (x : LogEntry) : (s.logErr x).gvPolicy = s.gvPolicy := rfl
@[simp] theorem State.logErr_gvCap (s : State) (x : LogEntry) : (s.logErr x).gvCap = s.gvCap := rfl
@[simp] theorem State.logErr_governors (s : State) (x : LogEntry) : (s.logErr x).governors = s.governors := rfl
@[simp] theorem State.logErr_peers (s : State) (x : LogEntry) : (s.logErr x).peers = s.peers := rfl
@[simp] theorem State.logErr_ridge (s : State) (x : LogEntry) : (s.logErr x).ridge = s.ridge := rfl
@[simp] theorem State.logErr_proctors (s : State) (x : LogEntry) : (s.logErr x).proctors = s.proctors := rfl
@[simp] theorem State.logErr_trial (s : State) (x : LogEntry) : (s.logErr x).trial = s.trial := rfl
@[simp] theorem State.logErr_firmware (s : State) (x : LogEntry) : (s.logErr x).firmware = s.firmware := rfl
@[simp] theorem State.logErr_errlog (s : State) (x : LogEntry) : (s.logErr x).errlog = s.errlog ++ [x] := rfl
@[simp] theorem State.logErr_bundles (s : State) (x : LogEntry) : (s.logErr x).bundles = s.bundles := rfl

end Sys2Proof.Machine
end

