-- ==== Sys2Proof/Tests/Witnesses.lean ====
section
/-!
SUPPORT. Witnesses of the statements' hypotheses: for each, a concrete state and operands that meet them all. A witness is a
computation that answers true; `issues_sound` turns one of `issues` into the hypothesis `Issues` itself.
-/
namespace Sys2Proof.Witnesses

set_option Elab.async false

open Sys2Proof Sys2Proof.Machine

/-- Whether instruction i of the step's issuer passes every check and its sources hold these values. -/
def passes (s : State) (i : Instr) (vals : List Nat) : Bool :=
  match s.env? with
  | none => false
  | some e => e.ctx.heldBits.isEmpty && (staticCheck i (e.form i) e).isNone && guardHolds (e.form i).guard e.ctx &&
      decide (operandCheck (e.form i) e = none) && !ordered i (e.form i) e.ctx && decide (readSrcs e (e.form i).srcs 0 = vals)

/-- Whether no watch slot matches it either. -/
def issues (s : State) (i : Instr) (vals : List Nat) : Bool :=
  passes s i vals && (match s.env? with
    | none => false
    | some e => (s.early e i vals).isEmpty && !s.watchesLate e i)

/-- What `passes` computes is the hypothesis of the statements. -/
theorem passes_sound (s : State) (i : Instr) (vals : List Nat) (h : passes s i vals = true) :
    ∃ e, s.env? = some e ∧ Passes s e i vals := by
  unfold passes at h
  split at h
  · simp at h
  · rename_i e he
    simp only [Bool.and_eq_true, List.isEmpty_iff, Option.isNone_iff_eq_none, decide_eq_true_eq, Bool.not_eq_true'] at h
    obtain ⟨⟨⟨⟨⟨h1, h2⟩, h3⟩, h4⟩, h5⟩, h6⟩ := h
    exact ⟨e, he, ⟨he, h1⟩, h2, h3, h4, h5, h6⟩

/-- What `issues` computes is the hypothesis of the statements. -/
theorem issues_sound (s : State) (i : Instr) (vals : List Nat) (h : issues s i vals = true) : ∃ e, Issues s e i vals := by
  unfold issues at h
  rw [Bool.and_eq_true] at h
  obtain ⟨e, he, hp⟩ := passes_sound s i vals h.1
  have h2 := h.2
  simp only [he, Bool.and_eq_true, List.isEmpty_iff, Bool.not_eq_true'] at h2
  exact ⟨e, hp, h2⟩

/-- A supervisor block on core 0: a fibre and a lead at 0x1_0000, whose page is mapped with every permission. -/
def placed : State := State.reset.place274 0x01000000

/-- That block, with this issuer's turn and these register cells. -/
def turnOf (who : Who) (regs : List (Nat × Word)) : State :=
  { placed.modCtx 0 who (fun c => { c with regs := regs }) with issuer := some (0, who) }

/-- A fibre whose registers 2 to 8 hold 5, 9 and so on, register 10 and 11 an address of its page, register 1 and 3 zero. -/
def fibre : State := turnOf (.fibre 0) [(2, 5), (4, 9), (5, 0x80000000), (6, 3), (7, 0x3F800000), (8, 0x41000000), (10, 0x10100)]

/-- The lead with a2 = 5 and a10 an address of its page. -/
def lead : State := turnOf .lead [(4, 5), (20, 0x10100)]

/-- ComputingInstructionsChangeOnlyTheirIssuer, IntegerInstructionsWriteTheirResult, ImmediateFormsComputeAndDecode,
DivisionProducesTheQuotient, ComparesSetTheirPredicates, PredicateInstructionsSetTheirPredicate, FloatArithmeticRoundsOnce,
FloatFunctionsWriteTheirValue: the instructions of one to three word sources. -/
theorem witness_word_sources : (([
    .iadd 12 2 4 false .always, .isub 12 2 4 true .always, .imul 12 2 4 false .always, .imulh 12 2 4 false .always,
    .imulhu 12 2 4 false .always, .imin 12 2 4 false .always, .imax 12 2 4 false .always, .iminu 12 2 4 false .always,
    .imaxu 12 2 4 false .always, .iadds 12 2 4 false .always, .and 12 2 4 false .always, .or 12 2 4 false .always,
    .xor 12 2 4 false .always, .andn 12 2 4 false .always, .shl 12 2 4 false .always, .shr 12 2 4 false .always,
    .sar 12 2 4 false .always, .bfx 12 2 4 false .always, .sel 12 2 4 false .always, .div 12 2 4 false .always,
    .divu 12 2 4 false .always, .icmp 0 0 2 4 false .always, .icmpu 5 15 2 4 false .always, .iadd 126 2 4 false .always,
    .movxw 2 4 false .always, .fcmpF32 0 1 2 4 false .always, .fcmpBf16x2 5 14 2 4 false .always, .fcmpF16x2 1 0 2 4 false .always,
    .faddF32 12 2 4 false .always, .fsubF32 12 2 4 false .always, .fmulF32 12 2 4 false .always, .faddBf16x2 12 2 4 false .always,
    .fsubBf16x2 12 2 4 false .always, .fmulBf16x2 12 2 4 false .always, .faddF16x2 12 2 4 false .always,
    .fsubF16x2 12 2 4 false .always, .fmulF16x2 12 2 4 false .always, .fminF32 12 2 4 false .always, .fmaxF32 12 2 4 false .always,
    .fminBf16x2 12 2 4 false .always, .fmaxBf16x2 12 2 4 false .always, .fminF16x2 12 2 4 false .always,
    .fmaxF16x2 12 2 4 false .always] : List Instr).all (fun i => issues fibre i [5, 9])) = true ∧
    (([.imad 12 2 4 false .always, .addmin 12 2 4 false .always, .addmax 12 2 4 false .always, .bfi 12 2 4 false .always,
      .fmaF32 12 2 4 false .always, .fmaBf16x2 12 2 4 false .always, .fmaF16x2 12 2 4 false .always, .fdot2Bf16 12 2 4 false .always,
      .fdot2F16 12 2 4 false .always, .fdot4F8a 12 2 4 false .always, .fdot4F8b 12 2 4 false .always] : List Instr).all
        (fun i => issues fibre i [5, 9, 0])) = true ∧
    (([.iabs 12 2 false .always, .popc 12 2 false .always, .clz 12 2 false .always, .brev 12 2 false .always,
      .iaddi 12 2 0x80 .always, .andImm 12 2 0xF0 .always, .orImm 12 2 1 .always, .xorImm 12 2 0xFF .always, .shlImm 12 2 32 .always,
      .shrImm 12 2 31 .always, .sarImm 12 2 33 .always, .mov 12 2 false .always, .movx 12 2 false .always,
      .pmovToPredicate 15 2 false .always, .pmovToPredicate 64 2 false .always, .fabs 12 2 0 false .always,
      .fneg 12 2 2 false .always, .fcvt 12 2 0 5 false .always, .fcvti 12 2 7 false .always, .icvtf 12 2 0 false .always,
      .frnd 12 2 3 false .always, .fclass 12 2 false .always, .frcp 12 2 false .always, .frsq 12 2 false .always,
      .fexp2 12 2 false .always, .flog2 12 2 false .always] : List Instr).all (fun i => issues fibre i [5])) = true := by
  decide +kernel

/-- Zero divisors, the overflowing quotient, and the conditions' both sides. -/
theorem witness_corners : issues fibre (.div 12 2 126 false .always) [5, 0] = true ∧
    issues (turnOf (.fibre 0) [(2, 0x80000000), (4, 0xFFFFFFFF)]) (.div 12 2 4 false .always) [0x80000000, 0xFFFFFFFF] = true ∧
    issues fibre (.icmp 2 0 5 2 false .always) [0x80000000, 5] = true ∧
    issues fibre (.icmpu 2 0 5 2 false .always) [0x80000000, 5] = true := by decide +kernel

/-- The instructions without source values. -/
theorem witness_no_sources : (([
    .nop .always, .yield .always, .movi 12 0x7FFF .always, .win 16 .always, .winadd 8 .always, .sete 12 .always,
    .pand 0 1 2 .always, .por 15 1 2 .always, .pxor 0 1 2 .always, .pnot 0 1 .always, .pmovFromWord 12 .always,
    .br 4 .always, .call 0x40 .always, .endIssue .always, .waitf 2 15 .always, .waito 3 0 .always, .waito 0 255 .always,
    .trap 0x7FFF .always, .sread 12 0 .always, .sread 12 12 .always, .sread 12 19 .always, .sysr 12 18 .always,
    .sysr 12 0x200 .always, .sysr 12 0x1000 .always, .sysr 12 0x17FF .always, .sigr 12 .always, .prog 15 .always,
    .tlbiAll .always, .chkpt .always, .fence 2 6 false, .fence 0 0 false, .fence 1 1 false, .fence 0 2 false, .fence 1 10 false,
    .ifence 0 false, .ifence 2 false, .ifence 8 false, .rep 0 0 0 0] : List Instr).all (fun i => issues fibre i [])) = true := by
  decide +kernel

/-- That state with its block as a copy of a pair. -/
def roled (role : Role) (s : State) : State := s.modBlock 0 (fun b => { b with role := role })

/-- A question about the step's issuer. -/
def asks (s : State) (f : Env → Bool) : Bool :=
  match s.env? with
  | some e => f e
  | none => false

/-- The state with which a gate lets an operation go on. -/
def opens (g : Gate) : Option State :=
  match g with
  | .go t => some t
  | _ => none

/-- A page of 64 KiB in the TLB of a core: its base, its local address and its format. -/
def page (core base pa fmt : Nat) : TlbEntry :=
  { core := core, asn := 0, base := base, size := 0x10000, entry := BitVec.ofNat 64 (pa + 0x1F + fmt * 2 ^ 56) }

/-- The pieces of an access of the issuer, and the state that translation leaves. -/
def piecesOf (s : State) (e : Env) (va n : Nat) (need : Need) : Option (State × List Piece) :=
  match s.pieces e.blk.space va n need with
  | (t, .ok ps) => some (t, ps)
  | (_, .error _) => none

/-- Whether reading the pieces succeeds, whether it fails. -/
def reads (s : State) (e : Env) (ps : List Piece) : Bool × Bool :=
  match (s.readPieces e.core (e.again s).blk.body.buffer ps).2 with
  | .ok _ => (true, false)
  | .error _ => (false, true)

/-- AStepRunsTheDecodedInstruction: a fetched word that decodes, one that does not, a fetch that fails, and the other turns. -/
def fetches (s : State) : Option (Except FetchFault Word) :=
  match s.agenda with
  | .issue bid who :: rest =>
    let s0 : State := { s with agenda := rest }
    match s0.envOf bid who with
    | some e => if s0.takesTurn e.blk e.ctx && (s0.codeWait e).isNone then some (s0.fetch e.blk.space e.ctx.pc).2 else none
    | none => none
  | _ => none

theorem witness_fetch : (fetches placed == some (.ok 0x01000000)) = true ∧
    (fetches (State.reset.place274 0) == some (.ok 0)) = true ∧ (decodeWord 0).toOption.isNone = true ∧
    ((fetches { placed with tlb := [] }).map (fun r => r.toOption.isNone)) = some true ∧
    (fetches (placed.modCtx 0 (.fibre 0) (fun c => { c with wait := some .sourceEmpty })) == some (.ok 0x01000000)) = true ∧
    (placed.ctx? 0 (.fibre 0)).map (fun c => c.wait) = some none ∧ placed.amapBusy = false ∧ placed.firmware.recovery = false := by
  decide +kernel

/-- WordsAndInstructionsCorrespond: a well-formed instruction with its word, at the ends of its fields. -/
theorem witness_encodings : (([.iadd 127 0 126 true .p1, .movhi 0 0x1FFFF, .br 0x200000 .notP0, .rep 63 4 3 7,
    .ldt 0 125 6 1 10 true, .red 8 127 0 7, .vote 0 15 2 .always] : List Instr).all
      (fun i => i.wellFormed && (encodeWord i).isSome)) = true := by decide +kernel

/-- EveryStepKeepsTheStateLegal: a legal state that steps. -/
theorem witness_legal : State.reset.Legal ∧ (match step State.reset with
    | .next _ => true
    | _ => false) = true := by decide +kernel

/-- ChecksComeBeforeTheInstruction: an executor, a privilege and an encoding that are refused, a false guard, an empty source
without and with fe. -/
def emptied : State :=
  { fibre with blocks := fibre.blocks.map (fun b => b.modCtx (.fibre 0) (fun c => { c with empties := [2], heldBits := [] })) }

theorem witness_checks : asks fibre (fun e => !(e.form (.mma 2 false .always)).fibre) = true ∧
    asks (fibre.modBlock 0 (fun b => { b with params := { b.params with supervisor := false } })) (fun e =>
      (e.form (.sysr 12 0x1000 .always)).fibre && (e.form (.sysr 12 0x1000 .always)).legal (.sysr 12 0x1000 .always) e.lead
        e.ctx.wb.toNat e.alloc && !e.blk.params.supervisor) = true ∧
    asks fibre (fun e => decide (staticCheck (.iadd 12 2 125 false .always) (e.form (.iadd 12 2 125 false .always)) e = none)) = true ∧
    asks fibre (fun e => !guardHolds .p0 e.ctx) = true ∧
    asks emptied (fun e => decide (operandCheck (e.form (.iadd 12 2 4 false .always)) e = some (.wait .sourceEmpty))) = true ∧
    asks emptied (fun e => decide ((operandCheck (e.form (.iadd 12 2 4 true .always)) e).isSome ∧
      operandCheck (e.form (.iadd 12 2 4 true .always)) e ≠ some (.wait .sourceEmpty))) = true ∧
    isLong (.ld 12 10 4 0 0 false) = true ∧
    asks (emptied.modCtx 0 (.fibre 0) (fun c => { c with heldBits := [2] })) (fun e => decide (e.ctx.heldBits = [2])) = true := by
  decide +kernel

/-- TakingATrapStopsTheBlock: a block alone without and with a primary fault; StoredBytesAreSeenByTheirOwnBlock: its buffer. -/
theorem witness_trap : (fibre.envOf 0 (.fibre 0)).map (fun e => (e.blk.role, e.blk.primary)) = some (.single, none) ∧
    ((fibre.takeTrap 0 (.fibre 0) 0x10000 { code := .trap, detail := 5, addr := 0 }).envOf 0 (.fibre 0)).map
      (fun e => e.blk.primary.isSome) = some true ∧ (fibre.block? 0).isSome = true := by decide +kernel

/-- RowCollectivesRefuseUqSources: a fibre, not a lead. -/
theorem witness_fibre : asks fibre (fun e => !e.lead) = true := by decide +kernel

/-- MovesAndConstantsWriteTheirValue, WindowAndIndexedRegistersAreReached: LEA, MOVHI, and a full indexed register. -/
theorem witness_moves : issues fibre (.lea 63 10 4 false .always) [0x10100, 9] = true ∧ issues fibre (.movhi 12 0x1FFFF) [0] = true ∧
    asks fibre (fun e => decide (5 < e.alloc) && !e.ctx.empties.contains 5) = true := by decide +kernel

/-- ControlInstructionsGoWhereTheyPoint: register targets that are legal, not canonical and not a multiple of 4, and a branch out
of the canonical range. -/
def brink : State := fibre.modCtx 0 (.fibre 0) (fun c => { c with pc := 0x00FFFFFFFFFFFFFC })

theorem witness_targets : issues fibre (.bri 10 false .always) [0x10100] = true ∧ issues fibre (.bri 4 false .always)
      [9 + 0x80000000 * 2 ^ 32] = true ∧ canonical (BitVec.ofNat 64 (9 + 0x80000000 * 2 ^ 32)) = false ∧
    issues (turnOf (.fibre 0) [(124, 0x10102)]) (.ret false .always) [0x10102] = true ∧
    issues brink (.br 1 .always) [] = true ∧ issues brink (.call 1 .always) [] = true ∧
    canonical (BitVec.ofInt 64 ((0x00FFFFFFFFFFFFFC : Int) + 4)) = false ∧ canonical 0x00FFFFFFFFFFFFF8 = true := by decide +kernel

/-- EretAndRepTakeEffect: ERET with a window base and without, REP before an IADD. -/
theorem witness_eret_rep : issues (turnOf (.fibre 0) [(2, 0x10000), (4, 0x807C0003)]) (.eret 2 4 false .always)
      [0x10000, 0x807C0003] = true ∧ issues lead (.eret 10 2 false .always) [0x10100, 5] = true ∧
    issues (fibre.homeWrite 4 (bytesOfWord 0x10020818)) (.rep 3 1 1 0) [] = true ∧
    asks (fibre.homeWrite 4 (bytesOfWord 0x10020818)) (fun e =>
      (match (fibre.homeWrite 4 (bytesOfWord 0x10020818)).fetch e.blk.space (e.ctx.pc + 4) with
        | (t, .ok w) => w == 0x10020818 && issues t (.rep 3 1 1 0) []
        | (_, .error _) => false) &&
      (repTrap 0x10020818 { active := true, count := 3, index := 0, sd := 1, sa := 1, sb := 0 } e).isNone) = true := by decide +kernel

/-- FibresStartAndWaitsPass: FORK with a free identifier and with none, UPUSH below its bound, WAITF of full registers. -/
theorem witness_fork : issues fibre (.fork 12 10 2 false .always) [0x10100, 5] = true ∧
    (fibre.block? 0).map (fun b => ((aget b.body.fibres 0).isSome, (aget b.body.fibres 1).isSome, decide (1 < b.params.fibreCount))) =
      some (true, false, true) ∧
    issues (fibre.modBlock 0 (fun b => { b with params := { b.params with fibreCount := 1 } })) (.fork 12 10 2 false .always)
      [0x10100, 5] = true ∧
    issues lead (.upush 2 false .always) [5] = true ∧ (lead.block? 0).map (fun b => b.body.uq.length) = some 0 ∧
    asks fibre (fun e => e.ctx.empties.isEmpty && decide (e.ctx.counter 0 = 0)) = true := by decide +kernel

/-- TrapInstructionsTakeTheirTrap and ComputingInstructionsChangeOnlyTheirIssuer: an issuer alone, outside any measurement. -/
theorem witness_alone : fibre.proctors.slots = [] ∧ fibre.trial.run = false ∧
    asks fibre (fun e => e.ctx.heldBits.isEmpty && e.ctx.halt.stepper.isNone) = true := by decide +kernel

/-- SystemInstructionsReachTheirState: writes of system registers, and translation maintenance. -/
theorem witness_system : (([18, 0x1000, 0x17FF] : List (BitVec 15)).all (fun n => issues fibre (.sysw 2 n .always) [5])) = true ∧
    issues fibre (.tlbiPage 10 2 false .always) [0x10100, 5] = true ∧ issues fibre (.tlbiAsn 2 false .always) [5] = true ∧
    (let s := roled .trailing fibre
     issues s (.sysw 2 0x1000 .always) [5] && issues s (.tlbiPage 10 2 false .always) [0x10100, 5] && issues s (.tlbiAsn 2 false .always) [5] &&
       issues s (.tlbiAll .always) []) = true := by
  decide +kernel

/-- CommitPointsCompleteWhenLetThrough: a commit point and releases that open at once, below .core and at .core. -/
theorem witness_commit : asks fibre (fun e => (opens (fibre.commitPoint e [])).isSome && (opens (fibre.releasePoint e [] 2)).isSome) =
    true := by decide +kernel

/-- A releasing FENCE at .stk or wider whose acknowledgements have come. -/
theorem witness_release : (let s := fibre.modCtx 0 (.fibre 0) (fun c => { c with phase := { c.phase with release := .done } })
    asks s (fun e => (opens (s.releasePoint e [] 3)).isSome && (opens (s.releasePoint e [] 10)).isSome)) = true ∧
    asks fibre (fun e => decide (e.ctx.phase.answer ≠ .awaiting)) = true ∧
    (let s := fibre.modCtx 0 (.fibre 0) (fun c => { c with phase := { c.phase with release := .done, answer := .awaiting } })
     issues s (.ifence 10 false) [] && asks s (fun e => (opens (s.releasePoint e [] 10)).isSome)) = true := by decide +kernel

/-- BarriersCountPhases: an idle barrier, one with an expected count, and a token of the phase before the barrier's. -/
def barred (x : Barrier) : State :=
  (turnOf (.fibre 0) [(2, 3), (4, 1), (5, 0x30000005), (6, 1025), (7, 65535)]).modBlock 0
    (fun b => b.modBody (fun y => { y with barriers := y.barriers.set 3 x }))

theorem witness_barrier : issues (barred ⟨0, 0, 0⟩) (.bari 2 4 false .always) [3, 1] = true ∧
    issues (barred ⟨0, 0, 0⟩) (.bari 2 6 false .always) [3, 1025] = true ∧
    issues (barred ⟨2, 1, 6⟩) (.bara 12 2 4 false .always) [3, 1] = true ∧
    issues (barred ⟨2, 1, 6⟩) (.bara 12 2 7 false .always) [3, 65535] = true ∧
    issues (barred ⟨2, 1, 6⟩) (.barw 5 false .always) [0x30000005] = true ∧
    ((barred ⟨2, 1, 6⟩).block? 0).map (fun b => (b.params.barrierCount, b.body.barriers[3]?)) = some (4, some ⟨2, 1, 6⟩) := by
  decide +kernel

/-- A machine for accesses: the plain page of `placed`, a page of FMT 1 at 0x2_0000 and one of FMT 4 at 0x4_0000, and one of device 5 at 0x6_0000, 64 KiB each;
bytes 1 to 4 at 0x1_0100; a queue of 4-byte elements at 0x1_0400 with its area at 0x1_0800; registers 10:11 an address. -/
def memory (who : Who) (regs : List (Nat × Word)) : State :=
  let s := turnOf who regs
  let s1 : State := { s with tlb := page 0 0x20000 0x10000 1 :: page 0 0x40000 0x20000 4 :: page 0 0x60000 (5 * 2 ^ 42) 0 :: s.tlb }
  ((s1.homeWrite 0x100 [1, 2, 3, 4]).initHome 0x400 0x800 3 0 2).1

/-- LoadsProduceWhatTheyRead: a plain load, across a page's end too; a formatted element; a granted LDT. -/
def loads : State := memory (.fibre 0) [(2, 5), (4, 0x20000), (6, 0x1FFFC), (8, 0x40010), (10, 0x10100), (14, 0x60000)]

theorem witness_loads : issues loads (.ld 12 10 4 0 0 false) [0x10100] = true ∧ issues loads (.ld 12 6 6 1 2 false) [0x1FFFC] = true ∧
    asks loads (fun e => match piecesOf loads e 0x10100 4 needR with
      | some (t, ps) => (opens (t.beforeRead e 0x10100 4)).isSome && !t.anyAway ps && (reads t e ps).1
      | none => false) = true ∧
    asks loads (fun e => match piecesOf loads e 0x1FFFC 16 needR with
      | some (t, ps) => decide (ps.length = 2) && (opens (t.beforeRead e 0x1FFFC 16)).isSome && (reads t e ps).1
      | none => false) = true ∧
    issues loads (.ld 12 14 4 0 0 false) [0x60000] = true ∧
    asks loads (fun e => match piecesOf loads e 0x60000 4 needR with
      | some (t, ps) => t.anyAway ps && (match opens (t.beforeRead e 0x60000 4) with
        | some u => (match (u.knownBytes e.core (e.again u).blk.body.buffer 0x60000 ps).2 with
          | .ok known => decide (known.length < 4)
          | .error _ => false)
        | none => false)
      | none => false) = true := by decide +kernel

theorem witness_lde : issues loads (.lde 12 4 2 false .always) [0x20000, 5] = true ∧
    asks loads (fun e => match piecesOf loads e 0x20000 1 needR with
      | some (t, p :: _) => decide (p.fmt = 1) && decide (unitElems p.fmt (pteGeom p.entry) > 5) &&
          (match piecesOf t e 0x20000 1 needR with
            | some (u, q :: _) => decide (q.fmt = p.fmt) && (match piecesOf u e (0x20000 + 5 / 2) 1 needR with
              | some (v, ps) => (opens (v.beforeRead e (0x20000 + 5 / 2) 1)).isSome && !v.anyAway ps && (reads v e ps).1
              | none => false)
            | _ => false)
      | _ => false) = true := by decide +kernel

/-- LoadsProduceWhatTheyRead and StoresEnterTheStoreBuffer: an LDT and an STT that their home has answered. -/
def answered (s : State) (ws : List Word) : State :=
  s.modCtx 0 ((s.issuer.map (·.2)).getD .lead) (fun c => { c with phase := { c.phase with answer := .got ws } })

theorem witness_granted : issues (answered loads [7]) (.ldt 12 8 4 1 2 false) [0x40010] = true ∧
    issues (answered loads []) (.stt 2 8 4 0 0 false) [0x40010, 5] = true ∧
    asks (answered loads [7]) (fun e => decide (e.ctx.phase.answer = .got [7]) && !e.blk.ckptMode) = true := by decide +kernel

/-- TaggedAccessesAskTheirHome: an empty granule, and a full one. -/
def tagged (full : Bool) : State := if full then { loads with tags := [(loads.paCell 0x20010).getD 0 / 16] } else loads

theorem witness_tagged : issues loads (.ldt 12 8 4 1 2 false) [0x40010] = true ∧ issues loads (.stt 2 8 4 0 0 false) [0x40010, 5] = true ∧
    (([true, false] : List Bool).all (fun full => asks (tagged full) (fun e => match piecesOf (tagged full) e 0x40010 4 needR with
      | some (t, p :: _) => decide (p.fmt = 4) && decide (e.ctx.phase.answer = .none) && decide (e.blk.role ≠ .trailing) &&
          e.ctx.halt.stepper.isNone && (match opens (t.beforeRead e 0x40010 4) with
            | some u => ((u.away p.pa || u.tagWaits (u.tagReq e p true true []) || u.tagAhead e.stop (u.homeStop p.pa) none) != full) &&
                (!full || (u.ldtNow e p true).2.toOption.isSome) && !e.blk.ckptMode
            | none => false)
      | _ => false))) = true ∧
    asks loads (fun e => match piecesOf loads e 0x40010 4 needW with
      | some (u, q :: _) => decide (q.fmt = 4) && !q.mig && (opens ((u.pairPoint e []).andThen (fun v => v.commit e))).isSome
      | _ => false) = true := by decide +kernel

/-- StoresEnterTheStoreBuffer: a plain store, a releasing one at .core, one at .sys whose acknowledgements have come, a RED. -/
theorem witness_stores : issues loads (.st 2 10 4 0 0 false) [0x10100, 5] = true ∧ issues loads (.st 2 10 4 1 1 false) [0x10100, 5] = true ∧
    issues loads (.st 2 10 4 1 2 false) [0x10100, 5] = true ∧ issues loads (.red 0 10 2 0) [0x10100, 5] = true ∧
    asks loads (fun e => match piecesOf loads e 0x10100 4 needW, piecesOf loads e 0x10100 4 needRW with
      | some (t, _), some (u, _) => (opens ((t.roomFor e 4).andThen (fun v => v.slackGate e []))).isSome &&
          (opens ((u.roomFor e 4).andThen (fun v => v.slackGate e []))).isSome &&
          (match opens (t.releasePoint e [] 2) with
            | some v => (opens (v.secondCommit e)).isSome
            | none => false)
      | _, _ => false) = true ∧
    (let s := loads.modCtx 0 (.fibre 0) (fun c => { c with phase := { c.phase with release := .done } })
     asks s (fun e => match piecesOf s e 0x10100 4 needW with
      | some (t, _) => (opens (t.releasePoint e [] 10)).isSome
      | none => false)) = true := by decide +kernel

/-- FailedAccessesTrap: an address without a page, a page without W, a poisoned sector. -/
def failing : State :=
  let s := memory (.fibre 0) [(2, 5), (4, 0x90000), (6, 0x50000), (10, 0x10100)]
  { s with tlb := { page 0 0x50000 0 0 with entry := 0x1B } :: s.tlb, poison := [(8, 1)] }

theorem witness_failing : issues failing (.ld 12 4 4 0 0 false) [0x90000] = true ∧ issues failing (.st 2 6 4 0 0 false) [0x50000, 5] = true ∧
    issues failing (.ld 12 10 4 0 0 false) [0x10100] = true ∧
    asks failing (fun e => (piecesOf failing e 0x90000 4 needR).isNone && (piecesOf failing e 0x50000 4 needW).isNone &&
      (match piecesOf failing e 0x10100 4 needR with
        | some (t, ps) => (opens (t.beforeRead e 0x10100 4)).isSome && !t.anyAway ps && (reads t e ps).2
        | none => false)) = true := by decide +kernel

/-- CacheInstructionsComplete. -/
theorem witness_cache : issues failing (.pref 4 2 false) [0x90000] = true ∧ issues loads (.pref 10 10 false) [0x10100] = true ∧
    issues loads (.cflush 2 10 6 false) [0x10100, 5] = true ∧ issues loads (.cinv 2 10 0 false) [0x10100, 5] = true ∧
    asks loads (fun e => decide (e.ctx.phase.release = .none) && (([(6, false), (0, true)] : List (Nat × Bool)).all (fun k =>
      let r := loads.maintain e k.1 k.2 (lineAddrs 0x10100 5)
      r.2.isNone && (opens (r.1.abroadGate e loads.fresh)).isSome))) = true ∧
    (let s := loads.modCtx 0 (.fibre 0) (fun c => { c with phase := { c.phase with release := .done } })
     issues s (.cflush 2 10 6 false) [0x10100, 5] && issues s (.cinv 2 10 0 false) [0x10100, 5] &&
       asks s (fun e => (opens (s.release e 10)).isSome)) = true := by decide +kernel

/-- AtomicsPerformAtTheHome: the two forms of both, ordered and not. -/
theorem witness_atomics : issues loads (.acasRelaxed 12 10 2 0) [0x10100, 5, 0] = true ∧ issues loads (.acasAcqRel 12 10 2 1) [0x10100, 5, 0] = true ∧
    issues loads (.atomRelaxed 9 12 10 2 7) [0x10100, 5] = true ∧ issues loads (.atomAcqRel 0 12 10 2 0) [0x10100, 5] = true ∧
    asks loads (fun e => decide (e.blk.role ≠ .trailing) && (match piecesOf loads e 0x10100 4 needRW with
      | some (t, p :: _) => !p.mig && (match opens ((t.pairPoint e []).andThen (fun u => u.commit e)) with
        | some u => !u.away p.pa && ((u.evictFor e.core p.pa).piecePoison p).isNone && (opens (t.release e 2)).isSome
        | none => false)
      | _ => false)) = true ∧
    issues loads (.acasAcqRel 12 14 2 2) [0x60000, 5, 0] = true ∧ issues loads (.atomRelaxed 9 12 14 2 0) [0x60000, 5] = true ∧
    asks loads (fun e => match piecesOf loads e 0x60000 4 needRW with
      | some (t, p :: _) => !p.mig && (match opens (t.release e 2), opens (t.commit e) with
        | some u, some v => u.away p.pa && v.away p.pa
        | _, _ => false)
      | _ => false) = true := by decide +kernel

/-- QueueInstructionsAskTheHome and QueueInstructionsComplete: a legal handle of a plain control block, full payload registers. -/
def queued : State := memory (.fibre 0) [(2, 5), (4, 0x10400), (8, 0x10800), (10, 3), (11, 0), (12, 0)]

/-- A request of another issuer that is parked at the queue's home. -/
def parkedReq (enq : Bool) : QReq :=
  { rid := 70, from_ := .actor 9 .lead, enq := enq, try_ := false, pa := 0x400, va := 0x10400, handle := none, code := 0, payload := [],
    parked := true, busy := false, src := 0, unc := false }

/-- That queue with requests of both kinds parked: none that comes later may pass them. -/
def crowdedQueue : State := { queued with qreqs := [parkedReq true, parkedReq false] }

/-- That queue with two elements. -/
def stocked : State := (queued.setQhome { pa := 0x400, unc := false, enqs := [], deqs := [] }).ctlUpdate 0x400
  { queued.ctl 0x400 with tail := 2, free := 6 }

/-- The issuer's state when it has reached the control block of a handle and passed what a gate asks. -/
def reaches (s : State) (h : Nat) (gate : Env → State → Piece → Gate) (f : Env → State → Piece → Bool) : Bool :=
  asks s (fun e => decide (e.ctx.phase.answer = .none) && decide (e.blk.role ≠ .trailing) && e.ctx.halt.stepper.isNone &&
    e.ctx.empties.isEmpty &&
    (match s.controlBlock e.blk.space h needRW with
      | (t, .ok p) => !p.mig && (match opens (gate e t p) with
        | some u => f e u p
        | none => false)
      | (_, .error _) => false))

/-- The gate of an enqueue, and that of a dequeue that is one of a leading copy or not. -/
def enqGate (e : Env) (t : State) (p : Piece) : Gate :=
  let sc := (t.reachQueue p.pa p.unc).queueScope p.pa
  (t.pairPoint e []).andThen (fun u => if sc ≥ 2 then u.release e sc else u.commit e)

def deqGate (e : Env) (t : State) (_ : Piece) : Gate := if e.blk.role = .leading then t.commitPoint e [] else .go t

/-- What an enqueue or a dequeue that issues now finds: whether it is done. -/
def enqDoes (r : State × Except Trap Bool) : Option Bool := r.2.toOption

def deqDoes (r : State × Except Trap (Option Nat)) : Option Bool := r.2.toOption.map (·.isSome)

def queueForms : List (Instr × Nat) := [(.enq 4 2 false .always, 0x10400), (.enqt 20 4 2 false .always, 0x10400),
  (.deq 20 4 false .always, 0x10400), (.deqt 20 4 21 false .always, 0x10400)]

theorem witness_queues : (([queued, stocked, crowdedQueue, roled .leading queued] : List State).all (fun s =>
      queueForms.all (fun x => issues s x.1 [x.2]))) = true ∧
    asks queued (fun e => (e.payload 2 0).isSome && (e.payload 21 0).isSome && (e.payload 120 6).isNone && (e.payload 126 6).isSome) =
      true ∧
    (match queued.env?.bind (fun e => (e.payload 21 0).map (fun p => (p.bits, (Fld.d 20 1).fullBits e.lead e.ctx.wb.toNat))) with
      | some (xs, ys) => ys.all (fun k => !xs.contains k)
      | none => false) = true := by decide +kernel

theorem witness_queue_enq : reaches queued 0x10400 enqGate (fun e u p => enqDoes (u.enqNow e p 0 (toBytes 4 5)) == some true) = true ∧
    reaches crowdedQueue 0x10400 enqGate (fun e u p => enqDoes (u.enqNow e p 0 (toBytes 4 5)) == some false) = true := by
  decide +kernel

/-- That block in checkpoint mode. -/
def checkpointed (s : State) : State := s.modBlock 0 (fun b => { b with params := { b.params with ckpt := true } })

theorem witness_queue_deq : reaches stocked 0x10400 deqGate (fun e u p => decide (e.blk.role = .single) && !e.blk.ckptMode &&
      deqDoes (u.deqNow e p 0) == some true) = true ∧
    reaches queued 0x10400 deqGate (fun e u p => deqDoes (u.deqNow e p 0) == some false && !u.away p.pa) = true ∧
    reaches (roled .leading queued) 0x10400 (fun _ t _ => .go t) (fun e u p => !u.away p.pa && deqDoes (u.deqNow e p 0) == some false) =
      true ∧
    issues (checkpointed stocked) (.deqt 20 4 21 false .always) [0x10400] = true ∧
    reaches (checkpointed stocked) 0x10400 deqGate (fun e u p => e.blk.ckptMode && (match u.deqNow e p 0 with
      | (t, .ok (some k)) => (let v := (t.setPhase e (fun x => { x with answer := .granted k none })).holdBits e [21, 20]
        (opens (v.commitPoint (e.again v) [])).isSome)
      | _ => false)) = true := by decide +kernel

theorem witness_queue_away : (([false, true] : List Bool).all (fun ckpt =>
      let s0 := memory (.fibre 0) [(4, 0x60400)]
      let s := if ckpt then checkpointed s0 else s0
      issues s (.deqt 20 4 21 false .always) [0x60400] && issues s (.deq 20 4 false .always) [0x60400] &&
        reaches s 0x60400 deqGate (fun e u p => u.away p.pa && (e.blk.ckptMode == ckpt) &&
          (opens (if e.blk.ckptMode then u.commitPoint e [] else .go u)).isSome))) = true := by decide +kernel

/-- QueueInstructionsComplete: with an answer, and with an element granted. -/
def granted (s : State) : State :=
  s.modCtx 0 ((s.issuer.map (·.2)).getD .lead) (fun c => { c with phase := { c.phase with answer := .granted 3 (some [7]) } })

theorem witness_answers_come : (queueForms.all (fun x => issues (answered queued [1]) x.1 [x.2] && issues (granted queued) x.1 [x.2])) = true ∧
    asks (granted queued) (fun e => (match e.payload 21 0 with
      | some p => (match opens (((granted queued).holdBits e (p.bits ++ (Fld.d 20 1).fullBits e.lead e.ctx.wb.toNat)).pairPoint e []) with
        | some t => (opens (if e.blk.ckptMode then t.commit e else .go t)).isSome
        | none => false)
      | none => false) && decide (e.ctx.phase.answer = .granted 3 (some [7]))) = true := by decide +kernel

/-- QINIT with a good description, with a capacity of 0, and of a queue at which requests are parked; QSTAT. -/
def inits (s : State) (f : Env → State → Piece → Piece → Bool) : Bool :=
  asks s (fun e => match s.controlBlock e.blk.space 0x10400 needRW with
    | (t, .ok cb) => !cb.mig && (match opens (t.commitPoint e []) with
      | some u => (match piecesOf u e 0x10800 1 { r := false, w := false, x := false } with
        | some (v, p :: _) => (match opens (v.release e 2) with
          | some x => !x.away cb.pa && f e v p cb &&
              (let y := x.evictFor e.core cb.pa
               (y.paCell cb.pa).isSome && ((y.parkedAt cb.pa true ++ y.parkedAt cb.pa false).isEmpty == s.qreqs.isEmpty))
          | none => false)
        | _ => false)
      | none => false)
    | (_, .error _) => false)

theorem witness_qinit : (([queued, crowdedQueue] : List State).all (fun s =>
      issues s (.qinit 20 4 8 false .always) [0x10400, 0x10800 + 3 * 2 ^ 64] &&
      inits s (fun e v p cb => decide (qinitStatus p (v.pageOf e.blk.space 0x10800) 0x10800 3 2 0 (cb.pa / 2 ^ 42) = 0) &&
        decide (qinitStatus p (v.pageOf e.blk.space 0x10800) 0x10800 3 0 0 (cb.pa / 2 ^ 42) ≠ 0)))) = true ∧
    issues (answered queued [5]) (.qinit 20 4 8 false .always) [0x10400, 0x10800 + 3 * 2 ^ 64] = true ∧
    issues (answered queued [1, 2, 3, 4]) (.qstat 20 4 false .always) [0x10400] = true ∧
    issues queued (.qstat 20 4 false .always) [0x10400] = true ∧
    asks queued (fun e => match queued.controlBlock e.blk.space 0x10400 needR with
      | (t, .ok cb) => !cb.mig && !t.away cb.pa &&
          (let r := (t.evictFor e.core cb.pa).ctlBytes cb.pa
           decide (bytesOf (wordsOf 16 r.2) = r.2) && ((r.1.paCell cb.pa).bind (fun c => r.1.poisonIn c 64)).isNone)
      | (_, .error _) => false) = true := by decide +kernel

/-- EngineInstructionsStartTheirOperation: a copy; records at 0x1_0500 for CPYB and MDRST to memory, for CPYS and MLDB to on-core
units. -/
def record (w src dst : Nat) : List Byte := toBytes 8 src ++ toBytes 8 dst ++ toBytes 8 w ++ toBytes 4 0x00040004 ++ toBytes 36 0

def withRecord (w src dst : Nat) : State := (memory .lead [(20, 0x10500)]).homeWrite 0x500 (record w src dst)

/-- Whether a bulk operation with that record may start. -/
def starts (k : EngKind) (s : State) : Bool :=
  asks s (fun e => decide (e.ctx.counter k.cls < 255) && (match piecesOf s e 0x10500 64 needR with
    | some (t, ps) => (match opens (t.beforeRead e 0x10500 64) with
      | some u => (match u.readPieces e.core (e.again u).blk.body.buffer ps with
        | (v, .ok bs) => shapeZeros bs && (Shape.of bs).codesOk && (Shape.of bs).shapeOk && (Shape.of bs).kindOk k &&
            (match v.claim e ((Shape.of bs).grains k) with
              | .ok x => (opens (x.enginePoint e [])).isSome
              | .error _ => false)
        | (_, .error _) => false)
      | none => false)
    | none => false))

theorem witness_engine : issues (memory (.fibre 0) [(4, 0x10100), (6, 0x10200)]) (.cpy 6 4 4 false) [0x10100, 0x10200] = true ∧
    issues (withRecord 0x1000 0x10600 0x10700) (.cpyb 12 10 126 false .always) [0x10500, 0] = true ∧
    issues (withRecord 0x1030 0x10600 0) (.cpys 12 10 126 false .always) [0x10500, 0] = true ∧
    issues (withRecord 0x1020 0x10600 0) (.mldb 12 10 126 false .always) [0x10500, 0] = true ∧
    issues (withRecord 0x1001 0 0x10700) (.mdrst 12 10 126 false .always) [0x10500, 0] = true ∧
    starts .cpyb (withRecord 0x1000 0x10600 0x10700) = true ∧ starts .cpys (withRecord 0x1030 0x10600 0) = true ∧
    starts .mldb (withRecord 0x1020 0x10600 0) = true ∧ starts .mdrst (withRecord 0x1001 0 0x10700) = true ∧
    asks (memory .lead [(24, 0x10403)]) (fun e => (triggerHandle e 12 false).toOption.isSome) = true := by decide +kernel

/-- MatrixInstructionsComplete: command words 0 (one row) and the last row, descriptor 0. -/
theorem witness_matrix : issues lead (.mma 3 false .always) [0] = true ∧ cmdOk 0 = true ∧ issues lead (.mzero 3 false .always) [0] = true ∧
    issues (turnOf .lead [(6, 1023)]) (.mzero 3 false .always) [1023] = true ∧
    issues fibre (.afeed 126 4 false .always) [0, 9 + 0x80000000 * 2 ^ 32 + 3 * 2 ^ 64 + 0x3F800000 * 2 ^ 96] = true ∧
    issues fibre (.adrn 12 126 false .always) [0] = true ∧ issues lead (.mdrain 12 false .always) [0] = true ∧ descOk 0 = true ∧
    asks lead (fun e => !lead.queueFull e && decide (e.ctx.counter 2 < 255) && (lead.claim e (cmdGrains 0)).toOption.isSome &&
      (lead.claim e (rowGrains 1023 1)).toOption.isSome && (match lead.claim e (rowGrains 0 1) with
        | .ok t => (opens (t.enginePoint e [])).isSome
        | .error _ => false)) = true := by decide +kernel

/-- DebugInstructionsComplete: a handle of a halted user fibre, of a running one, of none; and what goes with each clause. -/
def debugger (halted : Bool) : State :=
  let b := placedBlock 1 0
  let c : Block := { b with params := { b.params with lid := 7, supervisor := false } }
  let d := c.mapCtx (fun _ x => { x with halt := { x.halt with halted := halted } })
  let s := memory (.fibre 0) [(5, 0x00070000), (8, 0x10500), (12, 1), (13, 3), (14, 2), (15, 63)]
  ({ s with blocks := s.blocks ++ [d] } : State).homeWrite 0x510 (toBytes 8 0 ++ toBytes 8 8)

/-- The handle of fibre 0 of launch 7, block 0. -/
def handle : Nat := 7 * 2 ^ 48

theorem witness_debug : (match (debugger true).target handle with
      | .halted b w c => decide (b.bid = 1) && decide (w = .fibre 0) && (c.item b.params.allocation 5).isSome &&
          (c.item b.params.allocation 0xFFFF).isNone && decide (b.role = .single) && (c.writeItem b.params.allocation 5 9).isSome &&
          (c.writeItem b.params.allocation 0xFFFF 9).isNone
      | _ => false) = true ∧
    (debugger true).stepUnderWay handle = false ∧ (debugger true).stepUnderWay 0 = false ∧
    (debugger true).blocks.all (fun b => !b.stepping) = true ∧ (debugger false).target handle = .running ∧ (debugger true).target 0 = .fails ∧
    issues (debugger true) (.hread 20 4 12 false .always) [handle, 1] = true ∧
    issues (debugger true) (.hwrite 12 4 13 false .always) [handle, 3, 1] = true ∧
    issues (debugger true) (.hstep 20 126 false .always) [0] = true ∧ issues (answered (debugger true) [0]) (.hstep 20 4 false .always)
      [handle] = true ∧
    (let s := (roled .trailing (debugger true)).modBlock 0 (fun b => { b with forwarded := [(.fibre 0, [1])] })
     issues s (.hstep 20 4 false .always) [handle] && asks s (fun e => decide (e.blk.role = .trailing) && (s.takeForwarded e.blk e.who).isSome)) =
      true ∧
    issues (debugger true) (.hrun 4 12 false .always) [handle, 1] = true ∧ issues (debugger true) (.hrun 4 14 false .always) [handle, 2] = true ∧
    issues (debugger true) (.wclr 15 false .always) [63] = true ∧ issues (debugger true) (.wset 15 8 false .always) [63, 0x10500] = true ∧
    asks (debugger true) (fun e => match piecesOf (debugger true) e 0x10500 32 needR with
      | some (t, ps) => (opens (t.beforeRead e 0x10500 32)).isSome && (match t.readPieces e.core [] ps with
        | (_, .ok bs) => (watchOf bs).isSome
        | (_, .error _) => false)
      | none => false) = true := by decide +kernel

/-! Checks, watch slots and poison. -/

/-- ChecksComeBeforeTheInstruction: an empty register, a uniform queue without an entry while the lead lives and once it has ended, an
empty destination; a row collective that has not arrived. -/
theorem witness_missing :
    asks emptied (fun e => decide (firstMissing e (e.form (.iadd 12 2 4 false .always)).srcs 0 = some (.reg 2))) = true ∧
    asks fibre (fun e => decide (firstMissing e (e.form (.iadd 12 127 4 false .always)).srcs 0 = some .uq) &&
      decide (e.blk.body.lead.life = .live) && decide (e.unread ≤ 0)) = true ∧
    asks (fibre.modCtx 0 .lead (fun c => { c with life := .ended })) (fun e =>
      decide (firstMissing e (e.form (.iadd 12 127 4 true .always)).srcs 0 = some .uq) && decide (e.blk.body.lead.life ≠ .live)) = true ∧
    asks (fibre.modCtx 0 (.fibre 0) (fun c => { c with empties := [12] })) (fun e =>
      decide (firstMissing e (e.form (.iadd 12 2 4 false .always)).srcs 0 = none) && (e.form (.iadd 12 2 4 false .always)).dsts.any (fun d =>
        (d.fullBits e.lead e.ctx.wb.toNat).any (fun n => e.ctx.empties.contains n))) = true ∧
    asks (emptied.modCtx 0 (.fibre 0) (fun c => { c with empties := [2, 5] })) (fun e => e.ctx.arrival.isNone && e.ctx.heldBits.isEmpty &&
      e.ctx.halt.stepper.isNone && decide (e.ctx.phase.answer = .none) && ([Instr.xlane 12 2 4 false .always, .vote 12 3 1 .always].all (fun i =>
        (encodeWord i).isSome && collects i && (staticCheck i (e.form i) e).isNone && guardHolds (e.form i).guard e.ctx)) &&
      decide (firstMissing e (e.form (.xlane 12 2 4 false .always)).srcs 0 = some (.reg 2))) = true := by decide +kernel

/-- A user range with a slot on an address that its code page holds, or on the exceptions of an addition. -/
def slotOn (kind cmp action count : Nat) : Watch :=
  { kind := kind, lo := 0x10000, hi := 0x1FFFF, lidf := 0, blkf := 0, fidf := 0, liden := true, blken := false, fiden := true, count := count,
    fpx := 0x1F, msk := 0, cmp := cmp, action := action, trace := false }

def watching (s : State) (ws : List (Nat × Watch)) : State :=
  { s.modBlock 0 (fun b => { b with params := { b.params with supervisor := false } }) with proctors := { s.proctors with slots := ws } }

/-- WatchedInstructionsMatch: a match that acts, one that only counts, a late one; of several the widest, then the lowest slot. -/
theorem witness_watched :
    (let s := watching fibre [(4, slotOn 7 7 0 0)]
     asks s (fun e => let ms := s.early e (.iadd 12 2 4 false .always) (e.known (.iadd 12 2 4 false .always))
       ms.length == 1 && s.acting e ms == some (4, 0, 0x10000) && (s.envOf e.bid e.who).isSome)) = true ∧
    (let s := watching fibre [(4, slotOn 7 7 0 9), (6, slotOn 6 0 3 0)]
     passes s (.faddF32 12 2 4 false .always) [5, 9] && asks s (fun e => let ms := s.early e (.faddF32 12 2 4 false .always) [5, 9]
       ms.length == 1 && s.acting e ms == none && e.ctx.slots.isNone && s.watchesLate e (.faddF32 12 2 4 false .always))) = true ∧
    (let s := watching fibre [(2, slotOn 7 7 0 0), (4, slotOn 7 7 1 0), (6, slotOn 7 7 1 0)]
     asks s (fun e => let ms := s.early e (.nop .always) []
       decide ((ms.map (·.1)).Pairwise (· < ·)) && s.acting e ms == some (4, 1, 0x10000))) = true ∧
    (let s := watching fibre [(2, slotOn 1 7 0 0)]
     issues s (.iadd 12 2 4 false .always) [5, 9]) = true := by decide +kernel

/-- LoadsProduceWhatTheyRead: a load of another device that a slot holds, and one whose bytes have come, all or not. -/
def loadingHeld (known : List (Nat × Byte)) : State :=
  (watching loads [(5, slotOn 5 0 0 0)]).modCtx 0 (.fibre 0) (fun c =>
    { c with phase := { c.phase with answer := .loading known }, slots := some [] })

theorem witness_held : (let s := watching loads [(5, slotOn 5 0 0 0)]
     passes s (.ld 12 14 4 0 0 false) [0x60000] && asks s (fun e => (s.early e (.ld 12 14 4 0 0 false) [0x60000]).isEmpty &&
       (match piecesOf s e 0x60000 4 needR with
         | some (t, ps) => t.anyAway ps && (match opens (t.beforeRead e 0x60000 4) with
           | some u => (match u.knownBytes e.core (u.bufferFor e ps) 0x60000 ps with
             | (v, .ok known) => decide (known.length < 4) && v.holdsLoad e
             | (_, .error _) => false)
           | none => false)
         | none => false))) = true ∧
    (([[(0, 1), (1, 2), (2, 3), (3, 4)], [(0, 1)]] : List (List (Nat × Byte))).all (fun known =>
      passes (loadingHeld known) (.ld 12 14 4 0 0 false) [0x60000] && asks (loadingHeld known) (fun e => e.ctx.issued &&
        !(loadingHeld known).watchesLate e (.ld 12 14 4 0 0 false)))) = true ∧
    gathered [(0, 1), (1, 2), (2, 3), (3, 4)] 4 = some [1#8, 2#8, 3#8, 4#8] ∧ gathered [(0, 1#8)] 4 = none := by decide +kernel

/-- LDE of an element on a page of another device. -/
def ldeAway : State :=
  let s := memory (.fibre 0) [(2, 5), (4, 0x70000)]
  { s with tlb := page 0 0x70000 (5 * 2 ^ 42) 1 :: s.tlb }

theorem witness_lde_away : issues ldeAway (.lde 12 4 2 false .always) [0x70000, 5] = true ∧
    asks ldeAway (fun e => match piecesOf ldeAway e 0x70002 1 needR with
      | some (v, ps) => (match opens (v.beforeRead e 0x70002 1) with
        | some u => u.anyAway ps && (bufferByte (u.bufferFor e ps) 0x70002).isNone && !u.holdsLoad e
        | none => false)
      | none => false) = true := by decide +kernel

/-- TaggedAccessesAskTheirHome: a store buffer with room for an STT, and one without. -/
theorem witness_stt : asks loads (fun e => match piecesOf loads e 0x40010 4 needW with
    | some (u, _ :: _) => (match opens ((u.pairPoint e (storeBytes 0x40010 0x44 (toBytes 4 5))).andThen (fun v => v.commit e)) with
      | some v => v.fits e 4 && !v.fits e (2 ^ 22)
      | none => false)
    | _ => false) = true := by decide +kernel

/-- CacheInstructionsComplete: a line of this device and one of another, each with its page; a line that an L1 holds; one of a UNC page. -/
theorem witness_lines : asks loads (fun e => (match piecesOf loads e 0x10100 128 needR with
      | some (r, p :: _) => !p.unc && !r.away p.pa && (r.paCell p.pa).isSome
      | _ => false) && (match piecesOf loads e 0x60000 128 needR with
      | some (r, p :: _) => !p.unc && r.away p.pa
      | _ => false) && (piecesOf loads e 0x90000 128 needR).isNone) = true ∧
    (let s : State := { loads with tlb := { page 0 0x90000 0 0 with entry := 0x1F + 2 ^ 60 } :: loads.tlb }
     asks s (fun e => match piecesOf s e 0x90000 128 needR with
      | some (_, p :: _) => p.pa == 0
      | _ => false)) = true := by decide +kernel

/-- EngineInstructionsStartTheirOperation: a record on a page of another device, and one whose bytes have come. -/
def recordAway (answer : Answer) : State :=
  (memory .lead [(20, 0x60500)]).modCtx 0 .lead (fun c => { c with phase := { c.phase with answer := answer } })

theorem witness_record_away : issues (recordAway .none) (.cpyb 12 10 126 false .always) [0x60500, 0] = true ∧
    asks (recordAway .none) (fun e => match piecesOf (recordAway .none) e 0x60500 64 needR with
      | some (t, ps) => (match opens (t.beforeRead e 0x60500 64) with
        | some u => u.anyAway ps && (match u.knownBytes e.core (u.bufferFor e ps) 0x60500 ps with
          | (_, .ok known) => (gathered known 64).isNone
          | (_, .error _) => false)
        | none => false)
      | none => false) = true ∧
    (let known := (List.range 64).zip (record 0x1000 0x10600 0x10700)
     issues (recordAway (.loading known)) (.cpyb 12 10 126 false .always) [0x60500, 0] && decide (gathered known 64 =
       some (record 0x1000 0x10600 0x10700))) = true ∧
    (([.cpyb, .cpys, .mldb, .mdrst] : List EngKind).all (fun k =>
      asks ((memory .lead []).modCtx 0 .lead (fun c => c.setCounter k.cls 255)) (fun e => decide (255 ≤ e.ctx.counter k.cls)))) = true := by
  decide +kernel

/-- MatrixInstructionsComplete: a queue without room, and a class without room. -/
def crowdedLead : State := (List.range 64).foldl (fun (t : State) _ => match t.env? with
  | some e => t.enqueueCmd e false 0
  | none => t) lead

theorem witness_crowded : (issues crowdedLead (.mma 3 false .always) [0] && asks crowdedLead (fun e => crowdedLead.queueFull e)) = true ∧
    (let s := lead.modCtx 0 .lead (fun c => c.setCounter 2 255)
     issues s (.mzero 3 false .always) [0] && asks s (fun e => !s.queueFull e && decide (255 ≤ e.ctx.counter 2))) = true := by
  decide +kernel

/-- DebugInstructionsComplete: a bank with slots set, under which WCLR clears one and WSET replaces one; a running fibre to step. -/
def banked : State := { debugger true with proctors := { slots := [(3, slotOn 7 7 0 0), (63, slotOn 1 7 2 5)], hits := [(63, 4)] } }

theorem witness_bank : issues banked (.wclr 15 false .always) [63] = true ∧ issues banked (.wset 15 8 false .always) [63, 0x10500] = true ∧
    issues banked (.hread 20 4 12 false .always) [handle, 1] = true ∧ issues banked (.hrun 4 12 false .always) [handle, 1] = true ∧
    issues banked (.hstep 20 4 false .always) [handle] = true ∧ issues (debugger false) (.hstep 20 4 false .always) [handle] = true ∧
    ((debugger false).named handle).all (fun b => decide (b.role = .single)) = true ∧
    (let known := (List.range 32).zip (toBytes 16 0 ++ toBytes 8 0 ++ toBytes 8 8)
     let s := banked.modCtx 0 (.fibre 0) (fun c => { c with phase := { c.phase with answer := .loading known } })
     issues s (.wset 15 8 false .always) [63, 0x10500] && (gathered known 32).isSome) = true := by decide +kernel

/-- PoisonIsContained: a block with nothing marked, a marked one with its checkpoint, one without, one that has consumed poison twice; a
copy of a pair. -/
theorem witness_contained : (fibre.block? 0).map (fun b => (b.core, b.role, decide (b.poisons < 2), b.marked)) =
      some (some 0, .single, true, false) ∧
    (let s := (checkpointed fibre).modBlock 0 (fun b =>
       { b with marked := true, checkpoint := some (fibre.imageOf (placedBlock 0 0) 2 0 0) })
     (s.block? 0).map (fun b => (b.ckptMode, b.checkpoint.isSome, b.unprotected, b.marked))) = some (true, true, false, true) ∧
    ((roled .leading fibre).block? 0).map (fun b => (b.role, b.primary)) = some (.leading, none) := by decide +kernel

/-- StoredBytesAreSeenByTheirOwnBlock: a byte that two mappings reach, stored under the one and read under the other. -/
theorem witness_alias : (let s : State := { loads with tlb := page 0 0x80000 0 0 :: loads.tlb }
    asks s (fun e => (s.envOf e.bid e.who).isSome &&
      (let x : SbEntry := { kind := .st, va := 0x10100, szcode := 1, who := e.who, pc := e.ctx.pc, bytes := placeBytes 0x10100 [7] }
       let t := s.enterBuffer e x
       match piecesOf t e 0x10100 1 { r := false, w := false, x := false }, piecesOf t e 0x80100 1 needR with
       | some (_, q :: _), some (_, ps) => ps.any (fun p => decide (p.pa ≤ q.pa) && decide (q.pa < p.pa + p.len)) &&
           bufferByte (t.bufferFor e ps) 0x80100 == some 7
       | _, _ => false))) = true := by decide +kernel

/-- RowCollectivesRefuseUqSources: each form that it names with an empty source register, of which a fibre waits. -/
theorem witness_waiting : (([.iaddi 12 2 1 .always, .xshf 12 2 1 .always, .ld 12 2 4 0 0 false, .ldl 12 2 4 0 0 false, .stl 2 4 4 0 0 false,
    .ldt 12 2 4 0 0 false, .stt 4 2 4 0 0 false, .acasRelaxed 12 2 4 0, .atomAcqRel 0 12 2 4 0, .red 0 2 4 0] : List Instr).all (fun i =>
      asks (emptied.modCtx 0 (.fibre 0) (fun c => { c with empties := [2] })) (fun e => (staticCheck i (e.form i) e).isNone &&
        guardHolds (e.form i).guard e.ctx && e.ctx.arrival.isNone && decide (firstMissing e (e.form i).srcs 0 = some (.reg 2)) &&
        e.ctx.heldBits.isEmpty))) = true := by decide +kernel

/-! Row collectives. -/

/-- What an issuer's arrival leaves, if it may arrive now. -/
def arrival (s : State) (i : Instr) (vals : List Nat) : Option State :=
  match s.env? with
  | none => none
  | some e =>
    if e.ctx.arrival.isSome || e.ctx.halt.stepper.isSome || decide (e.ctx.phase.answer ≠ .none) then none
    else if passes s i vals && decide (s.acting e (s.early e i vals) = none) then
      some ((s.countMatches e (s.early e i vals)).arrive e (e.form i) (isLong i) true (e.brings i vals))
    else if e.ctx.heldBits.isEmpty && (staticCheck i (e.form i) e).isNone && !guardHolds (e.form i).guard e.ctx &&
        (if (e.form i).mem then vals.isEmpty else decide (firstMissing e (e.form i).srcs 0 = none ∧ vals = readSrcs e (e.form i).srcs 0))
    then some (s.arrive e (e.form i) (isLong i) false (e.brings i vals))
    else none

/-- A row of two fibres, the turn that of fibre k. -/
def row (k : Nat) (s : State) : State :=
  let t := s.modBlock 0 (fun b => b.modBody (fun y => { y with fibres := match aget y.fibres 0 with
    | some c => [(0, c), (1, c)]
    | none => y.fibres }))
  { t with issuer := some (0, .fibre k) }

/-- Whether fibre 0 arrives and its row is then complete: alone, or after fibre 1 has arrived. -/
def completes (s : State) (i : Instr) (vals : List Nat) (f : State → Env → Bool) : Bool :=
  let last (t : State) : Bool := match t.env?, arrival t i vals with
    | some e, some u => decide (e.again u).rowComplete && f u (e.again u)
    | _, _ => false
  last s && (match arrival (row 1 s) i vals with
    | some t => last { t with issuer := some (0, .fibre 0) }
    | none => false)

/-- RowCollectivesWaitForTheRow, LaneCollectivesCompleteForTheRow: the last arriver of its row, whose guard holds or not; a fibre that
arrives while another has not, and while another stands at another PC; an issuer that has arrived before. -/
theorem witness_rows : (([(.xlane 12 2 4 false .always, [5, 9]), (.xshf 12 2 1 .always, [5]), (.vote 12 3 2 .always, []),
      (.xlane 12 2 4 false .p0, [5, 9]), (.vote 12 3 1 .notP0, [])] : List (Instr × List Nat)).all (fun x =>
        completes fibre x.1 x.2 (fun _ _ => true))) = true ∧
    (match arrival (row 0 fibre) (.xlane 12 2 4 false .always) [5, 9] with
      | some t => asks t (fun e => e.ctx.arrival.isSome && (e.blk.rowMates 0).any (fun m => m.2.arrival.isNone))
      | none => false) = true ∧
    (match arrival ((row 1 fibre).modCtx 0 (.fibre 1) (fun c => { c with pc := 0x10004 })) (.xlane 12 2 4 false .always) [5, 9] with
      | some t => (match arrival { t with issuer := some (0, .fibre 0) } (.xlane 12 2 4 false .always) [5, 9] with
        | some u => asks u (fun e => (e.blk.rowMates 0).all (fun m => m.2.arrival.isSome && m.2.parked.isNone) &&
            (e.blk.rowMates 0).any (fun m => m.2.pc != e.ctx.pc))
        | none => false)
      | none => false) = true := by decide +kernel

/-- The contributing fibres of a row. -/
def contributors (f : Env) : List (Nat × Arrival) := f.arrivals.filter (fun a => a.2.active)

/-- LineCollectivesCompleteForTheRow: an LDL whose line is read here, one whose line another device holds; an STL that enters, and one
that releases at .core; a misaligned one, one without a page, one of which no fibre contributes. -/
theorem witness_lines_read :
    completes loads (.ldl 12 10 4 0 0 false) [0x10100] (fun u f => decide (badLine (contributors f) = none) && (match piecesOf u f 0x10100 128 needR with
      | some (s1, ps) => (match (u.envOf 0 (.fibre 0)) with
        | some f0 => (match opens (s1.beforeReads f0 [0x10100] 4) with
          | some s2 => !s2.anyAway ps && !s2.holdsLoad f0 && ((s2.cellAt ps 0x10100).bind (fun c => s2.poisonIn c 1)).isNone
          | none => false)
        | none => false)
      | none => false)) = true ∧
    completes loads (.ldl 12 14 4 0 0 false) [0x60000] (fun u f => match piecesOf u f 0x60000 128 needR with
      | some (s1, ps) => s1.anyAway ps && (opens (s1.beforeReads f [0x60000] 4)).isSome
      | none => false) = true ∧
    completes loads (.ldl 12 2 4 0 0 false) [5] (fun _ f => (badLine (contributors f)).isSome) = true ∧
    completes failing (.ldl 12 4 4 0 0 false) [0x90000] (fun u f => (piecesOf u f 0x90000 128 needR).isNone) = true := by decide +kernel

theorem witness_lines_written :
    completes loads (.stl 2 10 4 0 0 false) [0x10100, 5] (fun u f => decide (badLine (contributors f) = none) && (match piecesOf u f 0x10100 128 needW,
        u.envOf 0 (.fibre 0) with
      | some (s1, _), some f0 => (opens ((s1.roomFor f0 4).andThen (fun t => t.rowEvents f0 (contributors f)))).isSome
      | _, _ => false)) = true ∧
    completes loads (.stl 2 10 4 1 2 false) [0x10100, 5] (fun u f => match piecesOf u f 0x10100 128 needW, u.envOf 0 (.fibre 0) with
      | some (s1, _), some f0 => !f0.ctx.phase.entered &&
          (opens (((s1.rowEvents f0 (contributors f)).andThen (fun t => t.releasePoint f0 [] 2)).andThen
            (fun t => (t.enterBuffer f0 { kind := .stl, va := 0x10100, szcode := 4, who := .fibre 0, pc := f0.ctx.pc,
                                          bytes := placeBytes 0x10100 (toBytes 4 5) }).secondCommit f0))).isSome
      | _, _ => false) = true ∧
    completes loads (.stl 2 10 4 0 0 false) [0x10100, 5] (fun _ f => (contributors f).length ≥ 1) = true := by decide +kernel

/-- An LDL whose own bytes have come from another device. -/
theorem witness_ldl_loaded : (let s := loads.modCtx 0 (.fibre 0) (fun c =>
      { c with phase := { c.phase with answer := .loading [(0, 1), (1, 2), (2, 3), (3, 4)] }, slots := some [] })
    passes s (.ldl 12 14 4 0 0 false) [0x60000] && asks s (fun e => e.ctx.issued && !s.watchesLate e (.ldl 12 14 4 0 0 false))) = true := by
  decide +kernel

end Sys2Proof.Witnesses
end

