-- ==== Sys2Proof/Tests/EventWitnesses.lean ====
section
/-!
SUPPORT. Witnesses of the hypotheses of the statements about the machine's own events.
-/
namespace Sys2Proof.Witnesses

set_option Elab.async false

open Sys2Proof Sys2Proof.Machine

/-- The state after an instruction of the step's issuer or an event. -/
def after (i : Instr) (s : State) : State :=
  match exec i s with
  | .next t => t
  | _ => s

/-- The state in which channel 0 has served the requests that wait there. -/
def served (s : State) : State := after (.dramRequestService ⟨0, none⟩) (after (.dramRequestService ⟨0, none⟩) (after (.dramRequestService ⟨0, none⟩) s))

/-- ProducersAndWalksComplete: a load that has issued, one with an acquire, an ADRN; a line with a dirty byte in an L1. -/
def dirtied : State :=
  { memory (.fibre 0) [] with l1 := [{ core := 0, tag := 8, bytes := [(3, 7)], valid := 8, dirty := 8, poison := 0, red := none, gathered := [] }] }

def producing (s : State) : Bool :=
  match s.envOf 0 (.fibre 0) with
  | some e => decide (e.blk.core = some 0) && decide (e.ctx.producers.length = 1) && e.ctx.producers.all (fun p => s.served p && p.late.isNone)
  | none => false

theorem witness_producers : producing (served (after (.ld 12 10 4 0 0 false) loads)) = true ∧
    asks (served (after (.ld 12 10 4 0 0 false) loads)) (fun e => e.ctx.producers.all (fun p => !p.src.isEmpty)) = true ∧ producing (served (after (.ld 12 10 4 1 2 false) loads)) = true ∧
    producing (after (.adrn 12 126 false .always) fibre) = true ∧
    ((fibre.block? 0).map (fun b => b.core.isSome)) = some true ∧ canonical 0x90000 = true ∧
    (dirtied.l1Find 0 8).isSome = true := by decide +kernel

/-- IssuersEndAndBlocksRetire: an ending fibre and lead, a block whose issuers have all ended, an awaited release. -/
def ending (who : Who) : State := fibre.modCtx 0 who (fun c => { c with life := .ending })

def ended : State := fibre.modBlock 0 (fun b => b.modBody (fun y => { y with fibres := [], lead := { y.lead with life := .ended } }))

def quiet (s : State) (who : Who) : Bool :=
  match s.envOf 0 who with
  | some e => e.blk.core.isSome && e.blk.primary.isNone && decide (e.ctx.life = .ending) && e.ctx.producers.isEmpty &&
      (List.range 4).all (fun j => decide (e.ctx.counter j = 0))
  | none => false

theorem witness_endings : quiet (ending (.fibre 0)) (.fibre 0) = true ∧ quiet (ending .lead) .lead = true ∧
    (match ended.envOf 0 .lead with
      | some e => e.blk.body.fibres.isEmpty && decide (e.blk.body.lead.life = .ended) && e.blk.running &&
          decide (e.blk.role ≠ .trailing) && (opens (ended.commitPoint e [])).isSome
      | none => false) = true ∧
    ((fibre.modBlock 0 (fun b => { b with core := none })).envOf 0 .lead).map (fun e => e.blk.core) = some none ∧
    (((ending .lead).takeTrap 0 .lead 0x10000 { code := .trap, detail := 5, addr := 0 }).envOf 0 .lead).map (fun e => e.blk.primary.isSome) =
      some true ∧
    (([.awaiting, .abroad 3, .drained 3] : List Ack).all (fun x =>
      let s := fibre.modCtx 0 (.fibre 0) (fun c => { c with phase := { c.phase with release := x } })
      ((s.ctx? 0 (.fibre 0)).map (fun c => c.phase.release)) == some x && !s.unacknowledged 3 && !s.undrained 3)) = true := by decide +kernel

/-- HomesPerformTheirRequests: one request on its way to a queue's home, made by the fibre of block 0. -/
def request (enq : Bool) : QReq := { parkedReq enq with rid := 80, from_ := .actor 0 (.fibre 0), payload := [5, 0, 0, 0], parked := false }

def arriving (s : State) (q : QReq) : State := { s with qreqs := s.qreqs ++ [q] }

/-- What the home finds of that request. -/
inductive Found where
  | unresolved | behind | abroad | unchecked | owing
  | checked (room unclaimed : Nat) (alone : Bool)
deriving DecidableEq

def atHome (s : State) : Option Found :=
  match s.qreqs.find? (fun r => r.rid == 80) with
  | none => none
  | some q =>
    if q.parked || q.busy then none
    else
      match s.resolve q with
      | (_, .error _) => some .unresolved
      | (_, .ok none) => none
      | (s1, .ok (some q1)) =>
        if s.queueAhead q.src (s.homeStop q1.pa) (some 80) then some .behind
        else if s.away q1.pa then some .abroad
        else
          match ((s1.evictCtl q1.from_ q1.pa).reachQueue q1.pa q1.unc).checkHome q1.pa (some q1.code) with
          | (_, some _) => some .unchecked
          | (s2, none) =>
            let t := if q.enq then s2.recordRelease q1.from_ else s2
            if q.enq && t.owesRelease q1 then some .owing
            else some (.checked (t.room q1.pa) (t.unclaimed q1.pa) (t.parkedAt q1.pa q.enq).isEmpty)

def named (enq : Bool) (h : DWord) : QReq := { request enq with handle := some (h, 0), from_ := .trace }

/-- A fault record's enqueue to a queue of scope .peer, while another device has yet to acknowledge a store. -/
def owing : State :=
  let s := (queued.initHome 0x400 0x800 3 0 8).1
  let r := (placedBlock 0 0).faultRec .lead 0x10000 { code := .trap, detail := 5, addr := 0 } false
  let o : RemoteOp := { rid := 50, target := 3, seq := some 1, addr := 0, kind := .write 4 [] false false, use := .store, owner := none, va := 0,
                        sent := none, resends := 0, doomed := false }
  arriving { s with fresh := 90, peers := { s.peers with outstanding := [o] } } { request true with from_ := .faultRec r }

theorem witness_homes : atHome owing = some .owing ∧ (([true, false] : List Bool).all (fun enq =>
      atHome (arriving placed (named enq 0x10407)) == some .unresolved &&
      atHome (arriving (arriving queued { request enq with rid := 79 }) (request enq)) == some .behind &&
      atHome (arriving queued { request enq with pa := 5 * 2 ^ 42 + 0x400 }) == some .abroad &&
      atHome (arriving queued { request enq with code := 3 }) == some .unchecked &&
      atHome (arriving crowdedQueue (request enq)) == some (.checked 8 0 false) &&
      atHome (arriving stocked (request enq)) == some (.checked 6 2 true) &&
      atHome (arriving queued (request enq)) == some (.checked 8 0 true))) = true := by decide +kernel

/-- HomesPerformTheirRequests: an allocated enqueue that is acknowledged; then a dequeue that reads its slot, and one that its block
still owes a commit. -/
def enqueued : State := after (.queueEnqAtHome 80) (arriving queued (request true))

def dequeued : State := after (.queueDeqAtHome 80) (arriving (after (.queueEnqWriteAck 0x400) enqueued) (request false))

theorem witness_slots : (enqueued.qhome 0x400).enqs = [.actor 0 (.fibre 0)] ∧
    (match (dequeued.qhome 0x400).deqs with
      | f :: _ => !dequeued.beforeCommit f &&
          (let s0 := ((dequeued.evictCtl f 0x400).ctlBytes 0x400).1
           match (s0.readSlot (some f) (s0.ctl 0x400) (4 * stackOfCell ((s0.paCell 0x400).getD 0)) (s0.ctl 0x400).head).2 with
            | .ok bs => decide (bs = [5, 0, 0, 0])
            | .error _ => false)
      | [] => false) = true := by decide +kernel

/-- HomesPerformTheirRequests: LDT and STT at their home, with the tag full and empty, of this device's issuers and another's. -/
def tagging (i : Instr) (full : Bool) : State :=
  let s := after i loads
  { s with tags := if full then [(s.paCell 0x20010).getD 0 / 16] else [] }

/-- Whether the tagged request's condition holds at its home; none where the hypotheses fail. -/
def tagHolds (s : State) : Option Bool :=
  match s.treqs with
  | [q] =>
    match s.paCell q.pa with
    | some c =>
      if q.waiting || q.busy || s.tagAhead q.src (s.homeStop q.pa) (some q.rid) || (q.remote.isNone && s.stepped q.bid q.who) || !s.rollFree q.pa ||
          (s.poisonIn c q.size).isSome then none
      else some (if q.load then s.tags.contains (c / 16) else !q.condition || !s.tags.contains (c / 16))
    | none => none
  | _ => none

/-- With every entry of the roll in use an LDT whose granule is empty is answered busy. -/
def rollFull (n : Nat) : State :=
  let s := tagging (.ldt 12 8 4 0 0 false) false
  { s with qreqs := s.qreqs ++ List.replicate n (parkedReq true) }

theorem paCell_of_qreqs (s : State) (qs : List QReq) (pa : Nat) : ({ s with qreqs := qs } : State).paCell pa = s.paCell pa := rfl

theorem witness_full_roll (n : Nat) (hn : 65536 ≤ n) : (rollFull n).rollFree 0x20010 = false ∧
    (rollFull n).treqs = (tagging (.ldt 12 8 4 0 0 false) false).treqs := by
  have hc : ((tagging (.ldt 12 8 4 0 0 false) false).paCell 0x20010).map stackOfCell = some 0 ∧
      ((tagging (.ldt 12 8 4 0 0 false) false).paCell 0x400).map stackOfCell = some 0 := by decide +kernel
  have h20 : ((rollFull n).paCell 0x20010).map stackOfCell = some 0 := by rw [rollFull, paCell_of_qreqs]; exact hc.1
  have h4 : ((rollFull n).paCell (parkedReq true).pa).map stackOfCell = some 0 := by rw [rollFull, paCell_of_qreqs]; exact hc.2
  refine ⟨?_, rfl⟩
  obtain ⟨c, h1, h2⟩ := Option.map_eq_some_iff.mp h20
  have h3 : n ≤ (rollFull n).rollUsed 0 := by
    have hq : (rollFull n).qreqs = (tagging (.ldt 12 8 4 0 0 false) false).qreqs ++ List.replicate n (parkedReq true) := rfl
    unfold State.rollUsed
    rw [hq, List.filter_append, List.filter_replicate, if_pos (by rw [h4]; rfl), List.length_append, List.length_replicate]
    omega
  simp only [State.rollFree, h1, h2, decide_eq_false_iff_not]
  omega

/-- A tagged request of another device, and one for it. -/
def fromAbroad (s : State) : State := { s with treqs := s.treqs.map (fun q => { q with remote := some (5, 9) }) }

def forAbroad : State := { loads with treqs := [{ loads.tagReq { blk := placedBlock 0 0, who := .lead, ctx := (placedBlock 0 0).body.lead }
  { va := 0x60010, pa := 5 * 2 ^ 42, len := 4, entry := 0 } true true [] with rid := 7 }] }

theorem witness_tags : tagHolds (tagging (.ldt 12 8 4 0 0 false) false) = some false ∧
    tagHolds (tagging (.ldt 12 8 4 0 0 false) true) = some true ∧
    tagHolds (tagging (.stt 2 8 4 1 0 false) true) = some false ∧ tagHolds (tagging (.stt 2 8 4 1 0 false) false) = some true ∧
    tagHolds (fromAbroad (tagging (.stt 2 8 4 1 0 false) true)) = some false ∧
    forAbroad.treqs.all (fun q => (forAbroad.paCell q.pa).isNone && forAbroad.away q.pa && !q.waiting && !q.busy &&
      !forAbroad.tagAhead q.src (forAbroad.homeStop q.pa) (some q.rid)) = true := by
  decide +kernel

/-- EngineOperationsAdvance and EngineOperationsEndWithTheirRecord: a copy; operations made of a bulk copy from memory to memory. -/
def copying : State := after (.cpy 6 4 4 false) (memory (.fibre 0) [(4, 0x10100), (6, 0x10200)])

def bulky (f : EngOp → EngOp) : State :=
  let s := after (.cpyb 12 10 126 false .always) (withRecord 0x1000 0x10600 0x10700)
  { s with ops := s.ops.map f }

/-- Whether its one operation meets this, on a resident block that is not a trailing copy. -/
def operation (s : State) (f : EngOp → Block → Bool) : Bool :=
  match s.ops with
  | [o] => match s.block? o.bid with
    | some b => b.core.isSome && decide (b.role ≠ .trailing) && decide (s.op? o.oid = some o) && f o b
    | none => false
  | _ => false

def okUnit (r : State × UnitData) : Option (State × List Byte × Option (Nat × Nat)) :=
  match r with
  | (t, .ok bs p) => some (t, bs, p)
  | _ => none

/-- A copy whose writes another device has still to acknowledge, or has acknowledged. -/
def copied : State := { copying with ops := copying.ops.map (fun o => { o with done := 1 }) }

theorem witness_copy : operation copying (fun o b => decide (o.kind = .cpy) && decide (o.phase = .running) && copying.opFirst o &&
      decide (o.done = 0) && (match okUnit (copying.engRead b.space o o.shape.src.toNat o.size none) with
        | some (s1, bs, p) => (okUnit (s1.engWrite b.space o o.shape.dst.toNat bs none (p.map (·.1)))).isSome
        | none => false)) = true ∧
    operation copied (fun o _ => decide (o.kind = .cpy ∧ o.phase = .running ∧ o.done ≠ 0) && copied.opFirst o) = true := by decide +kernel

/-- Whether a unit can go: first of its class, running, not done. -/
def going (s : State) (f : EngOp → Block → Bool) : Bool :=
  operation s (fun o b => decide (o.kind ≠ .cpy ∧ o.kind ≠ .mdrain ∧ o.phase = .running) && s.opFirst o &&
    decide (o.done < o.shape.total) && f o b)

/-- What its raw source gives: poisoned or not, or nothing. -/
def gathers (s : State) (f : EngOp → Block → State → List Byte → Option (Nat × Nat) → Bool) : Bool :=
  going s (fun o b => !o.shape.dec && o.shape.writes o.done && decide (o.shape.skind = 0) &&
    (match okUnit (s.gather b.space o o.done (o.shape.unitLen o.done)) with
      | some (s1, bs, p) => f o b s1 bs p
      | none => false))

/-- The bulk copy with another shape; its source with a compressed block's header. -/
def shaped (f : Shape → Shape) : State := bulky (fun o => { o with shape := f o.shape })

def compressed (header : Nat) : State :=
  let s := (shaped (fun h => { h with dec := true })).homeWrite 0x600 (toBytes 8 header)
  { s with ops := s.ops.map (fun o => { o with size := 0 }) }

theorem witness_units : going (shaped (fun h => { h with valid := [0] })) (fun o _ => !o.shape.dec && !o.shape.writes o.done) = true ∧
    gathers (shaped (fun h => { h with dkind := 1 })) (fun o _ _ _ p => decide (o.shape.dkind ≠ 0) && p.isNone) = true ∧
    gathers ({ shaped (fun h => { h with dkind := 1 }) with poison := [(48, 1)] }) (fun o _ _ _ p => decide (o.shape.dkind ≠ 0) && p.isSome) =
      true ∧
    gathers (bulky id) (fun o b s1 bs p => decide (o.shape.dkind = 0 ∧ o.shape.addm = false) &&
      (okUnit (s1.tick1.engWrite b.space o (o.shape.dstAt o.done) (o.blurred s1.fresh 0 (o.shape.dstAt o.done) bs) (some o.shape.dfmt)
        (p.map (·.1)))).isSome) = true ∧
    gathers (shaped (fun h => { h with addm := true })) (fun o b s1 bs p => decide (o.shape.dkind = 0 ∧ o.shape.addm = true) &&
      (s1.tick1.engAdd b.space o (o.shape.dstAt o.done) (wordsOf (o.shape.unitLen o.done) bs)
        o.shape.dfmt (p.map (·.1)) (o.freeAt s1.fresh 0)).2.toOption.isSome) = true ∧
    going (bulky (fun o => { o with sending := true })) (fun o _ => o.sending) = true ∧
    going (bulky id) (fun o _ => !o.sending) = true ∧
    going (shaped (fun h => { h with skind := 1 })) (fun o _ => !o.shape.dec && o.shape.writes o.done && decide (o.shape.skind = 1)) = true := by
  decide +kernel

/-- The same operation when it has delivered the block's first sector. -/
def consumed (s : State) : State := { s with ops := s.ops.map (fun o => { o with done := 8, shape := { o.shape with box := [16], valid := [16] } }) }

theorem witness_streams : going (compressed 0x20013) (fun o b => o.shape.dec &&
      (match ((compressed 0x20013).stream b.space o o.done (o.shape.unitLen o.done)).2 with
        | .bad k => decide (k = 1)
        | _ => false)) = true ∧
    going (compressed 0x20010) (fun o b => o.shape.dec && o.shape.writes o.done &&
      (match ((compressed 0x20010).stream b.space o o.done (o.shape.unitLen o.done)).2 with
        | .ok bs _ => decide (bs.length = 16)
        | _ => false)) = true ∧
    going (consumed (compressed 0x20010)) (fun o b => o.shape.dec &&
      (match ((consumed (compressed 0x20010)).stream b.space o o.done (o.shape.unitLen o.done)).2 with
        | .next off first => decide (off = 40 ∧ first = 1)
        | _ => false)) = true := by decide +kernel

theorem witness_triggers :
    (let s := bulky (fun o => { o with phase := .waitTrigger, shape := { o.shape with trig := 2 }, tq := 0x10403 })
     operation s (fun o _ => decide (o.phase = .waitTrigger ∧ o.shape.trig = 2) &&
       !s.inFlight (.trigger o.oid))) = true ∧
    (let s := bulky (fun o => { o with phase := .waitTrigger, shape := { o.shape with trig := 1 }, readers := [7] })
     operation s (fun o b => decide (o.phase = .waitTrigger ∧ o.shape.trig = 1) &&
       (s.pendingReaders (b.core.getD 0) o.bid o.shape.tbuf).all (fun m => !o.readers.contains m))) = true := by decide +kernel

/-- Whether the operation has ended, is the oldest of its class and awaits no acknowledgement. -/
def ends (s : State) (f : EngOp → Block → Bool) : Bool :=
  operation s (fun o b => decide (o.phase = .ended) && s.opOldest o && !s.writesAbroad o.oid && f o b)

/-- An ended operation without a completion queue that has met a fault, in a block of this role; whether it still stands after its issuer
has been stopped: none where the hypotheses fail. -/
def faultedEnd (role : Role) (code : TrapCode) : Option Bool :=
  let s := roled role (bulky (fun o => { o with phase := .ended, code := some code, status := 1 }))
  match s.ops with
  | [o] => match s.block? o.bid, o.trap? with
    | some b, some x =>
      let s1 := if o.shape.dkind = 0 then s.tellPartner b o.who o.kind.cls else s
      if b.core.isSome && s.opOldest o && !s.writesAbroad o.oid && decide (s.op? o.oid = some o) && decide (o.phase = .ended ∧ o.cq = 0 ∧ b.role = role)
      then some ((s1.engineTrap b o.who o.pc x).op? o.oid).isSome else none
    | _, _ => none
  | _ => none

theorem witness_faulted_ends : faultedEnd .single .perm = some true ∧ faultedEnd .leading .perm = some true ∧
    faultedEnd .trailing .perm = some true ∧ faultedEnd .single .poison = some false := by decide +kernel

theorem witness_ends : ends (bulky (fun o => { o with phase := .ended })) (fun o _ => decide (o.cq = 0 ∧ o.code = none)) = true ∧
    ends (bulky (fun o => { o with phase := .ended, cq := 0x10403 })) (fun o b => decide (o.cq ≠ 0 ∧ b.role ≠ .trailing)) = true ∧
    (let s := roled .trailing (bulky (fun o => { o with phase := .ended, cq := 0x10403 }))
     match s.ops with
      | [o] => decide (o.phase = .ended ∧ o.cq ≠ 0) && s.opOldest o && !s.writesAbroad o.oid &&
          (s.block? o.bid).any (fun b => b.core.isSome && decide (b.role = .trailing))
      | _ => false) = true := by decide +kernel

/-- MatrixCommandsStartAndComplete: an MZERO next, an MMA next whose slice is latched, one loading, each running and done. -/
def arrayOf (zero : Bool) (running : Bool) : State :=
  let s := after (if zero then .mzero 3 false .always else .mma 3 false .always) lead
  let a := s.array 0
  let t : State := { s with time := s.time + 10 ^ 9 }
  let ready : MArray := { a with loading := none, latches := [⟨0, 0, true, []⟩, ⟨0, 0, true, []⟩] }
  if running then t.setArray { ready with queue := [], running := (a.queue.head?).map (fun c => (c, 0)) } else t.setArray ready

theorem witness_arrays :
    (let a := (arrayOf true false).array 0
     a.running.isNone && (match a.next with
      | some c => c.zero
      | none => false)) = true ∧
    (let a := (arrayOf false false).array 0
     a.running.isNone && (match a.next with
      | some c => !c.zero && (a.ready c).isSome
      | none => false)) = true ∧
    (([true, false] : List Bool).all (fun z => match ((arrayOf z true).array 0).running with
      | some (c, start) => decide (c.zero = z ∧ cmdCycles c ≤ (arrayOf z true).allowedSince 0 start)
      | none => false)) = true ∧
    (((after (.mma 3 false .always) lead).array 0).loading.map (fun l => l.2.2)).isSome = true := by decide +kernel

/-- SummitJoinsAndDelivers: an MDRAIN that runs; a contribution with and without an open instance. -/
def draining : State := after (.mdrain 12 false .always) lead

def contributed : State := after (.mdrainReadoutDone ((draining.ops.map (·.oid)).headD 0)) draining

def joined : State := after (.summitContributionArrive ((contributed.contribs.map (·.cid)).headD 0)) contributed

def instanceOf (f : SummitDesc → SummitDesc) (sent : Nat) : Instance :=
  { iid := 99, params := placedParams, desc := f (SummitDesc.of 0), count := 1, parts := [], members := [], failed := none, closed := true,
    sent := sent }

/-- Whether a closed instance delivers: nothing of it on its way, and this of it. -/
def delivers (f : SummitDesc → SummitDesc) (sent : Nat) (g : State → Instance → Bool) : Bool :=
  let s : State := { placed with instances := [instanceOf f sent] }
  match s.instances.find? (fun i => i.iid == 99) with
  | some i => i.closed && !s.inFlight (.summit 99) && g s i
  | none => false

theorem witness_summit : operation draining (fun o b => decide (b.core = some 0 ∧ o.kind = .mdrain ∧ o.phase = .running) && draining.opFirst o) = true ∧
    contributed.contribs.length = 1 ∧ contributed.instances = [] ∧
    contributed.contribs.all (fun c => !contributed.summitAhead c) = true ∧ joined.instances.length < 2 ∧
    (({ contributed with instances := [{ instanceOf id 0 with closed := false }] } : State).instances.find? (fun i =>
      i.params.lid == placedParams.lid && i.desc.group == 0 && !i.closed)).isSome = true ∧
    contributed.contribs.map (fun c => (c.params.lid, c.desc.group)) = [(placedParams.lid, 0)] ∧
    delivers id 0 (fun s i => !i.desc.dest && decide (i.sent ≤ i.desc.nrow) && (s.refusedRow i).isNone) = true ∧
    delivers (fun d => { d with qh := 0x10403 }) 1 (fun _ i => !i.desc.dest && decide (i.sent = i.desc.nrow + 1 ∧ i.desc.qh ≠ 0)) = true ∧
    delivers (fun d => { d with dest := true }) 5 (fun _ i => i.desc.dest && decide (i.sent < 6 * (i.desc.nrow + 1))) = true ∧
    delivers (fun d => { d with dest := true }) 6 (fun _ i => decide (6 * (i.desc.nrow + 1) ≤ i.sent)) = true ∧
    delivers id 1 (fun _ i => decide (i.sent = i.desc.nrow + 1 ∧ i.desc.qh = 0)) = true ∧
    delivers (fun d => { d with qh := 0x10403 }) 2 (fun _ i => decide (i.desc.nrow + 1 < i.sent)) = true := by decide +kernel

/-- SummitInstancesAddTheirMembers: an instance of the group of the contribution that arrives, whose members are one more than memb, of
which this many have come; whether the contribution agrees with it, whether it has failed and whether a row of it is refused with the
contribution added. -/
def joining (memb count : Nat) (failed : Bool) (f : SummitDesc → SummitDesc) : Option (Bool × Bool × Bool) :=
  match contributed.contribs with
  | [c] =>
    let i : Instance := { iid := 99, params := c.params, desc := f { c.desc with memb := memb }, count := count, parts := [], members := [],
                          failed := if failed then some (.barerr, 1) else none, closed := false, sent := 0 }
    let s : State := { contributed with instances := [i] }
    let c1 : Contribution := { c with desc := { c.desc with memb := memb } }
    if decide (s.instances.find? (fun x => x.iid == i.iid) = some i) then
      some (decide ({ i.desc with srow := 0 } = { c1.desc with srow := 0 }), i.failed.isSome,
        (s.refusedRow { i with count := i.count + 1, parts := [c1.cells] }).isSome)
    else none
  | _ => none

theorem witness_joins : joining 1 0 false id = some (true, false, false) ∧ joining 1 1 false id = some (true, false, false) ∧
    joining 1 0 false (fun d => { d with nrow := d.nrow + 1 }) = some (false, false, false) ∧ joining 1 0 true id = some (true, true, false) ∧
    joining 1 0 true (fun d => { d with nrow := d.nrow + 1 }) = some (false, true, false) := by decide +kernel

/-- Bytes of memory at a physical address. -/
def poke (s : State) (pa : Nat) (bs : List Byte) : State := s.homeWrite ((s.paCell pa).getD 0) bs

/-- Tables at 0x20_0000 that map the first GiB to itself with every permission and the second to another device, which launch queue 0
uses; a save pool. -/
def mapped : State :=
  let s := poke (poke placed 0x200000 (toBytes 8 0x201001)) 0x201000 (toBytes 8 0x1F ++ toBytes 8 (5 * 2 ^ 42 + 0x1F))
  { s.setLq 0 { s.lq 0 with handle := 0x10405, root := 0x200000, en := true, priv := true, faultq := 0x10803 } with
    dean := { (s.setLq 0 { s.lq 0 with handle := 0x10405, root := 0x200000, en := true, priv := true, faultq := 0x10803 }).dean with
      svbase := 0x1000000, svsize := 64 } }

/-- That machine with one element of a queue at 0x1_0400 with this code, its area at 0x1_1000. -/
def offering (code : Nat) (el : List Byte) : State :=
  let s := (mapped.initHome 0x10400 0x11000 3 code 2).1
  let t := s.sendAgent .trace (BitVec.ofNat 64 (0x10400 + code)) 0 el
  after (.queueEnqWriteAck 0x10400) (after (.queueEnqAtHome s.fresh) t)

/-- A launch record: code at 0x1_0000, no lead, one block of one fibre and 16 registers, its TCB at 0x1_2000. -/
def launchRecordOf (dim tcb : Nat) : List Byte :=
  toBytes 8 0x10000 ++ toBytes 8 0 ++ toBytes 8 (dim * (1 + 2 ^ 16 + 2 ^ 32)) ++ toBytes 8 (2 * 2 ^ 20) ++ toBytes 8 tcb ++ toBytes 88 0

def launchRecord (dim : Nat) : List Byte := launchRecordOf dim 0x12000

/-- What comes of the record at the head of a queue: its TCB is asked of another device, or the record is accepted or refused. -/
inductive Judgement where
  | asked | accepted | refused (reason : Nat)
deriving DecidableEq

/-- LaunchRecordsAreJudged: what a top unit finds at the head of its queue, or has been sent; none where the hypotheses fail. -/
def judged (s : State) : Option Judgement :=
  let q := s.lq 0
  if !q.en || !handleOk q.handle.toNat || s.judging 0 || decide (4096 ≤ (s.launches.filter (fun l => l.params.queue / 32 == 0)).length) then none
  else
    let taken : Option (State × List Byte) :=
      match s.takeSent 0 with
      | some r => some r
      | none =>
        match s.controlBlock (s.queueSpace 0 (agentCore 0)) q.handle.toNat needRW with
        | (s1, .ok p) =>
          if p.mig || s.away p.pa || s.readsHeld p.pa then none
          else
            match s1.forgetAgent.takeNow (agentStop .refusal 0) p.pa (bits q.handle.toNat 0 3) with
            | (s2, .ok (some bs)) => some (s2, bs)
            | _ => none
        | _ => none
    match taken with
    | none => none
    | some (s2, bs) =>
      let x := LaunchRecord.of bs 0 (s2.lq 0)
      match s2.agentFetch x.params.space x.params.tcb.toNat 64 (.judge 0 bs) with
      | (_, none) => some .asked
      | (s3, some tcb) =>
        if decide (s3.lq 0 ≠ s2.lq 0) then none
        else
          match s3.refusal x (tcb.map tcbWords), tcb.isSome, (s3.launch? 0).isNone with
          | none, true, true => some .accepted
          | some k, _, _ => some (.refused k)
          | _, _, _ => none

def withTcb (s : State) : State := poke s 0x12000 (toBytes 24 0 ++ toBytes 8 0x13000)

/-- A machine to which another device has sent the record. -/
def sentRecord : State := { mapped with dean := { mapped.dean with taken := [(0, launchRecord 1)] } }

theorem witness_judgements : judged (withTcb (offering 5 (launchRecord 1))) = some .accepted ∧
    judged (withTcb (offering 5 (launchRecord 0))) = some (.refused 2) ∧ judged (withTcb sentRecord) = some .accepted ∧
    judged (offering 5 (launchRecordOf 1 0x40012000)) = some .asked ∧
    judged (withTcb (offering 5 (launchRecordOf 1 0x8000012000))) = some (.refused 3) := by decide +kernel

/-- A launch like the one that record describes; its block seated on core 1 as the block of identifier 33. -/
def accepted : State :=
  let x := LaunchRecord.of (launchRecord 1) 0 (mapped.lq 0)
  { mapped with launches := [{ params := x.params, footprints := x.footprints, cq := 0, status := .ready, next := 0, retired := 0,
                               abortedBlocks := 0, cyc := 0, acceptedAt := 0, unseatedSince := [], held := false, reported := false,
                               reportDone := false }] }

def seated : State :=
  { accepted with
    blocks := accepted.blocks ++ [{ placedBlock 33 0 with params := (LaunchRecord.of (launchRecord 1) 0 (mapped.lq 0)).params, core := some 1,
                                                          extent := 0x1000000 }],
    launches := accepted.launches.map (fun l => { l with status := .running, next := 1 }),
    dean := { accepted.dean with pool := [(33, 0x1000000, 262144)] } }

def finished (f : Launch → Launch) : State :=
  { seated with launches := seated.launches.map (fun l => f { l with retired := l.params.total }) }

/-- LaunchesComplete: a launch without a CQ is free at once; of one with a CQ the TCB is read here, or asked of another device. -/
def reports (f : Launch → Launch) : Option (Bool × Bool) :=
  let s := finished f
  match s.launch? 0 with
  | some l =>
    let st := if l.abortedBlocks > 0 then 6 else 4
    let s2 := ((s.tcbStatus l.params st).trialLaunchEnd l.params.lid).modLaunch l.params.lid (fun x =>
      { x with status := if st = 4 then .done else .aborted, reported := true, reportDone := decide (l.cq = 0) })
    if l.reported || decide (l.retired + l.abortedBlocks < l.params.total) then none
    else if decide (l.cq = 0) then (if (s2.launch? 0).isSome && !s2.completing 0 then some (true, false) else none)
    else
      match s2.agentFetch l.params.space l.params.tcb.toNat 64 (.report 0) with
      | (s3, r) => (s3.launch? 0).bind (fun m => if m.reportDone then none else some (false, r.isNone))
  | none => none

theorem witness_reports : reports id = some (true, false) ∧ reports (fun l => { l with cq := 0x10803 }) = some (false, false) ∧
    reports (fun l => { l with cq := 0x10803, params := { l.params with tcb := 0x40012000 } }) = some (false, true) ∧
    ((finished (fun l => { l with reported := true, reportDone := true })).launch? 0).map (fun l => l.reported && l.reportDone) = some true ∧
    (finished id).completing 0 = false ∧
    ((finished (fun l => { l with reported := true })).launch? 0).map (fun l => l.reported && !l.reportDone) = some true := by
  decide +kernel

/-- SuccessorsAreDecremented: what a launch that is done finds: its two words asked of another device, no successors, a list that is not
aligned, one asked of another device, one that does not translate, a list. -/
inductive Successors where
  | asked | none | misaligned | listAsked | unreadable | list (n : Nat)
deriving DecidableEq

def successorsOf (s : State) : Option Successors :=
  match s.launch? 0 with
  | some l =>
    if !l.reported || !l.reportDone || s.completing 0 || decide (l.retired + l.abortedBlocks < l.params.total ∨ l.status ≠ .done) then Option.none
    else
      match s.agentFetch l.params.space (l.params.tcb.toNat + 8) 16 (.count 0) with
      | (_, none) => some .asked
      | (s1, some (some ws)) =>
        if fieldAt ws 0 2 = 0 then some .none
        else if fieldAt ws 8 8 % 8 ≠ 0 then some .misaligned
        else
          match s1.agentFetch l.params.space (fieldAt ws 8 8) (8 * fieldAt ws 0 2) (.list 0) with
          | (_, none) => some .listAsked
          | (_, some none) => some .unreadable
          | (_, some (some list)) => some (.list (list.length / 8))
      | _ => Option.none
  | Option.none => Option.none

/-- A launch whose completion has been reported, with these words of NSUCC and SUCCL in its TCB. -/
def succeeding (nsucc succl tcb : Nat) : State :=
  poke (finished (fun l => { l with reported := true, reportDone := true, status := .done, params := { l.params with tcb := BitVec.ofNat 64 tcb } }))
    0x12008 (toBytes 8 nsucc ++ toBytes 8 succl)

/-- The word of the successor's TCB at 0x1_4000 that a decrement finds, and whether a waiting launch of this package has that TCB. -/
def decrements (pred waiting : Nat) (va : Nat) : Option (Nat × Bool) :=
  let s := poke accepted 0x14000 (toBytes 8 (pred * 2 ^ 32 + waiting))
  let t : State := { s with launches := s.launches ++ s.launches.map (fun l =>
    { l with status := .waiting, params := { l.params with lid := 1, tcb := 0x14000 } }) }
  match t.launch? 0 with
  | some l => match t.agentPieces l.params.space va 8 needRW with
    | (s1, .ok (k :: ps)) => match s1.readHome l.params.space.core (k :: ps) .normal with
      | (s2, .ok bs) => some (bits (ofBytes bs) 32 16, (s2.launches.find? (fun l => decide (l.status = .waiting) &&
          match (s2.agentPieces l.params.space l.params.tcb.toNat 8 needRW).2 with
          | .ok (y :: _) => y.pa == k.pa
          | _ => false)).isSome)
      | _ => none
    | _ => none
  | none => none

theorem witness_successors : successorsOf (succeeding 0 0 0x12000) = some .none ∧ successorsOf (succeeding 1 4 0x12000) = some .misaligned ∧
    successorsOf (succeeding 1 0x15000 0x12000) = some (.list 1) ∧ successorsOf (succeeding 2 0x40015000 0x12000) = some .listAsked ∧
    successorsOf (succeeding 1 0x8000015000 0x12000) = some .unreadable ∧ successorsOf (succeeding 0 0 0x40012000) = some .asked ∧
    decrements 0 1 0x14000 = some (0, true) ∧ decrements 1 1 0x14000 = some (1, true) ∧ decrements 2 1 0x14000 = some (2, true) ∧
    decrements 1 1 0x16000 = some (0, false) ∧ decrements 1 1 0x40014000 = none ∧ decrements 1 1 0x8000014000 = none := by decide +kernel

/-- BlocksAreSeatedWhereTheyFit, in both modes of DN_CTL: unit 0 has a fresh block to seat, unit 1 nothing; where the dean of stack 0
has served unit 0 last and unit 1 offers the same, unit 0 yields. -/
def seats (s : State) : Bool :=
  match s.seatOffer 0 with
  | (s1, some (l, .fresh 0)) =>
    !s.yields 0 && ((if l.status = .ready then s1.tcbStatus l.params 3 else s1).placeWork l (.fresh 0) []).isSome
  | _ => false

def contended : State :=
  { accepted with
    launches := accepted.launches ++ accepted.launches.map (fun l => { l with params := { l.params with lid := 1, queue := 32 } }),
    dean := { accepted.dean with lastUnit := [(0, 0)], rrStack := [(1, 0)] } }

theorem witness_seats : seats accepted = true ∧ seats { accepted with dean := { accepted.dean with drr := true } } = true ∧
    accepted.yields 1 = false ∧ (accepted.seatOffer 1).2 = none ∧ contended.yields 0 = true := by
  decide +kernel

/-- ModesPickTheirQueue: two queues of unit 0 with ready launches of one priority, in both modes, of which queue 0 was ready before, or has
a positive deficit and was visited last. -/
def competing (drr : Bool) : State :=
  let s : State := { accepted with launches := accepted.launches ++ accepted.launches.map (fun l => { l with params := { l.params with lid := 1, queue := 3 } }) }
  let t : State := if drr then { s with dean := { s.dean with drr := true, visit := [(0, 0)] } } else s
  t.setLq 0 { t.lq 0 with wasReady := !drr, pass := 7, deficit := if drr then 9 else 0 }

theorem witness_modes : (([true, false] : List Bool).all (fun drr =>
      ((competing drr).seatOffer 0).2.isSome && decide ((competing drr).dean.drr = drr) &&
        decide (((competing drr).readyQueues 0).map (fun r => (r.1, r.2.1.params.prio)) = [(0, 0), (3, 0)]))) = true ∧
    ((competing false).lq 0).wasReady = true ∧ ((competing false).lq 3).wasReady = false ∧
    (∀ r ∈ (competing true).readyQueues 0, ((competing true).lq r.1).wasReady = false) ∧
    aget (competing true).dean.visit 0 = some 0 ∧ 0 < ((competing true).lq 0).deficit := by decide +kernel

/-- BlocksArePreemptedAndResume: every die but die 0 in an emergency, on it four blocks, and a launch of higher priority that
needs a whole core and has waited. -/
def crowded : State :=
  { accepted with
    time := 10 ^ 9, blocks := (List.range 4).map (fun k => { placedBlock k 0 with core := some k }),
    launches := accepted.launches.map (fun l => { l with unseatedSince := [(0, 0)], params := { l.params with
      prio := 9, fibreCount := 1024, initialCount := 1024, allocation := 1024 } }),
    dean := { accepted.dean with svsize := 4096 },
    governors := (List.range 32).map (fun k => (k, { accepted.governor k with emergency := decide (k ≠ 0) })) }

/-- The seated block off its core. -/
def saved : State := seated.modBlock 33 (fun b => { b with core := none })

theorem witness_victim : (crowded.launch? 0).map (fun l => (l.held, (crowded.victimFor l).map (·.bid))) = some (false, some 3) ∧
    crowded.blocks.all (fun b => b.saveReq.isNone) = true := by decide +kernel

theorem witness_preemptions : lowestYoungest (crowded.blocks.filter (fun b => b.running && !b.tooSoon crowded.time && decide (b.core.map stackOf = some 0))) =
      crowded.block? 3 ∧ (crowded.block? 3).isSome = true ∧
    (let s := crowded.setGovernor 0 { crowded.governor 0 with emergency := true }
     (s.governor 0).emergency && decide ((s.governor 0).lastPreempt + nsTime 10000 ≤ s.time)) = true ∧
    (crowded.block? 3).map (fun b => (b.role, b.running, b.tooSoon crowded.time)) = some (.single, true, false) ∧
    (crowded.block? 3).map (fun b => ({ b with retry := some (10 ^ 10, { kind := 0, cause := 2 }) } : Block).tooSoon crowded.time) = some true ∧
    (let s := seated.modBlock 33 (fun b => { b with retry := some (0, { kind := 0, cause := 2 }) })
     (s.block? 33).map (fun b => decide (b.retry.map (·.1) = some 0) && decide (0 ≤ s.time) && b.running)) = some true := by decide +kernel

theorem witness_resume : saved.yields 0 = false ∧ (match saved.seatOffer 0 with
    | (u, some (l0, .again b)) => decide (saved.block? 33 = some b ∧ b.bid = 33 ∧ b.params.queue = 0 ∧ b.role = .single) &&
      (let s0 := if l0.status = .ready then u.tcbStatus l0.params 3 else u
       match s0.launch? b.params.lid with
      | some l => !l.held && (match s0.place l (b.bx, b.by_, b.bz) b.seatee none [] with
        | some ([_], _) => (match (s0.logPlan l (b.bx, b.by_, b.bz)).restored b with
            | .body _ => true
            | _ => false)
        | _ => false)
      | none => false)
    | _ => false) = true := by decide +kernel

/-- BlocksAreSavedAndCheckpointed: a save that fits, one of each kind whose nine copies find no room in the pool, one whose extent
does not exist, one of a block that has met a fault; a due checkpoint that fits, one without room, one with stores to commit. -/
def saving (kind copies size : Nat) : State :=
  let s := seated.modBlock 33 (fun b => { b with saveReq := some { kind := kind, cause := 2 } })
  { s with ops := copying.ops.flatMap (fun o => List.replicate copies { o with bid := 33 }), dean := { s.dean with svsize := size } }

/-- How a save comes to an end: none for want of room. -/
def savable (s : State) : Option (Option Sealed) :=
  match s.block? 33 with
  | some b =>
    match b.saveReq, b.core with
    | some r, some c =>
      let s1 := (s.savedWith b r).foldl (fun t x => t.withdrawAll x.bid) s
      if decide (s.savedWith b r ≠ [b]) || (decide (r.kind = 0) && b.primary.isSome) || !s1.settled b then none
      else
        let s2 := ((s1.endSteps 33 1).freeExcess b b.ckptExcess).pushOf 33
        let im := s2.imageOf b r.kind r.cause b.extent
        match s2.takeExcess 33 b.extent (excessOf b.params.reserve (im.sections b.params)) with
        | none => some (if r.kind = 0 then none else some ((s2.saveShort 33).writeImage c b im [] true).2.2)
        | some (t, extra) => some (some (t.writeImage c b im extra false).2.2)
    | _, _ => none
  | none => none

theorem witness_saves : savable (saving 0 1 64) = some (some .whole) ∧ savable (saving 0 9 4) = some none ∧
    savable (saving 1 9 4) = some (some .truncated) ∧
    savable ((saving 0 1 64).modBlock 33 (fun b => { b with extent := 0x38000000000 })) = some (some .unwritten) ∧
    (let s : State := { saving 0 1 64 with queues := [⟨0x400, false, [.actor 33 (.fibre 0)], []⟩] }
     (s.block? 33).map (fun b => (s.withdrawAll 33).settled b)) = some false ∧
    (let s := (saving 0 1 64).modBlock 33 (fun b => { b with primary := some (b.faultRec .lead 0 { code := .trap, detail := 0, addr := 0 } false) })
     (s.block? 33).map (fun b => (s.savedWith b { kind := 0, cause := 2 }).any (fun x => x.primary.isSome))) = some true := by decide +kernel

/-- The block whose checkpoint is due, with the extent for it here; how the seal ends: whole, without room, unwritten. -/
def sealing (ckpt copies size : Nat) : State :=
  (saving 0 copies size).modBlock 33 (fun b => { b.modCtx (.fibre 0) (fun c => { c with phase := { c.phase with sealing := .awaiting } }) with
    ckptExtent := ckpt, saveReq := none })

def sealsAs (s : State) : Option (Option Sealed) :=
  match s.block? 33 with
  | some b =>
    match b.core with
    | some core =>
      let s0 := s.freeExcess b []
      let b1 := b.mapCtx (fun _ c => c.unsealed)
      let im := s0.imageOf b1 2 0 b.ckptExtent
      if b.sealDue && s.settledBut b true && b.saveReq.isNone && b.body.stores.isEmpty then
        some ((s0.takeExcess 33 b.ckptExtent (excessOf b.params.reserve (im.sections b.params))).map (fun r =>
          (r.1.writeImage core b im r.2 false).2.2))
      else none
    | none => none
  | none => none

/-- An uncommitted byte store to an address. -/
def storeOf (va : Nat) : SbEntry := { kind := .st, va := BitVec.ofNat 64 va, szcode := 0, who := .fibre 0, pc := 0x10000, bytes := [(va, 7)] }

/-- The same block with a store of another fibre in its buffer. -/
def storing : State := (sealing 0x1100000 1 64).modBlock 33 (fun b =>
  { b with body := { b.body with buffer := [storeOf 0x10100] } })

theorem witness_seals : sealsAs (sealing 0x1100000 1 64) = some (some .whole) ∧ sealsAs (sealing 0x1000000 9 4) = some none ∧
    sealsAs (sealing 0x38000000000 1 64) = some (some .unwritten) ∧
    (storing.block? 33).map (fun b => (b.sealDue && storing.settledBut b true && !b.body.stores.isEmpty && decide (b.role = .single),
      match storing.drained b b.body.stores [] with
      | .go _ => true
      | _ => false)) = some (true, true) := by decide +kernel

/-- ResumeRecordsAnswerWhatTheyName: a resume record in DN_RESQ that names an XLATE record, a stopped block, or nothing. -/
def answering (action addr handle : Nat) (f : State → State) : State :=
  let s := f (offering 3 (toBytes 8 handle ++ toBytes 8 addr ++ toBytes 8 action ++ toBytes 8 0))
  { s with dean := { s.dean with resq := 0x10403 } }

def answer (s : State) (k : Nat) : Option Nat :=
  let h := s.dean.resq.toNat
  if h = 0 ∨ handleOk h = false ∨ bits h 0 3 ≠ 3 then none
  else
    match s.controlBlock (s.queueSpace s.dean.svq (agentCore s.dean.svq)) h needRW with
    | (s1, .ok p) =>
      if p.mig || s.away p.pa || s.readsHeld p.pa || (s.takeSent 64).isSome then none
      else
        match s1.forgetAgent.takeNow (agentStop .trace s.dean.svq) p.pa 3 with
        | (s2, .ok (some bs)) =>
          let r := ResumeRec.of bs
          if r.action ≠ k then none
          else
            match s2.answers r with
            | .nothing => some 0
            | .record _ => if r.zeros then some 1 else none
            | .stopped b => if r.zeros && b.primary.isSome && decide (b.role = .single) && decide (s2.block? b.bid = some b) then some 2 else none
        | _ => none
    | _ => none

/-- A miss whose fault record has been taken. -/
def missed (s : State) : State :=
  { s.takeTrap 0 (.fibre 0) 0x10000 { code := .xlate, detail := 0, addr := 0x90000 } with qreqs := [] }

def stopped (s : State) : State :=
  (s.takeTrap 0 (.fibre 0) 0x10000 { code := .trap, detail := 5, addr := 0 }).modBlock 0 (fun b => { b with awaiting := true, saveReq := none })

theorem witness_answers : answer (answering 0 0x90000 (fibreHandle 0 0 (.fibre 0)) missed) 0 = some 1 ∧
    answer (answering 2 0x90000 (fibreHandle 0 0 (.fibre 0)) missed) 2 = some 1 ∧
    answer (answering 1 0 (fibreHandle 0 0 (.fibre 0)) stopped) 1 = some 2 ∧
    answer (answering 2 0 (fibreHandle 0 0 (.fibre 0)) stopped) 2 = some 2 ∧ answer (answering 1 0 0 id) 1 = some 0 := by decide +kernel

/-- SignaturesAreCompared: a pair whose copies stand at their commit point, with these CRCs; and with faults. -/
def pairing (crc1 crc2 : DWord) : State :=
  let copy (bid core : Nat) (role : Role) (crc : DWord) : Block :=
    { placedBlock bid 0 with role := role, partner := 1 - bid, core := some core, body := { (placedBlock bid 0).body with
      fibres := (placedBlock bid 0).body.fibres.map (fun f => (f.1, { f.2 with crc := crc, phase := { f.2.phase with compare := .awaiting } })) } }
  { placed with blocks := [copy 0 0 .leading crc1, copy 1 4 .trailing crc2] }

/-- Its two copies where the statement's hypotheses hold. -/
def copiesOf (s : State) : Option (Block × Block) :=
  match s.pairOf 0 with
  | some (l, t) => if s.frozen l then none else some (l, t)
  | none => none

/-- That pair with a store in the leading copy's buffer, to a page with these bits of its entry. -/
def pairStoring (va bits : Nat) : State :=
  let e : TlbEntry := { core := 0, asn := 0, base := 0x20000, size := 0x10000, entry := BitVec.ofNat 64 (0x10000 + bits) }
  let s := (pairing 5 5).modBlock 0 (fun b => { b with body := { b.body with buffer := [storeOf va] } })
  { s with tlb := e :: s.tlb }

/-- Whether the copies stand at their point, none of their rows unread; whether their signatures agree; what the leading copy's drain leaves:
the number of entries, and the fault it meets. -/
def comparison (s : State) : Option (Bool × Bool × Nat × Option TrapCode) :=
  (copiesOf s).map (fun p =>
    let u := (s.flushCrc p.1.bid).flushCrc p.2.bid
    let l1 := (u.block? p.1.bid).getD p.1
    let t1 := (u.block? p.2.bid).getD p.2
    let armed := u.testArmed l1
    let d := (if armed then u.disarm else u).drain l1 l1.body.stores
    (p.1.primary.isNone && p.2.primary.isNone && p.1.atPoint.isSome && p.2.atPoint.isSome && !s.rowsUnread p.1 && !s.rowsUnread p.2,
      decide (l1.signature = if armed then t1.signature ^^^ u.dean.stxor else t1.signature), d.left.length,
      d.fault.map (fun f => f.2.2.code)))

def faulty (bid : Nat) (s : State) : State :=
  s.modBlock bid (fun b => { b with primary := some (b.faultRec (.fibre 0) 0x10000 { code := .trap, detail := 5, addr := 0 } false) })

/-- That pair while its next comparison is armed to differ. -/
def armedPair : State := { pairing 5 5 with dean := { placed.dean with stctl := 0x8000010000000000, stxor := 1 } }

theorem witness_comparisons : ([pairing 5 5, pairStoring 0x20000 0x9F, pairStoring 0x90000 0x1F, pairStoring 0x20000 0x1B, pairing 5 6,
      armedPair] : List State).map comparison =
    [some (true, true, 0, none), some (true, true, 1, none), some (true, true, 1, some .xlate), some (true, true, 1, some .perm),
      some (true, false, 0, none), some (true, false, 0, none)] := by decide +kernel

theorem witness_pair :
    (armedPair.block? 0).map (fun b => armedPair.testArmed b) = some true ∧
    (copiesOf (faulty 1 (faulty 0 (pairing 5 5)))).map (fun p => p.1.primary.isSome && p.2.primary.isSome) = some true ∧
    (copiesOf (faulty 0 (pairing 5 5))).map (fun p => (p.1.primary.map p.2.awaitsResult, p.2.primary.isNone, p.2.waitsForCopy)) =
      some (some false, true, true) ∧
    (copiesOf (faulty 0 ((pairing 5 5).modCtx 1 (.fibre 0) (fun c => { c with wait := some .pair, phase := { c.phase with compare := .none } })))).map
      (fun p => (p.1.primary.map p.2.awaitsResult, p.2.primary.isNone)) = some (some true, true) ∧
    (copiesOf (faulty 1 (pairing 5 5))).map (fun p => (p.1.primary.isNone, p.1.waitsForCopy)) = some (true, true) := by decide +kernel

/-- TrialsRunInWindows: a trial of one pair and of two, in each window, when it has ended; a core's last held cycle. -/
def trying (delayed : Bool) (n : Nat) : State :=
  { placed with time := 10 ^ 9, trial := { placed.trial with
      run := true, delayed := delayed, nwin := n, windowEnd := 10 ^ 9, pending := [(0, 1)] } }

theorem witness_trials : (trying false 2).trial.windowEnd ≤ (trying false 2).time ∧ (trying true 2).trial.pairs + 1 < max 1 2 ∧
    max 1 1 ≤ (trying true 1).trial.pairs + 1 ∧ sget 0 (trying true 1).trial.pending 0 = 1 ∧ bits 0x8003000000000000 48 8 ≠ 0 ∧
    bitAt 0x8003000000000000 63 = true := by decide +kernel

/-- GovernorsMoveOneStep: 10 µs and 1 ms after reset, with and without an emergency, on the readings where the cases meet; causes that
are still seen and that are not. -/
theorem witness_governors : (trying false 2).gvPolicy = false ∧ (State.reset.governor 0).lastStep + nsTime 10000 ≤ (trying false 2).time ∧
    (State.reset.governor 31).emergency = false ∧ (crowded.governor 31).emergency = true ∧
    (crowded.governor 31).emergencyAt + nsTime 1000000 ≤ 10 ^ 10 ∧
    (crowded.governor 31).lastStep + nsTime 10000 ≤ crowded.time ∧ (crowded.governor 31).overSince = none ∧
    (let g := (after (.governorEmergencyBegin [31] .junction110) crowded).governor 31
     g.causes = [.junction110] ∧ (∃ c ∈ g.causes, causeSeen c ⟨false, 110, 40, 900⟩ = true) ∧
       ∀ c ∈ g.causes, causeSeen c ⟨false, 109, 40, 900⟩ = false) ∧
    (({ crowded.governor 31 with overSince := some 0 } : Governor).overSince.getD 0) + nsTime 1000000 ≤ 10 ^ 10 := by decide +kernel

/-- ChannelsServeAndCountActivations: requests that wait, one urgent; a back-off that has ended; a row open, below and at its
threshold. -/
def waiting : Channel := (after (.ld 12 10 4 0 0 false) loads).channel 0

def bankAt (row : Option Nat) (n : Nat) : Bank := { openRow := row, counts := if n = 0 then [] else [(7, n)], rfmcnt := 0, backoff := 0, backoffEnd := some 5 }

/-- The requests of waiting of which the second is bulk, its share due or not; of which one is urgent; and none of them a candidate. -/
def mixed (since : Nat) (urgent : Bool) : Channel :=
  { waiting with bulksh := 8, sinceBulk := since, reqs := (waiting.reqs.take 1).flatMap (fun q => [q, { q with did := q.did + 100, cell := q.cell + 1, cls := .bulk, urgent := urgent }]) }

def stuck : Channel := { waiting with banks := (waiting.reqs.map (fun q => (q.bank, { waiting.bank q.bank with backoffEnd := some (10 ^ 12) }))) }

/-- The class of the request that is served next; whether some are urgent, and whether bulk requests wait and their share is due. -/
def order (c : Channel) : Option DramClass × Bool × Bool :=
  let bulk := c.candidates.filter (fun q => decide (q.cls = .bulk))
  ((c.next 0).map (·.cls), c.candidates.any (fun q => c.isUrgent 0 q), !bulk.isEmpty && decide (max 1 c.bulksh ≤ c.sinceBulk + 1))

theorem witness_orders : order (mixed 0 true) = (some .bulk, true, false) ∧ order (mixed 7 false) = (some .bulk, false, true) ∧
    order (mixed 6 false) = (some .normal, false, false) ∧ stuck.next 0 = none ∧
    (([mixed 7 false, stuck] : List Channel).all (fun c =>
      let s := loads.setChannel 0 c
      decide (s.channel 0 = c))) = true ∧ (({ mixed 0 false with reqs := (mixed 0 false).reqs.map (fun q => { q with reader := none, lands := [] }) } :
        Channel).next 0).map (fun q => (q.reader, q.lands)) = some (none, []) := by decide +kernel

theorem witness_channels : (waiting.next 0).isSome = true ∧
    ((waiting.setBank 3 (bankAt none 0)).bank 3).backoffEnd = some 5 ∧ bitAt 0x8000000000000000 63 = true ∧ bitAt 0 63 = false ∧
    (bankAt (some 7) 0).openRow = some 7 ∧ (bankAt none 62).openRow ≠ some 7 ∧ sget 0 (bankAt none 62).counts 7 + 1 < 64 ∧
    64 ≤ sget 0 (bankAt none 63).counts 7 + 1 := by decide +kernel

/-- RegisterWritesFollowAccessCodes: a queue enabled and not, a trial that runs and none, masks of each kind, a busy region. -/
theorem witness_registers : (mapped.lq 0).en = true ∧ (State.reset.lq 63).en = false ∧ (trying true 1).trial.run = true ∧
    State.reset.trial.run = false ∧ (State.reset.region 7).status ≠ 3 ∧ invertible (State.reset.region 7).staged.masks = true ∧
    keepsLines (State.reset.region 7).staged.masks = true ∧ invertible (List.replicate 35 0) = false ∧
    (let m := (State.reset.region 7).staged.masks.set 1 3
     invertible m = true ∧ keepsLines m = false) ∧
    ((after (.amapCommit 7 2) State.reset).region 7).status = 3 ∧ bitAt 2 1 = true := by decide +kernel

/-- HostPortsReachQueuesAndMemory: a fence accepted, refused and under way; a window with an element staged; windows of a full,
an empty, a broken, an unmapped and a misnamed queue; addresses inside and outside the regions. -/
def windowed (s : State) (h : DWord) : State := s.modWindow 0 0 (fun w => { w with handle := h })

/-- What QW_DEQ finds: 0 for a bad handle, 1 for a failed access, 2 for a failed check, 3 for an empty queue, 4 for an element, 5 for a
queue of another device. -/
def deqFinds (s : State) : Nat :=
  let h := (s.window 0 0).handle.toNat
  if handleOk h = false then 0
  else
    match s.controlBlock (s.queueSpace 0 (portCore 0)) h needRW with
    | (_, .error _) => 1
    | (s1, .ok p) =>
      if p.mig then 9
      else if s1.forgetAgent.away p.pa then 5
      else if s1.forgetAgent.readsHeld p.pa then 8
      else
        match (s1.forgetAgent.takeNow (agentStop (.window 0 0 0) 0) p.pa (bits h 0 3)).2 with
        | .error _ => 2
        | .ok none => 3
        | .ok (some _) => 4

/-- A fence of the pod that was written at time 5, by which another member is asked. -/
def fencing : State :=
  after (.hifence 0 9) { mapped with time := 5, peers := { mapped.peers with routes := [(12, 1)] } }

theorem witness_fences : (let p := State.reset.port 0
     p.busy = false ∧ 2 ≤ 10 % 16 ∧ 10 % 16 ≤ 10 ∧ bits 10 4 59 = 0) ∧ (2 ≤ 1 % 16) = False ∧ 7 % 16 < 8 ∧
    ((after (.hifence 0 7) { mapped with time := 5 }).port 0).busy = true ∧ (after (.hifence 0 7) mapped).peers.outstanding = [] ∧
    (fencing.port 0).busy = true ∧ (fencing.port 0).scope = 9 ∧ (fencing.port 0).fenceAt + nsTime 1000000 ≤ 10 ^ 10 ∧
    fencing.peers.outstanding.any (fun o => decide (o.use = .fence 0) && decide ((fencing.port 0).fenceFrom ≤ o.rid)) = true ∧
    (fencing.port 0).fenceDead = false ∧ (fencing.port 0).fenceAt + nsTime 1000000 > fencing.time ∧
    (let p := (after (.hifence 0 7) { mapped with time := 5 }).port 0
     p.fenceDead = false ∧ (after (.hifence 0 7) { mapped with time := 5 }).peers.outstanding = []) := by
  decide +kernel

/-- A window whose queue lies on another device. -/
def windowAbroad : State :=
  { windowed mapped 0x10403 with tlb := { core := portCore 0, asn := 0, base := 0x10000, size := 0x10000,
                                          entry := BitVec.ofNat 64 (5 * 2 ^ 42 + 0x1F) } :: mapped.tlb }

theorem witness_windows : deqFinds (windowed mapped 0x10407) = 0 ∧ deqFinds (windowed mapped 0x8000000403) = 1 ∧
    deqFinds (windowed mapped 0x10403) = 2 ∧ deqFinds (windowed (mapped.initHome 0x10400 0x11000 3 3 2).1 0x10403) = 3 ∧
    deqFinds (windowed (offering 3 (toBytes 32 7)) 0x10403) = 4 ∧ deqFinds windowAbroad = 5 ∧ codeSize 3 = (toBytes 32 7).length ∧
    ((windowed mapped 0x10403).window 0 0).fifo.length < 16 ∧
    ((after (.qwEnq 0 0 ⟨0x100, toBytes 32 7⟩) (windowed mapped 0x10403)).window 0 0).fifo = [toBytes 32 7] ∧
    ((after (.qwEnq 0 0 ⟨0x100, toBytes 32 7⟩) (windowed mapped 0x10403)).window 0 0).sending = none ∧
    ((after (.qwEnq 0 0 ⟨0x108, toBytes 32 7⟩) (windowed mapped 0x10403)).window 0 0).drops = 1 := by decide +kernel

theorem witness_aperture : (mapped.cellsOf (mapped.device * 2 ^ 42 + (mapped.port 0).haBase * 2 ^ 36 + 0x100) 8).isSome = true ∧
    (let s := mapped.setPort 0 { mapped.port 0 with haBase := 63 }
     s.cellsOf (s.device * 2 ^ 42 + (s.port 0).haBase * 2 ^ 36 + (2 ^ 36 - 8)) 8) = none := by decide +kernel

/-- PeerFlitsArriveInOrder: a flit in sequence, out of sequence, idle and damaged; a port with a message to send, with few and with
4,095 flits unacknowledged; a worn lane before and after a repair, and a port that retrains. -/
def flit (type : FlitType) (seq : Nat) (damage : Word) : Flit :=
  let f : Flit := { zero := 0, dst := 0, src := 1, type := type, nak := false, ackv := true, ackseq := 0, seq := seq,
                    payload := toBytes 8 7, crc := 0, lane := 0, msg := .nothing }
  { f with crc := BitVec.ofNat 32 (crc32 (flitBytes f)) ^^^ damage }

/-- A port after sixteen errors of its lane 2. -/
def wornPort : PeerPort := (List.range 16).foldl (fun p t => p.laneError 2 t) PeerPort.reset

def busyPort (n : Nat) : PeerPort := { PeerPort.reset with waiting := [(1, .nothing)], unacked := List.replicate n (0, 1, .nothing) }

theorem witness_flits : (State.reset.peers.port 31).up = true ∧ (State.reset.peers.port 31).retrainEnd = none ∧
    (([flit .data 0 0, flit .data 5 0, flit .idle 0 0] : List Flit).all (fun f => decide (f.crc.toNat = crc32 (flitBytes f)))) = true ∧
    (flit .data 0 1).crc.toNat ≠ crc32 (flitBytes (flit .data 0 1)) ∧ (flit .data 0 0).seq = (State.reset.peers.port 31).expect ∧
    wornPort.worn = some 2 ∧ wornPort.replay = [] ∧ wornPort.repairs = 0 ∧ wornPort.retrainEnd = none ∧ wornPort.up = true ∧
    (busyPort 3).unacked.length < 4095 ∧ (busyPort 3).replay = [] ∧
    (let p : PeerPort := { wornPort with repairs := 1 }
     p.worn = some 2 ∧ p.replay = [] ∧ p.repairs ≠ 0 ∧ p.retrainEnd = none ∧ p.up = true) ∧
    ((after (.laneRepair 0 2) { State.reset with peers := State.reset.peers.setPort 0 wornPort }).peers.port 0).retrainEnd.isSome = true := by
  decide +kernel

theorem busyPort_unacked (n : Nat) : (busyPort n).unacked.length = n := List.length_replicate

theorem witness_full_port : 4095 ≤ (busyPort 4095).unacked.length := (busyPort_unacked 4095).ge

/-- RemoteOperationsAreAppliedOnce: requests in a window, outside, in a released extent, answered before and under way; operations
whose target has been silent for 100 µs and for 1 ms, and one whose target was dead when it was made. -/
def lent : State :=
  let o : RemoteOp := { rid := 50, target := 3, seq := some 1, addr := 0, kind := .atom 0 5, use := .ack, owner := none, va := 0,
                        sent := some (0, 0), resends := 0, doomed := false }
  let i : Import := { device := 3, window := 0, base := 0, limit := 2, read := true, write := true, atomic := true }
  let q : TagReq := { rid := 60, bid := 0, who := .lead, pa := 0, va := 0, load := true, condition := true, size := 4, data := [],
                      waiting := true, busy := false, src := 0, unc := false, remote := some (3, 7) }
  { placed with time := 10 ^ 9, treqs := [q],
                peers := { placed.peers with imports := [i], applied := [(3, 9, [5])], released := [(1, 2)],
                                             outstanding := [o, { o with rid := 51, doomed := true }, { o with rid := 52, sent := some (0, 10 ^ 9) }] } }

theorem witness_remote : (([.read 8, .write 8 (offsetBytes (toBytes 8 7)) false false, .atom 0 5] : List RemoteKind).all (fun k =>
      let req : RemoteReq := ⟨3, 1, 0x100, k, 0⟩
      lent.peers.admits req && (lent.peers.cached req).isNone && !lent.remoteUnderway req &&
        (match lent.cellsOf (lent.device * 2 ^ 42 + 0x100) (remoteLen k) with
          | some cells => ((lent.recallAll cells).poisonAny cells).isNone
          | none => false))) = true ∧
    (let req : RemoteReq := ⟨3, 7, 0, .ldt 4 true, 0⟩
     lent.peers.admits req && (lent.peers.cached req).isNone && lent.remoteUnderway req) = true ∧
    lent.peers.admits ⟨3, 1, 0x400000 - 4, .read 8, 0⟩ = false ∧ lent.peers.admits ⟨3, 1, 0x200000 - 4, .read 8, 0⟩ = false ∧
    lent.peers.admits ⟨4, 1, 0x100, .read 8, 0⟩ = false ∧
    lent.peers.cached ⟨3, 9, 0x100, .atom 0 5, 0⟩ = some [5] ∧ lent.peers.admits ⟨3, 9, 0x100, .atom 0 5, 0⟩ = true ∧
    (lent.peers.outstanding.find? (fun o => o.rid == 50)).map (fun o => (o.seq, o.sent, decide (0 + nsTime 1000000 ≤ lent.time))) =
      some (some 1, some (0, 0), true) ∧
    (lent.peers.outstanding.find? (fun o => o.rid == 51)).map (·.doomed) = some true ∧
    (lent.peers.outstanding.find? (fun o => o.rid == 52)).map (fun o => (o.seq, o.sent, decide (lent.time < 10 ^ 9 + nsTime 100000))) =
      some (some 1, some (0, 10 ^ 9), true) ∧
    placed.extentBusy (2, 3) = false ∧
    (let req : RemoteReq := ⟨3, 1, 2 * 2 ^ 21, .read 8, 0⟩
     req.kind ≠ .codeFence ∧ req.addr < 3 * 2 ^ 21 ∧ 2 * 2 ^ 21 < req.addr + remoteLen req.kind) := by decide +kernel

/-- TheRestOfThePackageTakesItsTurns: a message that has had its slot for long, one that passes through the stop where another waits,
an injection that waits; images that verify and do not; an issuer ready for long and one that is not. -/
def queuedMsg : State :=
  let m : RidgeMsg := { cls := .dean, src := 2, dst := 5, since := 0, entered := none, reserved := false, data := [], req := 5, reader := none, lands := [] }
  { placed with time := 10 ^ 9, ridge := [{ m with entered := some 0 }, m, { m with cls := .queue, src := 1, entered := some 0 }] }

theorem witness_lands : queuedMsg.ridge.all (fun m => m.reader.isNone && m.lands.isEmpty && !m.brings) = true := by decide +kernel

theorem witness_messages : (queuedMsg.ridge.find? (fun m => m.on .dean 2 5)).map (fun m => m.entered) = some (some 0) ∧
    0 + 3 * (6 + 4 * min ((5 + 34 - 2) % 34) ((2 + 34 - 5) % 34)) ≤ queuedMsg.time ∧
    (queuedMsg.ridge.findIdx? (fun m => m.overdue 2 (ascends 2 5) queuedMsg.time)) = some 1 ∧
    queuedMsg.ridge.any (fun m => m.entered.isNone && queuedMsg.ridge.any (fun x => decide (x.slotAt (4 * ringTime) = some (m.src, m.up)))) =
      true := by decide +kernel

theorem witness_images : verifiedImage ⟨0, true, Config.fusedMinimum⟩ = true ∧ verifiedImage ⟨0, false, Config.fusedMinimum⟩ = false := by
  simp [verifiedImage]

theorem witness_package : State.reset.cycle % 4 = 0 ∧ (queuedMsg.aged 0).length = 2 ∧ queuedMsg.aged 0 ≠ [] ∧
    queuedMsg.agedSince 0 0 = true ∧ queuedMsg.agedSince 0 (10 ^ 9) = false ∧
    issueEighths (State.reset.governor (stackOf 0)).throttle = 8 ∧
    issueEighths ((State.reset.setGovernor 0 { State.reset.governor 0 with throttle := 7 }).governor 0).throttle ≤
      ({ State.reset with time := 7 * cycleTime } : State).cycle % 8 := by decide +kernel

end Sys2Proof.Witnesses
end

