-- ==== Sys2Proof/Tests/Slice0.lean ====
section
/-!
SUPPORT. Tests of decoding, of well-formedness and of single steps. Every expected value is printed in the manual or worked from
its rule by hand; the comment names the place.
-/
namespace Sys2Proof.Tests

set_option Elab.async false

open Sys2Proof Sys2Proof.Machine

/-- One ill-formed term for each check of WellFormed, which the check refuses (14 R275). -/
theorem test_ill_formed_refused : ∀ i ∈ ([
    .sete 126 .always, .waitf 0 16 .always, .waitf 120 6 .always, .waito 4 0 .always, .lea 64 0 0 false .always,
    .icmp 6 0 0 0 false .always, .icmpu 7 0 0 0 false .always, .pand 16 0 0 .always, .por 0 16 0 .always, .pxor 0 0 16 .always,
    .pnot 0 16 .always, .pmovToPredicate 65 0 false .always, .vote 0 0 3 .always, .sread 0 20 .always, .sysr 0 19 .always,
    .sysw 0 0x200 .always, .prog 16 .always, .ifence 11 false, .fcmpBf16x2 0 1 0 0 false .always, .fcmpF16x2 0 3 0 0 false .always,
    .fabs 0 0 3 false .always, .fneg 0 0 4 false .always, .fcvt 0 0 6 0 false .always, .fcvt 0 0 0 7 false .always,
    .fcvti 0 0 8 false .always, .icvtf 0 0 8 false .always, .frnd 0 0 4 false .always, .ld 0 0 7 0 0 false, .st 0 0 4 2 0 false,
    .ldl 0 0 4 0 1 false, .stl 0 0 4 1 11 false, .ldt 0 0 4 2 0 false, .stt 0 0 7 0 0 false, .pref 0 11 false, .cflush 0 0 11 false,
    .cinv 0 0 12 false, .fence 3 0 false, .fence 0 11 false, .atomRelaxed 10 0 0 0 0, .atomAcqRel 11 0 0 0 0, .red 9 0 0 0,
    .cpy 0 0 3 false] : List Instr), i.wellFormed = false := by decide

/-- Words that are no instruction: an unassigned opcode, a reserved bit, a reserved code (14 R275). -/
theorem test_decode_refused : ([0x00000000, 0xFF000000, 0x01000004, 0x471800A0, 0x070C9201] : List Word).all
    (fun w => (decodeWord w).toOption.isNone) = true := by decide +kernel

/-- Words that the manual prints (14 to 18, 03, 06, 07, 12), decoded. -/
theorem test_decode_control : ([
    (0x0F000000, .waito 0 0 .always),
    (0x02FFFFF0, .br 0x3ffffc .always),
    (0x03001000, .bri 4 false .always),
    (0x04000100, .call 64 .always),
    (0x0A000001, .endIssue .p0),
    (0x09001030, .eret 4 6 false .always),
    (0x0B041030, .fork 2 4 6 false .always),
    (0x01000003, .nop .p1),
    (0x071D0000, .rep 7 2 0 0),
    (0x070F8000, .rep 3 7 0 0),
    (0x05000001, .ret false .p0),
    (0x0D080000, .sete 4 .always),
    (0x08000014, .trap 5 .always),
    (0x0C001000, .upush 4 false .always),
    (0x0E001018, .waitf 4 3 .always),
    (0x0F000800, .waito 2 0 .always)] : List (Word × Instr)).all (fun p => decodeWord p.1 = .ok p.2) = true := by decide +kernel

/-- Words that the manual prints (14 to 18, 03, 06, 07, 12), decoded. -/
theorem test_decode_integer : ([
    (0x16082048, .div 4 8 9 false .always),
    (0x100E102C, .iadd 7 4 5 true .always),
    (0x24142C60, .addmin 10 11 12 false .always),
    (0x2E061C00, .clz 3 7 false .always),
    (0x10040818, .iadd 2 2 3 false .always),
    (0x11081430, .isub 4 5 6 false .always),
    (0x15081430, .imad 4 5 6 false .always),
    (0x23081430, .iadds 4 5 6 false .always),
    (0x2C061C00, .iabs 3 7 false .always),
    (0x2A800FF0, .icmp 4 0 3 126 false .always),
    (0x27041030, .lea 2 4 6 false .always),
    (0x19081430, .or 4 5 6 false .always),
    (0x2D061C00, .popc 3 7 false .always),
    (0x1C081430, .shl 4 5 6 false .always),
    (0x26081430, .sel 4 5 6 false .always),
    (0x1A081430, .xor 4 5 6 false .always)] : List (Word × Instr)).all (fun p => decodeWord p.1 = .ok p.2) = true := by decide +kernel

/-- Words that the manual prints (14 to 18, 03, 06, 07, 12), decoded. -/
theorem test_decode_immediate_and_window : ([
    (0x3C000040, .win 16 .always),
    (0x3D0003E0, .winadd 248 .always),
    (0x3A0C0800, .movx 6 2 false .always),
    (0x33060FFC, .iaddi 3 3 255 .always),
    (0x30081400, .mov 4 5 false .always),
    (0x360817FC, .xorImm 4 5 255 .always),
    (0x3908140C, .sarImm 4 5 3 .always)] : List (Word × Instr)).all (fun p => decodeWord p.1 = .ok p.2) = true := by decide +kernel

/-- Words that the manual prints (14 to 18, 03, 06, 07, 12), decoded. -/
theorem test_decode_collective_and_predicate : ([
    (0x40000818, .pand 0 2 3 .always),
    (0x44061400, .pmovToPredicate 3 5 false .always),
    (0x46140000, .vote 10 0 0 .always),
    (0x46140C08, .vote 10 3 1 .always),
    (0x46140810, .vote 10 2 2 .always),
    (0x3E141030, .xlane 10 4 6 false .always),
    (0x3F0A1004, .xshf 5 4 1 .always)] : List (Word × Instr)).all (fun p => decodeWord p.1 = .ok p.2) = true := by decide +kernel

/-- Words that the manual prints (14 to 18, 03, 06, 07, 12), decoded. -/
theorem test_decode_system : ([
    (0x4D00000C, .prog 3 .always),
    (0x4C000001, .chkpt .p0),
    (0x4E00000C, .ifence 6 false),
    (0x4B0C0000, .sigr 6 .always),
    (0x47080000, .sread 4 0 .always),
    (0x480C0048, .sysr 6 18 .always),
    (0x4A020030, .tlbiAsn 6 false .always)] : List (Word × Instr)).all (fun p => decodeWord p.1 = .ok p.2) = true := by decide +kernel

/-- Words that the manual prints (14 to 18, 03, 06, 07, 12), decoded. -/
theorem test_decode_float : ([
    (0x65081400, .fabs 4 5 0 false .always),
    (0x501040C0, .faddF32 8 16 24 false .always),
    (0x59081430, .fmaF32 4 5 6 false .always),
    (0x5C081430, .fminF32 4 5 6 false .always),
    (0x6F081400, .fclass 4 5 false .always),
    (0x62441028, .fcmpF32 2 2 4 5 false .always),
    (0x68081428, .fcvti 4 5 5 false .always),
    (0x70081430, .fdot2Bf16 4 5 6 false .always),
    (0x6A081400, .frcp 4 5 false .always),
    (0x67081418, .fcvt 4 5 0 3 false .always),
    (0x6E081408, .frnd 4 5 1 false .always)] : List (Word × Instr)).all (fun p => decodeWord p.1 = .ok p.2) = true := by decide +kernel

/-- Words that the manual prints (14 to 18, 03, 06, 07, 12), decoded. -/
theorem test_decode_memory : ([
    (0x810C2226, .st 6 8 4 1 3 false),
    (0x880C100C, .cflush 6 4 6 false),
    (0x80141200, .ld 10 4 4 0 0 false),
    (0x86141030, .lde 10 4 6 false .always),
    (0x82141200, .ldl 10 4 4 0 0 false),
    (0x8414120C, .ldt 10 4 4 0 6 false),
    (0x87001004, .pref 4 2 false),
    (0x810C1200, .st 6 4 4 0 0 false),
    (0x810C2281, .st 6 8 5 0 0 true),
    (0x81101300, .st 8 4 6 0 0 false),
    (0x830C1200, .stl 6 4 4 0 0 false),
    (0x850C120C, .stt 6 4 4 0 6 false)] : List (Word × Instr)).all (fun p => decodeWord p.1 = .ok p.2) = true := by decide +kernel

/-- Words that the manual prints (14 to 18, 03, 06, 07, 12), decoded. -/
theorem test_decode_atomic : ([
    (0x92181038, .atomRelaxed 2 12 4 7 0),
    (0x8C141032, .acasAcqRel 10 4 6 2),
    (0x90141030, .atomRelaxed 0 10 4 6 0),
    (0xB0001030, .red 0 4 6 0)] : List (Word × Instr)).all (fun p => decodeWord p.1 = .ok p.2) = true := by decide +kernel

/-- Words that the manual prints (14 to 18, 03, 06, 07, 12), decoded. -/
theorem test_decode_queue_and_barrier : ([
    (0xC6000818, .bari 2 3 false .always),
    (0xC2143000, .deq 10 12 false .always),
    (0xC0003030, .enq 12 6 false .always),
    (0xC4043080, .qinit 2 12 16 false .always),
    (0xC5103000, .qstat 8 12 false .always),
    (0xC7280818, .bara 20 2 3 false .always)] : List (Word × Instr)).all (fun p => decodeWord p.1 = .ok p.2) = true := by decide +kernel

/-- Words that the manual prints (14 to 18, 03, 06, 07, 12), decoded. -/
theorem test_decode_engine_matrix_and_debug : ([
    (0xD6100800, .adrn 8 2 false .always),
    (0xD5000840, .afeed 2 8 false .always),
    (0xC9101200, .cpy 8 4 4 false),
    (0xCA0C13F0, .cpyb 6 4 126 false .always),
    (0xD3002800, .mdrain 10 false .always),
    (0xD40C13F0, .mdrst 6 4 126 false .always),
    (0xD20C13F0, .mldb 6 4 126 false .always),
    (0xD0002000, .mma 8 false .always),
    (0xD1002000, .mzero 8 false .always),
    (0xE4000830, .wset 2 6 false .always),
    (0xE5000800, .wclr 2 false .always)] : List (Word × Instr)).all (fun p => decodeWord p.1 = .ok p.2) = true := by decide +kernel

/-- A supervisor block on core 0 whose fibre 0 issues, with these register cells. -/
def fibre (regs : List (Nat × Word)) : State :=
  { (State.reset.place274 0x01000000).modCtx 0 (.fibre 0) (fun c => { c with regs := regs }) with issuer := some (0, .fibre 0) }

/-- What an instruction leaves of fibre 0. -/
def after (i : Instr) (s : State) : Option Ctx :=
  match exec i s with
  | .next t => t.ctx? 0 (.fibre 0)
  | _ => none

/-- The value of a register after an instruction. -/
def result (i : Instr) (regs : List (Nat × Word)) (rd : Nat) : Option Word :=
  (after i (fibre regs)).map (fun c => sget 0 c.regs rd)

/-- The value of the producer that an instruction leaves, and the flags that its issue has accrued (02 R23). -/
def produced (i : Instr) (regs : List (Nat × Word)) : Option (List Word × BitVec 5) :=
  (after i (fibre regs)).bind (fun c => c.producers.head?.map (fun p => (p.value, c.fps)))

/-- BFX and BFI (15 R321). -/
theorem test_bit_fields : result (.bfx 4 5 6 false .always) [(5, 0x12345678), (6, 0x0408)] 4 = some 6 ∧
    result (.bfi 4 5 6 false .always) [(4, 0xFFFFFFFF), (5, 5), (6, 0x0404)] 4 = some 0xFFFFFF5F ∧
    result (.bfx 4 5 6 false .always) [(5, 0xA0000000), (6, 0x081C)] 4 = some 0xA := by decide +kernel

/-- DIV and DIVU (15 R319): the quotient is that of a long-latency producer. -/
theorem test_division : produced (.div 4 5 6 false .always) [(5, 0xFFFFFFF9), (6, 2)] = some ([0xFFFFFFFD], 0) ∧
    produced (.div 4 5 6 false .always) [(5, 0x80000000), (6, 0xFFFFFFFF)] = some ([0x80000000], 0) ∧
    produced (.divu 4 5 6 false .always) [(5, 7)] = some ([0xFFFFFFFF], 0) := by decide +kernel

/-- ADDMIN wraps before it takes the minimum (15 R319). -/
theorem test_addmin_wraps : result (.addmin 4 5 6 false .always) [(4, 10), (5, 0x7FFFFFFF), (6, 1)] 4 = some 0x80000000 := by
  decide +kernel

/-- SHR and SAR (18 R380). -/
theorem test_shifts : result (.shr 4 5 6 false .always) [(5, 0x80000000), (6, 31)] 4 = some 1 ∧
    result (.sar 4 5 6 false .always) [(5, 0x80000000), (6, 32)] 4 = some 0xFFFFFFFF ∧
    result (.shl 4 5 6 false .always) [(5, 1), (6, 0x101)] 4 = some 0 ∧
    result (.shrImm 4 5 0x80 .always) [(5, 0x80000000)] 4 = some 0 := by decide +kernel

/-- LEA carries into the upper word, and sign-extends before it shifts (17 R353). -/
theorem test_lea : result (.lea 0 4 6 false .always) [(4, 0xFFFFFFF0), (5, 1), (6, 0x10)] 5 = some 2 ∧
    result (.lea 7 4 6 false .always) [(4, 0xFFFFFFF0), (5, 1), (6, 0xFFFFFFFF)] 4 = some 0xFFFFFF70 := by decide +kernel

/-- FMA rounds once (16 R327): −2^−26 remains of 1 − 2^−26 − 1. -/
theorem test_fma_single_rounding : result (.fmaF32 4 5 6 false .always) [(4, 0xBF800000), (5, 0x3F800400), (6, 0x3F7FF800)] 4 =
    some 0xB2800000 := by decide +kernel

/-- FNEG and FCLASS (16 R328, R334). -/
theorem test_fneg_fclass : result (.fneg 4 5 0 false .always) [(5, 0x7FC00000)] 4 = some 0xFFC00000 ∧
    result (.fclass 4 5 false .always) [(5, 0x80000001)] 4 = some 4 ∧
    result (.fclass 4 5 false .always) [(5, 0xFFC00000)] 4 = some 0x100 := by decide +kernel

/-- FCVT from FP32 (16 R331): to F8A, to F8B, and of an F8A NaN. -/
theorem test_fcvt : result (.fcvt 4 5 0 3 false .always) [(5, 0x42C80000)] 4 = some 0x74 ∧
    result (.fcvt 4 5 0 3 false .always) [(5, 0x437A0000)] 4 = some 0x7F ∧
    result (.fcvt 4 5 0 4 false .always) [(5, 0x476A6000)] 4 = some 0x7B ∧
    result (.fcvt 4 5 3 0 false .always) [(5, 0x80)] 4 = some 0x7FC00000 := by decide +kernel

/-- FRSQ, FLOG2, FEXP2 and FRCP (16 R334's list of exact results; 04 R77). -/
theorem test_float_functions : produced (.frsq 4 5 false .always) [(5, 0x40800000)] = some ([0x3F000000], 0) ∧
    produced (.flog2 4 5 false .always) [(5, 0x41000000)] = some ([0x40400000], 0) ∧
    produced (.fexp2 4 5 false .always) [(5, 0xC3150000)] = some ([1], 0) ∧
    produced (.frcp 4 5 false .always) [(5, 0x7F000000)] = some ([0x00400000], 0) := by decide +kernel

/-- ICMP.gt of 5 and zr sets p0 (16 R341), and a backward branch goes to PC − 16 (15 R306). -/
theorem test_compare_and_branch : (after (.icmp 4 0 3 126 false .always) (fibre [(3, 5)])).map (·.preds) = some 1 ∧
    (after (.br 0x3FFFFC .always) (fibre [])).map (·.pc) = some 0xFFF0 := by decide +kernel

/-- The next state of an instruction, if it has one. -/
def next (i : Instr) (s : State) : Option State :=
  match exec i s with
  | .next t => some t
  | _ => none

/-- Fibre 0 after a store of 0xCAFE to virtual address 0x1_0100, which lies at local address 0x100. -/
def stored : Option State := next (.st 6 4 4 0 0 false) (fibre [(4, 0x10100), (6, 0xCAFE)])

/-- A load reads what its own fibre has stored and not committed, and memory shows nothing of it (06 R122). -/
theorem test_store_then_load : stored.map (fun t => t.homeByte 0x100) = some 0 ∧
    stored.bind (fun t => (after (.ld 8 4 4 0 0 false) t).bind (fun c => c.producers.head?.map (·.value))) = some [0xCAFE] := by
  decide +kernel

/-- A releasing fence at .core commits the store (06 R123, R128): the issuer's own load still reads it. -/
theorem test_fence_commits : (stored.bind (next (.fence 1 2 false))).map (fun t => (t.block? 0).map (fun b => b.body.buffer.length)) =
    some (some 0) ∧
    (stored.bind (next (.fence 1 2 false))).bind (fun t => (after (.ld 8 4 4 0 0 false) t).bind
      (fun c => c.producers.head?.map (·.value))) = some [0xCAFE] := by decide +kernel

/-- TRAP #5 stops the block with code 0x10 and detail 5 at its own PC (18 R394; 11 R214, R217). -/
theorem test_trap : (next (.trap 5 .always) (fibre [])).bind (fun t => (t.block? 0).bind (fun b => b.primary.map
    (fun r => (r.code.num, r.detail, r.pc)))) = some (0x10, 5, 0x10000) := by decide +kernel

/-- A user fibre's SYSR of a mapping register is privileged (02 R43). -/
theorem test_privilege : (next (.sysr 6 0x1000 .always)
    ((fibre []).modBlock 0 (fun b => { b with params := { b.params with supervisor := false } }))).bind (fun t =>
      (t.block? 0).bind (fun b => b.primary.map (·.code))) = some .priv := by decide +kernel

/-- The activation that brings a row's counter to ACTTHR (05 R114): the counter is 0, RFMCNT grows by 1 and BACKOFF by 280, and
the bank has no open row for 280 ns. -/
theorem test_threshold : ({ Bank.reset with counts := [(7, 1023)] } : Bank).serve 7 1024 0 =
    { openRow := none, counts := [], rfmcnt := 1, backoff := 280, backoffEnd := some (nsTime 280) } := by decide +kernel

/-- A barrier with E = 2, a = 0, p = 6 (15 R305): two arrivals both receive phase 6, and p becomes 7. -/
theorem test_barrier :
    (((next (.bara 20 2 3 false .always) ((fibre [(2, 1), (3, 1)]).modBlock 0 (fun b =>
        b.modBody (fun y => { y with barriers := y.barriers.set 1 { expected := 2, arrived := 0, phase := 6 } })))).bind
      (next (.bara 21 2 3 false .always))).bind (fun u => (u.block? 0).bind (fun b => (b.ctx? (.fibre 0)).map
        (fun c => (sget 0 c.regs 20, sget 0 c.regs 21, b.body.barriers[1]?))))) =
      some (0x10000006, 0x10000006, some { expected := 2, arrived := 0, phase := 7 }) := by decide +kernel

end Sys2Proof.Tests
end

section
/-!
SUPPORT. Reading a word against its encoding (14 R271): a word holds an instruction's encoding when it holds each field of it in
that field's place, so an arm of the decoder is inverted by going through its fields from the opcode down.
-/
namespace Sys2Proof

/-- A one-bit field encodes back to itself. -/
@[simp] theorem ofBool_bitSet (b : BitVec 1) : BitVec.ofBool (bitSet b) = b := by revert b; decide

/-- A guard field encodes back to itself (14 R272). -/
@[simp] theorem Guard.bits_ofBits (b : BitVec 2) : (Guard.ofBits b).bits = b := by revert b; decide

namespace Laws.Fields

/-- The word's bits from bit `k` up are those of `x`. -/
def Holds (w : Word) (k : Nat) {n : Nat} (x : BitVec n) : Prop := w.extractLsb' k n = x

variable {w : Word} {k l m n : Nat}

theorem holds_zero_iff {x : Word} : Holds w 0 x ↔ x = w := by
  rw [Holds, BitVec.extractLsb'_eq_self, eq_comm]

theorem fieldIs_iff {v : Nat} : fieldIs w k n v = true ↔ Holds w k (BitVec.ofNat n v) := decide_eq_true_iff

/-- A fixed field below what the word holds. -/
theorem Holds.fixed {x : BitVec m} {y : BitVec n} (hx : Holds w (k + n) x) (hy : Holds w k y) : Holds w k (x ++ y) := by
  unfold Holds at *
  rw [← hx, ← hy, BitVec.extractLsb'_append_extractLsb'_eq_extractLsb' rfl]

/-- A field that the decoder reads, below what the word holds. -/
theorem Holds.field {x : BitVec m} (h : Holds w (k + n) x) : Holds w k (x ++ w.extractLsb' k n) := h.fixed rfl

/-- A flag that the decoder reads, below what the word holds. -/
theorem Holds.flag {x : BitVec m} (h : Holds w (k + 1) x) : Holds w k (x ++ BitVec.ofBool (bitSet (w.extractLsb' k 1))) :=
  h.fixed (ofBool_bitSet _).symm

/-- A guard that the decoder reads, below what the word holds. -/
theorem Holds.guard {x : BitVec m} (h : Holds w (k + 2) x) : Holds w k (x ++ (Guard.ofBits (w.extractLsb' k 2)).bits) :=
  h.fixed (Guard.bits_ofBits _).symm

/-- An opcode and the fixed field below it, which the encoder writes as one constant. -/
theorem Holds.top {a : BitVec m} {z : BitVec n} {c : BitVec l} (ha : Holds w (k + n) a) (hz : Holds w k z)
    (hl : m + n = l) (hc : c = (a ++ z).cast hl) : Holds w k c := by
  subst hl hc
  exact ha.fixed hz

/-- The upper half of an opcode whose lower half is a field (A format of the atomics). -/
theorem Holds.opHigh {c : Byte} {d : BitVec 4} (h : Holds w 24 c) (hd : d = c.extractLsb' 4 4) : Holds w 28 d := by
  have hw : w.extractLsb' 28 4 ++ w.extractLsb' 24 4 = c :=
    (BitVec.extractLsb'_append_extractLsb'_eq_extractLsb' (start₁ := 24) (len₁ := 4) rfl).trans h
  rw [hd, ← hw, BitVec.extractLsb'_append_eq_left, Holds]

/-- Whatever instruction is read from the word, its encoding is what the word holds. -/
def Inverts (w : Word) (o : Option Instr) : Prop := ∀ i, o = some i → encodeWord i = some w

theorem Inverts.nothing : Inverts w none := fun _ h => nomatch h

theorem Inverts.word {i : Instr} {c : Word} (hc : encodeWord i = some c) (hw : Holds w 0 c) : Inverts w (some i) := by
  rintro _ ⟨⟩
  rw [hc, holds_zero_iff.1 hw]

/-- An arm with a fixed field may assume that the word holds it. -/
theorem Inverts.arm {o p : Option Instr} {v : Nat} (h : Holds w k (BitVec.ofNat n v) → Inverts w o)
    (hp : Inverts w p := by exact .nothing) : Inverts w (if fieldIs w k n v then o else p) := by
  split
  case isTrue hf => exact h (fieldIs_iff.1 hf)
  case isFalse => exact hp

theorem Inverts.arm₂ {o : Option Instr} {k' n' v v' : Nat}
    (h : Holds w k (BitVec.ofNat n v) → Holds w k' (BitVec.ofNat n' v') → Inverts w o) :
    Inverts w (if fieldIs w k n v && fieldIs w k' n' v' then o else none) := by
  split
  case isTrue hf =>
    obtain ⟨h₁, h₂⟩ := Bool.and_eq_true_iff.1 hf
    exact h (fieldIs_iff.1 h₁) (fieldIs_iff.1 h₂)
  case isFalse => exact .nothing

set_option maxRecDepth 2000 in
/-- Every arm of the decoder is inverted: the arms in their order, each by its format, the opcode innermost and
the least significant field outermost (14 R271). -/
theorem inverts_decodeOp {op : Nat} (ho : Holds w 24 (BitVec.ofNat 8 op)) : Inverts w (decodeOp op w) := by
  unfold decodeOp
  split
  · exact .arm fun h => .word rfl (.guard (.top ho h rfl rfl))  -- nop
  · exact .word rfl (.guard (.field ho))  -- br
  · exact .arm₂ fun h₁ h₂ => .word rfl (.guard (.flag (.fixed (.field (.top ho h₁ rfl rfl)) h₂)))  -- bri
  · exact .word rfl (.guard (.field ho))  -- call
  · exact .arm fun h => .word rfl (.guard (.flag (.top ho h rfl rfl)))  -- ret
  · exact .arm fun h => .word rfl (.guard (.top ho h rfl rfl))  -- yield
  · exact .arm fun h => .word rfl (.fixed (.field (.field (.field (.field ho)))) h)  -- rep
  · exact .arm fun h => .word rfl (.guard (.field (.top ho h rfl rfl)))  -- trap
  · exact .arm fun h => .word rfl (.guard (.flag (.field (.field (.top ho h rfl rfl)))))  -- eret
  · exact .arm fun h => .word rfl (.guard (.top ho h rfl rfl))  -- endIssue
  · exact .word rfl (.guard (.flag (.field (.field (.field ho)))))  -- fork
  · exact .arm₂ fun h₁ h₂ => .word rfl (.guard (.flag (.fixed (.field (.top ho h₁ rfl rfl)) h₂)))  -- upush
  · exact .arm fun h => .word rfl (.guard (.fixed (.field ho) h))  -- sete
  · exact .arm₂ fun h₁ h₂ => .word rfl (.guard (.fixed (.field (.field (.top ho h₁ rfl rfl))) h₂))  -- waitf
  · exact .arm fun h => .word rfl (.guard (.field (.field (.top ho h rfl rfl))))  -- waito
  iterate 26 exact .word rfl (.guard (.flag (.field (.field (.field ho)))))  -- iadd … bfi
  iterate 2 exact .word rfl (.guard (.flag (.field (.field (.field (.field ho))))))  -- icmp … icmpu
  iterate 5 exact .arm fun h => .word rfl (.guard (.flag (.fixed (.field (.field ho)) h)))  -- iabs … mov
  · exact .word rfl (.guard (.field (.field ho)))  -- movi
  · exact .word rfl (.field (.field ho))  -- movhi
  iterate 7 exact .word rfl (.guard (.field (.field (.field ho))))  -- iaddi … sarImm
  · exact .arm fun h => .word rfl (.guard (.flag (.fixed (.field (.field ho)) h)))  -- movx
  · exact .arm fun h => .word rfl (.guard (.flag (.field (.field (.top ho h rfl rfl)))))  -- movxw
  iterate 2 exact .arm fun h => .word rfl (.guard (.field (.top ho h rfl rfl)))  -- win … winadd
  · exact .word rfl (.guard (.flag (.field (.field (.field ho)))))  -- xlane
  · exact .word rfl (.guard (.field (.field (.field ho))))  -- xshf
  iterate 3 exact .arm fun h => .word rfl (.guard (.fixed (.field (.field (.field ho))) h))  -- pand … pxor
  · exact .arm fun h => .word rfl (.guard (.fixed (.field (.field ho)) h))  -- pnot
  · exact .arm fun h => .word rfl (.guard (.flag (.fixed (.field (.field ho)) h)))  -- pmovToPredicate
  · exact .arm fun h => .word rfl (.guard (.fixed (.field ho) h))  -- pmovFromWord
  · exact .arm₂ fun h₁ h₂ => .word rfl (.guard (.fixed (.field (.field (.fixed (.field ho) h₁))) h₂))  -- vote
  · exact .arm fun h => .word rfl (.guard (.field (.fixed (.field ho) h)))  -- sread
  iterate 2 exact .word rfl (.guard (.field (.field ho)))  -- sysr … sysw
  · exact .arm fun h => .word rfl (.guard (.fixed (.field ho) h))  -- sigr
  · exact .arm fun h => .word rfl (.guard (.top ho h rfl rfl))  -- chkpt
  · exact .arm fun h => .word rfl (.guard (.field (.top ho h rfl rfl)))  -- prog
  · exact .arm fun h => .word rfl (.flag (.field (.top ho h rfl rfl)))  -- ifence
  iterate 18 exact .word rfl (.guard (.flag (.field (.field (.field ho)))))  -- faddF32 … fmaxF16x2
  iterate 3 exact .word rfl (.guard (.flag (.field (.field (.field (.field ho))))))  -- fcmpF32 … fcmpF16x2
  iterate 2 exact .word rfl (.guard (.flag (.field (.field (.field ho)))))  -- fabs … fneg
  · exact .word rfl (.guard (.flag (.field (.field (.field (.field ho))))))  -- fcvt
  iterate 2 exact .word rfl (.guard (.flag (.field (.field (.field ho)))))  -- fcvti … icvtf
  iterate 4 exact .arm fun h => .word rfl (.guard (.flag (.fixed (.field (.field ho)) h)))  -- frcp … flog2
  · exact .word rfl (.guard (.flag (.field (.field (.field ho)))))  -- frnd
  · exact .arm fun h => .word rfl (.guard (.flag (.fixed (.field (.field ho)) h)))  -- fclass
  iterate 4 exact .word rfl (.guard (.flag (.field (.field (.field ho)))))  -- fdot2Bf16 … fdot4F8b
  iterate 6 exact .word rfl (.flag (.field (.field (.field (.field (.field ho))))))  -- ld … stt
  · exact .word rfl (.guard (.flag (.field (.field (.field ho)))))  -- lde
  · exact .arm₂ fun h₁ h₂ => .word rfl (.flag (.field (.fixed (.field (.top ho h₁ rfl rfl)) h₂)))  -- pref
  iterate 2 exact .arm fun h => .word rfl (.flag (.field (.fixed (.field (.field ho)) h)))  -- cflush … cinv
  · exact .arm fun h => .word rfl (.flag (.field (.field (.top ho h rfl rfl))))  -- fence
  iterate 2 exact .word rfl (.field (.field (.field (.field ho))))  -- acasRelaxed … acasAcqRel
  iterate 20 exact .word rfl (.field (.field (.field (.field (.field (.opHigh ho rfl))))))  -- atomRelaxed … atomAcqRel
  iterate 9 exact .arm fun h => .word rfl (.field (.field (.field (.fixed (.field (.opHigh ho rfl)) h))))  -- red
  · exact .arm fun h => .word rfl (.guard (.flag (.field (.field (.top ho h rfl rfl)))))  -- enq
  · exact .word rfl (.guard (.flag (.field (.field (.field ho)))))  -- enqt
  · exact .arm fun h => .word rfl (.guard (.flag (.fixed (.field (.field ho)) h)))  -- deq
  iterate 2 exact .word rfl (.guard (.flag (.field (.field (.field ho)))))  -- deqt … qinit
  · exact .arm fun h => .word rfl (.guard (.flag (.fixed (.field (.field ho)) h)))  -- qstat
  · exact .arm fun h => .word rfl (.guard (.flag (.field (.field (.top ho h rfl rfl)))))  -- bari
  · exact .word rfl (.guard (.flag (.field (.field (.field ho)))))  -- bara
  · exact .arm₂ fun h₁ h₂ => .word rfl (.guard (.flag (.fixed (.field (.top ho h₁ rfl rfl)) h₂)))  -- barw
  · exact .arm fun h => .word rfl (.flag (.fixed (.field (.field (.field ho))) h))  -- cpy
  iterate 2 exact .word rfl (.guard (.flag (.field (.field (.field ho)))))  -- cpyb … cpys
  iterate 2 exact .arm₂ fun h₁ h₂ => .word rfl (.guard (.flag (.fixed (.field (.top ho h₁ rfl rfl)) h₂)))  -- mma … mzero
  · exact .word rfl (.guard (.flag (.field (.field (.field ho)))))  -- mldb
  · exact .arm₂ fun h₁ h₂ => .word rfl (.guard (.flag (.fixed (.field (.top ho h₁ rfl rfl)) h₂)))  -- mdrain
  · exact .word rfl (.guard (.flag (.field (.field (.field ho)))))  -- mdrst
  · exact .arm fun h => .word rfl (.guard (.flag (.field (.field (.top ho h rfl rfl)))))  -- afeed
  · exact .arm fun h => .word rfl (.guard (.flag (.fixed (.field (.field ho)) h)))  -- adrn
  iterate 2 exact .word rfl (.guard (.flag (.field (.field (.field ho)))))  -- hread … hwrite
  · exact .arm fun h => .word rfl (.guard (.flag (.fixed (.field (.field ho)) h)))  -- hstep
  iterate 2 exact .arm fun h => .word rfl (.guard (.flag (.field (.field (.top ho h rfl rfl)))))  -- hrun … wset
  · exact .arm₂ fun h₁ h₂ => .word rfl (.guard (.flag (.fixed (.field (.top ho h₁ rfl rfl)) h₂)))  -- wclr
  · exact .arm (fun h => .word rfl (.guard (.flag (.field (.field (.top ho h rfl rfl)))))) -- tlbiPage
      (.arm (fun h => .word rfl (.guard (.flag (.field (.top ho h rfl rfl))))) -- tlbiAsn
        (.arm fun h => .word rfl (.guard (.top ho h rfl rfl)))) -- tlbiAll
  · exact .nothing

/-- What a word decodes to is well formed, and encoding it gives the word back. -/
theorem decodeWord_ok {i : Instr} (h : decodeWord w = .ok i) : i.wellFormed = true ∧ encodeWord i = some w := by
  have ho : Holds w 24 (BitVec.ofNat 8 (w.extractLsb' 24 8).toNat) := by
    rw [BitVec.ofNat_toNat, BitVec.setWidth_eq, Holds]
  unfold decodeWord at h
  split at h
  case isFalse => cases h
  case isTrue =>
    split at h
    case h_2 => cases h
    case h_1 j hj =>
      split at h
      case isFalse => cases h
      case isTrue hwf =>
        cases h
        exact ⟨hwf, inverts_decodeOp ho i hj⟩

end Laws.Fields

open Laws.RoundTrip in
/-- Every operation has its round trip: one lemma for each constructor, in the order of the table. -/
theorem Laws.RoundTrip.every : ∀ i, Statement i :=
  @Instr.rec Statement nop br bri call ret yield rep trap eret endIssue fork upush sete waitf waito iadd isub imul
    imulh imulhu imad div divu and or xor andn shl shr sar imin imax iminu imaxu iadds addmin addmax sel lea bfx bfi
    icmp icmpu iabs popc clz brev mov movi movhi iaddi andImm orImm xorImm shlImm shrImm sarImm movx movxw win winadd
    xlane xshf pand por pxor pnot pmovToPredicate pmovFromWord vote sread sysr sysw tlbiPage tlbiAsn tlbiAll sigr
    chkpt prog ifence faddF32 faddBf16x2 faddF16x2 fsubF32 fsubBf16x2 fsubF16x2 fmulF32 fmulBf16x2 fmulF16x2 fmaF32
    fmaBf16x2 fmaF16x2 fminF32 fminBf16x2 fminF16x2 fmaxF32 fmaxBf16x2 fmaxF16x2 fcmpF32 fcmpBf16x2 fcmpF16x2 fabs
    fneg fcvt fcvti icvtf frcp frsq fexp2 flog2 frnd fclass fdot2Bf16 fdot2F16 fdot4F8a fdot4F8b ld st ldl stl ldt stt
    lde pref cflush cinv fence acasRelaxed acasAcqRel atomRelaxed atomAcqRel red enq enqt deq deqt qinit qstat bari
    bara barw cpy cpyb cpys mma mzero mldb mdrain mdrst afeed adrn hread hwrite hstep hrun wset wclr deviceReset
    bundleReformation readyAgeOverride producerComplete fibreEnded blockRetire releaseAckComplete pageWalkComplete
    l1Eviction queueEnqAtHome queueEnqWriteAck queueDeqAtHome queueDeqReadDone rollBusyResend taggedAccessAtHome
    cpyComplete engineTriggerDeq operandsConsumedEvent engineUnitWrite engineOperationEnd bSliceLoadComplete
    matrixCommandStart matrixCommandComplete mdrainReadoutDone summitContributionArrive summitDelivery launchAccept
    blockSeat launchComplete preemptPriority preemptHost preemptGovernor blockSave preemptRetry blockResume
    resumeRetry resumeSkip resumeAbort checkpointSeal signatureCompare trialStart trialWindowEnd trialDelayExpire
    governorStep governorEmergencyBegin governorEmergencyEnd dramRequestService deadlineUrgent bankBackoffEnd
    actselClear amapCommit launchQueueEnable registerWrite hifence hifenceComplete hifenceTimeout qwHandle qwEnq
    qwStagingEnqueue qwDeq hostApertureRead hostApertureWrite peerFlitReceive laneRepair remoteRequestAtTarget
    remoteResend remoteTimeout deadMarkClear extentRelease ridgeMessageDeliver ridgeInjectionReserve
    attestationRequest expertUnlock ordinaryRefresh linkRetrainComplete amapCommitComplete unassignedOpcode
    instructionFetchFault

open Laws.Fields Laws.RoundTrip in
/-- Settles O3: decoding inverts encoding field by field, and each instruction has its round trip. -/
theorem wordsAndInstructionsCorrespond : Obligations.WordsAndInstructionsCorrespond := by
  intro w i rest
  refine ⟨⟨decodeWord_ok, fun ⟨hwf, hw⟩ => every i hwf w hw⟩, fun hwf hw => ?_⟩
  rw [encode, hw, decode_bytesOfWord, every i hwf w hw]
  rfl

end Sys2Proof
end

section
/-!
SUPPORT. Writes of device registers (00 R4; 10 R195; 12 R253; 13 R257, R259) and the commit of a mapping region (05 R107, R108):
what each kind of write leaves, by the state of the queue, the trial or the region that it concerns.
-/
namespace Sys2Proof.Machine

theorem bits_from_zero (v n : Nat) : bits v 0 n = v % 2 ^ n := rfl

theorem keep_from_zero (v n : Nat) : keep v 0 n = BitVec.ofNat 64 (v % 2 ^ n) := by
  simp [keep, bits_from_zero]

@[simp] theorem State.region_setRegion_self (s : State) (n : Nat) (r : Region) : (s.setRegion n r).region n = r := by
  simp [State.region]

theorem State.region_setRegion_ne (s : State) {n j : Nat} (r : Region) (h : j ≠ n) : (s.setRegion n r).region j = s.region j := by
  simp [State.region, aget_aput_ne _ _ h]

theorem State.region_of_amap {s t : State} (h : t.amap = s.amap) (n : Nat) : t.region n = s.region n := by
  rw [State.region, State.region, h]

/-! Registers of a launch queue (10 R195). -/

section
variable {s : State} {n : Nat}

theorem State.setQueueReg_enabled (h : (s.lq n).en = true) (f : LaunchQueue → LaunchQueue) : s.setQueueReg n f = s := by
  simp [State.setQueueReg, h]

theorem State.setQueueReg_disabled (hn : n < 64) (h : (s.lq n).en = false) (f : LaunchQueue → LaunchQueue) :
    s.setQueueReg n f = s.setLq n (f (s.lq n)) := by
  simp [State.setQueueReg, h, hn]

/-- LQ_CFG of an enabled queue takes EN alone. -/
theorem State.setQueueCfg_enabled (hn : n < 64) (h : (s.lq n).en = true) (v : Nat) :
    s.setQueueCfg n v = s.setLq n { s.lq n with en := bitAt v 17 && (s.lq n).mayEnable } := by
  simp [State.setQueueCfg, hn, LaunchQueue.setCfg, h]

theorem State.setQueueCfg_disabled (hn : n < 64) (h : (s.lq n).en = false) (v : Nat) :
    s.setQueueCfg n v = s.setLq n { s.lq n with
      tickets := bits v 32 16, priv := bitAt v 16, asn := bits v 0 16, en := bitAt v 17 && (s.lq n).mayEnable } := by
  simp [State.setQueueCfg, hn, LaunchQueue.setCfg, h, LaunchQueue.mayEnable]

/-- Every register of an enabled queue but LQ_CFG ignores writes. -/
theorem State.writeReg_queue_enabled (h : (s.lq n).en = true) (port : Nat) (v : DWord) :
    ∀ g ∈ [DevReg.lqHandle n, .lqPtroot n, .lqQuant n, .lqSpbase n, .lqSporg n, .lqSpn n, .lqFaultq n],
      s.writeReg port g v = s := by
  simp [State.writeReg, regNamed, State.writeNamed, State.setQueueReg_enabled h]

/-- The registers of a queue that is not enabled take the written fields; of LQ_SPBASE bits 63 to 52 are not stored. -/
theorem State.writeReg_queue_disabled (hn : n < 64) (h : (s.lq n).en = false) (port : Nat) (v : DWord) :
    s.writeReg port (.lqHandle n) v = s.setLq n { s.lq n with handle := v } ∧
    s.writeReg port (.lqFaultq n) v = s.setLq n { s.lq n with faultq := v } ∧
    s.writeReg port (.lqQuant n) v = s.setLq n { s.lq n with quant := v.toNat % 2 ^ 32 } ∧
    s.writeReg port (.lqSpbase n) v = s.setLq n { s.lq n with spbase := BitVec.ofNat 64 (v.toNat % 2 ^ 52) } ∧
    s.writeReg port (.lqSpn n) v = s.setLq n { s.lq n with spn := v.toNat % 2 ^ 32 } := by
  simp only [State.writeReg, regNamed, State.writeNamed, State.setQueueReg_disabled hn h, bits_from_zero, keep_from_zero, and_self]

end

/-! Trial registers (12 R253) and read-only registers (00 R4). -/

theorem State.setTrial_running {s : State} (h : s.trial.run = true) (f : Trial → Trial) : s.setTrial f = s := by
  simp [State.setTrial, h]

theorem State.setTrial_idle {s : State} (h : s.trial.run = false) (f : Trial → Trial) :
    s.setTrial f = { s with trial := f s.trial } := by
  simp [State.setTrial, h]

theorem State.writeReg_trial_running {s : State} (h : s.trial.run = true) (port : Nat) (v : DWord) :
    ∀ g ∈ [DevReg.trWin, .trLo, .trHi], s.writeReg port g v = s := by
  simp [State.writeReg, regNamed, State.writeNamed, State.setTrial_running h]

theorem State.writeReg_trial_idle {s : State} (h : s.trial.run = false) (port : Nat) (v : DWord) :
    s.writeReg port .trWin v = { s with trial := { s.trial with win := max 4096 (v.toNat % 2 ^ 32) } } ∧
    s.writeReg port .trLo v = { s with trial := { s.trial with lo := v } } ∧
    s.writeReg port .trHi v = { s with trial := { s.trial with hi := v } } := by
  simp only [State.writeReg, regNamed, State.writeNamed, State.setTrial_idle h, bits_from_zero, and_self]

theorem State.writeReg_readOnly (s : State) (port n j : Nat) (v : DWord) :
    ∀ g ∈ [DevReg.dnTrdrop, .dnSvfail, .trStat, .trIns, .actcnt n, .qwStat n, .qwHold n j, .qwDeq n], s.writeReg port g v = s := by
  simp [State.writeReg, regNamed, State.writeNamed]

/-! Offsets of the BARs (13 R257, R259). -/

theorem bar0Reg_lqCfg {n : Nat} (h : n < 64) : bar0Reg (0x10000 + 0x40 * n + 0x10) = some (.lqCfg n) := by
  unfold bar0Reg
  rw [if_neg (by omega), if_neg (by omega), if_pos (by omega),
    show (0x10000 + 0x40 * n + 0x10 - 0x10000) / 0x40 = n by omega, show (0x10000 + 0x40 * n + 0x10) % 0x40 = 0x10 by omega]
  rfl

theorem bar0Reg_amapCtl {n : Nat} (h : n < 8) : bar0Reg (0x100000 + 0x400 * n) = some (.amapCtl n) := by
  unfold bar0Reg amapReg
  rw [if_neg (by omega), if_neg (by omega), if_neg (by omega), if_pos (by omega),
    if_neg (by omega), if_neg (by omega), if_pos (by omega), show (0x100000 + 0x400 * n - 0x100000) / 0x400 = n by omega]

theorem bar2Reg_qwHandle {n : Nat} (h : n < 64) : bar2Reg (0x1000 * n) = some (.qwHandle n) := by
  unfold bar2Reg
  rw [show 0x1000 * n / 0x1000 = n by omega, if_neg (by omega), show 0x1000 * n % 0x1000 = 0 by omega]
  rfl

/-- A write at an offset of a BAR is the write of the register there. -/
theorem State.writeReg_bar0 (s : State) (port : Nat) (v : DWord) {off : Nat} {g : DevReg} (h : bar0Reg off = some g) :
    s.writeReg port (.bar0 off) v = s.writeNamed port g v := by
  simp [State.writeReg, regNamed, h]

theorem State.writeReg_bar2 (s : State) (port : Nat) (v : DWord) {off : Nat} {g : DevReg} (h : bar2Reg off = some g) :
    s.writeReg port (.bar2 off) v = s.writeNamed port g v := by
  simp [State.writeReg, regNamed, h]

/-! Queue windows (13 R259). -/

theorem State.window_modWindow_self (s : State) {port w : Nat} (hp : port < 2) (hw : w < 64) (f : Window → Window) :
    (s.modWindow port w f).window port w = f (s.window port w) := by
  simp [State.modWindow, State.setPort, State.window, State.port, hp, hw]

theorem State.readReg_setWindowHandle (s : State) {port w : Nat} (hp : port < 2) (hw : w < 64) (v : DWord) :
    (s.setWindowHandle port w v).readReg port (.qwHandle w) = v.toNat := by
  show ((s.setWindowHandle port w v).window port w).handle.toNat = v.toNat
  rw [State.setWindowHandle, State.window_modWindow_self _ hp hw]

/-! The commit of a mapping region (05 R107, R108). -/

/-- A region with EN staged. -/
def Region.stageEn (r : Region) (en : Bool) : Region := { r with staged := { r.staged with en := en } }

/-- A region after the two checks of a commit's start: the first that fails leaves its STATUS, both good BUSY. -/
def Region.start (r : Region) : Region :=
  if invertible r.staged.masks = false then { r with status := 1 }
  else if keepsLines r.staged.masks = false then { r with status := 2 }
  else { r with status := 3, checked := r.staged.masks, starting := r.staged.en }

section
variable {r : Region}

theorem Region.start_singular (h : invertible r.staged.masks = false) : r.start = { r with status := 1 } := if_pos h

theorem Region.start_splitting (h : invertible r.staged.masks = true) (hk : keepsLines r.staged.masks = false) :
    r.start = { r with status := 2 } := by
  simp [Region.start, h, hk]

theorem Region.start_good (h : invertible r.staged.masks = true) (hk : keepsLines r.staged.masks = true) :
    r.start = { r with status := 3, checked := r.staged.masks, starting := r.staged.en } := by
  simp [Region.start, h, hk]

end

/-- A region after the end of its commit: the staged mapping is active, under the masks that were checked and the EN it began with. -/
def Region.finish (r : Region) : Region :=
  { r with active := { r.staged with masks := r.checked, en := r.starting }, status := 0, checked := [] }

section
variable {s : State} {n : Nat}

theorem State.amapStart_busy (h : (s.region n).status = 3) : s.amapStart n = s := by
  simp [State.amapStart, h]

theorem State.amapStart_idle (h : (s.region n).status ≠ 3) : s.amapStart n = s.setRegion n (s.region n).start := by
  unfold State.amapStart Region.start
  simp only [h, if_false, Bool.not_eq_true']
  split
  · rfl
  · split <;> rfl

theorem State.amapCtl_eq (s : State) (n v : Nat) : s.amapCtl n v =
    if bitAt v 1 then (s.setRegion n ((s.region n).stageEn (bitAt v 0))).amapStart n
    else s.setRegion n ((s.region n).stageEn (bitAt v 0)) := rfl

/-- Without COMMIT, or while BUSY, a write of AMAP_CTL stages EN alone. -/
theorem State.amapCtl_staging {v : Nat} (h : bitAt v 1 = false ∨ (s.region n).status = 3) :
    s.amapCtl n v = s.setRegion n ((s.region n).stageEn (bitAt v 0)) := by
  rw [State.amapCtl_eq]
  rcases h with h | h
  · rw [h, if_neg Bool.false_ne_true]
  · rw [State.amapStart_busy (by rw [State.region_setRegion_self]; exact h), ite_self]

/-- With COMMIT and not BUSY, a write of AMAP_CTL stages EN and starts the commit. -/
theorem State.amapCtl_starting {v : Nat} (hc : bitAt v 1 = true) (h : (s.region n).status ≠ 3) :
    s.amapCtl n v = (s.setRegion n ((s.region n).stageEn (bitAt v 0))).setRegion n ((s.region n).stageEn (bitAt v 0)).start := by
  have hs : ((s.setRegion n ((s.region n).stageEn (bitAt v 0))).region n).status ≠ 3 := by
    rw [State.region_setRegion_self]
    exact h
  rw [State.amapCtl_eq, if_pos hc, State.amapStart_idle hs, State.region_setRegion_self]

/-- What precedes the end of a commit writes lines back and changes no region. -/
theorem State.amapFinish_region (h : (s.region n).status = 3) (j : Nat) :
    (s.amapFinish n).region j = (s.setRegion n (s.region n).finish).region j := by
  unfold State.amapFinish
  rw [if_neg (not_not.2 h)]
  extract_lets r m gone s0 s1 old s2 x
  have h0 : Preserves s s0 := Preserves.foldl _ State.preserves_scDrop _ s
  refine State.region_of_amap ?_ j
  show aput s0.amap n _ = aput s.amap n _
  rw [h0.amap]
  rfl

end

/-! The events (13 R257; 10 R195; 05 R107, R108). -/

theorem exec_registerWrite (port : Nat) (g : DevReg) (v : DWord) (s : State) :
    exec (.registerWrite port g v) s = .next (s.writeReg port g v) := rfl

theorem exec_launchQueueEnable (n : Nat) (v : DWord) (s : State) :
    exec (.launchQueueEnable n v) s = .next (s.setQueueCfg n v.toNat) := rfl

theorem exec_amapCommit {n : Nat} (h : n < 8) (v : DWord) (s : State) :
    exec (.amapCommit n v) s = .next (s.amapCtl n v.toNat) := congrArg Host.Outcome.next (if_pos h)

theorem exec_amapCommitComplete (n : Nat) (s : State) : exec (.amapCommitComplete n) s = .next (s.amapFinish n) := rfl

/-- Settles O56, kind of register by kind of register; what the end of a commit writes back changes no region. -/
theorem registerWritesFollowAccessCodes : Obligations.RegisterWritesFollowAccessCodes := by
  constructor
  · intro s port n j v q w out good
    simp only [out, exec_registerWrite, exec_launchQueueEnable, Host.Outcome.next.injEq]
    refine ⟨fun hn he => ⟨s.writeReg_queue_enabled he port v, State.setQueueCfg_enabled hn he w⟩, fun hn he => ?_,
      s.writeReg_readOnly port n j v,
      fun hr => State.writeReg_trial_running hr port v, fun hr => State.writeReg_trial_idle hr port v,
      rfl, rfl, rfl, rfl, rfl, fun hn => if_pos hn, rfl,
      ⟨rfl, rfl, rfl, rfl, rfl, rfl, fun hn => s.writeReg_bar0 port v (bar0Reg_lqCfg hn),
        fun hn => s.writeReg_bar0 port v (bar0Reg_amapCtl hn), fun hn => s.writeReg_bar2 port v (bar2Reg_qwHandle hn)⟩,
      fun hn hp => ⟨rfl, _, rfl, s.readReg_setWindowHandle hp hn v⟩⟩
    obtain ⟨handle, faultq, quant, spbase, spn⟩ := State.writeReg_queue_disabled hn he port v
    exact ⟨handle, faultq, quant, spbase, spn, State.setQueueCfg_disabled hn he w⟩
  · intro s n v r r1 masks
    refine ⟨fun hn => ⟨fun h => ?_, fun hc h => ?_⟩, fun hn h => ?_⟩
    · rw [exec_amapCommit hn, State.amapCtl_staging h]
      rfl
    · refine ⟨_, (exec_amapCommit hn v s).trans (congrArg _ (State.amapCtl_starting hc h)), ?_⟩
      rw [State.region_setRegion_self]
      exact ⟨fun hi => Region.start_singular hi, fun hi hk => Region.start_splitting hi hk, fun hi hk => Region.start_good hi hk,
        fun j hj => by rw [State.region_setRegion_ne _ _ hj, State.region_setRegion_ne _ _ hj]⟩
    · refine ⟨_, exec_amapCommitComplete n s, ?_, fun j hj => ?_⟩
      · rw [State.amapFinish_region h, State.region_setRegion_self]
        rfl
      · rw [State.amapFinish_region h, State.region_setRegion_ne _ _ hj]

end Sys2Proof.Machine
end

section
/-!
SUPPORT. Messages of the Ridge (01 R11 to R14), the device's boot (13 R268, R269) and the choice of the issue ports (02 R28; 10 R211;
13 R267): what a delivery and a ring cycle leave, what firmware a boot ends with, and which bundles come first.
-/
namespace Sys2Proof.Machine

/-! Delivery (01 R12). -/

/-- A message of a class and pair of stops that has its slot arrives after the unloaded latency between the two stops. -/
theorem RidgeMsg.arrival_of_on {m : RidgeMsg} {cls : RidgeClass} {src dst e : Nat} (hm : m.on cls src dst = true)
    (he : m.entered = some e) : m.arrival = some (e + ringLatency (hopsOf src dst)) := by
  simp only [RidgeMsg.on, Bool.and_eq_true, beq_iff_eq] at hm
  obtain ⟨⟨-, hsrc⟩, hdst⟩ := hm
  simp [RidgeMsg.arrival, he, hsrc, hdst]

/-- A delivery takes the oldest message of its class and pair off the ring once that has arrived; a link's error then acts. -/
theorem exec_ridgeMessageDeliver {s : State} {cls : RidgeClass} {src dst t : Nat} {m : RidgeMsg}
    (hm : s.ridge.find? (fun m => m.on cls src dst) = some m) (ha : m.arrival = some t) (ht : t ≤ s.time) (error : Bool) :
    exec (.ridgeMessageDeliver cls src ⟨dst, error⟩) s =
      let s1 : State := { s with ridge := s.ridge.erase m }
      .next (if error then s1.linkError m else s1) := by
  show execRidgeMessageDeliver cls src ⟨dst, error⟩ s = _
  simp only [execRidgeMessageDeliver, hm, ha, Nat.not_lt.2 ht, if_false]
  rfl

/-- A message that brings nothing to a reader, an engine or a producer is poisoned at its home alone. -/
theorem State.linkError_homeOnly (s : State) {m : RidgeMsg} (hr : m.reader = none) (hl : m.lands = []) (hb : m.brings = false) :
    s.linkError m = m.data.foldl (fun t k => if m.dst = cellStop (k * 32) then t.addPoison (k * 32) 32 4 else t) s := by
  simp [State.linkError, hr, hl, hb]

/-- A reservation falls to the first overdue injection of its stop and direction. -/
theorem exec_ridgeInjectionReserve {s : State} {stop i : Nat} {up : Bool}
    (h : s.ridge.findIdx? (fun m => m.overdue stop up s.time) = some i) :
    exec (.ridgeInjectionReserve stop up) s =
      .next { s with ridge := s.ridge.modify i (fun m => { m with reserved := true }) } := by
  show execRidgeInjectionReserve stop up s = _
  simp only [execRidgeInjectionReserve, h]
  rfl

/-! A ring cycle (01 R14): a pass over the messages, with the slots taken so far and the messages passed so far. -/

/-- One message's turn in a pass of injections. -/
def injectStep (t : Nat) (reserved : Bool) (acc : List (Nat × Bool) × List RidgeMsg) (m : RidgeMsg) :
    List (Nat × Bool) × List RidgeMsg :=
  if m.entered.isSome || m.since > t || m.reserved != reserved || acc.1.contains (m.src, m.up) then (acc.1, acc.2 ++ [m])
  else ((m.src, m.up) :: acc.1, acc.2 ++ [{ m with entered := some t, reserved := false }])

theorem injectAt_eq_foldl (t : Nat) (reserved : Bool) (taken : List (Nat × Bool)) (ms : List RidgeMsg) :
    injectAt t reserved taken ms = ms.foldl (injectStep t reserved) (taken, []) := rfl

section
variable {t : Nat} {reserved : Bool} {acc : List (Nat × Bool) × List RidgeMsg} {m : RidgeMsg}

/-- No injection takes a slot that is taken. -/
theorem injectStep_taken (h : (m.src, m.up) ∈ acc.1) : injectStep t reserved acc m = (acc.1, acc.2 ++ [m]) := by
  simp [injectStep, h]

theorem injectStep_grows (t : Nat) (reserved : Bool) (acc : List (Nat × Bool) × List RidgeMsg) (m : RidgeMsg) :
    acc.1 ⊆ (injectStep t reserved acc m).1 ∧ acc.2 ⊆ (injectStep t reserved acc m).2 := by
  unfold injectStep
  split <;> simp

theorem foldl_injectStep_grows (t : Nat) (reserved : Bool) (ms : List RidgeMsg) (acc : List (Nat × Bool) × List RidgeMsg) :
    acc.1 ⊆ (ms.foldl (injectStep t reserved) acc).1 ∧ acc.2 ⊆ (ms.foldl (injectStep t reserved) acc).2 := by
  induction ms generalizing acc with
  | nil => simp
  | cons x rest ih =>
    obtain ⟨htaken, hpassed⟩ := injectStep_grows t reserved acc x
    obtain ⟨htaken', hpassed'⟩ := ih (injectStep t reserved acc x)
    exact ⟨List.Subset.trans htaken htaken', List.Subset.trans hpassed hpassed'⟩

/-- A pass leaves a message as it is whose slot was taken before. -/
theorem mem_injectAt_of_taken {taken : List (Nat × Bool)} {ms : List RidgeMsg} (h : (m.src, m.up) ∈ taken) (hm : m ∈ ms) :
    m ∈ (injectAt t reserved taken ms).2 := by
  obtain ⟨before, after, rfl⟩ := List.append_of_mem hm
  have hslot := (foldl_injectStep_grows t reserved before (taken, [])).1 h
  rw [injectAt_eq_foldl, List.foldl_append, List.foldl_cons, injectStep_taken hslot]
  exact (foldl_injectStep_grows t reserved after _).2 (by simp)

end

/-- A message at whose stop another has the slot of its direction waits through the ring cycle. -/
theorem mem_ringCycle_of_slotAt {now : Nat} {ms : List RidgeMsg} {m x : RidgeMsg} (hm : m ∈ ms) (hx : x ∈ ms)
    (hslot : x.slotAt now = some (m.src, m.up)) : m ∈ ringCycle now ms := by
  have htaken : (m.src, m.up) ∈ ms.filterMap (fun m => m.slotAt now) := List.mem_filterMap.2 ⟨x, hx, hslot⟩
  exact mem_injectAt_of_taken ((foldl_injectStep_grows now true ms _).1 htaken) (mem_injectAt_of_taken htaken hm)

/-! Boot (13 R268, R269). -/

theorem exec_deviceReset (boot : Boot) (s : State) : exec (.deviceReset boot) s = .next { State.reset with
    agenda := s.agenda, device := s.device, fresh := s.fresh + 1, firmware := bootFirmware boot s.firmware,
    blur := if verifiedImage boot.root then []
      else [{ lo := 0, hi := 2 ^ 41, epoch := s.fresh, remap := none, written := [] }] } := rfl

/-- A verified root image leaves no byte of memory undefined. -/
theorem exec_deviceReset_verified {boot : Boot} (h : verifiedImage boot.root = true) (s : State) :
    exec (.deviceReset boot) s = .next { State.reset with
      agenda := s.agenda, device := s.device, fresh := s.fresh + 1, firmware := bootFirmware boot s.firmware } := by
  rw [exec_deviceReset, if_pos h]
  rfl

/-- The device is in recovery unless both images verify. -/
theorem bootFirmware_recovery (boot : Boot) (old : Firmware) : (bootFirmware boot old).recovery = true ↔
    ¬(verifiedImage boot.root = true ∧ verifiedImage boot.service = true) := by
  simp [bootFirmware, -not_and, Classical.not_and_iff_not_or_not]

/-- A verified service image runs without keys and without the expert level, on the granted extents. -/
theorem bootFirmware_service {boot : Boot} (hr : verifiedImage boot.root = true) (hs : verifiedImage boot.service = true)
    (old : Firmware) : (bootFirmware boot old).service = some { Sandbox.closed with extents := boot.extents } := by
  simp [bootFirmware, hr, hs]

/-- The signed report that attestation answers. -/
def State.attestation (s : State) (nonce : BitVec 512) : Report :=
  let r : Report :=
    { nonce := nonce, device := s.device, serial := Config.serialNumber, versions := s.firmware.images.map Config.firmwareVersion,
      measurements := s.firmware.images.map Config.measurement ++ s.firmware.configs.map Config.configMeasurement,
      unlocked := s.firmware.everUnlocked, signature := 0 }
  { r with signature := Config.signature s.fresh r.digest }

theorem exec_attestationRequest (nonce : BitVec 512) (s : State) : exec (.attestationRequest nonce) s =
    .next { s with firmware := { s.firmware with report := some (s.attestation nonce) }, fresh := s.fresh + 1 } := rfl

/-! Bundles and issue ports (02 R28; 10 R211; 13 R267). -/

section
variable {s : State} {core : Nat}

theorem exec_bundleReformation (h : s.cycle % 4 = 0) : exec (.bundleReformation core) s = .next (s.reform core) :=
  congrArg event (if_pos h)

theorem exec_readyAgeOverride (h : s.aged core ≠ []) : exec (.readyAgeOverride core) s =
    .next { s with agenda := s.portTurns core ++ s.agenda.filter (fun t => !(s.portTurns core).contains t) } :=
  congrArg event (if_neg (mt List.isEmpty_iff.1 h))

theorem keyLess_of_fst_lt {a b : Nat × Nat × Nat} (h : a.1 < b.1) : keyLess a b = true := by
  simp [keyLess, h]

/-- The key of a bundle begins with 0 where an issuer has been ready for 32,768 allowed cycles. -/
theorem State.bundleKey_fst_of_aged {x : Bundle} {since : Nat} (h : s.agedSince x.core since = true) :
    (s.bundleKey x since).1 = 0 := by
  simp [State.bundleKey, h]

theorem State.bundleKey_fst_pos {x : Bundle} {since : Nat} (h : s.agedSince x.core since = false) :
    0 < (s.bundleKey x since).1 := by
  simp only [State.bundleKey, h, Bool.false_eq_true, if_false]
  positivity

/-- Aged bundles come before any other. -/
theorem State.keyLess_bundleKey_of_aged {x y : Bundle} {t u : Nat} (hx : s.agedSince x.core t = true)
    (hy : s.agedSince y.core u = false) : keyLess (s.bundleKey x t) (s.bundleKey y u) = true :=
  keyLess_of_fst_lt (by rw [State.bundleKey_fst_of_aged hx]; exact State.bundleKey_fst_pos hy)

theorem State.portPicks_eq_nil (h : s.mayIssue core = false) : s.portPicks core = [] := by
  simp [State.portPicks, h]

/-- A core has four issue ports. -/
theorem State.length_portPicks_le (s : State) (core : Nat) : (s.portPicks core).length ≤ 4 := by
  cases h : s.mayIssue core with
  | false => simp [State.portPicks_eq_nil h]
  | true =>
    rw [State.portPicks, h, if_neg (by decide)]
    exact List.length_take_le ..

/-- A core's cycles beyond the eighths of its throttle state are not allowed. -/
theorem State.mayIssue_eq_false (h : issueEighths (s.governor (stackOf core)).throttle ≤ s.cycle % 8) : s.mayIssue core = false :=
  decide_eq_false (Nat.not_lt.2 h)

end

/-- Settles O60: the Ridge by its delivery and its ring cycle, the boot by its firmware, the ports by their keys. -/
theorem theRestOfThePackageTakesItsTurns : Obligations.TheRestOfThePackageTakesItsTurns := by
  refine ⟨?ridge, ?boot, ?ports⟩
  case ridge =>
    intro s cls src dst stop i e now up m x
    refine ⟨fun hm he ht => ?_, fun hr hl hb => s.linkError_homeOnly hr hl hb, fun hi => exec_ridgeInjectionReserve hi,
      fun hm _ hx hslot => mem_ringCycle_of_slotAt hm hx hslot⟩
    have ha := RidgeMsg.arrival_of_on (List.find?_some (p := fun m : RidgeMsg => m.on cls src dst) hm) he
    exact ⟨exec_ridgeMessageDeliver hm ha ht false, exec_ridgeMessageDeliver hm ha ht true⟩
  case boot =>
    intro s nonce port boot
    refine ⟨fun hr => exec_deviceReset_verified hr s, ?_, fun hr hs => ?_, ?_, rfl, rfl⟩
    · exact ⟨_, exec_deviceReset boot s, rfl, bootFirmware_recovery boot s.firmware, rfl, rfl, rfl⟩
    · exact ⟨_, exec_deviceReset boot s, bootFirmware_service hr hs s.firmware⟩
    · exact ⟨_, _, exec_attestationRequest nonce s, rfl, rfl, rfl, rfl, rfl, rfl, rfl, rfl, rfl⟩
  case ports =>
    intro s core x y t u made
    exact ⟨fun h => exec_bundleReformation h, fun h => exec_readyAgeOverride h,
      fun hx hy => State.keyLess_bundleKey_of_aged hx hy, s.length_portPicks_le core,
      fun h => State.portPicks_eq_nil (State.mayIssue_eq_false h)⟩

end Sys2Proof.Machine
end

section
/-!
SUPPORT. What leaves every block of the package as it is (05 R102, R103; 06 R123; 12 R243, R252): the writes of a home, the push of a
core's L1, the counting of matches. And what an issuer's environment is once one block has been changed.
-/
namespace Sys2Proof.Machine

/-- A fold whose every step leaves the blocks as they are leaves them so. -/
theorem foldl_blocks {α : Type} {f : State → α → State} (h : ∀ s x, (f s x).blocks = s.blocks) (l : List α) (s : State) :
    (l.foldl f s).blocks = s.blocks := by
  induction l generalizing s with
  | nil => rfl
  | cons x l ih => exact (ih (f s x)).trans (h s x)

@[simp] theorem State.dramWrite_blocks (s : State) (c : Nat) (bs : List Byte) : (s.dramWrite c bs).blocks = s.blocks := by
  induction bs generalizing s c with
  | nil => rfl
  | cons b bs ih => exact ih (s.dramPut c b) (c + 1)

@[simp] theorem State.addPoison_blocks (s : State) (c n o : Nat) : (s.addPoison c n o).blocks = s.blocks := rfl

@[simp] theorem State.homeWrite_blocks (s : State) (c : Nat) (bs : List Byte) : (s.homeWrite c bs).blocks = s.blocks := by
  unfold State.homeWrite
  split <;> simp

@[simp] theorem State.putBytes_blocks (s : State) (unc : Bool) (c : Nat) (bs : List Byte) :
    (s.putBytes unc c bs).blocks = s.blocks := by
  unfold State.putBytes
  split <;> simp

@[simp] theorem State.noteDram_blocks (s : State) (unit : Nat) (cls : DramClass) (reading : Bool) (reader : Option Nat) :
    (s.noteDram unit cls reading reader).blocks = s.blocks := rfl

@[simp] theorem State.ridgeSend_blocks (s : State) (rc : RidgeClass) (src dst : Nat) (data : List Nat) (reader : Option Nat) :
    (s.ridgeSend rc src dst data reader).blocks = s.blocks := by
  unfold State.ridgeSend
  split <;> rfl

@[simp] theorem State.note_blocks (s : State) (core c n : Nat) (cls : DramClass) (rc : RidgeClass) :
    (s.note core c n cls rc).blocks = s.blocks := by
  simp [State.note]

@[simp] theorem State.sendRecord_blocks (s : State) (queue : Nat) (r : FaultRec) : (s.sendRecord queue r).blocks = s.blocks := rfl

@[simp] theorem State.combineAt_blocks (s : State) (unc : Bool) (l : Line) : (s.combineAt unc l).blocks = s.blocks := by
  unfold State.combineAt
  split
  · rfl
  · refine foldl_blocks (fun t off => ?_) _ s
    dsimp only
    split
    · rfl
    · split
      · exact foldl_blocks (fun u g => u.sendRecord_blocks _ _) _ t
      · simp

@[simp] theorem State.recall_blocks (s : State) (unit : Nat) : (s.recall unit).blocks = s.blocks := by
  unfold State.recall
  split
  · rfl
  · exact foldl_blocks (fun t l => by simp [State.combineLine]) _ _

@[simp] theorem State.writeSector_blocks (s : State) (l : Line) (k : Nat) : (s.writeSector l k).blocks = s.blocks := by
  unfold State.writeSector
  split
  · rfl
  · extract_lets s1 s2
    have h2 : s2.blocks = s1.blocks := by
      unfold s2
      split
      · simp
      · refine foldl_blocks (fun t i => ?_) _ s1
        split <;> simp
    split <;> simp [h2, s1]

@[simp] theorem State.noteBack_blocks (s : State) (l : Line) (u : Nat) : (s.noteBack l u).blocks = s.blocks := by
  unfold State.noteBack
  split
  · rfl
  · dsimp only
    split <;> simp

@[simp] theorem State.writeBack_blocks (s : State) (l : Line) : (s.writeBack l).blocks = s.blocks := by
  unfold State.writeBack
  split
  · rfl
  · simp only [State.l1Put_blocks]
    rw [foldl_blocks (fun t u => t.noteBack_blocks l u)]
    refine foldl_blocks (fun t k => ?_) _ s
    split <;> simp

@[simp] theorem State.pushLine_blocks (s : State) (l : Line) : (s.pushLine l).blocks = s.blocks := by
  unfold State.pushLine
  split <;> simp [State.combineLine]

@[simp] theorem State.pushCore_blocks (s : State) (core : Nat) : (s.pushCore core).blocks = s.blocks :=
  foldl_blocks (fun t l => t.pushLine_blocks l) _ s

@[simp] theorem State.traceRecord_blocks (s : State) (e : Env) : (s.traceRecord e).blocks = s.blocks := by
  unfold State.traceRecord
  dsimp only
  split
  · rfl
  · split
    · rfl
    · exact s.pushCore_blocks e.core

@[simp] theorem State.countMatches_blocks (s : State) (e : Env) (ms : List (Nat × Watch × Nat)) :
    (s.countMatches e ms).blocks = s.blocks := by
  refine foldl_blocks (fun t m => ?_) ms s
  dsimp only
  split <;> simp

/-- Issuers are found by the blocks alone. -/
theorem State.envOf_of_blocks {s t : State} (h : t.blocks = s.blocks) (bid : Nat) (who : Who) : t.envOf bid who = s.envOf bid who := by
  simp only [State.envOf, State.block?, h]

/-- An issuer's environment is its block and its context in that block. -/
theorem State.envOf_eq_some_iff {s : State} {bid : Nat} {who : Who} {e : Env} : s.envOf bid who = some e ↔
    s.block? bid = some e.blk ∧ e.blk.ctx? who = some e.ctx ∧ e.who = who := by
  unfold State.envOf
  constructor
  · intro h
    split at h
    · cases h
    · split at h
      · cases h
      · cases h
        exact ⟨‹_›, ‹_›, rfl⟩
  · rintro ⟨hb, hc, rfl⟩
    simp [hb, hc]

section
variable {s : State} {bid : Nat} {who : Who} {e : Env}

/-- An issuer in a changed block. -/
theorem State.envOf_modBlock (he : s.envOf bid who = some e) {g : Block → Block} (hg : ∀ b, (g b).bid = b.bid) {c : Ctx}
    (hc : (g e.blk).ctx? who = some c) : (s.modBlock bid g).envOf bid who = some { blk := g e.blk, who := who, ctx := c } :=
  State.envOf_eq_some_iff.2 ⟨block_modBlock_self g hg (State.envOf_eq_some_iff.1 he).1, hc, rfl⟩

/-- An issuer whose context has been changed. -/
theorem State.envOf_modCtx (he : s.envOf bid who = some e) (g : Ctx → Ctx) :
    (s.modCtx bid who g).envOf bid who = some { blk := e.blk.modCtx who g, who := who, ctx := g e.ctx } := by
  obtain ⟨-, hc, -⟩ := State.envOf_eq_some_iff.1 he
  exact State.envOf_modBlock he (fun b => modCtx_bid b _ g) (ctx_modCtx_self g hc)

/-- Counting an instruction in its block's cost changes no context of the block. -/
theorem State.envOf_chargeOnce (he : s.envOf bid who = some e) (c : Ctx) :
    ∃ n, (s.chargeOnce bid c).envOf bid who = some { e with blk := { e.blk with cost := n } } := by
  obtain ⟨-, hc, rfl⟩ := State.envOf_eq_some_iff.1 he
  rw [chargeOnce_eq]
  exact ⟨_, State.envOf_modBlock he (g := fun b => { b with cost := b.cost + if c.counted then 0 else 1 }) (fun _ => rfl) hc⟩

end

theorem Env.again_of_envOf {s : State} {e f : Env} (h : s.envOf e.bid e.who = some f) : e.again s = f := by
  simp [Env.again, h]

end Sys2Proof.Machine
end

section
/-!
SUPPORT. Row collectives (02 R38; 03 R57, R65, R66; 18 R396, R397, R402, R404): what an arrival leaves, what the row then comes to, and
what the lane collectives give to each fibre of the row.
-/
namespace Sys2Proof.Machine

/-! Arrival (02 R38; 03 R57). -/

/-- The record of issuer e's arrival at collective i with what it brings. -/
def Env.arrivalAt (e : Env) (i : Instr) (active : Bool) (x : Bring) : Arrival :=
  { pc := e.ctx.pc, op := x.op, active := active, value := x.value, pred := x.pred, cells := e.written i, bits := e.writtenBits i,
    before := none }

/-- In f, issuer e of before has arrived at collective i: it waits with its arrival recorded, the destinations that it will write are
empty, and no other issuer of its block is changed. -/
structure Env.ArrivedIn (e f : Env) (i : Instr) (active : Bool) (x : Bring) : Prop where
  waits : f.ctx.wait = some .collective
  others : ∀ v, v ≠ e.who → f.blk.ctx? v = e.blk.ctx? v
  recorded : f.ctx.arrival = some (e.arrivalAt i active x)
  empties : active = true → isLong i = true → ∀ k ∈ e.writtenBits i, f.ctx.empties.contains k = true

theorem State.arrive_arrivedIn {s : State} {e : Env} (he : s.envOf e.bid e.who = some e) (i : Instr) (active : Bool) (x : Bring) :
    e.ArrivedIn (e.again (s.arrive e (e.form i) (isLong i) active x)) i active x := by
  obtain ⟨n, hn⟩ := State.envOf_chargeOnce he e.ctx
  have harrive := Env.again_of_envOf (s := s.arrive e (e.form i) (isLong i) active x) (State.envOf_modCtx hn _)
  rw [harrive]
  refine ⟨rfl, fun v hv => ctx_modCtx_ne _ _ hv, rfl, fun ha hl k hk => ?_⟩
  simp only [ha, hl, Bool.and_self, if_true]
  exact List.contains_iff_mem.2 ((foldl_sins_mem _ _ k).2 (.inl hk))

/-- An issuer that arrives now, whether its guard holds or not. -/
theorem State.Arrives.arrivedIn {s u : State} {e : Env} {i : Instr} (h : s.Arrives e i u) (hnew : e.ctx.arrival = none) :
    ∃ vals, e.ArrivedIn (e.again u) i (guardHolds (e.form i).guard e.ctx) (e.brings i vals) := by
  obtain ⟨henv, -, -, ⟨a, vals, ha, -, -⟩ | ⟨-, vals, hpass, -, rfl⟩ | ⟨-, -, -, hg, vals, -, rfl⟩⟩ := h
  · rw [hnew] at ha
    cases ha
  · obtain ⟨-, -, hg, -⟩ := hpass
    rw [hg]
    have hcounted := State.envOf_of_blocks (s.countMatches_blocks e (s.early e i vals)) e.bid e.who
    exact ⟨vals, State.arrive_arrivedIn (hcounted.trans (envOf_of henv)) i true _⟩
  · rw [hg]
    exact ⟨vals, State.arrive_arrivedIn (envOf_of henv) i false _⟩

/-- An issuer at a row collective stands recorded as arrived with the collective's operation. -/
theorem State.Arrives.recorded {s u : State} {e : Env} {i : Instr} (h : s.Arrives e i u) :
    ∃ a vals, (e.again u).ctx.arrival = some a ∧ a.op = (e.brings i vals).op := by
  cases harr : e.ctx.arrival with
  | none =>
    obtain ⟨vals, hin⟩ := h.arrivedIn harr
    exact ⟨_, vals, hin.recorded, rfl⟩
  | some b =>
    obtain ⟨henv, -, -, ⟨a, vals, ha, hop, rfl⟩ | ⟨hnone, -⟩ | ⟨hnone, -⟩⟩ := h
    · rw [again_self henv]
      exact ⟨a, vals, ha, hop⟩
    · cases harr.symm.trans hnone
    · cases harr.symm.trans hnone

/-! Going on with the row (02 R38). -/

/-- A row collective is issued with what its fibre brings; an LDL goes on by itself only where its row has completed already. -/
theorem exec_collects {i : Instr} (hc : collects i = true) {s : State} (hl : s.loading = none) :
    exec i s = collective i (fun e => e.brings i) s := by
  unfold collects at hc
  split at hc
  case h_1 => rfl
  case h_2 => rfl
  case h_3 => rfl
  case h_4 rd ra sz ord sc g =>
    show execLdl rd ra sz ord sc g s = _
    simp only [execLdl, hl]
    rfl
  case h_5 => rfl
  case h_6 => cases hc

/-- An issuer at a row collective goes on with its row. -/
theorem State.Arrives.exec_eq {s u : State} {e : Env} {i : Instr} (h : s.Arrives e i u) (hc : collects i = true) :
    exec i s = .next (u.rowTry (e.again u)) := by
  have hl : s.loading = none := by
    obtain ⟨henv, -, hanswer, -⟩ := h
    rw [State.loading, henv]
    dsimp only
    split
    · exact absurd ‹_› (hanswer _)
    · rfl
  rw [exec_collects hc hl, collective_arrives h _ rfl]

/-- A row that has arrived at two PCs clashes. -/
theorem rowTry_clashes {u : State} {f : Env} (harr : ∀ m ∈ f.blk.rowMates f.who.fid, m.2.arrival.isSome ∧ m.2.parked = none)
    (hpc : ∃ m ∈ f.blk.rowMates f.who.fid, m.2.pc ≠ f.ctx.pc) : u.rowTry f = u.rowClash f (f.blk.rowMates f.who.fid) := by
  unfold State.rowTry
  simp only []
  rw [if_neg, if_pos]
  · obtain ⟨m, hm, hne⟩ := hpc
    exact List.any_eq_true.2 ⟨m, hm, bne_iff_ne.2 hne⟩
  · simp only [List.any_eq_true, not_exists, not_and]
    intro m hm
    obtain ⟨hsome, hparked⟩ := harr m hm
    simp [Option.isNone_eq_false_iff.2 hsome, hparked]

/-! The lane collectives (03 R66; 18 R396, R397, R402, R404). -/

/-- The last fibre of its row to arrive at a lane collective completes it for all. -/
theorem State.Arrives.exec_lanes {s u : State} {e : Env} {i : Instr} (h : s.Arrives e i u) (hrow : (e.again u).rowComplete)
    {rd ra rb : Reg} {imm : BitVec 8} {pn : BitVec 4} {fe : Bool} {g : Guard}
    (hi : i = .xlane rd ra rb fe g ∨ i = .xshf rd ra imm g ∨ i = .vote rd pn rb g) :
    exec i s = .next (u.completeLanes (e.again u).bid (e.again u).arrivals (e.again u).arrivals) := by
  obtain ⟨a, vals, ha, hop⟩ := h.recorded
  rcases hi with rfl | rfl | rfl
  all_goals
    rw [h.exec_eq rfl, rowTry_complete hrow ha, hop]
    rfl

/-- A source position of a row names the lane of that number, if there is one. -/
theorem pickLane_eq (as : List (Nat × Arrival)) (row : Nat) (k : Int) : pickLane as row k =
    if 0 ≤ k ∧ k ≤ 31 then (aget as (row * 32 + k.toNat)).map (·.value) else none := by
  unfold pickLane
  rw [Nat.mul_comm]
  by_cases hk : 0 ≤ k ∧ k ≤ 31
  · rw [if_neg (by omega), if_pos hk]
  · rw [if_pos (by omega), if_neg hk]

/-- A ballot has the bit of every fibre whose predicate is set. -/
theorem ballot_eq (as : List (Nat × Arrival)) :
    ballot as = as.foldl (fun n v => n + (if v.2.pred then 2 ^ (v.1 % 32) else 0)) 0 := by
  unfold ballot
  congr 1
  funext n v
  cases v.2.pred <;> simp [bit01]

/-- What XLANE gives. -/
theorem laneResult_xlane (as : List (Nat × Arrival)) (fid j : Nat) :
    laneResult as fid (.xlane j) = (pickLane as (fid / 32) j, (pickLane as (fid / 32) j).isSome) := rfl

/-- What XSHF gives. -/
theorem laneResult_xshf (as : List (Nat × Arrival)) (fid : Nat) (k : Int) : laneResult as fid (.xshf k) =
    (pickLane as (fid / 32) ((fid % 32 : Nat) + k), (pickLane as (fid / 32) ((fid % 32 : Nat) + k)).isSome) := rfl

/-- What VOTE gives: any, all or the ballot, by its mode. -/
theorem laneResult_vote (as : List (Nat × Arrival)) (fid mode : Nat) : laneResult as fid (.vote mode) =
    (some (if mode = 0 then (if ballot as = 0 then 0 else 1)
      else if mode = 1 then (if as.all (fun x => x.2.pred) then 1 else 0) else BitVec.ofNat 32 (ballot as)),
      decide (as.length = 32)) := by
  match mode with
  | 0 => simp [laneResult]
  | 1 => simp [laneResult]
  | n + 2 => simp [laneResult]

/-- Settles O38: an arrival by what it leaves in its block, the row by what it comes to, the lanes by what each fibre receives. -/
theorem laneCollectivesCompleteForTheRow : Obligations.LaneCollectivesCompleteForTheRow := by
  refine ⟨fun s u e i => ?arrival, fun s u e i rd ra rb imm pn fe g => ?lanes⟩
  case arrival =>
    intro f mates hc h
    refine ⟨fun hwait => ?_, fun harr hpc => ?_, fun hnew => ?_⟩
    · rw [h.exec_eq hc, rowTry_waits hwait]
    · rw [h.exec_eq hc, rowTry_clashes harr hpc]
      rfl
    · obtain ⟨vals, hin⟩ := h.arrivedIn hnew
      exact ⟨hin.waits, hin.others, _, vals, hin.recorded, rfl, rfl, rfl, rfl, rfl, rfl, hin.empties⟩
  case lanes =>
    intro f as lane votes
    have hlane (fid : Nat) (k : Int) : pickLane as (fid / 32) k = lane fid k := pickLane_eq as (fid / 32) k
    have hvotes : ballot as = votes := ballot_eq as
    refine ⟨fun hi h hrow => h.exec_lanes hrow hi, fun fid j _ => ?_, fun fid k => ?_, fun fid v => ?_, fun t fid a rest => ?_⟩
    · rw [laneResult_xlane, hlane]
    · rw [laneResult_xshf, hlane]
    · rw [laneResult_vote, hvotes]
    · rw [State.completeLanes]
      congr 2
      funext x
      cases a.active <;> rfl

end Sys2Proof.Machine
end

section
/-!
SUPPORT. Creation of fibres, the uniform queue and the waits (02 R30; 03 R62, R63; 06 R137; 16 R335; 18 R395, R398): what FORK, UPUSH,
WAITF and WAITO leave when they complete.
-/
namespace Sys2Proof.Machine

section
variable {s : State} {e : Env} {rd ra rb : Reg} {imm : BitVec 8} {fe : Bool} {g : Guard} {a b k : Nat}

/-! The lowest free identifier (02 R30). -/

theorem Block.freeId_eq_some {x : Block} (hk : k < x.params.fibreCount) (hbelow : ∀ j, j < k → (aget x.body.fibres j).isSome)
    (hfree : aget x.body.fibres k = none) : x.freeId = some k := by
  refine List.find?_range_eq_some.2 ⟨?_, List.mem_range.2 hk, fun j hj => ?_⟩
  · simp [hfree]
  · simpa [Option.isSome_iff_ne_none] using hbelow j hj

theorem Block.freeId_eq_none {x : Block} (hfull : ∀ j, j < x.params.fibreCount → (aget x.body.fibres j).isSome) :
    x.freeId = none := by
  refine List.find?_eq_none.2 fun j hj => ?_
  simpa [Option.isSome_iff_ne_none] using hfull j (List.mem_range.1 hj)

/-- The context of the fibre that a FORK of issuer e creates, with register 0 set to the low word of b. -/
def Env.forked (e : Env) (i : Instr) (target : DWord) (b now : Nat) : Ctx :=
  { Ctx.new target (e.ctx.uqPos + (e.form i).pops) now with regs := sput 0 [] 0 (BitVec.ofNat 32 b) }

/-- FORK at a legal PC creates a fibre under the lowest free identifier and answers it. -/
theorem exec_fork_creates (h : Issues s e (.fork rd ra rb fe g) [a, b]) (hpc : goodPc (BitVec.ofNat 64 a) = true)
    (hk : e.blk.freeId = some k) : exec (.fork rd ra rb fe g) s = .next (s.retired e (.fork rd ra rb fe g)
      { state := s.modBlock e.bid (fun x => x.modBody (fun y =>
          { y with fibres := aput y.fibres k (e.forked (.fork rd ra rb fe g) (BitVec.ofNat 64 a) b s.time) })), vals := [k] }) :=
  issue_done h (by simp only [List.getD_cons_zero, hpc, hk]; rfl)

/-- FORK without a free identifier answers 0xFFFF_FFFF. -/
theorem exec_fork_full (h : Issues s e (.fork rd ra rb fe g) [a, b]) (hpc : goodPc (BitVec.ofNat 64 a) = true)
    (hk : e.blk.freeId = none) :
    exec (.fork rd ra rb fe g) s = .next (s.writes e (.fork rd ra rb fe g) [0xFFFFFFFF]) :=
  issue_done h (by simp only [List.getD_cons_zero, hpc, hk]; rfl)

/-- UPUSH with room in the uniform queue appends its word. -/
theorem exec_upush_appends (h : Issues s e (.upush ra fe g) [a]) (hroom : e.blk.body.uq.length < 64) :
    exec (.upush ra fe g) s = .next (s.retired e (.upush ra fe g)
      { state := s.modBlock e.bid (fun x => x.modBody (fun y => { y with uq := y.uq ++ [BitVec.ofNat 32 a] })) }) :=
  issue_done h (if_neg (Nat.not_le.2 hroom))

theorem Ctx.firstEmpty_eq_none {c : Ctx} {bs : List Nat} (h : ∀ n ∈ bs, c.empties.contains n = false) : c.firstEmpty bs = none :=
  List.find?_eq_none.2 fun n hn => Bool.eq_false_iff.1 (h n hn)

/-- The registers that WAITF waits for: of the lead, or from the window base on. -/
def Env.waitRange (e : Env) (ra rb : Reg) : List Nat :=
  span (if e.lead then ra.toNat else e.ctx.wb.toNat + ra.toNat) (rb.toNat + 1)

/-- WAITF passes when its range is full. -/
theorem exec_waitf_passes (h : Issues s e (.waitf ra rb g) []) (hfull : ∀ n ∈ e.waitRange ra rb, e.ctx.empties.contains n = false) :
    exec (.waitf ra rb g) s = .next (s.writes e (.waitf ra rb g) []) := by
  have hnone := Ctx.firstEmpty_eq_none hfull
  rw [Env.waitRange] at hnone
  exact issue_done h (by simp only [hnone]; rfl)

/-- WAITO passes when its counter is low enough, and acquires at .core. -/
theorem exec_waito_passes (h : Issues s e (.waito ra imm g) []) (hlow : e.ctx.counter ra.toNat ≤ imm.toNat) :
    exec (.waito ra imm g) s = .next (s.retired e (.waito ra imm g) { state := s.acquire e.core 2 }) :=
  issue_done h (if_neg (Nat.not_lt.2 hlow))

end

/-- Settles O22, instruction by instruction. -/
theorem fibresStartAndWaitsPass : Obligations.FibresStartAndWaitsPass := by
  intro s e rd ra rb imm fe g a b t c range
  have hrange : range = e.waitRange ra rb := (apply_ite (fun lo => span lo (rb.toNat + 1)) _ _ _).symm
  refine ⟨fun h halign hcanon => ?_, exec_upush_appends, fun h hfull => exec_waitf_passes h (hrange ▸ hfull), exec_waito_passes⟩
  have hpc : goodPc t = true := by simp [goodPc, halign, hcanon]
  exact ⟨fun k hk hbelow hfree => exec_fork_creates h hpc (Block.freeId_eq_some hk hbelow hfree),
    fun hfull => exec_fork_full h hpc (Block.freeId_eq_none hfull)⟩

end Sys2Proof.Machine
end

section
/-!
SUPPORT. The end of issuers, the retirement of blocks and acknowledged releases (02 R31, R33; 06 R123; 11 R229, R233): what each event
leaves when its condition holds, and when a fault has stopped the block.
-/
namespace Sys2Proof.Machine

section
variable {s t : State} {bid : Nat} {who : Who} {e : Env} {c : Ctx}

/-- An ending issuer with no producer and no counted operation outstanding has finished. -/
theorem Ctx.finished_of (hlife : c.life = .ending) (hprod : c.producers = []) (hcount : ∀ j, j < 4 → c.counter j = 0) :
    c.finished = true := by
  have h0 : c.cnt0 = 0 := hcount 0 (by decide)
  have h1 : c.cnt1 = 0 := hcount 1 (by decide)
  have h2 : c.cnt2 = 0 := hcount 2 (by decide)
  have h3 : c.cnt3 = 0 := hcount 3 (by decide)
  simp [Ctx.finished, hlife, hprod, h0, h1, h2, h3]

/-- A finished issuer of a block on a core that no fault has stopped ends. -/
theorem exec_fibreEnded_ends (he : s.envOf bid who = some e) (hcore : e.blk.core.isSome = true) (hfault : e.blk.primary = none)
    (hfin : e.ctx.finished = true) :
    exec (.fibreEnded bid who) s = .next (s.modBlock bid (fun b => (b.endIssuer who).freeUq)) := by
  show execFibreEnded bid who s = _
  simp [execFibreEnded, event, he, hfault, hfin, Option.isNone_eq_false_iff.2 hcore]

/-- A block that has left its core, or that a fault has stopped, keeps its ending issuers. -/
theorem exec_fibreEnded_kept (he : s.envOf bid who = some e) (h : e.blk.core = none ∨ e.blk.primary ≠ none) :
    exec (.fibreEnded bid who) s = .next s := by
  show execFibreEnded bid who s = _
  rcases h with hcore | hfault
  · simp [execFibreEnded, event, he, hcore]
  · simp [execFibreEnded, event, he, Option.isSome_iff_ne_none.2 hfault]

/-- The end of a fibre frees its identifier and keeps its CRC in the block's signature. -/
theorem Block.endIssuer_fibre (b : Block) (k : Nat) : b.endIssuer (.fibre k) = match b.ctx? (.fibre k) with
    | some c => b.modBody (fun y => { y with fibres := adel y.fibres k, endedCrc := y.endedCrc ^^^ c.crc })
    | none => b := by
  unfold Block.endIssuer
  cases b.ctx? (.fibre k) <;> rfl

/-- The end of the lead leaves it ended. -/
theorem Block.endIssuer_lead (b : Block) : b.endIssuer .lead = match b.ctx? .lead with
    | some c => b.setCtx .lead { c with life := .ended, wait := none }
    | none => b := rfl

/-- A running block whose fibres and lead have ended retires once its commit point lets it. -/
theorem exec_blockRetire_retires (he : s.envOf bid .lead = some e) (hended : e.blk.allEnded = true)
    (hrun : e.blk.running = true) (hrole : e.blk.role ≠ .trailing) (hgo : s.commitPoint e [] = .go t) :
    exec (.blockRetire bid) s = .next ((t.pushCore e.core).retireBlock e.blk) := by
  show execBlockRetire bid s = _
  simp [execBlockRetire, event, he, hended, hrun, hrole, hgo]

/-- An issuer whose context has been changed is found with the changed context. -/
theorem State.modCtx_ctx_self (h : s.ctx? bid who = some c) (f : Ctx → Ctx) : (s.modCtx bid who f).ctx? bid who = some (f c) := by
  unfold State.ctx? at h ⊢
  cases hb : s.block? bid with
  | none => simp [hb] at h
  | some b =>
    rw [hb] at h
    rw [State.modCtx, block_modBlock_self _ (fun b => modCtx_bid b who f) hb]
    exact ctx_modCtx_self f h

/-- The release of an issuer whose acknowledgements have come is done, and its issuer waits no more. -/
theorem State.ctx_releaseAckComplete (hc : s.ctx? bid who = some c) (hack : s.ackReady c.phase.release = true) :
    ∃ u, exec (.releaseAckComplete bid who) s = .next u ∧
      u.ctx? bid who = some { c with wait := none, phase := { c.phase with release := .done } } := by
  refine ⟨_, rfl, ?_⟩
  rw [State.modCtx_ctx_self hc, if_pos hack]

end

/-- Settles O41, event by event. -/
theorem issuersEndAndBlocksRetire : Obligations.IssuersEndAndBlocksRetire := by
  intro s t bid k who e c
  refine ⟨fun he hcore hfault hlife hprod hcount => ?_, fun he hcore hfault hlife hprod hcount => ?_,
    fun he hfibres hlead hrun hrole hgo => ?_, exec_fibreEnded_kept, fun hc hack => ?_⟩
  · rw [exec_fibreEnded_ends he hcore hfault (Ctx.finished_of hlife hprod hcount)]
    have hend (b : Block) := congrArg Block.freeUq (b.endIssuer_fibre k)
    exact congrArg (fun f => Host.Outcome.next (s.modBlock bid f)) (funext hend)
  · exact exec_fibreEnded_ends he hcore hfault (Ctx.finished_of hlife hprod hcount)
  · exact exec_blockRetire_retires he (by simp [Block.allEnded, hfibres, hlead]) hrun hrole hgo
  · refine State.ctx_releaseAckComplete hc ?_
    rcases hack with h | ⟨n, h, hn⟩ | ⟨n, h, hn⟩
    · rw [h]
      rfl
    · simp [State.ackReady, h, hn]
    · simp [State.ackReady, h, hn]

end Sys2Proof.Machine
end

section
/-!
SUPPORT. Formats without an fe field and uq in row collectives (03 R51, R64, R65; 14 R274): what an issuer leaves that waits on an empty
source, and what a refused row collective leaves.
-/
namespace Sys2Proof.Machine
open Sys2Proof.Laws.Codec

section
variable {s t : State} {e : Env} {i : Instr} {k : Nat}

/-! Waiting on an empty source (03 R51, R59). -/

/-- Without fe an empty source is waited for. -/
theorem operandCheck_waits (hfe : (e.form i).fe = false) (hmiss : firstMissing e (e.form i).srcs 0 = some (.reg k)) :
    operandCheck (e.form i) e = some (.wait .sourceEmpty) := by
  simp [operandCheck, hmiss, hfe]

/-- An instruction that is legal and not skipped, and that no watch slot halts, comes to its operands. -/
theorem checkIssue_operands {r : Ready} (hstatic : staticCheck i (e.form i) e = none)
    (hguard : guardHolds (e.form i).guard e.ctx = true) (hact : s.acting e (s.early e i (e.known i)) = none)
    (hop : operandCheck (e.form i) e = some r) : checkIssue s i (e.form i) e = r := by
  unfold State.early Env.known at hact
  simp [checkIssue, hstatic, hguard, hact, hop]

/-- An issuer that holds nothing from an earlier attempt is as it was. -/
theorem State.unhold_self (h : e.ctx.heldBits = []) : s.unhold e = s := by
  simp [State.unhold, h]

/-- An instruction whose checks end in a wait waits. -/
theorem issue_checkWaits (halone : Alone s e) {w : Wait} (h : checkIssue s i (e.form i) e = .wait w)
    (body : Env → List Nat → State → Act) : issue i body s = .next (s.stay i e (e.form i) w) := by
  obtain ⟨henv, hheld⟩ := halone
  simp only [issue, henv, State.unhold_self hheld, again_self henv, State.perform, h]

/-! Row collectives that do not arrive (02 R38, R39). -/

/-- An issuer that stands at row collective i by itself: it has not arrived, no debugger steps it, it gathers no load. -/
structure StandsAt (s : State) (e : Env) : Prop where
  alone : Alone s e
  arrival : e.ctx.arrival = none
  stepper : e.ctx.halt.stepper = none
  answer : ∀ known, e.ctx.phase.answer ≠ .loading known

theorem State.loading_eq_none (henv : s.env? = some e) (hanswer : ∀ known, e.ctx.phase.answer ≠ .loading known) :
    s.loading = none := by
  rw [State.loading, henv]
  dsimp only
  split
  · exact absurd ‹_› (hanswer _)
  · rfl

/-- A row collective at which its issuer does not arrive leaves what became of the issuer. -/
theorem exec_collects_stays (hc : collects i = true) (h : StandsAt s e)
    (harrive : s.arriveOne i (fun e => e.brings i) e = (t, false)) : exec i s = .next t := by
  obtain ⟨⟨henv, hheld⟩, harrival, hstepper, hanswer⟩ := h
  rw [exec_collects hc (State.loading_eq_none henv hanswer)]
  simp [collective, henv, harrival, State.unhold_self hheld, again_self henv, State.performRow, hstepper, harrive]

theorem exec_collects_checkWaits (hc : collects i = true) (h : StandsAt s e) {w : Wait}
    (hcheck : checkIssue s i (e.form i) e = .wait w) : exec i s = .next (s.stay i e (e.form i) w) :=
  exec_collects_stays hc h (by simp only [State.arriveOne, hcheck])

/-- A row collective of an illegal encoding traps, whatever its guard. -/
theorem exec_collects_traps (hc : collects i = true) (h : StandsAt s e) {c : TrapCode}
    (hstatic : staticCheck i (e.form i) e = some c) :
    exec i s = .next (s.issueTrap i e (e.form i) { code := c, detail := 0, addr := 0 }) :=
  exec_collects_stays hc h (by simp only [State.arriveOne, checkIssue, hstatic]; rfl)

/-! Formats without an fe field (03 R51). -/

/-- The instructions whose format names a source and has no fe field, row collectives apart. -/
def readsWithoutFe (i : Instr) : Bool :=
  match i with
  | .iaddi .. | .andImm .. | .orImm .. | .xorImm .. | .shlImm .. | .shrImm .. | .sarImm .. | .sysw .. | .movhi .. => true
  | .ld .. | .st .. | .ldt .. | .stt .. | .pref .. | .cflush .. | .cinv .. | .cpy .. => true
  | .acasRelaxed .. | .acasAcqRel .. | .atomRelaxed .. | .atomAcqRel .. | .red .. => true
  | _ => false

/-- Each of them is issued with an operation of its own. -/
theorem exec_readsWithoutFe (h : readsWithoutFe i = true) : ∃ body, ∀ s, exec i s = issue i body s := by
  unfold readsWithoutFe at h
  split at h
  case h_23 => cases h
  all_goals exact ⟨_, fun _ => rfl⟩

/-- A format without an fe field: its instruction names no source, or looks at its sources alone or as a row collective. -/
def feless (i : Instr) : Bool := !(form i).fe && ((form i).srcs.isEmpty || readsWithoutFe i || collects i)

theorem feless_iff : feless i = true ↔
    (form i).fe = false ∧ ((form i).srcs = [] ∨ readsWithoutFe i = true ∨ collects i = true) := by
  simp [feless, or_assoc]

/-- An instruction without an fe field waits on an empty source. -/
theorem exec_feless_waits (hi : feless i = true) (halone : Alone s e)
    (hrow : collects i = true → StandsAt s e)
    (hstatic : staticCheck i (e.form i) e = none) (hguard : guardHolds (e.form i).guard e.ctx = true)
    (hact : s.acting e (s.early e i (e.known i)) = none) (hmiss : firstMissing e (e.form i).srcs 0 = some (.reg k)) :
    exec i s = .next (s.stay i e (e.form i) .sourceEmpty) := by
  obtain ⟨hfe, hkind⟩ := feless_iff.1 hi
  have hcheck := checkIssue_operands hstatic hguard hact (operandCheck_waits hfe hmiss)
  rcases hkind with hnone | hreads | hcoll
  · have hsrcs : (e.form i).srcs = [] := by simp [Env.form, Form.stepped, hnone]
    rw [hsrcs] at hmiss
    cases hmiss
  · obtain ⟨body, hbody⟩ := exec_readsWithoutFe hreads
    rw [hbody, issue_checkWaits halone hcheck]
  · exact exec_collects_checkWaits hcoll (hrow hcoll) hcheck

/-! uq in a row collective (03 R50, R65). -/

/-- uq is stepped by no repeat (14 R284). -/
theorem Fld.stepped_uq {f : Fld} (hreg : f.reg = 127) (r : Rep) : (f.stepped r).reg = 127 := by
  unfold Fld.stepped
  split
  · simp [stepReg, hreg]
  · exact hreg

theorem Fld.legal_uq {f : Fld} (hreg : f.reg = 127) (lead : Bool) (wb alloc : Nat) : f.legal lead wb alloc false = false := by
  simp [Fld.legal, hreg]

/-- A row collective is for fibres, and none of its sources may be uq (03 R65; 14 R277). -/
theorem form_collects (hc : collects i = true) : (form i).fibre = true ∧ (form i).coll = true := by
  unfold collects at hc
  split at hc
  case h_6 => cases hc
  all_goals exact ⟨rfl, rfl⟩

/-- A source that is uq makes the form of a row collective illegal. -/
theorem Form.legal_uq {f : Form} {x : Fld} (hcoll : f.coll = true) (hx : x ∈ f.srcs) (hreg : x.reg = 127) (lead : Bool)
    (wb alloc : Nat) : f.legal i lead wb alloc = false := by
  have hsrcs : f.srcs.all (fun x => x.legal lead wb alloc (!f.coll)) = false := by
    refine List.all_eq_false.2 ⟨x, hx, ?_⟩
    rw [hcoll, Bool.not_true, Fld.legal_uq hreg]
    exact Bool.false_ne_true
  simp [Form.legal, hsrcs]

/-- An instruction for fibres whose encoding is illegal is refused on every fibre with ILLOPD. -/
theorem staticCheck_illegal (hlead : e.lead = false) (hfibre : (form i).fibre = true)
    (hlegal : (e.form i).legal i e.lead e.ctx.wb.toNat e.alloc = false) : staticCheck i (e.form i) e = some .illopd := by
  have hexecutes : (if e.lead then (e.form i).lead else (e.form i).fibre) = true := by
    rw [hlead]
    exact hfibre
  simp only [staticCheck, hexecutes, hlegal]
  rfl

/-- A row collective that has an illegal code or names uq as a source. -/
def refusedRow (i : Instr) : Bool := collects i && (!i.wellFormed || (form i).srcs.any (fun f => f.reg == 127))

/-- Such a row collective is an illegal encoding on every fibre. -/
theorem staticCheck_refusedRow (h : refusedRow i = true) (hlead : e.lead = false) :
    collects i = true ∧ staticCheck i (e.form i) e = some .illopd := by
  simp only [refusedRow, Bool.and_eq_true, Bool.or_eq_true, Bool.not_eq_true', List.any_eq_true, beq_iff_eq] at h
  obtain ⟨hc, hill | ⟨f, hf, hreg⟩⟩ := h
  · exact ⟨hc, staticCheck_illegal hlead (form_collects hc).1 (by simp [Form.legal, hill])⟩
  · have hsrc : f.stepped e.ctx.rep ∈ (e.form i).srcs := List.mem_map_of_mem hf
    have hcoll : (e.form i).coll = true := (form_collects hc).2
    exact ⟨hc, staticCheck_illegal hlead (form_collects hc).1 (Form.legal_uq hcoll hsrc (Fld.stepped_uq hreg _) _ _ _)⟩

/-- The word of a VOTE whose ra field is uq is an illegal encoding: its fields fit no instruction. -/
theorem decodeWord_vote_uq (rd rb : Reg) (g : Guard) :
    let w : Word := 0x46#8 ++ rd ++ 127#7 ++ rb ++ 0#1 ++ g.bits
    decodeWord w = .error (.illegal w) ∧ badWordTrap w false = Trap.plain .illopd := by
  intro w
  have hop : (w.extractLsb' 24 8).toNat = 0x46 := by simp (disch := decide) only [w, high]; rfl
  have hzeros : fieldIs w 14 3 0 = false := by simp (disch := decide) only [w, fieldIs, high, Laws.Codec.low, Nat.reduceSub]; rfl
  have hfields : decodeFields w = none := by
    rw [decodeFields, hop]
    show (if fieldIs w 14 3 0 && fieldIs w 2 1 0 then _ else none) = none
    rw [hzeros, Bool.false_and, if_neg Bool.false_ne_true]
  have hassigned : assignedOpcode 0x46 = true := rfl
  refine ⟨by simp [decodeWord, hop, hassigned, hfields], ?_⟩
  have hbits : bits w.toNat 24 8 = 0x46 := by
    rw [← hop, BitVec.extractLsb'_toNat, bits]
  simp [badWordTrap, hbits, hassigned, leadOnly]

end

/-- Settles O11: the formats without fe by whether their instruction reads, arrives or names no register; uq by the check of encodings. -/
theorem rowCollectivesRefuseUqSources : Obligations.RowCollectivesRefuseUqSources := by
  intro s e rd ra rb imm imm15 imm17 off sz ord sc pn sc3 sd sa sb cnt op b fe g k w fresh
  have hstands {i : Instr} (h : fresh i) (hc : collects i = true) : StandsAt s e := by
    obtain ⟨halone, hrow⟩ := h
    obtain ⟨harrival, hstepper, hanswer⟩ := hrow hc
    exact ⟨halone, harrival, hstepper, hanswer⟩
  refine ⟨fun i hi => ?waits, fun hlead i hi => ?refused, decodeWord_vote_uq rd rb g⟩
  case waits =>
    have hfeless : feless i = true := (List.all_eq_true (p := feless)).1 rfl i hi
    exact ⟨(feless_iff.1 hfeless).1, fun hfresh => exec_feless_waits hfeless hfresh.1 (hstands hfresh)⟩
  case refused =>
    have hrefused : refusedRow i = true :=
      (List.all_eq_true (p := refusedRow)).1 (by simp [refusedRow, collects, Instr.wellFormed, form, base, Fld.a, Fld.b, Fld.d]) i hi
    obtain ⟨hc, hstatic⟩ := staticCheck_refusedRow hrefused hlead
    exact ⟨hstatic, fun hfresh => exec_collects_traps hc (hstands hfresh hc) hstatic⟩

end Sys2Proof.Machine
end

section
/-!
SUPPORT. Indexed registers and the window base (03 R52, R60): what MOVX, MOVXW, WIN, WINADD and SETE leave when they complete.
-/
namespace Sys2Proof.Machine

section
variable {s : State} {e : Env} {rd ra rb : Reg} {imm : BitVec 15} {imm8 : BitVec 8} {fe : Bool} {g : Guard} {a b : Nat}

/-- MOVX produces the value of a full register below the allocation. -/
theorem exec_movx_reads (h : Issues s e (.movx rd ra fe g) [a]) (hn : a % 2 ^ 32 < e.alloc)
    (hfull : e.ctx.empties.contains (a % 2 ^ 32) = false) :
    exec (.movx rd ra fe g) s = .next (s.produces e (.movx rd ra fe g) (sget 0 e.ctx.regs (a % 2 ^ 32)).toNat fNone) :=
  issue_done h (by simp only [low, List.getD_cons_zero, if_neg (Nat.not_le.2 hn), hfull]; rfl)

/-- MOVXW writes a full register below the allocation. -/
theorem exec_movxw_writes (h : Issues s e (.movxw ra rb fe g) [a, b]) (hn : a % 2 ^ 32 < e.alloc)
    (hfull : e.ctx.empties.contains (a % 2 ^ 32) = false) :
    exec (.movxw ra rb fe g) s = .next (s.retired e (.movxw ra rb fe g)
      { state := s.modMe e (fun c => c.writeReg [a % 2 ^ 32] [a % 2 ^ 32] [BitVec.ofNat 32 b]) }) :=
  issue_done h (by simp only [low, List.getD_cons_zero, if_neg (Nat.not_le.2 hn), hfull]; rfl)

/-- WIN sets the window base to its immediate. -/
theorem exec_win (h : Issues s e (.win imm g) []) :
    exec (.win imm g) s = .next (s.retired e (.win imm g) { state := s, wb := some (BitVec.ofNat 12 imm.toNat) }) :=
  issue_done h rfl

/-- A window base moved by a signed immediate is the sum of both as integers, in 12 bits. -/
theorem wb_add_signExtend (wb : BitVec 12) (imm8 : BitVec 8) :
    wb + imm8.signExtend 12 = BitVec.ofInt 12 (wb.toNat + imm8.toInt) := by
  rw [BitVec.ofInt_add, BitVec.ofInt_natCast, BitVec.ofNat_toNat, BitVec.setWidth_eq]
  rfl

/-- WINADD adds its immediate to the window base. -/
theorem exec_winadd (h : Issues s e (.winadd imm8 g) []) : exec (.winadd imm8 g) s =
    .next (s.retired e (.winadd imm8 g) { state := s, wb := some (BitVec.ofInt 12 (e.ctx.wb.toNat + imm8.toInt)) }) :=
  issue_done h (by rw [← wb_add_signExtend])

/-- SETE empties the register that it names. -/
theorem exec_sete (h : Issues s e (.sete rd g) []) : exec (.sete rd g) s =
    .next (s.retired e (.sete rd g) { state := s.modMe e (fun c => c.markEmpty (e.writtenBits (.sete rd g))) }) :=
  issue_done h rfl

end

/-- Settles O17, instruction by instruction. -/
theorem windowAndIndexedRegistersAreReached : Obligations.WindowAndIndexedRegistersAreReached := by
  intro s e rd ra rb imm imm8 fe g a b n
  exact ⟨exec_movx_reads, exec_movxw_writes, exec_win, exec_winadd, exec_sete⟩

end Sys2Proof.Machine
end

section
/-!
SUPPORT. Producer completion, page walks and evictions (03 R57, R58; 05 R97, R102, R112, R117; 07 R161; 15 R300): what each event
leaves when its condition holds.
-/
namespace Sys2Proof.Machine

section
variable {s : State} {bid core pid origin : Nat} {who : Who} {e : Env} {p : Producer}

/-- What a completed producer of an issuer leaves: its words in its destinations, full, and the producer gone. -/
def State.producerWrites (s : State) (bid : Nat) (who : Who) (core pid : Nat) (p : Producer) : State :=
  s.modCtx bid who (fun c =>
    { c.writeReg p.cells p.bits (s.producerWords core p) with producers := c.producers.filter (fun q => q.pid != pid) })

/-- A served producer whose answer has come writes its words, and its acquire takes effect. -/
theorem exec_producerComplete_writes (he : s.envOf bid who = some e) (hcore : e.blk.core = some core)
    (hp : e.ctx.producers.find? (fun q => q.pid == pid) = some p) (hserved : s.served p = true) (hlate : p.late = none) :
    exec (.producerComplete bid who { pid := pid, error := none }) s = .next (match p.acquire with
      | some sc => (s.producerWrites bid who core pid p).acquire core sc
      | none => s.producerWrites bid who core pid p) := by
  show execProducerComplete bid who _ s = _
  have hgo : (!s.served p || p.late.isSome) = false := by simp [hserved, hlate]
  simp only [execProducerComplete, event, he, hcore, hp, hgo, Option.isSome_none, Bool.and_false]
  rfl

/-- An uncorrectable error in what a served producer reads is detected. -/
theorem exec_producerComplete_error (he : s.envOf bid who = some e) (hcore : e.blk.core = some core)
    (hp : e.ctx.producers.find? (fun q => q.pid == pid) = some p) (hserved : s.served p = true) (hlate : p.late = none)
    (hsrc : p.src ≠ []) :
    exec (.producerComplete bid who { pid := pid, error := some origin }) s = .next (s.readError core p origin) := by
  show execProducerComplete bid who _ s = _
  simp [execProducerComplete, event, he, hcore, hp, hserved, hlate, hsrc]

end

section
variable {s : State} {bid core line : Nat} {va : DWord} {b : Block} {l : Line}

/-- A page walk of a resident block leaves what translation leaves. -/
theorem exec_pageWalkComplete (hb : s.block? bid = some b) (hcore : b.core.isSome = true) (hva : canonical va = true) :
    exec (.pageWalkComplete bid va) s = .next (s.translate b.space va.toNat).1 := by
  show execPageWalkComplete bid va s = _
  simp [execPageWalkComplete, event, hb, Option.isNone_eq_false_iff.2 hcore, hva]

/-- An eviction writes its line back and drops it. -/
theorem exec_l1Eviction (hl : s.l1Find core line = some l) :
    exec (.l1Eviction core line) s = .next ((s.pushLine l).l1Drop core line) := by
  show execL1Eviction core line s = _
  simp [execL1Eviction, event, hl]

/-- A dropped line is found no more. -/
@[simp] theorem State.l1Find_l1Drop_self (s : State) (core line : Nat) : (s.l1Drop core line).l1Find core line = none := by
  refine List.find?_eq_none.2 fun x hx hmatch => ?_
  obtain ⟨-, hother⟩ := List.mem_filter.1 hx
  rw [hmatch] at hother
  cases hother

end

/-- Settles O40, event by event. -/
theorem producersAndWalksComplete : Obligations.ProducersAndWalksComplete := by
  refine ⟨fun s bid who pid core origin e p => ?producer, fun s bid core line va b l => ⟨exec_pageWalkComplete, fun hl => ?evict⟩⟩
  case producer =>
    intro ws t copies homes he hcore hp hserved hlate
    exact ⟨exec_producerComplete_writes he hcore hp hserved hlate, exec_producerComplete_error he hcore hp hserved hlate⟩
  case evict => exact ⟨_, exec_l1Eviction hl, rfl, State.l1Find_l1Drop_self _ core line⟩

end Sys2Proof.Machine
end

section
/-!
SUPPORT. The reset state as its registers read it (05 R107, R109, R113 to R116; 10 R195; 12 R253; 13 R258, R260, R267).
-/
namespace Sys2Proof.Machine
section
variable {s : State} {n : Nat}

/-- Region n of the address-mapping block answers the offsets of its own 1,024 bytes (05 R107). -/
theorem State.amapRead_region (hn : n < 8) {rel : Nat} (hrel : rel < 0x400) :
    s.amapRead (n * 0x400 + rel) =
      if rel = 0 then (s.region n).status * 4 + bit01 (s.region n).staged.en
      else if rel = 8 then (s.region n).staged.base * 2 ^ 21
      else if rel = 0x10 then (s.region n).staged.limit * 2 ^ 21
      else if 0x100 ≤ rel ∧ rel % 8 = 0 then (s.region n).staged.masks.getD ((rel - 0x100) / 8) 0
      else 0 := by
  have hbelow : n * 0x400 + rel < 0x2000 := by omega
  have hregion : (n * 0x400 + rel) / 0x400 = n := by omega
  have hoffset : (n * 0x400 + rel) % 0x400 = rel := by omega
  simp only [State.amapRead, hregion, hoffset, if_neg (Nat.ne_of_lt hbelow), if_neg (Nat.not_le_of_lt hbelow), ge_iff_le]

theorem State.amapRead_ctl (hn : n < 8) :
    s.amapRead (n * 0x400) = (s.region n).status * 4 + bit01 (s.region n).staged.en := by
  simpa using State.amapRead_region (s := s) hn (rel := 0) (by decide)

theorem State.amapRead_base (hn : n < 8) : s.amapRead (n * 0x400 + 8) = (s.region n).staged.base * 2 ^ 21 :=
  State.amapRead_region hn (by decide)

theorem State.amapRead_limit (hn : n < 8) : s.amapRead (n * 0x400 + 0x10) = (s.region n).staged.limit * 2 ^ 21 :=
  State.amapRead_region hn (by decide)

theorem State.amapRead_mask (hn : n < 8) {k : Nat} (hk : k < 35) :
    s.amapRead (n * 0x400 + 0x100 + 8 * k) = (s.region n).staged.masks.getD k 0 := by
  have hrow : 0x100 ≤ 0x100 + 8 * k ∧ (0x100 + 8 * k) % 8 = 0 := by omega
  have hbit : (0x100 + 8 * k - 0x100) / 8 = k := by omega
  rw [Nat.add_assoc, State.amapRead_region hn (by omega), if_neg (by omega), if_neg (by omega), if_neg (by omega), if_pos hrow, hbit]

end

/-- The reset matrix row by row (05 R109): its rows are the coordinates of 05 R105, five of them XORed with row bits. -/
theorem resetMasks_getD : ∀ k < 35, resetMasks.getD k 0 =
    if k < 5 then 2 ^ k else if k < 20 then 2 ^ (k + 15) else if k < 22 then 2 ^ (k - 7) else if k < 24 then 2 ^ (k - 11)
    else if k = 24 then 2 ^ 10 else if k < 30 then 2 ^ (k - 20) + 2 ^ (k - 10) else 2 ^ (k - 15) := by decide

/-- Every region after reset has the reset matrix staged, which is legal. -/
theorem Region.legal_reset (n : Nat) : (Region.reset n).legal = true := by
  have hm : legalMasks resetMasks = true := by decide +kernel
  simp [Region.legal, Region.reset, hm]

theorem State.region_reset (n : Nat) : State.reset.region n = Region.reset n := rfl

theorem State.homeByte_reset (c : Nat) : State.reset.homeByte c = 0 := rfl

theorem State.legal_reset : State.reset.Legal := by decide

/-- The mapping block after reset, region by region (05 R107, R109). -/
theorem State.amapRegs_reset {n : Nat} (port b : Nat) (hn : n < 8) :
    State.reset.readReg port (.amapCtl n) = (if n = 0 then 1 else 0) ∧ State.reset.readReg port (.amapBase n) = 0 ∧
    State.reset.readReg port (.amapLimit n) = (if n = 0 then 2 ^ 41 else 0) ∧
    (b < 35 → State.reset.readReg port (.amapMask n b) = resetMasks.getD b 0) := by
  refine ⟨(State.amapRead_ctl hn).trans ?_, (State.amapRead_base hn).trans (Nat.zero_mul _), (State.amapRead_limit hn).trans ?_,
    State.amapRead_mask hn⟩ <;>
  by_cases h : n = 0 <;> simp [State.region_reset, Region.reset, bit01, h]

/-- Settles O5: a register outside the mapping block reads a field of the reset state, the mapping block answers by region. -/
theorem resetLeavesTheStatedValues : Obligations.ResetLeavesTheStatedValues := by
  refine ⟨State.legal_reset, State.homeByte_reset, rfl, rfl, ⟨rfl, by decide, fun n hn => ⟨decide_eq_false hn, if_neg hn⟩⟩,
    fun port n b => ?registers⟩
  have cfg : LaunchQueue.reset.tickets * 2 ^ 32 + bit01 LaunchQueue.reset.en * 2 ^ 17 + bit01 LaunchQueue.reset.priv * 2 ^ 16 +
    LaunchQueue.reset.asn = 2 ^ 32 := by decide
  have mccfg : Channel.reset.mccfg = 4 * 2 ^ 48 + 1000 * 2 ^ 32 + 200 * 2 ^ 16 + 1024 := by decide
  have hifence : Port.reset.hifence = 0 := by decide
  have stat : Window.reset.stat = 16 := by decide
  have gvCtl : State.reset.gvCtl = 1500 * 2 ^ 16 := by decide
  have bankstat : Bank.reset.stat = 0 := by decide
  have hold : fieldAt Window.reset.hold (8 * b) 8 = 0 := by simp [fieldAt, Window.reset, ofBytes]
  refine ⟨rfl, rfl, rfl, rfl, rfl, rfl, rfl, rfl, rfl, rfl, cfg, rfl, rfl, rfl, rfl, rfl, rfl, rfl, rfl, rfl, rfl, rfl, rfl, rfl,
    rfl, rfl, hifence, rfl, stat, hold, rfl, fun hn => ?amap, rfl, mccfg, bankstat, rfl, rfl, gvCtl, Nat.zero_mul _⟩
  obtain ⟨ctl, base, limit, mask⟩ := State.amapRegs_reset port b hn
  exact ⟨ctl, base, limit, fun hb => (mask hb).trans (resetMasks_getD b hb)⟩

end Sys2Proof.Machine
end

section
/-!
SUPPORT. DRAM channel controllers (05 R112 to R115, R117): the order of service by its rule, activations by their counter, and the
events of a channel.
-/
namespace Sys2Proof.Machine

/-! The order of service (05 R112). -/

section
variable {c : Channel} {r : DramReq} {rs : List DramReq} {now : Nat}

/-- A candidate is a request of the channel whose bank is not in back-off. -/
theorem Channel.candidates_spec (h : r ∈ c.candidates) : r ∈ c.reqs ∧ (c.bank r.bank).backoffEnd = none := by
  have keep (rs : List DramReq) (acc : List Nat × List DramReq)
      (h : r ∈ (rs.foldl (fun (acc : List Nat × List DramReq) r =>
        (r.cell :: acc.1, if acc.1.contains r.cell || (c.bank r.bank).backoffEnd.isSome then acc.2 else acc.2 ++ [r])) acc).2) :
      r ∈ acc.2 ∨ r ∈ rs ∧ (c.bank r.bank).backoffEnd = none := by
    induction rs generalizing acc with
    | nil => exact .inl h
    | cons q rs ih =>
      rcases ih _ h with hq | ⟨hm, hb⟩
      · dsimp only at hq
        split at hq
        · exact .inl hq
        · rename_i hfree
          rcases List.mem_append.1 hq with hq | hq
          · exact .inl hq
          · obtain rfl := List.mem_singleton.1 hq
            exact .inr ⟨List.mem_cons_self, by simp_all⟩
      · exact .inr ⟨List.mem_cons_of_mem _ hm, hb⟩
  simpa using keep c.reqs ([], []) h

/-- A further request is the earliest if it comes before all others. -/
theorem earliest_concat (q : DramReq) :
    earliest (rs ++ [q]) = some ((earliest rs).elim q (fun x => if q.latest < x.latest then q else x)) := by
  simp only [earliest, List.foldl_append, List.foldl_cons, List.foldl_nil]
  split
  · rename_i hx; simp [hx]
  · rename_i x hx; rw [hx]; exact (apply_ite some _ _ _).symm

theorem earliest_none : earliest rs = none ↔ rs = [] := by
  cases rs using List.reverseRecOn with
  | nil => exact ⟨fun _ => rfl, fun _ => rfl⟩
  | append_singleton rs q => simp [earliest_concat]

theorem earliest_spec (h : earliest rs = some r) : r ∈ rs ∧ ∀ q ∈ rs, r.latest ≤ q.latest := by
  induction rs using List.reverseRecOn generalizing r with
  | nil => cases h
  | append_singleton rs q ih =>
    rw [earliest_concat] at h
    cases hx : earliest rs with
    | none =>
      obtain rfl := earliest_none.1 hx
      simp_all
    | some x =>
      obtain ⟨hm, hle⟩ := ih hx
      simp only [hx, Option.elim, Option.some.injEq] at h
      simp only [List.mem_append, List.mem_singleton]
      split at h <;> obtain rfl := h
      · rename_i hlt
        refine ⟨.inr rfl, fun y hy => ?_⟩
        rcases hy with hy | rfl
        · exact Nat.le_of_lt (Nat.lt_of_lt_of_le hlt (hle y hy))
        · exact Nat.le_refl _
      · rename_i hge
        refine ⟨.inl hm, fun y hy => ?_⟩
        rcases hy with hy | rfl
        · exact hle y hy
        · exact Nat.le_of_not_lt hge

/-- A request that is in order among others: it hits its bank's open row if any does, and is the oldest of its kind. -/
def Channel.InOrder (c : Channel) (r : DramReq) (rs : List DramReq) : Prop :=
  r ∈ rs ∧ ((c.bank r.bank).openRow = some r.row ∨ ∀ q ∈ rs, (c.bank q.bank).openRow ≠ some q.row) ∧
    rs.find? (fun q => decide ((c.bank r.bank).openRow = some r.row → (c.bank q.bank).openRow = some q.row)) = some r

theorem Channel.hitOrOldest_inOrder (h : c.hitOrOldest rs = some r) : c.InOrder r rs := by
  unfold Channel.hitOrOldest at h
  split at h
  · rename_i q hq
    obtain rfl := Option.some.inj h
    have hit : (c.bank q.bank).openRow = some q.row := of_decide_eq_true (List.find?_some (p := c.hits) hq)
    refine ⟨List.mem_of_find?_eq_some hq, .inl hit, ?_⟩
    simpa only [hit, forall_const, Channel.hits] using hq
  · rename_i hq
    have miss : ∀ q ∈ rs, (c.bank q.bank).openRow ≠ some q.row := by simpa [Channel.hits] using hq
    have hr : r ∈ rs := List.mem_of_mem_head? h
    refine ⟨hr, .inr miss, ?_⟩
    cases rs with
    | nil => cases h
    | cons q rs => obtain rfl := Option.some.inj h; simp [miss q hr]

variable (hn : c.next now = some r)
include hn

/-- What a channel serves next: of the urgent requests the earliest, without any a bulk one whose share is due, else the first in order. -/
theorem Channel.next_cases :
    (earliest (c.candidates.filter (fun q => c.isUrgent now q)) = some r) ∨
    (c.candidates.filter (fun q => c.isUrgent now q) = [] ∧
      if c.candidates.filter (fun q => decide (q.cls = .bulk)) ≠ [] ∧ max 1 c.bulksh ≤ c.sinceBulk + 1
      then c.InOrder r (c.candidates.filter (fun q => decide (q.cls = .bulk))) else c.InOrder r c.candidates) := by
  unfold Channel.next at hn
  dsimp only at hn
  split at hn
  · rename_i x hx
    exact .inl (hx.trans hn)
  · rename_i hx
    refine .inr ⟨earliest_none.1 hx, ?_⟩
    simp only [Bool.and_eq_true, Bool.not_eq_true', List.isEmpty_eq_false_iff, decide_eq_true_eq, ge_iff_le] at hn
    split at hn
    · rename_i hs
      rw [if_pos hs]
      exact Channel.hitOrOldest_inOrder hn
    · rename_i hs
      rw [if_neg hs]
      exact Channel.hitOrOldest_inOrder hn

theorem Channel.next_mem : r ∈ c.candidates := by
  rcases Channel.next_cases hn with h | ⟨-, h⟩
  · exact List.mem_of_mem_filter (earliest_spec h).1
  · split at h
    · exact List.mem_of_mem_filter h.1
    · exact h.1

theorem Channel.next_urgent (hu : c.candidates.filter (fun q => c.isUrgent now q) ≠ []) :
    r ∈ c.candidates.filter (fun q => c.isUrgent now q) ∧
      ∀ q ∈ c.candidates.filter (fun q => c.isUrgent now q), r.latest ≤ q.latest := by
  rcases Channel.next_cases hn with h | ⟨h, -⟩
  · exact earliest_spec h
  · exact absurd h hu

theorem Channel.next_not_urgent (hu : c.candidates.filter (fun q => c.isUrgent now q) = []) :
    if c.candidates.filter (fun q => decide (q.cls = .bulk)) ≠ [] ∧ max 1 c.bulksh ≤ c.sinceBulk + 1
    then c.InOrder r (c.candidates.filter (fun q => decide (q.cls = .bulk))) else c.InOrder r c.candidates := by
  rcases Channel.next_cases hn with h | ⟨-, h⟩
  · rw [hu] at h; cases h
  · exact h

end

/-! Activations (05 R114). -/

section
variable {b : Bank} {row thr now : Nat}

theorem Bank.activate_counts : sget 0 (b.activate row).counts row = sget 0 b.counts row + 1 := by
  simp [Bank.activate]

theorem Bank.threshold_counts : sget 0 (b.threshold row now).counts row = 0 := by
  simp [Bank.threshold]

theorem Bank.serve_hit (h : b.openRow = some row) : b.serve row thr now = b := if_pos h

theorem Bank.serve_below (h : b.openRow ≠ some row) (hn : sget 0 b.counts row + 1 < thr) :
    b.serve row thr now = b.activate row := by
  simp [Bank.serve, h, Bank.activate_counts, Nat.not_le_of_lt hn]

theorem Bank.serve_threshold (h : b.openRow ≠ some row) (hn : thr ≤ sget 0 b.counts row + 1) :
    b.serve row thr now = (b.activate row).threshold row now := by
  simp [Bank.serve, h, Bank.activate_counts, hn]

end

/-! The events of a channel (05 R112 to R115, R117; 13 R267). -/

section
variable {s : State} {n : Nat} {r : DramReq}

theorem exec_dramRequestService (h : (s.channel n).next s.time = some r) :
    exec (.dramRequestService ⟨n, none⟩) s = .next (s.setChannel n ((s.channel n).serve r s.time)) := by
  show execDramRequestService ⟨n, none⟩ s = _
  simp only [execDramRequestService, event, h]

theorem exec_dramRequestService_error (h : (s.channel n).next s.time = some r) (o : Nat) :
    exec (.dramRequestService ⟨n, some o⟩) s = .next ((s.setChannel n ((s.channel n).serve r s.time)).dramError r o) := by
  show execDramRequestService ⟨n, some o⟩ s = _
  simp only [execDramRequestService, event, h]

theorem exec_dramRequestService_none (h : (s.channel n).next s.time = none) (e : Option Nat) :
    exec (.dramRequestService ⟨n, e⟩) s = .next s := by
  show execDramRequestService ⟨n, e⟩ s = _
  simp only [execDramRequestService, event, h]

/-- An error in what no core takes and nothing has been copied from poisons its sectors alone. -/
theorem State.dramError_plain (hr : r.reader = none) (hl : r.lands = []) (o : Nat) :
    s.dramError r o = (s.addPoison (r.cell * 64) 64 o).poisonReaders (fun p => p.owns r.did)
      (fun k => [2 * r.cell, 2 * r.cell + 1].contains k) o := by
  simp only [State.dramError, hr, hl, List.foldl_nil]

theorem exec_bankBackoffEnd {b t : Nat} (h : (((s.channel n).bank b).backoffEnd) = some t) (ht : t ≤ s.time) :
    exec (.bankBackoffEnd n b) s = .next (s.setChannel n ((s.channel n).setBank b
      { (s.channel n).bank b with openRow := none, backoffEnd := none })) := by
  show execBankBackoffEnd n b s = _
  simp only [execBankBackoffEnd, event, h, if_neg (Nat.not_lt_of_le ht)]

end

section
variable {s : State} {n : Nat} {v : DWord}

theorem exec_actselClear_select (h : bitAt v.toNat 63 = false) :
    exec (.actselClear n v) s = .next (s.setChannel n { s.channel n with actsel := BitVec.ofNat 64 (v.toNat % 2 ^ 20) }) := by
  show Host.Outcome.next (s.setChannel n ((s.channel n).setActsel v.toNat)) = _
  simp [Channel.setActsel, h]

theorem exec_actselClear_clear (h : bitAt v.toNat 63 = true) :
    exec (.actselClear n v) s = .next (s.setChannel n
      (({ s.channel n with actsel := BitVec.ofNat 64 (v.toNat % 2 ^ 20) } : Channel).setBank (bits v.toNat 15 5)
        { (s.channel n).bank (bits v.toNat 15 5) with counts := [] })) := by
  show Host.Outcome.next (s.setChannel n ((s.channel n).setActsel v.toNat)) = _
  rw [Channel.setActsel, if_pos h]
  rfl

end

/-- Settles O55: a channel by what it serves next and by its events, a bank by its open row and its counter. -/
theorem channelsServeAndCountActivations : Obligations.ChannelsServeAndCountActivations := by
  refine ⟨fun s n b o r t v => ?channel, fun b row thr now => ?bank⟩
  case channel =>
    intro c served urgent bulk share order
    refine ⟨fun hn => ?service, fun hn e => exec_dramRequestService_none hn e, rfl, exec_bankBackoffEnd,
      exec_actselClear_select, exec_actselClear_clear, rfl⟩
    obtain ⟨hr, hb⟩ := Channel.candidates_spec (Channel.next_mem hn)
    exact ⟨exec_dramRequestService hn, exec_dramRequestService_error hn o, fun h1 h2 => State.dramError_plain h1 h2 o, hr, hb,
      Channel.next_urgent hn, fun hu hs => (if_pos hs).mp (Channel.next_not_urgent hn hu),
      fun hu hs => (if_neg hs).mp (Channel.next_not_urgent hn hu), rfl, rfl⟩
  case bank =>
    intro n
    refine ⟨Bank.serve_hit, fun h hn => ?_, fun h hn => ?_⟩
    · rw [Bank.serve_below h hn]
      exact ⟨rfl, Bank.activate_counts, rfl⟩
    · rw [Bank.serve_threshold h hn]
      exact ⟨rfl, Bank.threshold_counts, rfl, rfl, rfl⟩

end Sys2Proof.Machine
end

section
/-!
SUPPORT. What leaves a legal state legal (05 R107, R108, R110; 13 R267), as rules that go back from a result to the state it came
from: of a state, of what an operation of an instruction comes to and of an outcome of a step.
-/
namespace Sys2Proof.Machine

/-- An update of other fields than memory and the invariant-carrying registers keeps a state legal. -/
theorem State.Legal.same {s : State} {agenda issuer time fresh device blur scache mside poison tags l1 tlb walkc icache queues qreqs
    treqs blocks launches xrecs images ops matrix contribs instances dean channels ports gvPolicy peers ridge proctors trial
    firmware errlog bundles} (h : s.Legal) :
    State.Legal { agenda, issuer, time, fresh, device, blur, scache, mside, poison, tags, l1, tlb, walkc, icache, queues, qreqs,
                  treqs, blocks, launches, xrecs, images, ops, matrix, contribs, instances, dean, channels, ports, gvPolicy, peers,
                  ridge, proctors, trial, firmware, errlog, bundles,
                  mem := s.mem, amap := s.amap, apwin := s.apwin, gvCap := s.gvCap, governors := s.governors } := h

theorem State.Legal.ite {c : Prop} [Decidable c] {s t : State} (h : s.Legal) (k : t.Legal) : (if c then s else t).Legal := by
  split
  · exact h
  · exact k

/-- What every step of a fold keeps, the fold keeps. -/
theorem State.Legal.foldl {α : Type} {s : State} {f : State → α → State} {l : List α} (h : s.Legal)
    (hf : ∀ t x, t.Legal → (f t x).Legal) : (l.foldl f s).Legal := by
  induction l generalizing s with
  | nil => exact h
  | cons x l ih => exact ih (hf s x h)

/-- A state that an operation may have found is legal where what it found and what stands in for it are. -/
theorem State.Legal.getD {s : State} {o : Option State} (h : s.Legal) (ho : ∀ t, o = some t → t.Legal) : (o.getD s).Legal := by
  cases o with
  | none => exact h
  | some t => exact ho t rfl

/-- What a finite map gives, it lists. -/
theorem aget_mem {α : Type} {m : List (Nat × α)} {k : Nat} {v : α} (h : aget m k = some v) : (k, v) ∈ m := by
  induction m with
  | nil => cases h
  | cons e rest ih =>
    unfold aget at h
    split at h
    · next hk => cases h; rw [← hk]; exact List.mem_cons_self
    · exact List.mem_cons_of_mem _ (ih h)

/-- What an instruction's operation comes to leaves a legal state. -/
def Act.Legal : Act → Prop
  | .done d => d.state.Legal
  | .wait s _ => s.Legal
  | .trap s _ => s.Legal

/-- What a gate comes to is a legal state. -/
def Gate.Legal : Gate → Prop
  | .go s => s.Legal
  | .wait s _ => s.Legal
  | .trap s _ => s.Legal

/-- The next state of an outcome is legal, where it has one. -/
def LegalOutcome : Host.Outcome State Fault Refusal → Prop
  | .next s => s.Legal
  | .fault _ => True
  | .refused _ => True

theorem Act.Legal.done {d : Done} (h : d.state.Legal) : (Act.done d).Legal := h

theorem Act.Legal.wait {s : State} {w : Wait} (h : s.Legal) : (Act.wait s w).Legal := h

theorem Act.Legal.trap {s : State} {t : Trap} (h : s.Legal) : (Act.trap s t).Legal := h

theorem Gate.Legal.go {s : State} (h : s.Legal) : (Gate.go s).Legal := h

theorem Gate.Legal.wait {s : State} {w : Wait} (h : s.Legal) : (Gate.wait s w).Legal := h

theorem Gate.Legal.trap {s : State} {t : Trap} (h : s.Legal) : (Gate.trap s t).Legal := h

theorem LegalOutcome.next {s : State} (h : s.Legal) : LegalOutcome (.next s) := h

theorem LegalOutcome.fault {f : Fault} : LegalOutcome (.fault f) := trivial

theorem Act.Legal.ite {c : Prop} [Decidable c] {s t : Act} (h : s.Legal) (k : t.Legal) : (if c then s else t).Legal := by
  split
  · exact h
  · exact k

theorem Gate.Legal.ite {c : Prop} [Decidable c] {s t : Gate} (h : s.Legal) (k : t.Legal) : (if c then s else t).Legal := by
  split
  · exact h
  · exact k

section
variable {g : Gate} {t : State}

theorem Gate.Legal.of_go (h : g.Legal) (e : g = .go t) : t.Legal := by rw [e] at h; exact h

theorem Gate.Legal.of_wait {w : Wait} (h : g.Legal) (e : g = .wait t w) : t.Legal := by rw [e] at h; exact h

theorem Gate.Legal.of_trap {x : Trap} (h : g.Legal) (e : g = .trap t x) : t.Legal := by rw [e] at h; exact h

theorem LegalOutcome.of_next {r : Host.Outcome State Fault Refusal} (h : LegalOutcome r) (e : r = .next t) : t.Legal := by
  rw [e] at h; exact h

end
end Sys2Proof.Machine
end

section
/-!
SUPPORT. A legal state stays legal. Changes of issuers and blocks, and messages to other devices (18 R387).
-/
namespace Sys2Proof.Machine
variable {s : State}

theorem State.Legal.modBlock {bid f} (h : s.Legal) : (s.modBlock bid f).Legal := h.same

theorem State.Legal.modCtx {bid who f} (h : s.Legal) : (s.modCtx bid who f).Legal := h.modBlock

theorem State.Legal.setLq {n q} (h : s.Legal) : (s.setLq n q).Legal := h.same

theorem State.Legal.modLaunch {lid f} (h : s.Legal) : (s.modLaunch lid f).Legal := h.same

theorem State.Legal.modOp {oid f} (h : s.Legal) : (s.modOp oid f).Legal := h.same

theorem State.Legal.dropOp {oid} (h : s.Legal) : (s.dropOp oid).Legal := h.same

theorem State.Legal.tick1 (h : s.Legal) : s.tick1.Legal := h.same

theorem State.Legal.modPeers {f} (h : s.Legal) : (s.modPeers f).Legal := h.same

theorem State.Legal.remoteSend {pa kind use owner va} (h : s.Legal) : (s.remoteSend pa kind use owner va).Legal :=
  h.same.modPeers

theorem State.Legal.peerSend {device k' m} (h : s.Legal) : (s.peerSend device k' m).Legal := by
  fun_cases s.peerSend device k' m
  · exact h
  · exact h.modPeers

theorem State.Legal.reply {source number sequenced status bs} (h : s.Legal) :
    (s.reply source number sequenced status bs).Legal := h.modPeers.peerSend

theorem State.Legal.cancelOp {o} (h : s.Legal) : (s.cancelOp o).Legal := by
  fun_cases s.cancelOp o
  · exact h
  · exact h
  · exact h.remoteSend

theorem State.Legal.cancelAbroad {bid} (h : s.Legal) : (s.cancelAbroad bid).Legal := h.foldl fun _ _ k => k.cancelOp

theorem State.Legal.dropLoading {bid} (h : s.Legal) : (s.dropLoading bid).Legal := h.modPeers

theorem State.Legal.dropAbroad {bid} (h : s.Legal) : (s.dropAbroad bid).Legal := h.cancelAbroad.modPeers

end Sys2Proof.Machine
end

section
/-!
SUPPORT. A legal state stays legal. Translation, the caches, their homes and DRAM (05).
-/
namespace Sys2Proof.Machine
variable {s : State}

theorem State.Legal.scClean {l} (h : s.Legal) : (s.scClean l).Legal := (s.preserves_scClean _).legal h

theorem State.Legal.scDrop {l} (h : s.Legal) : (s.scDrop l).Legal := (s.preserves_scDrop _).legal h

theorem State.Legal.scFill {unit} (h : s.Legal) : (s.scFill unit).Legal := (s.preserves_scFill _).legal h

theorem State.Legal.clearPoison {c n} (h : s.Legal) : (s.clearPoison c n).Legal := (s.preserves_clearPoison _ _).legal h

theorem State.Legal.addPoison {c n origin} (h : s.Legal) : (s.addPoison c n origin).Legal :=
  (s.preserves_addPoison _ _ _).legal h

theorem State.Legal.ridgeSend {rc src dst data reader} (h : s.Legal) : (s.ridgeSend rc src dst data reader).Legal :=
  (s.preserves_ridgeSend _ _ _ _ _).legal h

theorem State.Legal.note {core c n cls rc} (h : s.Legal) : (s.note core c n cls rc).Legal :=
  (s.preserves_note _ _ _ _ _).legal h

theorem State.Legal.noteRead {core c n cls} (h : s.Legal) : (s.noteRead core c n cls).Legal :=
  (s.preserves_noteRead _ _ _ _).legal h

theorem State.Legal.sendAgent {f handle queue payload} (h : s.Legal) : (s.sendAgent f handle queue payload).Legal :=
  (s.preserves_sendAgent _ _ _ _).legal h

theorem State.Legal.sendRecord {queue r} (h : s.Legal) : (s.sendRecord queue r).Legal :=
  (s.preserves_sendRecord _ _).legal h

theorem State.Legal.putBytes {unc c bs} (h : s.Legal) : (s.putBytes unc c bs).Legal :=
  (s.preserves_putBytes _ _ _).legal h

theorem State.Legal.combineAt {unc l} (h : s.Legal) : (s.combineAt unc l).Legal := (s.preserves_combineAt _ _).legal h

theorem State.Legal.l1Drop {core tag} (h : s.Legal) : (s.l1Drop core tag).Legal := (s.preserves_l1Drop _ _).legal h

theorem State.Legal.recall {unit} (h : s.Legal) : (s.recall unit).Legal := (s.preserves_recall _).legal h

theorem State.Legal.recallAll {cells} (h : s.Legal) : (s.recallAll cells).Legal := (s.preserves_recallAll _).legal h

theorem State.Legal.homeRead {core cells cls} (h : s.Legal) : (s.homeRead core cells cls).1.Legal :=
  (s.preserves_homeRead _ _ _).legal h

theorem State.Legal.homeScatter {cells bs} (h : s.Legal) : (s.homeScatter cells bs).Legal :=
  (s.preserves_homeScatter _ _).legal h

theorem State.Legal.homeStore {core cells bs cls} (h : s.Legal) : (s.homeStore core cells bs cls).Legal :=
  (s.preserves_homeStore _ _ _ _).legal h

theorem State.Legal.dramScatter {cells bs} (h : s.Legal) : (s.dramScatter cells bs).Legal :=
  (s.preserves_dramScatter _ _).legal h

theorem State.Legal.homeGet {unc core cells cls} (h : s.Legal) : (s.homeGet unc core cells cls).1.Legal :=
  (s.preserves_homeGet _ _ _ _).legal h

theorem State.Legal.scatterAs {unc cells bs} (h : s.Legal) : (s.scatterAs unc cells bs).Legal := by
  fun_cases s.scatterAs unc cells bs
  · exact h.dramScatter
  · exact h.homeScatter

theorem State.Legal.homeSet {unc core cells bs cls} (h : s.Legal) : (s.homeSet unc core cells bs cls).Legal :=
  (s.preserves_homeSet _ _ _ _ _).legal h

theorem State.Legal.writeBack {l} (h : s.Legal) : (s.writeBack l).Legal := (s.preserves_writeBack _).legal h

theorem State.Legal.pushLine {l} (h : s.Legal) : (s.pushLine l).Legal := (s.preserves_pushLine _).legal h

theorem State.Legal.pushCore {core} (h : s.Legal) : (s.pushCore core).Legal := (s.preserves_pushCore _).legal h

theorem State.Legal.dropClean {core} (h : s.Legal) : (s.dropClean core).Legal := (s.preserves_dropClean _).legal h

theorem State.Legal.evictFor {core pa} (h : s.Legal) : (s.evictFor core pa).Legal := (s.preserves_evictFor _ _).legal h

theorem State.Legal.l1Fill {core tag} (h : s.Legal) : (s.l1Fill core tag).Legal := (s.preserves_l1Fill _ _).legal h

theorem State.Legal.l1Write {core pa bs} (h : s.Legal) : (s.l1Write core pa bs).Legal :=
  (s.preserves_l1Write _ _ _).legal h

theorem State.Legal.l1Install {core pa bs} (h : s.Legal) : (s.l1Install core pa bs).Legal :=
  (s.preserves_l1Install _ _ _).legal h

theorem State.Legal.l1Red {core pa op g} (h : s.Legal) : (s.l1Red core pa op g).Legal :=
  (s.preserves_l1Red _ _ _ _).legal h

theorem State.Legal.translate {sp va} (h : s.Legal) : (s.translate sp va).1.Legal := (s.preserves_translate _ _).legal h

theorem State.Legal.pieces {sp va n need} (h : s.Legal) : (s.pieces sp va n need).1.Legal :=
  (s.preserves_pieces _ _ _ _).legal h

theorem State.Legal.readPiece {core p} (h : s.Legal) : (s.readPiece core p).1.Legal :=
  (s.preserves_readPiece _ _).legal h

theorem State.Legal.readPieces {core buf ps} (h : s.Legal) : (s.readPieces core buf ps).1.Legal :=
  (s.preserves_readPieces _ _ _).legal h

theorem State.Legal.readHome {core ps cls} (h : s.Legal) : (s.readHome core ps cls).1.Legal :=
  (s.preserves_readHome _ _ _).legal h

theorem State.Legal.writeHome {core ps bs cls} (h : s.Legal) : (s.writeHome core ps bs cls).Legal :=
  (s.preserves_writeHome _ _ _ _).legal h

end Sys2Proof.Machine
end

section
/-!
SUPPORT. A legal state stays legal. Waits, traps, fault records, the store buffer's drains and the commit point (06, 11).
-/
namespace Sys2Proof.Machine
variable {s : State}

theorem State.Legal.modMe {e f} (h : s.Legal) : (s.modMe e f).Legal := h.modCtx

theorem State.Legal.ctlWrite {pa off bs} (h : s.Legal) : (s.ctlWrite pa off bs).Legal := by
  fun_cases s.ctlWrite pa off bs
  · exact h
  · exact h.putBytes

theorem State.Legal.noteWaiters {pa} (h : s.Legal) : (s.noteWaiters pa).Legal := by
  fun_cases s.noteWaiters pa
  · exact h
  · exact h.tick1.ctlWrite

theorem State.Legal.withdrawReqs {gone} (h : s.Legal) : (s.withdrawReqs gone).Legal :=
  h.same.foldl fun _ _ k => k.noteWaiters

theorem State.Legal.leaveStt {bid who} (h : s.Legal) : (s.leaveStt bid who).Legal := h.modBlock

theorem State.Legal.undo {bid who} (h : s.Legal) : (s.undo bid who).Legal := h.modCtx.leaveStt

theorem State.Legal.dropHeld {bid} (h : s.Legal) : (s.dropHeld bid).Legal := h.same.modBlock

theorem State.Legal.dropWaiting {bid} (h : s.Legal) : (s.dropWaiting bid).Legal :=
  h.withdrawReqs.cancelAbroad.dropLoading.same.modBlock

theorem State.Legal.dropRequests {bid} (h : s.Legal) : (s.dropRequests bid).Legal := h.dropHeld.dropWaiting.same

theorem State.Legal.setArray {a} (h : s.Legal) : (s.setArray a).Legal := h.same

theorem State.Legal.staleLatch {core slice} (h : s.Legal) : (s.staleLatch core slice).Legal := h.setArray

theorem State.Legal.unlatch {core slice} (h : s.Legal) : (s.unlatch core slice).Legal := h.setArray

theorem State.Legal.clearGrain {g} (h : s.Legal) : (s.clearGrain g).Legal := by
  fun_cases s.clearGrain g
  · exact h.same
  · exact h.unlatch.same
  · exact h.same
  · exact h.same

theorem State.Legal.releaseGrains {bid} (h : s.Legal) : (s.releaseGrains bid).Legal :=
  (h.foldl fun _ _ k => k.clearGrain).same

theorem State.Legal.dropCommands {bid} (h : s.Legal) : (s.dropCommands bid).Legal := h.same

theorem State.Legal.pushOf {bid} (h : s.Legal) : (s.pushOf bid).Legal := by
  fun_cases s.pushOf bid
  · exact h.pushCore
  · exact h

theorem State.Legal.unseat {bid} (h : s.Legal) : (s.unseat bid).Legal :=
  h.pushOf.dropRequests.dropAbroad.dropCommands.releaseGrains.modBlock

theorem State.Legal.stopBlock {bid r'} (h : s.Legal) : (s.stopBlock bid r').Legal := h.modBlock

theorem State.Legal.stopCopies {bids r'} (h : s.Legal) : (s.stopCopies bids r').Legal := h.foldl fun _ _ l => l.modBlock

theorem State.Legal.blockRecord {b r'} (h : s.Legal) : (s.blockRecord b r').Legal :=
  State.Legal.sendRecord <| by
    split
    · exact h.pushCore
    · exact h

theorem State.Legal.recordFor {b who pc t' eng} (h : s.Legal) : (s.recordFor b who pc t' eng).1.Legal := by
  fun_cases s.recordFor b who pc t' eng
  · exact h
  · exact h.same.blockRecord

theorem State.Legal.parkOn {b who pc t'} (h : s.Legal) : (s.parkOn b who pc t').Legal := h.recordFor.modCtx

theorem State.Legal.relaunch {bid avoid} (h : s.Legal) : (s.relaunch bid avoid).Legal := h.unseat.same.modBlock

theorem State.Legal.rollback {bid avoid} (h : s.Legal) : (s.rollback bid avoid).Legal := by
  fun_cases s.rollback bid avoid
  · exact h.relaunch
  · exact h.unseat.same.modBlock

theorem State.Legal.contain {b who pc t' eng} (h : s.Legal) : (s.contain b who pc t' eng).Legal := by
  fun_cases s.contain b who pc t' eng
  · exact (h.foldl fun _ _ l => l.modBlock).blockRecord.foldl fun _ _ l => l.relaunch
  · exact (h.foldl fun _ _ l => l.modBlock).blockRecord.foldl fun _ _ l => l.rollback
  · exact (h.foldl fun _ _ l => l.modBlock).stopCopies

theorem State.Legal.takeTrap {bid who pc t'} (h : s.Legal) : (s.takeTrap bid who pc t').Legal := by
  fun_cases s.takeTrap bid who pc t'
  · exact h
  · exact h.parkOn
  · exact h.contain
  · exact h.stopBlock

theorem State.Legal.engineTrap {b who pc t'} (h : s.Legal) : (s.engineTrap b who pc t').Legal := by
  fun_cases s.engineTrap b who pc t'
  · exact h.contain
  · exact h.stopBlock

theorem State.Legal.scatterHome {core p bytes} (h : s.Legal) : (s.scatterHome core p bytes).Legal := by
  fun_cases s.scatterHome core p bytes
  · exact h
  · exact (h.recall.note.foldl fun _ _ k => .ite k.putBytes k).foldl fun _ _ l => .ite l.clearPoison l

theorem State.Legal.drainAway {b e p} (h : s.Legal) : (s.drainAway b e p).Legal := by
  fun_cases s.drainAway b e p
  · exact h
  · exact h.remoteSend
  · exact h
  · exact h.remoteSend
  · exact h.remoteSend

theorem State.Legal.drainEntry {core b e ps} (h : s.Legal) : (s.drainEntry core b e ps).Legal := by
  fun_cases s.drainEntry core b e ps
  · exact h
  · exact h.foldl fun _ _ k => .ite k.homeSet k.l1Write
  · have hout := h.foldl (l := ps) (f := fun t p => t.evictFor core p.pa) fun _ _ k => k.evictFor
    exact hout.foldl fun _ _ k => .ite k.scatterHome (k.scatterHome.foldl fun _ _ l => .ite l.l1Install l)
  · exact h.foldl fun _ _ k => .ite k.recallAll.combineAt k.l1Red

theorem State.Legal.drain {b buf} (h : s.Legal) : (s.drain b buf).state.Legal := by
  induction buf generalizing s with
  | nil => exact h
  | cons e rest ih =>
    unfold State.drain
    dsimp only
    split
    · exact h.pieces
    · split
      · exact h.pieces
      · exact ih (h.pieces.foldl fun _ _ k => k.drainAway).drainEntry

theorem State.Legal.drained {b buf younger} (h : s.Legal) : (s.drained b buf younger).Legal := by
  unfold State.drained
  dsimp only
  split
  · exact .wait h.drain.modBlock.takeTrap
  · exact .go h.drain.modBlock
  · exact .wait h.drain.modBlock

theorem State.Legal.commitOwn {b who} (h : s.Legal) : (s.commitOwn b who).Legal := by
  fun_cases s.commitOwn b who
  · exact .go h
  · exact .go h.modBlock
  · exact h.drained

theorem State.Legal.commit {e} (h : s.Legal) : (s.commit e).Legal := by
  fun_cases s.commit e
  · exact .go h
  · exact .go h
  · exact h.drained
  · exact h.commitOwn
  · exact .go h
  · exact .go h

theorem State.Legal.setPhase {e f} (h : s.Legal) : (s.setPhase e f).Legal := h.modMe

theorem State.Legal.release {e sc} (h : s.Legal) : (s.release e sc).Legal := by
  fun_cases s.release e sc
  · exact .go h
  · exact .go h
  · exact .wait h
  · exact .wait h
  · exact .wait h
  · exact .go ((h.commit.of_go ‹_›).pushCore)
  · exact .wait ((h.commit.of_go ‹_›).pushCore.setPhase)
  · exact .wait (h.commit.of_wait ‹_›)
  · exact .trap (h.commit.of_trap ‹_›)

theorem State.Legal.acquire {core sc} (h : s.Legal) : (s.acquire core sc).Legal := by
  fun_cases s.acquire core sc
  · exact h
  · exact h.dropClean

theorem Gate.Legal.andThen {g : Gate} {f : State → Gate} (h : g.Legal) (hf : ∀ t, t.Legal → (f t).Legal) :
    (g.andThen f).Legal := by
  fun_cases g.andThen f
  · exact hf _ h
  · exact .wait h
  · exact .trap h

theorem State.Legal.storeEvent {e who bs} (h : s.Legal) : (s.storeEvent e who bs).Legal := by
  fun_cases s.storeEvent e who bs
  · exact h
  · exact State.Legal.modBlock (.ite h.modBlock h.modCtx)

theorem State.Legal.flushCrc {bid} (h : s.Legal) : (s.flushCrc bid).Legal := h.modBlock

theorem State.Legal.slackGate {e ev} (h : s.Legal) : (s.slackGate e ev).Legal := by
  fun_cases s.slackGate e ev
  · exact .wait h
  · exact .go h.storeEvent

theorem State.Legal.pairPoint {e ev} (h : s.Legal) : (s.pairPoint e ev).Legal := by
  fun_cases s.pairPoint e ev
  · exact .go h
  · exact .go h
  · exact .wait h
  · exact .wait h
  · exact .wait h
  · exact .wait h
  · exact .wait h
  · exact .wait (State.Legal.setPhase (.ite h h.storeEvent))

theorem State.Legal.commitPoint {e ev} (h : s.Legal) : (s.commitPoint e ev).Legal :=
  h.pairPoint.andThen fun _ k => k.commit

theorem State.Legal.releasePoint {e ev sc} (h : s.Legal) : (s.releasePoint e ev sc).Legal := by
  fun_cases s.releasePoint e ev sc
  · exact .go h
  · exact h.pairPoint.andThen fun _ k => k.release

theorem State.Legal.takeOrdinal {e} (h : s.Legal) : (s.takeOrdinal e).Legal := by
  fun_cases s.takeOrdinal e
  · exact h.modBlock
  · exact h

theorem State.Legal.commitBefore {e} (h : s.Legal) : (s.commitBefore e).Legal := by
  fun_cases s.commitBefore e
  · exact .go h
  · exact h.commitPoint.andThen fun _ k => .ite (.wait k.takeOrdinal.setPhase) (.go k.takeOrdinal)

theorem State.Legal.roomFor {e n} (h : s.Legal) : (s.roomFor e n).Legal := by
  fun_cases s.roomFor e n
  · exact .wait h
  · exact .go h
  · exact .wait h
  · exact (State.Legal.commitBefore (.ite h.setPhase h)).andThen fun _ k => .ite (.go k) (.wait k)

theorem State.Legal.enterBuffer {e x} (h : s.Legal) : (s.enterBuffer e x).Legal := h.modBlock

theorem State.Legal.mark {bid} (h : s.Legal) : (s.mark bid).Legal := h.modBlock

theorem State.Legal.outside {e} {t' : State} (h : s.Legal) (k : t'.Legal) : (s.outside e t').Legal := by
  fun_cases s.outside e t'
  · exact h
  · exact k

theorem State.Legal.forward {b who ws} (h : s.Legal) : (s.forward b who ws).Legal := by
  fun_cases s.forward b who ws
  · exact h.modBlock
  · exact h

theorem State.Legal.takeForwarded {b who} (h : s.Legal) {r} (ht : s.takeForwarded b who = some r) : r.1.Legal := by
  revert ht
  fun_cases s.takeForwarded b who <;> intro ht
  · cases ht
  · cases ht
    exact h.modBlock

theorem State.Legal.controlBlock {sp h' need} (h : s.Legal) : (s.controlBlock sp h' need).1.Legal := by
  fun_cases s.controlBlock sp h' need
  · exact h.pieces
  · exact h.pieces
  · exact h.pieces
  · exact h.pieces

theorem State.Legal.asking {e} (h : s.Legal) : (s.asking e).Legal := h.modMe

theorem State.Legal.askFor {e f enq try_ p code payload} (h : s.Legal) : (s.askFor e f enq try_ p code payload).Legal :=
  h.evictFor.ridgeSend.same

theorem State.Legal.ask {e enq try_ p code payload} (h : s.Legal) : (s.ask e enq try_ p code payload).Legal :=
  h.askFor.asking

end Sys2Proof.Machine
end

section
/-!
SUPPORT. A legal state stays legal. Debug stops, checks, retirement and issue of an instruction, fetch and flags (14 R274).
-/
namespace Sys2Proof.Machine
variable {s : State}

theorem State.Legal.elemAddr {sp b n} (h : s.Legal) : (s.elemAddr sp b n).1.Legal := by
  fun_cases s.elemAddr sp b n
  · exact h
  · exact h.pieces
  · exact h.pieces
  · exact h.pieces
  · exact h.pieces.pieces
  · exact h.pieces.pieces
  · exact h.pieces.pieces
  · exact h.pieces.pieces
  · exact h.pieces.pieces

theorem State.Legal.traceRecord {e} {s0 : State} (h : s0.Legal) : (s0.traceRecord e).Legal := by
  fun_cases s0.traceRecord e
  · exact h
  · exact h.same
  · exact h.pushCore.same

theorem State.Legal.countMatches {e ms} (h : s.Legal) : (s.countMatches e ms).Legal :=
  h.foldl fun _ _ k => .ite k.same.traceRecord k.same

theorem State.Legal.haltBlock {bid slot bound skip} (h : s.Legal) : (s.haltBlock bid slot bound skip).Legal :=
  h.modBlock.tick1

theorem State.Legal.haltBy {e slot action v} (h : s.Legal) : (s.haltBy e slot action v).Legal := by
  unfold State.haltBy
  extract_lets +onlyGivenNames t s1 s2 act s3 s4
  have h2 : s2.Legal := h.blockRecord.modMe
  have h3 : s3.Legal := .ite h2.haltBlock h2
  have h4 : s4.Legal := .ite h3.haltBlock h3
  exact .ite (h4.foldl fun _ _ k => k.haltBlock).modLaunch h4

theorem Gate.Legal.act {g : Gate} {f : State → Act} (h : g.Legal) (hf : ∀ t, t.Legal → (f t).Legal) : (g.act f).Legal := by
  fun_cases g.act f
  · exact hf _ h
  · exact .wait h
  · exact .trap h

theorem State.Legal.endStep {e status} (h : s.Legal) : (s.endStep e status).Legal := by
  fun_cases s.endStep e status
  · exact h
  · exact h.modMe.modCtx

theorem State.Legal.charge {bid} (h : s.Legal) : (s.charge bid).Legal := h.modBlock

theorem State.Legal.chargeOnce {bid c} (h : s.Legal) : (s.chargeOnce bid c).Legal := by
  fun_cases s.chargeOnce bid c
  · exact h
  · exact h.charge

theorem State.Legal.trialRetire {e} (h : s.Legal) : (s.trialRetire e).Legal := by
  fun_cases s.trialRetire e
  · exact h.same
  · exact h

theorem State.Legal.acquired {core} {d : Done} (h : d.state.Legal) : (d.acquired core).Legal := by
  fun_cases d.acquired core
  · exact h.acquire
  · exact h
  · exact h

theorem State.Legal.retire {e f ms} {d : Done} (h : d.state.Legal) : (Machine.retire e f ms d).Legal :=
  h.acquired.modBlock.tick1.chargeOnce.countMatches.trialRetire.endStep

theorem State.Legal.skipped {e} (h : s.Legal) : (s.skipped e).Legal := h.retire

theorem State.Legal.countBegun {e ms w} (h : s.Legal) : (s.countBegun e ms w).Legal := by
  fun_cases s.countBegun e ms w
  · exact h.countMatches
  · exact h

theorem State.Legal.stay {i e f w} (h : s.Legal) : (s.stay i e f w).Legal := by
  fun_cases s.stay i e f w
  · exact State.Legal.endStep (.ite h.modMe.chargeOnce h.modMe)
  · exact .ite h.modMe.chargeOnce h.modMe

theorem State.Legal.issueTrap {i e f t'} (h : s.Legal) : (s.issueTrap i e f t').Legal :=
  h.modMe.chargeOnce.takeTrap.endStep

theorem State.Legal.unhold {e} (h : s.Legal) : (s.unhold e).Legal := by
  fun_cases s.unhold e
  · exact h
  · exact h.modMe

theorem State.Legal.stepStalls {i e f w} (h : s.Legal) : (s.stepStalls i e f w).Legal := by
  fun_cases s.stepStalls i e f w
  · exact h.stay.endStep
  · exact h.stay

theorem State.Legal.settle {i e f ms} {a : Act} (h : s.Legal) (k : a.Legal) : (s.settle i e f ms a).Legal := by
  fun_cases s.settle i e f ms a
  · exact h.stepStalls
  · exact State.Legal.stay (State.Legal.countBegun k)
  · exact State.Legal.issueTrap k
  · exact h.countMatches.haltBy
  · refine State.Legal.retire ?_
    exact k

theorem State.Legal.perform {i e} {body : Env → List Nat → State → Act} (h : s.Legal)
    (hf : ∀ x y t, t.Legal → (body x y t).Legal) : (s.perform i body e).Legal := by
  fun_cases s.perform i body e
  · exact h.issueTrap
  · exact h.skipped
  · exact h.countMatches.haltBy
  · exact h.stay
  · exact h.settle (hf _ _ _ h)

theorem State.Legal.issue {i} {body : Env → List Nat → State → Act} (h : s.Legal)
    (hf : ∀ x y t, t.Legal → (body x y t).Legal) : LegalOutcome (Machine.issue i body s) := by
  fun_cases Machine.issue i body s
  · exact .next h
  · exact .next (h.unhold.perform hf)

theorem State.Legal.issueChecked {i} {more : Env → State → State × Option Trap} {body : Env → List Nat → State → Act}
    (h : s.Legal) (hf : ∀ x t, t.Legal → (more x t).1.Legal) (hg : ∀ x y t, t.Legal → (body x y t).Legal) :
    LegalOutcome (Machine.issueChecked i more body s) := by
  fun_cases Machine.issueChecked i more body s
  · exact .next h
  · exact h.issue hg
  · exact .next ((hf _ _ h).issueTrap)
  · exact (hf _ _ h).issue hg

theorem State.Legal.codeRead {core p} (h : s.Legal) : (s.codeRead core p).1.Legal := by
  unfold State.codeRead
  split
  · exact h
  · extract_lets +onlyGivenNames r
    have hr : r.1.Legal := by
      unfold r
      split
      · exact h.readPiece
      · exact h.readHome
    split
    · exact hr
    · exact hr.same

theorem State.Legal.fetch {sp pc} (h : s.Legal) : (s.fetch sp pc).1.Legal := by
  fun_cases s.fetch sp pc
  · exact h
  · exact h.pieces
  · exact h.pieces
  · exact h.pieces.codeRead

theorem State.Legal.askCode {e pc} (h : s.Legal) {t : State} (ht : s.askCode e pc = some t) : t.Legal := by
  revert ht
  fun_cases s.askCode e pc <;> intro ht
  · cases ht
  · cases ht
  · cases ht
    exact h.pieces
  · cases ht
    exact h.pieces.remoteSend
  · cases ht

theorem State.Legal.alu1 {f e v} (h : s.Legal) : (Machine.alu1 f e v s).Legal := .done h

theorem State.Legal.alu2 {f e v} (h : s.Legal) : (Machine.alu2 f e v s).Legal := .done h

theorem State.Legal.alu3 {f e v} (h : s.Legal) : (Machine.alu3 f e v s).Legal := .done h

theorem State.Legal.fpResult {r'} (h : s.Legal) : (Machine.fpResult r' s).Legal := .done h

theorem State.Legal.predResult {p} (h : s.Legal) : (Machine.predResult p s).Legal := .done h

end Sys2Proof.Machine
end

section
/-!
SUPPORT. A legal state stays legal. Recalls, tagged accesses, atomics and reports at a home (07, 15).
-/
namespace Sys2Proof.Machine
variable {s : State}

theorem State.Legal.failProducer {bid who pid t'} (h : s.Legal) : (s.failProducer bid who pid t').Legal := by
  fun_cases s.failProducer bid who pid t'
  · exact h
  · exact h.modCtx.takeTrap

theorem State.Legal.poisonReaders {own hit origin} (h : s.Legal) : (s.poisonReaders own hit origin).Legal :=
  h.foldl fun _ _ k => k.foldl fun _ _ l => by
    split
    · exact l
    · exact l.foldl fun _ _ m => by
        split
        · exact m
        · exact m.failProducer

theorem State.Legal.readFor {f since slot cells} (h : s.Legal) : (s.readFor f since slot cells).Legal := by
  fun_cases s.readFor f since slot cells
  · exact h.modCtx
  · exact h

theorem State.Legal.poisonCopy {core sector} (h : s.Legal) : (s.poisonCopy core sector).Legal := h.same

theorem State.Legal.heldLoad {sz acq known} (h : s.Legal) : (Machine.heldLoad sz acq known s).Legal := by
  fun_cases Machine.heldLoad sz acq known s
  · exact .wait h
  · exact .done h

theorem State.Legal.askHeld {e va ps known} (h : s.Legal) : (s.askHeld e va ps known).Legal :=
  (h.modPeers.foldl fun _ _ k => k.remoteSend).setPhase

theorem State.Legal.point {e} {d : Done} (h : d.state.Legal) : (d.point e).state.Legal := h.takeOrdinal

/-- An operation that may end at a checkpoint leaves the same state, but for the ordinal that it takes. -/
theorem State.Legal.ite_point {c : Prop} [Decidable c] {e} {d : Done} (h : d.state.Legal) :
    (if c then d.point e else d).state.Legal := by
  split
  · exact h.point
  · exact h

theorem State.Legal.beforeReads {e vas n} (h : s.Legal) : (s.beforeReads e vas n).Legal := by
  fun_cases s.beforeReads e vas n
  · exact h.commitBefore
  · exact .go h

theorem State.Legal.beforeRead {e va n} (h : s.Legal) : (s.beforeRead e va n).Legal := h.beforeReads

theorem State.Legal.readAtHome {core p} (h : s.Legal) : (s.readAtHome core p).1.Legal := h.evictFor.homeGet

theorem State.Legal.maintainL1 {cores tag discard} (h : s.Legal) : (s.maintainL1 cores tag discard).Legal :=
  h.foldl fun _ _ k => by
    split
    · exact k
    · split
      · exact k.pushLine
      · split
        · exact k.l1Drop
        · exact k.writeBack

theorem State.Legal.maintainHome {tag discard} (h : s.Legal) : (s.maintainHome tag discard).Legal :=
  h.foldl fun _ _ k => by
    split
    · exact k
    · split
      · exact k
      · split
        · exact k.scDrop
        · exact k.scClean

theorem State.Legal.maintain {e sc discard lines} (h : s.Legal) : (s.maintain e sc discard lines).1.Legal := by
  induction lines generalizing s with
  | nil => exact h
  | cons va rest ih =>
    unfold State.maintain
    dsimp only
    split
    · exact h.pieces
    · exact ih h.pieces
    · split
      · exact ih h.pieces
      · split
        · exact ih (.ite h.pieces.remoteSend h.pieces)
        · exact ih (.ite h.pieces.maintainL1.maintainHome h.pieces.maintainL1)

theorem State.Legal.dropCode {cores} (h : s.Legal) : (s.dropCode cores).Legal := h.same.modPeers

theorem State.Legal.abroadGate {e since} (h : s.Legal) : (s.abroadGate e since).Legal := by
  fun_cases s.abroadGate e since
  · exact .wait h.setPhase
  · exact .go h

theorem State.Legal.commitAgain {e} (h : s.Legal) : (s.commitAgain e).Legal :=
  h.commit.andThen fun _ k => .ite (.wait k.pushCore.setPhase) (.go k.pushCore)

theorem State.Legal.secondCommit {e} (h : s.Legal) : (s.secondCommit e).Legal := h.setPhase.commitAgain

theorem State.Legal.atHome {core p f} (h : s.Legal) : (s.atHome core p f).1.Legal := by
  fun_cases s.atHome core p f
  · exact h.readAtHome
  · exact h.readAtHome.scatterAs

theorem State.Legal.atomicAct {ordered sc opcode operands f raises kind late e a} (h : s.Legal) :
    (Machine.atomicAct ordered sc opcode operands f raises kind late e a s).Legal := by
  unfold Machine.atomicAct
  refine .ite (.trap h) ?_
  extract_lets +onlyGivenNames r
  split
  · exact .trap h.pieces
  · exact .trap h.pieces
  · extract_lets +onlyGivenNames fin
    have hfin (t : State) (old : Word) (fl : FpFlags) (k : t.Legal) : (fin t old fl).Legal := .done k.point
    refine (h.pieces.pairPoint.andThen fun _ k => .ite k.release k.commit).act fun t k => ?_
    split
    · split
      · exact .wait k
      · exact hfin _ _ _ (k.takeForwarded ‹_›)
    · refine .ite (.wait k) (.ite (.done k.mark.tick1.remoteSend.point) ?_)
      extract_lets +onlyGivenNames t1
      split
      · exact .trap k.evictFor
      · exact hfin _ _ _ k.evictFor.atHome.mark.forward

theorem State.Legal.execRed {op ra rb sc3} (h : s.Legal) : LegalOutcome (Machine.execRed op ra rb sc3 s) :=
  h.issue fun _ _ _ k => .ite (.trap k) <| by
    dsimp only
    split
    · exact .trap k.pieces
    · exact (k.pieces.roomFor.andThen fun _ l => l.slackGate).act fun _ l => .done l.enterBuffer

theorem State.Legal.logErr {x} (h : s.Legal) : (s.logErr x).Legal := h.same

theorem State.Legal.forgetAgent (h : s.Legal) : s.forgetAgent.Legal := h.same

theorem State.Legal.quiet {t' : State} (h : t'.Legal) : (t'.quiet s).Legal := h.forgetAgent.same

theorem State.Legal.agentReach {sp va n need} (h : s.Legal) : (s.agentReach sp va n need).1.Legal :=
  h.pieces.forgetAgent

theorem State.Legal.agentPieces {sp va n need} (h : s.Legal) : (s.agentPieces sp va n need).1.Legal := by
  fun_cases s.agentPieces sp va n need
  · exact h.agentReach
  · exact h.agentReach
  · exact h.agentReach

theorem State.Legal.agentRead {sp va n} (h : s.Legal) : (s.agentRead sp va n).1.Legal := by
  fun_cases s.agentRead sp va n
  · exact h.agentPieces
  · exact h.agentPieces.readHome

theorem State.Legal.agentWrite {sp va bs} (h : s.Legal) : (s.agentWrite sp va bs).Legal := by
  fun_cases s.agentWrite sp va bs
  · exact h.agentReach
  · exact h.agentReach.writeHome
  · exact h.agentReach.foldl fun _ _ k => .ite k.remoteSend k.writeHome

theorem State.Legal.agentFetch {sp va n task} (h : s.Legal) : (s.agentFetch sp va n task).1.Legal := by
  fun_cases s.agentFetch sp va n task
  · exact h.agentReach
  · exact h.agentReach.readHome
  · exact h.agentReach.readHome
  · exact h.agentReach.readHome.same.foldl fun _ _ k => k.remoteSend

theorem State.Legal.tcbGet {p off} (h : s.Legal) : (s.tcbGet p off).1.Legal := by
  fun_cases s.tcbGet p off
  · exact h.agentRead
  · exact h.agentRead

theorem State.Legal.tcbPut {p off bs} (h : s.Legal) : (s.tcbPut p off bs).Legal := h.agentWrite

theorem State.Legal.tcbStatus {p v} (h : s.Legal) : (s.tcbStatus p v).Legal := h.tcbPut

theorem State.Legal.sendLaunchRec {queue r'} (h : s.Legal) : (s.sendLaunchRec queue r').Legal := h.sendAgent

theorem State.Legal.countBlock {b aborted} (h : s.Legal) : (s.countBlock b aborted).Legal := by
  fun_cases s.countBlock b aborted
  · exact h
  · exact h.modLaunch.setLq.tcbPut.tcbPut

theorem State.Legal.answer {bid who ws} (h : s.Legal) : (s.answer bid who ws).Legal := h.modCtx.leaveStt

theorem State.Legal.endStepOf {bid who status} (h : s.Legal) : (s.endStepOf bid who status).Legal := by
  fun_cases s.endStepOf bid who status
  · exact h
  · exact h.endStep

theorem State.Legal.endSteps {bid status} (h : s.Legal) : (s.endSteps bid status).Legal := by
  fun_cases s.endSteps bid status
  · exact h
  · exact h.foldl fun _ _ k => k.endStepOf

theorem State.Legal.freeExtent {start} (h : s.Legal) : (s.freeExtent start).Legal := h.same

theorem State.Legal.discardBlock {bid} (h : s.Legal) : (s.discardBlock bid).Legal := by
  fun_cases s.discardBlock bid
  · exact h
  · exact h.endSteps.unseat.withdrawReqs.same.freeExtent.same
  · exact h.endSteps.unseat.withdrawReqs.same.freeExtent.freeExtent

theorem State.Legal.abortBlock {bid} (h : s.Legal) : (s.abortBlock bid).Legal := by
  fun_cases s.abortBlock bid
  · exact h
  · exact (h.foldl fun _ _ l => l.discardBlock).countBlock

theorem State.Legal.endOp {o} (h : s.Legal) : (s.endOp o).Legal := h.modCtx.dropOp

theorem State.Legal.opRecord {o t'} (h : s.Legal) : (s.opRecord o t').Legal := by
  fun_cases s.opRecord o t'
  · exact h
  · exact h.blockRecord

theorem State.Legal.parkOp {b o t'} (h : s.Legal) : (s.parkOp b o t').Legal := h.recordFor.modOp

theorem State.Legal.tellPartner {b who key} (h : s.Legal) : (s.tellPartner b who key).Legal := by
  fun_cases s.tellPartner b who key
  · exact h.modBlock
  · exact h

theorem State.Legal.takeTold {b who key} (h : s.Legal) {t : State} (ht : s.takeTold b who key = some t) : t.Legal := by
  revert ht
  fun_cases s.takeTold b who key <;> intro ht
  · cases ht
    exact h.modBlock
  · cases ht

theorem State.Legal.memberRecord {p m f addr} (h : s.Legal) : (s.memberRecord p m f addr).Legal := h.sendRecord

theorem State.Legal.failInstance {iid f addr} (h : s.Legal) : (s.failInstance iid f addr).Legal := by
  fun_cases s.failInstance iid f addr
  · exact h
  · exact (h.foldl fun _ _ k => k.memberRecord).same

end Sys2Proof.Machine
end

section
/-!
SUPPORT. A legal state stays legal. Queues at their homes (07 R144 to R155).
-/
namespace Sys2Proof.Machine
variable {s : State}

theorem State.Legal.ctlBytes {pa} (h : s.Legal) : (s.ctlBytes pa).1.Legal := by
  fun_cases s.ctlBytes pa
  · exact h
  · exact h.homeGet

theorem State.Legal.ctlUpdate {pa c} (h : s.Legal) : (s.ctlUpdate pa c).Legal := h.ctlWrite.ctlWrite.ctlWrite

theorem State.Legal.setQhome {h'} (h : s.Legal) : (s.setQhome h').Legal := h.same

theorem State.Legal.reachQueue {pa unc} (h : s.Legal) : (s.reachQueue pa unc).Legal := by
  fun_cases s.reachQueue pa unc
  · exact h
  · exact h.setQhome

theorem State.Legal.dropReq {rid} (h : s.Legal) : (s.dropReq rid).Legal := h.same

theorem State.Legal.setPort {n p} (h : s.Legal) : (s.setPort n p).Legal := h.same

theorem State.Legal.modWindow {port w f} (h : s.Legal) : (s.modWindow port w f).Legal := by
  fun_cases s.modWindow port w f
  · exact h.setPort
  · exact h

theorem State.Legal.respond {source seq ok ws} (h : s.Legal) : (s.respond source seq ok ws).Legal := h.modPeers.reply

theorem State.Legal.failActor {bid who t'} (h : s.Legal) : (s.failActor bid who t').Legal := by
  fun_cases s.failActor bid who t'
  · exact h
  · exact h.undo.chargeOnce.takeTrap.endStepOf

theorem State.Legal.failWindow {port w code} (h : s.Legal) : (s.failWindow port w code).Legal := h.modWindow.logErr

theorem State.Legal.failDeq {port w code} (h : s.Legal) : (s.failDeq port w code).Legal := h.modWindow.logErr

theorem State.Legal.failRefusal {q} (h : s.Legal) : (s.failRefusal q).Legal := by
  fun_cases s.failRefusal q
  · exact h
  · exact h.sendLaunchRec

theorem State.Legal.failCompletion {lid t'} (h : s.Legal) : (s.failCompletion lid t').Legal := by
  fun_cases s.failCompletion lid t'
  · exact h
  · exact h.sendLaunchRec.modLaunch

theorem State.Legal.parkEngine {oid t'} (h : s.Legal) {t : State} (ht : s.parkEngine oid t' = some t) : t.Legal := by
  revert ht
  fun_cases s.parkEngine oid t' <;> intro ht
  · cases ht
  · cases ht
  · obtain ⟨b, -, rfl⟩ := Option.map_eq_some_iff.mp ht
    exact h.parkOp

theorem State.Legal.failTrigger {oid t'} (h : s.Legal) : (s.failTrigger oid t').Legal := h.modOp

theorem State.Legal.queueFail {q t0} (h : s.Legal) : (s.queueFail q t0).Legal := by
  fun_cases s.queueFail q t0
  · exact h.failActor
  · exact h.failActor
  · exact h.failProducer
  · exact h
  · exact h.opRecord.endOp.getD fun _ e => h.parkEngine e
  · exact h.failTrigger.getD fun _ e => h.parkEngine e
  · exact h.logErr
  · exact h.logErr.abortBlock
  · exact h.logErr
  · exact h.failCompletion
  · exact h.failRefusal
  · exact h.failInstance
  · exact h.failDeq
  · exact h.failWindow
  · exact h
  · exact h.same
  · exact h
  · exact h.reply

theorem State.Legal.enqDone {f} (h : s.Legal) : (s.enqDone f).Legal := by
  fun_cases s.enqDone f
  · exact h
  · exact h.endOp
  · exact h.modLaunch
  · exact h.same
  · exact h.modWindow
  · exact h.respond
  · exact h

theorem State.Legal.enqAnswer {q} (h : s.Legal) : (s.enqAnswer q).Legal := by
  fun_cases s.enqAnswer q
  · exact h
  · exact h.mark.forward.answer
  · exact h

theorem State.Legal.evictSlot {f slot n} (h : s.Legal) : (s.evictSlot f slot n).Legal := by
  fun_cases s.evictSlot f slot n
  · exact h
  · exact h.foldl fun _ _ l => l.evictFor

theorem State.Legal.evictCtl {f pa} (h : s.Legal) : (s.evictCtl f pa).Legal := by
  fun_cases s.evictCtl f pa
  · exact h
  · exact h.evictFor

theorem State.Legal.putElement {pa f payload} (h : s.Legal) : (s.putElement pa f payload).1.Legal := by
  fun_cases s.putElement pa f payload
  · exact h
  · exact h.evictSlot.homeStore.setQhome

theorem State.Legal.allocEnq {q} (h : s.Legal) : (s.allocEnq q).Legal := by
  fun_cases s.allocEnq q
  · exact h.dropReq.putElement.queueFail
  · exact h.dropReq.putElement.enqAnswer

theorem State.Legal.allocDeq {q} (h : s.Legal) : (s.allocDeq q).Legal := by
  fun_cases s.allocDeq q
  · exact h.dropReq.setQhome.modCtx.tick1
  · exact h.dropReq.setQhome

theorem State.Legal.serveRoll {fuel pa} (h : s.Legal) : (State.serveRoll fuel s pa).Legal := by
  induction fuel generalizing s with
  | zero => exact h.noteWaiters
  | succ fuel ih =>
    unfold State.serveRoll
    split
    · refine .ite (ih h.allocEnq) ?_
      split
      · exact .ite (ih h.allocDeq) h.noteWaiters
      · exact h.noteWaiters
    · exact .ite (ih h.allocDeq) h.noteWaiters
    · exact h.noteWaiters

theorem State.Legal.serve {pa} (h : s.Legal) : (s.serve pa).Legal := by
  fun_cases s.serve pa
  · exact h
  · exact h.serveRoll

theorem State.Legal.breakQueue {pa} (h : s.Legal) : (s.breakQueue pa).Legal := by
  fun_cases s.breakQueue pa
  · exact h
  · exact h.ctlWrite.same.foldl fun _ _ k => k.queueFail

theorem State.Legal.checkHome {pa code} (h : s.Legal) : (s.checkHome pa code).1.Legal := by
  fun_cases s.checkHome pa code
  · exact h.ctlBytes
  · exact h.ctlBytes
  · exact .ite h.ctlBytes.breakQueue h.ctlBytes

theorem State.Legal.stepNotReady {bid who} (h : s.Legal) : (s.stepNotReady bid who).Legal := h.undo.endStepOf

theorem State.Legal.rollWait {f} (h : s.Legal) : (s.rollWait f).Legal := by
  fun_cases s.rollWait f
  · exact h.modCtx
  · exact h

theorem State.Legal.parkReq {q} (h : s.Legal) : (s.parkReq q).Legal := by
  fun_cases s.parkReq q
  · exact h.dropReq.stepNotReady
  · exact h.dropReq.same.noteWaiters.rollWait
  · exact h.dropReq.same.rollWait

theorem State.Legal.tryFails {q} (h : s.Legal) : (s.tryFails q).Legal := by
  fun_cases s.tryFails q
  · exact h.dropReq
  · exact h.dropReq.forward.answer
  · exact h.dropReq
  · exact h.dropReq.forward.modCtx
  · exact h.dropReq.modWindow
  · exact h.dropReq.same
  · exact h.dropReq.respond
  · exact h.dropReq

theorem State.Legal.resolve {q} (h : s.Legal) : (s.resolve q).1.Legal := by
  fun_cases s.resolve q
  · exact h
  · exact h
  · exact h.controlBlock.forgetAgent
  · exact h.controlBlock.forgetAgent

theorem State.Legal.notWaiting {stepped} (h : s.Legal) : (s.notWaiting stepped).Legal := by
  fun_cases s.notWaiting stepped
  · exact h
  · exact h.cancelOp
  · exact h

theorem State.Legal.queueAway {q} (h : s.Legal) : (s.queueAway q).Legal := h.dropReq.remoteSend.notWaiting

theorem State.Legal.recordRelease {f} (h : s.Legal) : (s.recordRelease f).Legal := by
  fun_cases s.recordRelease f
  · exact h.foldl fun _ _ k => k.pushOf
  · exact h

theorem State.Legal.takeUp {rid enq} {go : State → QReq → State} (h : s.Legal) (hf : ∀ t x, t.Legal → (go t x).Legal) :
    (s.takeUp rid enq go).Legal := by
  fun_cases s.takeUp rid enq go
  · exact h
  · exact h
  · exact h.resolve.dropReq.queueFail
  · exact h.resolve
  · exact h
  · exact h.resolve.recordRelease
  · exact h.resolve.recordRelease.queueAway
  · exact h.resolve.evictCtl.reachQueue.checkHome.dropReq.queueFail
  · exact hf _ _ h.resolve.evictCtl.reachQueue.checkHome

theorem State.Legal.enqHome {rid} (h : s.Legal) : (s.enqHome rid).Legal := by
  refine h.takeUp fun t q k => .ite k.recordRelease (.ite ?_ k.recordRelease.allocEnq)
  exact .ite k.recordRelease.tryFails k.recordRelease.parkReq

/-- What becomes of a dequeue that has reached its queue's home. -/
def dequeueAtHome (s : State) (q : QReq) : State :=
  if s.unclaimed q.pa = 0 || !(s.parkedAt q.pa false).isEmpty then (if q.try_ then s.tryFails q else s.parkReq q) else s.allocDeq q

theorem State.deqHome_eq (s : State) (rid : Nat) : s.deqHome rid = s.takeUp rid false dequeueAtHome := rfl

theorem State.Legal.dequeueAtHome {q} (h : s.Legal) : (Machine.dequeueAtHome s q).Legal :=
  .ite (.ite h.tryFails h.parkReq) h.allocDeq

theorem State.Legal.deqHome {rid} (h : s.Legal) : (s.deqHome rid).Legal := by
  rw [State.deqHome_eq]
  exact h.takeUp fun _ _ k => k.dequeueAtHome

theorem State.Legal.queueFirst {src dst} (h : s.Legal) : (s.queueFirst src dst).Legal :=
  h.foldl fun _ _ k => .ite k.enqHome k.deqHome

theorem State.Legal.enqAck {pa} (h : s.Legal) : (s.enqAck pa).Legal := by
  fun_cases s.enqAck pa
  · exact h
  · exact h.evictCtl.ctlBytes.ctlUpdate.setQhome.enqDone.serve

theorem State.Legal.deqDone {f data} (h : s.Legal) : (s.deqDone f data).Legal := by
  fun_cases s.deqDone f data
  · exact h
  · exact h.mark.forward.modCtx
  · exact h
  · exact h.mark.modOp.tellPartner
  · exact h.modWindow
  · exact h.same
  · exact h.respond
  · exact h

theorem State.Legal.readSlot {f c home i} (h : s.Legal) : (s.readSlot f c home i).1.Legal := by
  fun_cases s.readSlot f c home i with
  | case1 => exact h
  | case2 => exact h
  | case3 _ _ _ _ _ s0 =>
    have hs0 : s0.Legal := by
      unfold s0
      split
      · exact h.evictSlot
      · exact h
    exact hs0.homeRead

theorem State.Legal.deqRead {pa} (h : s.Legal) : (s.deqRead pa).Legal := by
  fun_cases s.deqRead pa
  · exact h
  · exact h
  · exact h.evictCtl.ctlBytes.readSlot.setQhome.queueFail.serve
  · exact h.evictCtl.ctlBytes.readSlot.setQhome.ctlUpdate.deqDone.readFor.serve

theorem State.Legal.flushDeqs {c pa i fs} (h : s.Legal) : (s.flushDeqs c pa i fs).Legal := by
  induction fs generalizing s i with
  | nil => exact h
  | cons f rest ih =>
    unfold State.flushDeqs
    dsimp only
    split
    · exact ih h.readSlot.queueFail
    · exact ih h.readSlot.deqDone

theorem State.Legal.initHome {pa area lcap code scope} (h : s.Legal) : (s.initHome pa area lcap code scope).1.Legal := by
  fun_cases s.initHome pa area lcap code scope
  · exact h
  · exact h
  · exact (h.recall.setQhome.foldl fun _ _ k => k.enqDone).flushDeqs.note.ctlWrite

theorem State.Legal.statHome {pa} (h : s.Legal) : (s.statHome pa).1.Legal := by
  fun_cases s.statHome pa with
  | case1 => exact h.ctlBytes
  | case2 _ _ s1 =>
    have hs1 : s1.Legal := by
      unfold s1
      split
      · exact h.ctlBytes
      · exact h.ctlBytes.breakQueue
    exact hs1

theorem State.Legal.performReads {fuel pa} (h : s.Legal) : (State.performReads fuel s pa).Legal := by
  induction fuel generalizing s with
  | zero => exact h
  | succ fuel ih => exact ih h.deqRead

theorem State.Legal.takeNow {src pa code} (h : s.Legal) : (s.takeNow src pa code).1.Legal := by
  fun_cases s.takeNow src pa code
  · exact h.queueFirst.checkHome
  · exact h.queueFirst.checkHome
  · exact h.queueFirst.checkHome.performReads.readSlot
  · exact h.queueFirst.checkHome.performReads.readSlot.ctlUpdate.serve

theorem State.Legal.setTag {c full} (h : s.Legal) : (s.setTag c full).Legal := h.same

theorem State.Legal.evictOf {bid pa} (h : s.Legal) : (s.evictOf bid pa).Legal := by
  fun_cases s.evictOf bid pa
  · exact h
  · exact h.evictFor

theorem State.Legal.tagRead {q c} (h : s.Legal) : (s.tagRead q c).1.Legal := by
  unfold State.tagRead
  extract_lets +onlyGivenNames s0 r buf ws s1
  have h0 : s0.Legal := .ite h h.evictOf
  have h1 : s1.Legal := .ite h0.homeGet.setTag h0.homeGet
  exact .ite h1.mark h1

theorem State.Legal.tagAnswer {q ws} (h : s.Legal) : (s.tagAnswer q ws).Legal := by
  fun_cases s.tagAnswer q ws with
  | case1 => exact h.respond
  | case2 _ s1 =>
    have hs1 : s1.Legal := by
      unfold s1
      split
      · split
        · exact h.forward
        · exact h
      · exact h
    exact hs1.answer

theorem State.Legal.tagPoison {q origin} (h : s.Legal) : (s.tagPoison q origin).Legal := by
  fun_cases s.tagPoison q origin
  · exact h.reply
  · exact h.failActor

theorem State.Legal.tagPerform {q c} (h : s.Legal) : (s.tagPerform q c).1.Legal := by
  unfold State.tagPerform
  extract_lets +onlyGivenNames s0
  have h0 : s0.Legal := h.same
  split
  · split
    · exact h0.tagPoison
    · exact h0.tagRead.tagAnswer
  · extract_lets +onlyGivenNames s1 s2
    have h1 : s1.Legal := .ite h0 h0.evictOf
    have h2 : s2.Legal := h1.homeSet.setTag
    exact State.Legal.tagAnswer (.ite h2 h2.mark)

theorem State.Legal.serveTags {fuel g} (h : s.Legal) : (State.serveTags fuel s g).Legal := by
  induction fuel generalizing s with
  | zero => exact h
  | succ fuel ih =>
    unfold State.serveTags
    split
    · exact h
    · exact ih h.tagPerform

theorem State.Legal.tagChanged {g} (h : s.Legal) : (s.tagChanged g).Legal := h.serveTags

theorem State.Legal.tagAway {q} (h : s.Legal) : (s.tagAway q).Legal := h.same.remoteSend.notWaiting

theorem State.Legal.tagHome {rid} (h : s.Legal) : (s.tagHome rid).Legal := by
  fun_cases s.tagHome rid
  · exact h
  · exact h
  · exact h.tagAway
  · exact h
  · exact h.recall.tagPerform.tagChanged
  · exact h.recall.tagPerform
  · exact h.same.stepNotReady
  · exact h.same
  · exact h.same.modCtx
  · exact h.same

theorem State.Legal.tagsFirst {src} (h : s.Legal) : (s.tagsFirst src).Legal := h.foldl fun _ _ k => k.tagHome

end Sys2Proof.Machine
end

section
/-!
SUPPORT. A legal state stays legal. Loads and stores of an issuer (05, 06).
-/
namespace Sys2Proof.Machine
variable {s : State}

theorem State.Legal.knownBytes {core buf va ps} (h : s.Legal) : (s.knownBytes core buf va ps).1.Legal := by
  induction ps generalizing s with
  | nil => exact h
  | cons p rest ih =>
    unfold State.knownBytes
    extract_lets +onlyGivenNames off own q r
    have hr : r.1.Legal := by
      unfold r
      split
      · exact h
      · exact h.readPieces
    split
    · exact hr
    · exact ih hr

theorem State.Legal.askBytes {e pid va ps} (h : s.Legal) : (s.askBytes e pid va ps).Legal :=
  h.foldl fun _ _ k => k.remoteSend

theorem State.Legal.awayRead {e va n ps} {go : State → List Byte → Act} (h : s.Legal)
    (hf : ∀ t x, t.Legal → (go t x).Legal) : (Machine.awayRead e va n ps go s).Legal := by
  fun_cases Machine.awayRead e va n ps go s
  · exact hf _ _ h
  · exact .wait h
  · exact .trap h.knownBytes
  · exact hf _ _ h.knownBytes
  · exact .wait h.knownBytes.askHeld
  · exact .trap h.readPieces
  · exact hf _ _ h.readPieces

theorem State.Legal.loadAway {e a sz acq ps} (h : s.Legal) : (Machine.loadAway e a sz acq ps s).Legal := by
  fun_cases Machine.loadAway e a sz acq ps s
  · exact .trap h.knownBytes
  · exact .done h.knownBytes
  · exact .wait h.knownBytes.askHeld
  · exact .done h.knownBytes.tick1.askBytes

theorem State.Legal.execLd {rd ra sz ord sc g} (h : s.Legal) : LegalOutcome (Machine.execLd rd ra sz ord sc g s) :=
  h.issue fun _ _ _ k => by
    split
    · exact k.heldLoad
    · dsimp only
      split
      · exact .trap k.pieces
      · exact k.pieces.beforeRead.act fun _ l => .ite l.loadAway <| by
          split
          · exact .trap l.readPieces
          · exact .done l.readPieces

theorem State.Legal.storeAct {e a sz sc data} (h : s.Legal) : (Machine.storeAct e a sz sc data s).Legal := by
  fun_cases Machine.storeAct e a sz sc data s
  · exact h.commitAgain.act fun _ k => .done k.point
  · exact h.releasePoint.act fun _ k => k.enterBuffer.secondCommit.act fun _ l => .done l.point
  · exact (h.roomFor.andThen fun _ k => k.slackGate).act fun _ k => .done k.enterBuffer

theorem State.Legal.execSt {rd ra sz ord sc g} (h : s.Legal) : LegalOutcome (Machine.execSt rd ra sz ord sc g s) :=
  h.issue fun _ _ _ k => by
    dsimp only
    split
    · exact .trap k.pieces
    · exact k.pieces.storeAct

theorem State.Legal.tagPiece {e a n need} (h : s.Legal) : (s.tagPiece e a n need).1.Legal := by
  fun_cases s.tagPiece e a n need
  · exact h
  · exact h.pieces
  · exact h.pieces
  · exact h.pieces
  · exact h.pieces

theorem State.Legal.ldtNow {e p cond} (h : s.Legal) : (s.ldtNow e p cond).1.Legal := by
  unfold State.ldtNow
  extract_lets +onlyGivenNames q
  split
  · exact h
  · split
    · exact h
    · extract_lets +onlyGivenNames r s1
      have hr : r.1.Legal := h.recall.tagRead
      have h1 : s1.Legal := .ite hr.forward hr
      exact .ite h1.tagChanged h1

theorem State.Legal.askTag {e p load cond data} (h : s.Legal) : (s.askTag e p load cond data).Legal :=
  (State.Legal.same (.ite h.evictFor.ridgeSend h.evictFor.ridgeSend.enterBuffer)).asking

theorem State.Legal.execLdt {rd ra sz ord sc g} (h : s.Legal) : LegalOutcome (Machine.execLdt rd ra sz ord sc g s) := by
  refine h.issue fun e v t k => ?_
  extract_lets +onlyGivenNames a cons fin
  have hfin (t : State) (ws : List Word) (k : t.Legal) : (fin t ws).Legal := .done (.ite_point k)
  split
  · exact hfin _ _ k
  · exact .wait k
  · exact hfin _ _ k
  · exact .wait k
  · extract_lets +onlyGivenNames r
    split
    · exact .trap k.tagPiece
    · refine .ite (.wait k.tagPiece) (Gate.Legal.act (.ite k.tagPiece.commitPoint (.go k.tagPiece)) fun u l => ?_)
      split
      · split
        · exact .wait l
        · exact hfin _ _ (l.takeForwarded ‹_›)
      · refine l.beforeRead.act fun w m => .ite (.wait m.askTag) ?_
        extract_lets +onlyGivenNames n
        split
        · exact .trap m.ldtNow
        · exact hfin _ _ m.ldtNow

theorem State.Legal.execStt {rd ra sz ord sc g} (h : s.Legal) : LegalOutcome (Machine.execStt rd ra sz ord sc g s) := by
  refine h.issue fun e v t k => ?_
  extract_lets +onlyGivenNames a data
  split
  · exact .done k.mark.point
  · exact .wait k
  · exact .wait k
  · exact .wait k
  · extract_lets +onlyGivenNames r
    split
    · exact .trap k.tagPiece
    · refine .ite (.wait k.tagPiece) ?_
      refine (k.tagPiece.pairPoint.andThen fun _ l => .ite l.release l.commit).act fun u l => ?_
      exact .ite (.done l.point) (.ite (.wait l) (.ite (.wait l) (.wait l.askTag)))

theorem State.Legal.execLde {rd ra rb fe g} (h : s.Legal) : LegalOutcome (Machine.execLde rd ra rb fe g s) :=
  h.issue fun _ _ _ k => by
    dsimp only
    split
    · exact .trap k.elemAddr
    · split
      · exact .trap k.elemAddr.pieces
      · split
        · exact .wait k.elemAddr.pieces
        · exact .done k.elemAddr.pieces
      · exact k.elemAddr.pieces.beforeRead.act fun _ l => .ite (.ite (.wait l.askHeld) (.done l.tick1.askBytes)) <| by
          split
          · exact .trap l.readPieces
          · exact .done l.readPieces

theorem State.Legal.execPref {ra sc g} (h : s.Legal) : LegalOutcome (Machine.execPref ra sc g s) := by
  refine h.issue fun e v t k => ?_
  extract_lets +onlyGivenNames r
  split
  · exact .done k.pieces
  · exact .done k.pieces
  · split
    · exact .done k.pieces
    · extract_lets +onlyGivenNames tag fill s1
      have hfill (u : State) (pa : Nat) (l : u.Legal) : (fill u pa).Legal := by
        unfold fill
        split
        · exact l
        · exact l.scFill
      have h1 : s1.Legal := hfill _ _ (hfill _ _ k.pieces)
      exact .done (.ite h1.l1Fill h1)

theorem State.Legal.execCflush {rd ra sc g} (h : s.Legal) : LegalOutcome (Machine.execCflush rd ra sc g s) :=
  h.issue fun _ _ _ k => .ite (k.release.act fun _ l => .done l) <| by
    dsimp only
    split
    · exact .trap k.maintain
    · exact k.maintain.abroadGate.act fun _ l => .done l

theorem State.Legal.execCinv {rd ra sc g} (h : s.Legal) : LegalOutcome (Machine.execCinv rd ra sc g s) :=
  h.issue fun _ _ _ k => .ite (k.release.act fun _ l => .done l) <| by
    dsimp only
    split
    · exact .trap k.maintain
    · exact k.maintain.abroadGate.act fun _ l => .done l

theorem State.Legal.execFence {ord sc g} (h : s.Legal) : LegalOutcome (Machine.execFence ord sc g s) := by
  refine h.issue fun e v t k => .ite (.done k.acquire) (.ite (.done k) ?_)
  exact k.releasePoint.act fun _ l => .done (State.Legal.point (.ite l.acquire l))

theorem State.Legal.execIfence {sc g} (h : s.Legal) : LegalOutcome (Machine.execIfence sc g s) := by
  refine h.issue fun e v t k => ?_
  extract_lets +onlyGivenNames k' fin
  have hfin (t : State) (k : t.Legal) : (fin t).Legal := .done k.point
  refine k.releasePoint.act fun u l => .ite (hfin _ l) (.ite (hfin _ l.dropCode) ?_)
  exact (l.dropCode.foldl fun _ _ m => m.remoteSend).setPhase.abroadGate.act hfin

end Sys2Proof.Machine
end

section
/-!
SUPPORT. A legal state stays legal. Engine operations (08).
-/
namespace Sys2Proof.Machine
variable {s : State}

theorem State.Legal.claim {e gs} (h : s.Legal) {t : State} (ht : s.claim e gs = .ok t) : t.Legal := by
  revert ht
  fun_cases s.claim e gs <;> intro ht
  · cases ht
  · cases ht
  · cases ht
    exact h.foldl fun _ _ k => by
      split
      · exact k
      · exact k.same

theorem State.Legal.engPiece {core o p} (h : s.Legal) : (s.engPiece core o p).1.Legal := by
  fun_cases s.engPiece core o p
  · exact h
  · exact .ite h h.remoteSend
  · exact h.homeGet

theorem State.Legal.engPieces {core o ps} (h : s.Legal) : (s.engPieces core o ps).1.Legal := by
  induction ps generalizing s with
  | nil => exact h
  | cons p rest ih =>
    unfold State.engPieces
    dsimp only
    split
    · split
      · exact ih h.engPiece
      · exact ih h.engPiece
    · exact h.engPiece

theorem State.Legal.engTranslate {sp va n need fmt} (h : s.Legal) : (s.engTranslate sp va n need fmt).1.Legal := by
  fun_cases s.engTranslate sp va n need fmt
  · exact h.pieces
  · exact h.pieces
  · exact h.pieces

theorem State.Legal.engRead {sp o va n fmt} (h : s.Legal) : (s.engRead sp o va n fmt).1.Legal := by
  fun_cases s.engRead sp o va n fmt
  · exact h.engTranslate
  · exact h.engTranslate.engPieces

theorem State.Legal.tagWrite {cells} (h : s.Legal) : (s.tagWrite cells).Legal :=
  h.foldl fun _ _ k => k.foldl fun _ _ l => .ite (.ite l l.setTag.tagChanged) l

theorem State.Legal.engPut {core o p bs poison} (h : s.Legal) : (s.engPut core o p bs poison).Legal := by
  unfold State.engPut
  split
  · exact h.remoteSend
  · extract_lets +onlyGivenNames cells s1 s2
    have h1 : s1.Legal := h.homeSet
    have h2 : s2.Legal := by
      unfold s2
      split
      · exact h1.foldl fun _ _ k => k.addPoison
      · exact h1
    exact .ite h2.tagWrite h2

theorem State.Legal.engPuts {core o ps bs poison} (h : s.Legal) : (s.engPuts core o ps bs poison).Legal := by
  induction ps generalizing s bs with
  | nil => exact h
  | cons p rest ih => exact ih h.engPut

theorem State.Legal.engWrite {sp o va bs fmt poison} (h : s.Legal) : (s.engWrite sp o va bs fmt poison).1.Legal := by
  fun_cases s.engWrite sp o va bs fmt poison
  · exact h.engTranslate
  · exact h.engTranslate
  · exact h.engTranslate.engPuts

theorem State.Legal.addRecords {o va n origin} (h : s.Legal) : (s.addRecords o va n origin).Legal :=
  h.foldl fun _ _ k => k.opRecord

theorem State.Legal.engSumAway {o p ws poison free} (h : s.Legal) : (s.engSumAway o p ws poison free).Legal := by
  fun_cases s.engSumAway o p ws poison free
  · exact h.remoteSend
  · exact (h.foldl fun _ _ k => .ite k.remoteSend k.remoteSend).remoteSend
  · exact h.foldl fun _ _ k => .ite k.remoteSend k.remoteSend

theorem State.Legal.engSum {core o p ws poison free} (h : s.Legal) : (s.engSum core o p ws poison free).1.Legal := by
  fun_cases s.engSum core o p ws poison free
  · exact h.engSumAway
  · exact h.homeGet.foldl fun _ _ k => k.addPoison
  · exact h.homeGet.addRecords
  · exact .ite h.homeGet.scatterAs.tagWrite h.homeGet.scatterAs

theorem State.Legal.engSums {core o ps ws poison free} (h : s.Legal) : (s.engSums core o ps ws poison free).1.Legal := by
  induction ps generalizing s ws with
  | nil => exact h
  | cons p rest ih => exact ih h.engSum

theorem State.Legal.engAdd {sp o va ws fmt poison free} (h : s.Legal) : (s.engAdd sp o va ws fmt poison free).1.Legal := by
  fun_cases s.engAdd sp o va ws fmt poison free
  · exact h.engTranslate
  · exact h.engTranslate
  · exact h.engTranslate.engSums

theorem State.Legal.coreWrite {core dkind index off bs} (h : s.Legal) : (s.coreWrite core dkind index off bs).Legal := by
  fun_cases s.coreWrite core dkind index off bs
  · exact h.same
  · exact h.same.staleLatch
  · exact h.same

theorem State.Legal.startOp {e o} (h : s.Legal) : (s.startOp e o).Legal := by
  fun_cases s.startOp e o
  · exact h.same.modMe.modBlock
  · exact h.same.modMe

theorem State.Legal.enginePoint {e ev} (h : s.Legal) : (s.enginePoint e ev).Legal := by
  fun_cases s.enginePoint e ev
  · exact h.commitPoint
  · exact .go h

theorem State.Legal.execCpy {rd ra sz g} (h : s.Legal) : LegalOutcome (Machine.execCpy rd ra sz g s) :=
  h.issue fun _ _ _ k => .ite (.trap k) (.ite (.wait k) (k.enginePoint.act fun _ l => .done (.ite_point l.startOp)))

theorem State.Legal.bulkStart {k' opcode a cq tq h' e} (h : s.Legal) : (Machine.bulkStart k' opcode a cq tq h' e s).Legal := by
  unfold Machine.bulkStart
  refine .ite (.wait h) ?_
  split
  · exact .trap h
  · next t ht =>
    have ht : t.Legal := by
      split at ht
      · cases ht; exact h
      · exact h.claim ht
    refine Gate.Legal.act (.ite ht.enginePoint (.go ht)) fun u k => .done (.ite_point ?_)
    exact State.Legal.startOp (.ite k.unlatch k)

theorem State.Legal.bulkAct {k' opcode rb fe e v} (h : s.Legal) : (Machine.bulkAct k' opcode rb fe e v s).Legal := by
  fun_cases Machine.bulkAct k' opcode rb fe e v s
  · exact .trap h
  · exact .trap h.pieces
  · exact h.pieces.beforeRead.act fun _ k => k.awayRead fun _ _ l => .ite (.trap l) (.ite (.trap l) <| by
      split
      · exact .trap l
      · exact .wait l
      · exact l.bulkStart)

theorem State.Legal.copyDone {b o} (h : s.Legal) : (s.copyDone b o).Legal := h.tellPartner.endOp

theorem State.Legal.faultOp {b o t'} (h : s.Legal) : (s.faultOp b o t').Legal := by
  fun_cases s.faultOp b o t'
  · exact h.engineTrap
  · exact h.engineTrap.endOp
  · exact h.engineTrap.modOp

theorem State.Legal.opFault {b o t'} (h : s.Legal) : (s.opFault b o t').Legal := by
  fun_cases s.opFault b o t'
  · exact h.parkOp
  · exact h.faultOp
  · exact h.modOp

theorem State.Legal.performCopy {b o} (h : s.Legal) : (s.performCopy b o).Legal := by
  fun_cases s.performCopy b o
  · exact h
  · exact (h.takeTold ‹_›).endOp
  · exact h
  · exact h.copyDone
  · exact h.engRead
  · exact h.engRead.opFault
  · exact h.engRead.engWrite
  · exact h.engRead.engWrite.opFault
  · exact h.engRead.engWrite.mark.modOp
  · exact h.engRead.engWrite.mark.copyDone

theorem State.Legal.landed {b since va n} (h : s.Legal) : (s.landed b since va n).Legal := h.same

theorem State.Legal.execCpyComplete {op} (h : s.Legal) : LegalOutcome (Machine.execCpyComplete op s) := by
  refine .next ?_
  split
  · exact h
  · split
    · exact h
    · split
      · exact h.performCopy.landed
      · exact h

theorem State.Legal.execEngineTriggerDeq {op} (h : s.Legal) : LegalOutcome (Machine.execEngineTriggerDeq op s) := by
  refine .next ?_
  split
  · exact h
  · split
    · exact h
    · split
      · exact h
      · split
        · split
          · exact h
          · exact (h.takeTold ‹_›).modOp
        · split
          · exact h
          · exact h.same

theorem State.Legal.execOperandsConsumedEvent {op} (h : s.Legal) : LegalOutcome (Machine.execOperandsConsumedEvent op s) := by
  refine .next ?_
  split
  · exact h
  · split
    · exact h
    · dsimp only
      split
      · exact h.modOp
      · exact h

theorem State.Legal.gather {sp o i n} (h : s.Legal) : (s.gather sp o i n).1.Legal := by
  induction n generalizing s i with
  | zero => exact h
  | succ n ih =>
    unfold State.gather
    extract_lets +onlyGivenNames shape r
    have hr : r.1.Legal := by
      unfold r
      split
      · exact h.engRead
      · exact h
    split
    · exact hr
    · exact hr
    · extract_lets +onlyGivenNames q
      split
      · exact ih hr
      · exact ih hr

theorem State.Legal.stream {sp o i n} (h : s.Legal) : (s.stream sp o i n).1.Legal := by
  fun_cases s.stream sp o i n
  · exact h.engRead
  · exact h.engRead
  · exact h.engRead
  · exact h.engRead.engRead
  · exact h.engRead.engRead
  · exact h.engRead.engRead
  · exact h.engRead.engRead
  · exact h.engRead.engRead

theorem State.Legal.drainEvent {b o bs} (h : s.Legal) : (s.drainEvent b o bs).Legal := by
  fun_cases s.drainEvent b o bs
  · exact h
  · exact h.modBlock

theorem State.Legal.passUnit {o n written} (h : s.Legal) : (s.passUnit o n written).Legal := h.modOp

theorem State.Legal.unitDone {o n written} (h : s.Legal) : (s.unitDone o n written).Legal := by
  fun_cases s.unitDone o n written
  · exact h.modOp
  · exact h.passUnit

theorem State.Legal.deliver {b o n stop bs poison} (h : s.Legal) : (s.deliver b o n stop bs poison).Legal := by
  fun_cases s.deliver b o n stop bs poison
  · exact h.opFault
  · exact h.coreWrite.passUnit
  · exact h.tick1.engAdd.opFault
  · exact h.tick1.engAdd
  · exact h.tick1.engAdd.mark.drainEvent.unitDone
  · exact h.tick1.engWrite
  · exact h.tick1.engWrite.opFault
  · exact h.tick1.engWrite.mark.drainEvent.unitDone

theorem State.Legal.engineUnit {b o} (h : s.Legal) : (s.engineUnit b o).Legal := by
  fun_cases s.engineUnit b o
  · exact h
  · exact h.passUnit
  · exact h.modOp
  · exact h.stream
  · exact h.stream.opFault
  · exact h.stream.modOp
  · exact h.stream.modOp
  · exact h.stream.deliver
  · exact h.stream.passUnit
  · exact h.passUnit
  · exact h.deliver
  · exact h.gather
  · exact h.gather.opFault
  · exact h.gather.deliver

theorem State.Legal.trailingUnit {b o} (h : s.Legal) : (s.trailingUnit b o).Legal :=
  State.Legal.modOp (.ite h.drainEvent h)

theorem State.Legal.execEngineUnitWrite {op} (h : s.Legal) : LegalOutcome (Machine.execEngineUnitWrite op s) := by
  refine .next ?_
  split
  · exact h
  · split
    · exact h
    · split
      · exact h
      · split
        · split
          · exact h.trailingUnit
          · split
            · exact h
            · exact (h.takeTold ‹_›).modOp
        · split
          · exact h.engineUnit
          · exact h.engineUnit.landed

theorem State.Legal.sendDone {b o} (h : s.Legal) : (s.sendDone b o).Legal := h.same

theorem State.Legal.execEngineOperationEnd {op} (h : s.Legal) : LegalOutcome (Machine.execEngineOperationEnd op s) := by
  refine .next ?_
  split
  · exact h
  · split
    · exact h
    · refine .ite h (.ite (.ite h h.sendDone) (.ite h ?_))
      extract_lets +onlyGivenNames s1
      have h1 : s1.Legal := .ite h.tellPartner h
      split
      · split
        · exact h1.faultOp
        · exact h1.endOp
      · exact .ite h1.endOp h1.modOp.sendDone

end Sys2Proof.Machine
end

section
/-!
SUPPORT. A legal state stays legal. The commit of a mapping region (05 R107, R108) and the system instructions
(16). A commit makes active the masks that its two checks passed.
-/
namespace Sys2Proof.Machine
variable {s : State}

/-- The start of a commit sets BUSY only for staged masks that pass both checks (05 R108). -/
theorem Region.legal_start {r : Region} (h : r.legal = true) : r.start.legal = true := by
  simp only [Region.legal, Bool.and_eq_true] at h
  unfold Region.start
  split
  · simp [Region.legal, h.1]
  · split
    · simp [Region.legal, h.1]
    · simp_all [Region.legal, legalMasks]

/-- A legal state names legal regions: those it lists, and the reset value for the others. -/
theorem State.Legal.region {n} (h : s.Legal) : (s.region n).legal = true := by
  obtain ⟨-, hmap, -⟩ := s.legal_iff.mp h
  cases hn : aget s.amap n with
  | none => rw [State.region, hn]; exact Region.legal_reset n
  | some x => rw [State.region, hn]; exact hmap _ (aget_mem hn)

theorem State.Legal.amapStart {n} (h : s.Legal) : (s.amapStart n).Legal := by
  by_cases hb : (s.region n).status = 3
  · rw [State.amapStart_busy hb]; exact h
  · rw [State.amapStart_idle hb]; exact State.legal_setRegion h (Region.legal_start h.region)

theorem State.Legal.amapCtl {n v} (h : s.Legal) : (s.amapCtl n v).Legal := by
  have hstage := State.legal_setRegion (n := n) (r := (s.region n).stageEn (bitAt v 0)) h h.region
  exact .ite hstage.amapStart hstage

theorem State.Legal.amapWrite {off v} (h : s.Legal) : (s.amapWrite off v).Legal := by
  fun_cases s.amapWrite off v
  · obtain ⟨hmem, hmap, -, hrest⟩ := s.legal_iff.mp h
    exact (State.legal_iff _).mpr ⟨hmem, hmap, Nat.mod_lt _ (by decide), hrest⟩
  · exact h
  · exact h.amapCtl
  · exact State.legal_setRegion h h.region
  · exact State.legal_setRegion h h.region
  · exact State.legal_setRegion h h.region
  · exact h

theorem State.Legal.amapFinish {n} (h : s.Legal) : (s.amapFinish n).Legal := by
  unfold State.amapFinish
  dsimp only
  split
  · exact h
  · next hbusy =>
    have hr : legalMasks (s.region n).checked = true := by
      have hr := h.region (n := n)
      rw [Region.legal, not_not.mp hbusy, Bool.and_eq_true] at hr
      exact hr.2
    exact .same (State.legal_setRegion (.same (h.foldl fun _ _ k => k.scDrop)) (by simp [Region.legal, hr]))

theorem State.Legal.giveBack {gone} (h : s.Legal) : (s.giveBack gone).Legal :=
  (h.withdrawReqs.same.foldl fun _ _ k => k.undo).foldl fun _ _ k => k.cancelOp

theorem State.Legal.settleQueue {gone pa} (h : s.Legal) : (s.settleQueue gone pa).Legal :=
  (State.Legal.foldl (.ite (h.setQhome.foldl fun _ _ k => k.undo) h) fun _ _ k => k.enqAck).performReads

theorem State.Legal.pushAll (h : s.Legal) : s.pushAll.Legal := h.foldl fun _ _ k => k.pushLine

theorem State.Legal.tlbi {gone} (h : s.Legal) : (s.tlbi gone).Legal :=
  (h.pushAll.giveBack.foldl fun _ _ k => k.settleQueue).same

theorem State.Legal.tlbiAct {e gone} (h : s.Legal) : (Machine.tlbiAct e gone s).Legal := by
  fun_cases Machine.tlbiAct e gone s
  · exact .done h
  · exact .wait ((h.outside h.tlbi).setPhase)
  · exact .done (h.outside h.tlbi)
  · exact .wait h

end Sys2Proof.Machine
end

section
/-!
SUPPORT. A legal state stays legal. The matrix unit (09 R181 to R187) and the summits (09 R177).
-/
namespace Sys2Proof.Machine
variable {s : State}

theorem State.Legal.enqueueCmd {e zero w} (h : s.Legal) : (s.enqueueCmd e zero w).Legal := h.setArray.tick1.modMe

theorem State.Legal.issueCmd {e gs zero w} (h : s.Legal) : (s.issueCmd e gs zero w).Legal := by
  fun_cases s.issueCmd e gs zero w
  · exact .wait h
  · exact .wait h
  · exact .trap h
  · exact .done ((h.claim ‹_›).enqueueCmd)

theorem State.Legal.execAfeed {ra rb fe g} (h : s.Legal) : LegalOutcome (Machine.execAfeed ra rb fe g s) :=
  h.issue fun _ _ _ k => .ite (.trap k) <| by
    dsimp only
    split
    · exact .trap k
    · exact .done ((k.claim ‹_›).coreWrite)

theorem State.Legal.execAdrn {rd ra fe g} (h : s.Legal) : LegalOutcome (Machine.execAdrn rd ra fe g s) :=
  h.issue fun _ _ _ k => .ite (.trap k) <| by
    split
    · exact .trap k
    · exact .done (k.claim ‹_›)

theorem State.Legal.execBSliceLoadComplete {core} (h : s.Legal) : LegalOutcome (Machine.execBSliceLoadComplete core s) := by
  refine .next ?_
  dsimp only
  split
  · exact h
  · split
    · exact h
    · exact h.setArray

theorem State.Legal.execMatrixCommandStart {core} (h : s.Legal) : LegalOutcome (Machine.execMatrixCommandStart core s) := by
  refine .next ?_
  dsimp only
  split
  · split
    · exact h.setArray
    · split
      · exact h.setArray
      · exact h.setArray
  · exact h

theorem State.Legal.execMatrixCommandComplete {core} (h : s.Legal) :
    LegalOutcome (Machine.execMatrixCommandComplete core s) := by
  refine .next ?_
  dsimp only
  split
  · exact h
  · split
    · exact h
    · exact h.same.setArray.modCtx

theorem State.Legal.execMdrain {ra fe g} (h : s.Legal) : LegalOutcome (Machine.execMdrain ra fe g s) := by
  refine h.issue fun _ _ _ k => .ite (.trap k) (.ite (.wait k) ?_)
  split
  · exact .trap k
  · exact (k.claim ‹_›).enginePoint.act fun _ l => .done (.ite_point l.startOp)

theorem State.Legal.execMdrainReadoutDone {op} (h : s.Legal) : LegalOutcome (Machine.execMdrainReadoutDone op s) := by
  refine .next ?_
  split
  · exact h
  · split
    · exact h
    · split
      · exact h
      · split
        · exact h
        · split
          · exact h.endOp
          · exact h.ridgeSend.same.mark.endOp

theorem State.Legal.modInstance {iid f} (h : s.Legal) : (s.modInstance iid f).Legal := h.same

theorem State.Legal.memberRecords {i f} (h : s.Legal) : (s.memberRecords i f).Legal :=
  h.foldl fun _ _ k => k.memberRecord

theorem State.Legal.closeInstance {iid} (h : s.Legal) : (s.closeInstance iid).Legal := by
  fun_cases s.closeInstance iid
  · exact h
  · exact h
  · exact h.same
  · exact h.failInstance
  · exact h.modInstance

theorem State.Legal.joinInstance {i c} (h : s.Legal) : (s.joinInstance i c).Legal :=
  State.Legal.closeInstance <| by
    split
    · exact h.modInstance
    · exact h.modInstance.memberRecords
    · exact h.modInstance.memberRecord
    · exact h.modInstance.memberRecord

theorem State.Legal.execSummitContributionArrive {contrib} (h : s.Legal) :
    LegalOutcome (Machine.execSummitContributionArrive contrib s) := by
  refine .next ?_
  split
  · exact h
  · dsimp only
    split
    · exact h
    · split
      · exact h.same.joinInstance
      · split
        · exact h
        · exact h.same.same.joinInstance

theorem State.Legal.summitSend {i payload} (h : s.Legal) : (s.summitSend i payload).Legal := h.same

theorem State.Legal.deliverRow {i} (h : s.Legal) : (s.deliverRow i).Legal := h.same.modInstance

theorem State.Legal.endInstance {iid} (h : s.Legal) : (s.endInstance iid).Legal := h.same

theorem State.Legal.execSummitDelivery {inst} (h : s.Legal) : LegalOutcome (Machine.execSummitDelivery inst s) := by
  refine .next ?_
  split
  · exact h
  · split
    · exact h
    · split
      · split
        · exact h.endInstance
        · exact h.summitSend
      · split
        · split
          · exact h.failInstance
          · exact h.deliverRow
        · split
          · exact h.endInstance
          · exact h.summitSend

end Sys2Proof.Machine
end

section
/-!
SUPPORT. A legal state stays legal. Blocks, their places and their images (10, 11).
-/
namespace Sys2Proof.Machine
variable {s : State}

theorem State.Legal.readError {core p origin} (h : s.Legal) : (s.readError core p origin).Legal := by
  unfold State.readError
  extract_lets +onlyGivenNames s1 s2
  have h1 : s1.Legal := h.foldl fun _ _ k => k.poisonCopy
  have h2 : s2.Legal := .ite (h1.foldl fun _ _ k => k.addPoison) h1
  exact h2.poisonReaders

theorem State.Legal.execProducerComplete {bid who pid} (h : s.Legal) :
    LegalOutcome (Machine.execProducerComplete bid who pid s) := by
  refine .next ?_
  split
  · exact h
  · split
    · split
      · exact h
      · split
        · exact h.readError
        · dsimp only
          split
          · exact h.modCtx.acquire
          · exact h.modCtx
    · exact h

theorem State.Legal.execFibreEnded {bid who} (h : s.Legal) : LegalOutcome (Machine.execFibreEnded bid who s) := by
  refine .next ?_
  split
  · exact h
  · split
    · exact h
    · exact h.modBlock

theorem State.Legal.retireBlock {b} (h : s.Legal) : (s.retireBlock b).Legal :=
  (h.foldl fun _ _ l => l.discardBlock).countBlock

theorem State.Legal.execBlockRetire {bid} (h : s.Legal) : LegalOutcome (Machine.execBlockRetire bid s) := by
  refine .next ?_
  split
  · exact h
  · split
    · exact h
    · split
      · exact h.commitPoint.of_wait ‹_›
      · exact h.commitPoint.of_trap ‹_›
      · exact (h.commitPoint.of_go ‹_›).pushCore.retireBlock

theorem State.Legal.execPageWalkComplete {bid va} (h : s.Legal) : LegalOutcome (Machine.execPageWalkComplete bid va s) := by
  refine .next ?_
  split
  · exact h
  · split
    · exact h
    · exact h.translate

theorem State.Legal.execL1Eviction {core line} (h : s.Legal) : LegalOutcome (Machine.execL1Eviction core line s) := by
  refine .next ?_
  split
  · exact h
  · exact h.pushLine.l1Drop

theorem State.Legal.leaveBundles (h : s.Legal) : s.leaveBundles.Legal := h.same

theorem State.Legal.reform {core} (h : s.Legal) : (s.reform core).Legal := h.same

theorem State.Legal.execBundleReformation {core} (h : s.Legal) : LegalOutcome (Machine.execBundleReformation core s) := by
  refine .next ?_
  split
  · exact h.reform
  · exact h

theorem State.Legal.execReadyAgeOverride {core} (h : s.Legal) : LegalOutcome (Machine.execReadyAgeOverride core s) := by
  refine .next ?_
  split
  · exact h
  · exact h.same

theorem State.Legal.notePlan {l coords} (h : s.Legal) : (s.notePlan l coords).Legal :=
  h.foldl fun _ _ k => k.foldl fun _ _ m => by
    split
    · exact m
    · exact m.noteRead

theorem State.Legal.logPlan {l coords} (h : s.Legal) : (s.logPlan l coords).Legal :=
  h.notePlan.foldl fun _ _ k => k.logErr

theorem State.Legal.noteSeat {unit cores rr} (h : s.Legal) : (s.noteSeat unit cores rr).Legal :=
  h.foldl fun _ _ k => k.ridgeSend.same

theorem State.Legal.takeEstimate {n} (h : s.Legal) : (s.takeEstimate n).1.Legal := h.setLq

theorem State.Legal.bill {n bid} (h : s.Legal) : (s.bill n bid).Legal := by
  fun_cases s.bill n bid
  · exact h.takeEstimate.modBlock
  · exact h.setLq.same

theorem State.Legal.takeExtent {bid n} (h : s.Legal) {r} (ht : s.takeExtent bid n = some r) : r.1.Legal := by
  revert ht
  fun_cases s.takeExtent bid n <;> intro ht
  · cases ht
  · cases ht
    exact h.same

theorem State.Legal.reserveFor {bid p} (h : s.Legal) {r} (ht : s.reserveFor bid p = some r) : r.1.Legal := by
  revert ht
  fun_cases s.reserveFor bid p <;> intro ht
  · cases ht
  · obtain ⟨q, hq, rfl⟩ := Option.map_eq_some_iff.mp ht
    exact State.Legal.takeExtent (h.takeExtent ‹_›) hq
  · cases ht
    exact h.takeExtent ‹_›

theorem State.Legal.takeExcess {bid base_ xs} (h : s.Legal) {r} (ht : s.takeExcess bid base_ xs = some r) : r.1.Legal := by
  induction xs generalizing s r with
  | nil => cases ht; exact h
  | cons x rest ih =>
    unfold State.takeExcess at ht
    dsimp only at ht
    split at ht
    · cases ht
    · obtain ⟨q, hq, rfl⟩ := Option.map_eq_some_iff.mp ht
      show q.1.Legal
      refine ih ?_ hq
      exact h.same

theorem State.Legal.poolWrite {core pa bs} (h : s.Legal) {t : State} (ht : s.poolWrite core pa bs = some t) : t.Legal := by
  revert ht
  fun_cases s.poolWrite core pa bs <;> intro ht
  · cases ht
  · cases ht
  · cases ht
    exact h.homeStore

theorem State.Legal.writePart {core base_ p} (h : s.Legal) {t : State} (ht : s.writePart core base_ p = some t) : t.Legal := by
  revert ht
  fun_cases s.writePart core base_ p <;> intro ht
  · cases ht
    exact h
  · exact h.poolWrite ht

theorem State.Legal.writeParts {core base_ ps} (h : s.Legal) : (s.writeParts core base_ ps).1.Legal := by
  induction ps generalizing s with
  | nil => exact h
  | cons p rest ih =>
    unfold State.writeParts
    split
    · exact h
    · exact ih (h.writePart ‹_›)

theorem State.Legal.writeImage {core b im extra short} (h : s.Legal) : (s.writeImage core b im extra short).1.Legal := by
  fun_cases s.writeImage core b im extra short
  · exact h.writeParts
  · exact h.writeParts.poolWrite ‹_›

theorem State.Legal.noteImage {core p im} (h : s.Legal) : (s.noteImage core p im).Legal :=
  h.foldl fun _ _ k => by
    split
    · exact k
    · exact k.foldl fun _ _ l => l.noteRead

end Sys2Proof.Machine
end

section
/-!
SUPPORT. A legal state stays legal. Row collectives (04 R65).
-/
namespace Sys2Proof.Machine
variable {s : State}

theorem State.Legal.arrive {e f long active x} (h : s.Legal) : (s.arrive e f long active x).Legal := h.chargeOnce.modMe

theorem State.Legal.withdrawRow {bid fid} (h : s.Legal) : (s.withdrawRow bid fid).Legal := h.modBlock

theorem State.Legal.retireMate {bid fid ms} {d : State → Done} (h : s.Legal) (hf : ∀ t, t.Legal → (d t).state.Legal) :
    (s.retireMate bid fid ms d).Legal := by
  fun_cases s.retireMate bid fid ms d
  · exact h
  · exact (hf _ h.modCtx).retire

theorem State.Legal.trapMate {e fid t'} (h : s.Legal) : (s.trapMate e fid t').Legal := h.withdrawRow.takeTrap.endStep

theorem State.Legal.rowWait {e fid w} (h : s.Legal) : (s.rowWait e fid w).Legal := by
  fun_cases s.rowWait e fid w
  · exact h.modCtx.endStep
  · exact h.modCtx

theorem State.Legal.completeLanes {bid as todo} (h : s.Legal) : (s.completeLanes bid as todo).Legal := by
  induction todo generalizing s with
  | nil => exact h
  | cons x rest ih =>
    refine ih (h.retireMate fun t k => ?_)
    split
    · exact k
    · dsimp only
      split
      · exact k
      · exact k

theorem State.Legal.retireRest {bid todo} {d : Nat → State → Done} (h : s.Legal)
    (hf : ∀ x t, t.Legal → (d x t).state.Legal) : (s.retireRest bid todo d).Legal :=
  h.foldl fun _ _ k => k.retireMate fun _ l => hf _ _ l

theorem State.Legal.lineFault {e t0 t'} (h : s.Legal) : (s.lineFault e t0 t').Legal := by
  fun_cases s.lineFault e t0 t'
  · exact h.takeTrap.modMe.endStep
  · exact h.takeTrap
  · exact h.trapMate

theorem State.Legal.readLine {core ps} (h : s.Legal) : (s.readLine core ps).1.Legal := by
  induction ps generalizing s with
  | nil => exact h
  | cons p rest ih =>
    refine ih ?_
    split
    · exact (h.recallAll.foldl fun _ _ k => k.noteRead).same
    · exact h.readAtHome

theorem State.Legal.holdMate {e fid p line a known} (h : s.Legal) : (s.holdMate e fid p line a known).Legal :=
  h.modCtx.remoteSend

theorem State.Legal.ldlAway {e e0 p line as} (h : s.Legal) : (s.ldlAway e e0 p line as).Legal := by
  unfold State.ldlAway
  extract_lets +onlyGivenNames buf known late held readers s1 s2
  have h2 : s2.Legal := .ite h.same h.same.remoteSend
  refine h2.foldl fun t m k => .ite k.holdMate (k.retireMate fun u l => ?_)
  split
  · exact l
  · split
    · exact l
    · exact l

theorem State.Legal.completeLdl {e as} (h : s.Legal) : (s.completeLdl e as).Legal := by
  unfold State.completeLdl
  extract_lets +onlyGivenNames ts
  clear_value ts
  split
  · exact h.retireRest fun _ _ k => k
  · split
    · exact h.trapMate
    · exact h
    · extract_lets +onlyGivenNames line r
      split
      · exact h.pieces.lineFault
      · split
        · exact (h.pieces.beforeReads.of_wait ‹_›).rowWait
        · exact (h.pieces.beforeReads.of_trap ‹_›).trapMate
        · next u hu =>
          have hu : u.Legal := h.pieces.beforeReads.of_go hu
          split
          · exact hu.ldlAway
          · extract_lets +onlyGivenNames buf vas u1 bad
            have h1 : u1.Legal := hu.foldl fun _ _ k => k.evictFor
            clear_value bad
            split
            · exact h1.trapMate
            · extract_lets +onlyGivenNames q value seen halts
              have hq : q.1.Legal := h1.readLine
              clear_value halts
              split
              · extract_lets +onlyGivenNames v
                split
                · exact hq.modCtx
                · exact hq.modCtx.countMatches.haltBy
              · exact hq.foldl fun _ _ k => .ite (k.retireMate fun _ l => l) (k.retireMate fun _ l => l)

theorem State.Legal.rowEvent {e0 fid bs} (h : s.Legal) : (s.rowEvent e0 fid bs).Legal := h.storeEvent.modCtx

theorem State.Legal.rowEventsOf {e0 ts} (h : s.Legal) : (s.rowEventsOf e0 ts).Legal := by
  induction ts generalizing s with
  | nil => exact h
  | cons x rest ih =>
    unfold State.rowEventsOf
    split
    · exact .ite (.wait h) (ih h.rowEvent)
    · exact ih h

theorem State.Legal.rowEvents {e0 ts} (h : s.Legal) : (s.rowEvents e0 ts).Legal := by
  fun_cases s.rowEvents e0 ts
  · exact .go h
  · exact .wait h
  · exact h.rowEventsOf

theorem State.Legal.completeStl {e as} (h : s.Legal) : (s.completeStl e as).Legal := by
  unfold State.completeStl
  extract_lets +onlyGivenNames ts
  clear_value ts
  split
  · exact h.retireRest fun _ _ k => k
  · split
    · exact h.trapMate
    · exact h
    · extract_lets +onlyGivenNames _ _ e0 line sc r
      split
      · exact h.pieces.lineFault
      · extract_lets +onlyGivenNames bytes x finish g
        have hg : g.Legal := .ite
          (.ite h.pieces.commitAgain
            ((h.pieces.rowEvents.andThen fun _ k => k.releasePoint).andThen fun _ k => k.enterBuffer.secondCommit))
          ((h.pieces.roomFor.andThen fun _ k => k.rowEvents).andThen fun _ k => .go k.enterBuffer)
        cases hgo : g with
        | go u =>
          refine (hg.of_go hgo).retireRest fun _ _ k => ?_
          split
          · exact k.point
          · exact k
        | wait u w => exact (hg.of_wait hgo).rowWait
        | trap u t => exact (hg.of_trap hgo).trapMate

theorem State.Legal.rowClash {e mates} (h : s.Legal) : (s.rowClash e mates).Legal := h.foldl fun _ _ k => k.takeTrap

theorem State.Legal.rowTry {e} (h : s.Legal) : (s.rowTry e).Legal := by
  fun_cases s.rowTry e
  · exact h
  · exact h.rowClash
  · exact h
  · exact h.completeLdl
  · exact h.completeStl
  · exact h.completeLanes

theorem State.Legal.arriveOne {i bring e} (h : s.Legal) : (s.arriveOne i bring e).1.Legal := by
  fun_cases s.arriveOne i bring e
  · exact h.issueTrap
  · exact h.countMatches.haltBy
  · exact h.stay
  · exact h.arrive
  · exact h.issueTrap
  · exact h.stay
  · exact h.stay
  · exact h.arrive
  · exact h.countMatches.arrive

theorem State.Legal.pullMates {i bring e ids} (h : s.Legal) {t : State} (ht : s.pullMates i bring e ids = some t) :
    t.Legal := by
  induction ids generalizing s with
  | nil => cases ht; exact h
  | cons k rest ih =>
    unfold State.pullMates at ht
    split at ht
    · cases ht
    · split at ht
      · exact ih h ht
      · dsimp only at ht
        split at ht
        · exact ih h.arriveOne ht
        · cases ht

theorem State.Legal.performRow {i bring e} (h : s.Legal) : (s.performRow i bring e).Legal := by
  unfold State.performRow
  split
  · exact h.endStep
  · extract_lets +onlyGivenNames q r
    have hq : q.1.Legal := by
      unfold q
      split
      · exact h
      · exact h.arriveOne
    split
    · exact hq
    · have key (t : State) (ht : r = some t) : t.Legal := by
        unfold r at ht
        split at ht
        · exact hq.pullMates ht
        · cases ht; exact hq
      cases hr : r with
      | none => exact h.endStep
      | some t => exact .ite h.endStep (key t hr).rowTry

theorem State.Legal.collective {i bring} (h : s.Legal) : LegalOutcome (Machine.collective i bring s) := by
  fun_cases Machine.collective i bring s
  · exact .next h
  · exact .next (State.Legal.performRow (.ite h h.unhold))

theorem State.Legal.execLdl {rd ra sz ord sc g} (h : s.Legal) : LegalOutcome (Machine.execLdl rd ra sz ord sc g s) := by
  fun_cases Machine.execLdl rd ra sz ord sc g s
  · exact h.issue fun _ _ _ k => k.heldLoad
  · exact h.collective

end Sys2Proof.Machine
end

section
/-!
SUPPORT. A legal state stays legal. Saving, sealing, retries and resumes of blocks (11).
-/
namespace Sys2Proof.Machine
variable {s : State}

theorem State.Legal.putGrains {bid core gs} (h : s.Legal) : (s.putGrains bid core gs).Legal :=
  h.foldl fun _ _ k => by
    dsimp only
    split
    · exact k.clearGrain.same
    · exact k.clearGrain.same
    · exact k.clearGrain.same
    · exact k.clearGrain.same

theorem State.Legal.freeExcess {b keep} (h : s.Legal) : (s.freeExcess b keep).Legal := h.same

theorem State.Legal.saveShort {bid} (h : s.Legal) : (s.saveShort bid).Legal := h.same.logErr

theorem State.Legal.goOnHere {b} (h : s.Legal) : (s.goOnHere b).Legal := h.acquire.modBlock.same

theorem State.Legal.abandon {bs r'} (h : s.Legal) : (s.abandon bs r').Legal := h.foldl fun _ _ k => k.goOnHere.modBlock

theorem State.Legal.park {b im} (h : s.Legal) : (s.park b im).Legal := h.unseat.same.modBlock

theorem State.Legal.reportStop {b image trunc} (h : s.Legal) : (s.reportStop b image trunc).Legal := by
  fun_cases s.reportStop b image trunc
  · exact h.modBlock
  · exact h.sendRecord.modBlock
  · exact h

theorem State.Legal.abortSigmis {b} (h : s.Legal) : (s.abortSigmis b).Legal := by
  fun_cases s.abortSigmis b
  · exact h.abortBlock
  · exact h
  · exact h

theorem State.Legal.saveFailed {b im image} (h : s.Legal) : (s.saveFailed b im image).Legal := h.sendRecord.abortBlock

theorem State.Legal.writeSave {b im extra short} (h : s.Legal) : (s.writeSave b im extra short).Legal := by
  fun_cases s.writeSave b im extra short
  · exact h
  · exact h.writeImage.park.tick1.reportStop.abortSigmis
  · exact h.writeImage.park.tick1.saveFailed

theorem State.Legal.roomForImages {bs r'} (h : s.Legal) {r} (ht : s.roomForImages bs r' = some r) : r.1.Legal := by
  induction bs generalizing s r with
  | nil => cases ht; exact h
  | cons b rest ih =>
    unfold State.roomForImages at ht
    dsimp only at ht
    split at ht
    · cases ht
    · obtain ⟨q, hq, rfl⟩ := Option.map_eq_some_iff.mp ht
      show q.1.Legal
      refine ih ?_ hq
      exact h.takeExcess ‹_›

theorem State.Legal.saveBlocks {bs r'} (h : s.Legal) : (s.saveBlocks bs r').Legal := by
  unfold State.saveBlocks
  extract_lets +onlyGivenNames s0
  have h0 : s0.Legal := h.foldl fun _ _ k => k.freeExcess.pushOf
  split
  · exact (h0.roomForImages ‹_›).foldl fun _ _ k => k.writeSave
  · exact .ite h0.abandon.saveShort h0.saveShort.writeSave
  · exact h0

theorem State.Legal.withdrawAll {bid} (h : s.Legal) : (s.withdrawAll bid).Legal :=
  (State.Legal.dropWaiting (.ite h.dropHeld h)).withdrawReqs

theorem State.Legal.execBlockSave {bid} (h : s.Legal) : LegalOutcome (Machine.execBlockSave bid s) := by
  refine .next ?_
  split
  · exact h
  · split
    · dsimp only
      split
      · exact h.foldl fun _ _ k => k.withdrawAll
      · split
        · exact (h.foldl fun _ _ k => k.withdrawAll).foldl fun _ _ k => k.goOnHere
        · exact ((h.foldl fun _ _ k => k.withdrawAll).foldl fun _ _ k => k.endSteps).saveBlocks
    · exact h

theorem State.Legal.preempt {b cause} (h : s.Legal) : (s.preempt b cause).Legal := by
  fun_cases s.preempt b cause
  · exact h
  · exact h.foldl fun _ _ l => l.modBlock
  · exact h

theorem State.Legal.execPreemptRetry {bid} (h : s.Legal) : LegalOutcome (Machine.execPreemptRetry bid s) := by
  refine .next ?_
  split
  · exact h
  · split
    · exact h
    · split
      · exact h
      · exact h.preempt

theorem State.Legal.settleOn {bid core} (h : s.Legal) : (s.settleOn bid core).Legal := by
  unfold State.settleOn
  extract_lets +onlyGivenNames s1 open_ s2
  have h1 : s1.Legal := h.acquire
  have h2 : s2.Legal := by
    unfold s2
    split
    · refine .same (State.Legal.putGrains ?_)
      split
      · exact h1.noteImage
      · exact h1
    · exact h1
  exact h2.modBlock.tick1

theorem State.Legal.imageBad {b o} (h : s.Legal) : (s.imageBad b o).Legal := by
  fun_cases s.imageBad b o
  · exact h.contain
  · exact h.contain.modBlock.reportStop
  · exact h.contain

theorem State.Legal.reseat {bs} {after : State → State} (h : s.Legal) (hf : ∀ t, t.Legal → (after t).Legal) :
    LegalOutcome (s.reseat bs after) := by
  induction bs generalizing after with
  | nil => exact .next (hf _ h)
  | cons x rest ih =>
    unfold State.reseat
    split
    · exact .fault
    · exact .next h.imageBad
    · exact ih fun _ k => hf _ k.modBlock.settleOn

theorem State.Legal.resumeBlock {b} (h : s.Legal) : LegalOutcome (s.resumeBlock b) := by
  fun_cases s.resumeBlock b
  · exact .next h
  · exact .next h
  · exact .next h
  · exact h.logPlan.reseat fun _ k => k.noteSeat.bill.modLaunch

theorem State.Legal.retryRecord {x} (h : s.Legal) : (s.retryRecord x).Legal := h.same.same.modBlock

theorem State.Legal.answerStopped {bids who skip} (h : s.Legal) : LegalOutcome (s.answerStopped bids who skip) := by
  induction bids generalizing s with
  | nil => exact .next h
  | cons bid rest ih =>
    unfold State.answerStopped
    split
    · exact ih h
    · dsimp only
      split
      · exact .fault
      · exact ih h.modBlock

theorem State.Legal.perform218 {r'} (h : s.Legal) : LegalOutcome (s.perform218 r') := by
  fun_cases s.perform218 r'
  · exact .next h.logErr
  · exact .next h.logErr
  · exact .next h.retryRecord
  · exact .next h.abortBlock
  · exact .next h.abortBlock
  · exact .next h
  · exact h.answerStopped

theorem State.Legal.sealFailed {b im unwritten} (h : s.Legal) : (s.sealFailed b im unwritten).Legal :=
  h.modBlock.saveFailed

theorem State.Legal.sealBlock {b core} {s0 : State} (h : s0.Legal) : (s0.sealBlock b core).Legal := by
  unfold State.sealBlock
  dsimp only
  split
  · exact h.freeExcess.saveShort.modBlock.modBlock
  · next hx =>
    have ht := h.freeExcess.takeExcess hx
    split
    · exact ht.writeImage.modBlock.modBlock.tick1
    · exact ht.writeImage.sealFailed

theorem State.Legal.execCheckpointSeal {bid} (h : s.Legal) : LegalOutcome (Machine.execCheckpointSeal bid s) := by
  refine .next ?_
  split
  · exact h
  · split
    · exact h
    · split
      · exact h
      · split
        · exact h.sealBlock
        · split
          · exact (h.drained.of_go ‹_›).sealBlock
          · exact h.drained.of_wait ‹_›
          · exact h.drained.of_trap ‹_›

end Sys2Proof.Machine
end

section
/-!
SUPPORT. A legal state stays legal. The launch machinery (10).
-/
namespace Sys2Proof.Machine
variable {s : State}

theorem State.Legal.sendCompletion {f cq queue payload} (h : s.Legal) : (s.sendCompletion f cq queue payload).Legal :=
  h.same

theorem State.Legal.refuse {p tcb reason} (h : s.Legal) : (s.refuse p tcb reason).Legal := by
  unfold State.refuse
  extract_lets +onlyGivenNames s1 cq good rec_ s2
  have h1 : s1.Legal := .ite h h.tcbPut
  have h2 : s2.Legal := .ite h1.sendLaunchRec h1
  exact .ite h2.sendCompletion h2

theorem State.Legal.accept {x bs w} (h : s.Legal) : (s.accept x bs w).Legal :=
  h.agentWrite.tcbGet.tcbPut.tcbStatus.tcbPut.tcbPut.same

theorem State.Legal.judged {n bs tcb} (h : s.Legal) : (s.judged n bs tcb).Legal := by
  fun_cases s.judged n bs tcb
  · exact h.accept
  · exact h.refuse
  · exact h

theorem State.Legal.judge {n bs} (h : s.Legal) : (s.judge n bs).Legal := by
  fun_cases s.judge n bs
  · exact h.agentFetch
  · exact h.agentFetch.judged

theorem State.Legal.takeAway {n h' queue p} (h : s.Legal) : (s.takeAway n h' queue p).Legal := by
  fun_cases s.takeAway n h' queue p
  · exact h
  · exact h.remoteSend

theorem State.Legal.takeSent {n} (h : s.Legal) {r} (ht : s.takeSent n = some r) : r.1.Legal := by
  revert ht
  fun_cases s.takeSent n <;> intro ht
  · cases ht
  · cases ht
    exact h.same

theorem State.Legal.execLaunchAccept {queue} (h : s.Legal) : LegalOutcome (Machine.execLaunchAccept queue s) := by
  have hc {sp x} : (s.controlBlock sp x needRW).1.Legal := h.controlBlock
  refine .next ?_
  dsimp only
  split
  · exact h
  · split
    · next r hr => exact (h.takeSent hr).judge
    · split
      · exact hc.quiet
      · split
        · exact hc.quiet
        · split
          · exact hc.forgetAgent.takeAway
          · split
            · exact hc.quiet
            · split
              · exact hc.forgetAgent.takeNow.judge
              · exact h
              · exact hc.forgetAgent.takeNow.quiet

theorem State.Legal.takeResume {action} (h : s.Legal) : LegalOutcome (s.takeResume action) := by
  fun_cases s.takeResume action
  · exact .next h
  · exact (h.takeSent ‹_›).perform218
  · exact .next h
  · exact .next h.controlBlock.quiet
  · exact .next h.controlBlock.quiet
  · exact .next h.controlBlock.forgetAgent.takeAway
  · exact .next h.controlBlock.quiet
  · exact h.controlBlock.forgetAgent.takeNow.perform218
  · exact .next h
  · exact .next h
  · exact .next h.controlBlock.forgetAgent.takeNow.quiet

theorem State.Legal.noteUnseated {unit} (h : s.Legal) : (s.noteUnseated unit).Legal :=
  h.foldl fun _ _ k => by
    split
    · exact k
    · exact k.modLaunch

theorem State.Legal.noteReady {unit ready} (h : s.Legal) : (s.noteReady unit ready).Legal :=
  h.foldl fun _ _ k => .ite (.ite k k.setLq) (.ite k.setLq k)

theorem State.Legal.pickDeficit {unit cands} (h : s.Legal) {r} (ht : s.pickDeficit unit cands = some r) : r.1.Legal := by
  revert ht
  fun_cases s.pickDeficit unit cands <;> intro ht
  · obtain ⟨n, -, rfl⟩ := Option.map_eq_some_iff.mp ht
    exact h
  · cases ht
  · cases ht
    exact (h.foldl fun _ _ k => k.setLq).same

theorem State.Legal.seatFresh {p index cores} (h : s.Legal) : (s.seatFresh p index cores).Legal := by
  unfold State.seatFresh
  extract_lets +onlyGivenNames a one s1
  have hone (t : State) (bid partner core : Nat) (role : Role) (k : t.Legal) : (one t bid partner core role).Legal := by
    unfold one
    split
    · exact k
    · exact .same (State.Legal.acquire (k.reserveFor ‹_›))
  split
  · exact hone _ _ _ _ _ h.same
  · exact hone _ _ _ _ _ (hone _ _ _ _ _ h.same)
  · exact h

theorem State.Legal.seatWork {l w} (h : s.Legal) : LegalOutcome (s.seatWork l w) := by
  unfold State.seatWork
  extract_lets +onlyGivenNames s0
  have h0 : s0.Legal := .ite h.tcbStatus h
  split
  · exact h0.resumeBlock
  · split
    · exact .next h
    · exact .next h0.logPlan.noteSeat.seatFresh.bill.modLaunch

theorem State.Legal.seatOffer {unit} (h : s.Legal) : (s.seatOffer unit).1.Legal := by
  unfold State.seatOffer
  dsimp only
  split
  · split
    · exact h.noteUnseated.noteReady
    · exact h.noteUnseated.noteReady.pickDeficit ‹_›
  · exact h.noteUnseated.noteReady

theorem State.Legal.execBlockSeat {unit} (h : s.Legal) : LegalOutcome (Machine.execBlockSeat unit s) := by
  fun_cases Machine.execBlockSeat unit s
  · exact .next h
  · exact .next h
  · exact .next h.seatOffer
  · exact h.seatOffer.seatWork

theorem State.Legal.execBlockResume {bid} (h : s.Legal) : LegalOutcome (Machine.execBlockResume bid s) := by
  fun_cases Machine.execBlockResume bid s
  · exact .next h
  · exact .next h
  · exact h.seatOffer.seatWork
  · exact .next h
  · exact .next h

theorem State.Legal.trialLaunchEnd {lid} (h : s.Legal) : (s.trialLaunchEnd lid).Legal := by
  fun_cases s.trialLaunchEnd lid
  · exact h.same
  · exact h

theorem State.Legal.report {lid tcb} (h : s.Legal) : (s.report lid tcb).Legal := by
  fun_cases s.report lid tcb
  · exact h
  · exact h.sendCompletion

theorem State.Legal.finishLaunch {l} (h : s.Legal) : (s.finishLaunch l).Legal := by
  fun_cases s.finishLaunch l
  · exact h.tcbStatus.trialLaunchEnd.modLaunch
  · exact h.tcbStatus.trialLaunchEnd.modLaunch.agentFetch
  · exact h.tcbStatus.trialLaunchEnd.modLaunch.agentFetch.report

theorem State.Legal.decrement {p va} (h : s.Legal) : (s.decrement p va).Legal := by
  fun_cases s.decrement p va
  · exact h.agentPieces.sendLaunchRec
  · exact h.agentPieces.readHome.writeHome
  · exact h.agentPieces.readHome.writeHome.modLaunch
  · exact h.agentPieces.readHome.writeHome
  · exact h.agentPieces.readHome.sendLaunchRec

theorem State.Legal.dropLaunch {lid} (h : s.Legal) : (s.dropLaunch lid).Legal :=
  (h.foldl fun _ _ k => k.freeExtent.foldl fun _ _ l => l.freeExtent).same

theorem State.Legal.successors {l list} (h : s.Legal) : (s.successors l list).Legal :=
  State.Legal.dropLaunch <| by
    split
    · exact h.sendLaunchRec
    · exact h.foldl fun _ _ k => k.decrement

theorem State.Legal.readList {l words} (h : s.Legal) : (s.readList l words).Legal := by
  fun_cases s.readList l words
  · exact h.dropLaunch
  · exact h.successors
  · exact h.agentFetch
  · exact h.agentFetch.successors

theorem State.Legal.freeLaunch {l} (h : s.Legal) : (s.freeLaunch l).Legal := by
  fun_cases s.freeLaunch l
  · exact h.dropLaunch
  · exact h.agentFetch
  · exact h.agentFetch.readList

theorem State.Legal.deanGoesOn {r' bs} (h : s.Legal) : (s.deanGoesOn r' bs).Legal := by
  fun_cases s.deanGoesOn r' bs
  · exact h.same.judged
  · exact h.same.report
  · exact h.same
  · exact h.same.readList
  · exact h.same
  · exact h.same.successors

theorem State.Legal.deanHears {id off bs} (h : s.Legal) : (s.deanHears id off bs).Legal := by
  fun_cases s.deanHears id off bs
  · exact h
  · exact h.deanGoesOn
  · exact h.deanGoesOn
  · exact h.same

theorem State.Legal.execLaunchComplete {lid} (h : s.Legal) : LegalOutcome (Machine.execLaunchComplete lid s) := by
  refine .next ?_
  split
  · exact h
  · split
    · exact h
    · dsimp only
      split
      · split
        · exact h
        · exact h.finishLaunch
      · split
        · split
          · exact h.freeLaunch
          · exact h
        · split
          · exact h.finishLaunch.freeLaunch
          · exact h.finishLaunch

theorem State.Legal.execPreemptPriority {lid} (h : s.Legal) : LegalOutcome (Machine.execPreemptPriority lid s) := by
  refine .next ?_
  split
  · exact h
  · dsimp only
    split
    · exact h
    · split
      · exact h
      · exact h.preempt

/-- A legal state names legal governors: those it lists, and the reset value for the others. -/
theorem State.Legal.governor {n} (h : s.Legal) : (s.governor n).legal = true := by
  obtain ⟨-, -, -, -, hgov⟩ := s.legal_iff.mp h
  cases hn : aget s.governors n with
  | none => rw [State.governor, hn]; rfl
  | some g => rw [State.governor, hn]; exact hgov _ (aget_mem hn)

theorem State.Legal.execPreemptGovernor {stack} (h : s.Legal) : LegalOutcome (Machine.execPreemptGovernor stack s) := by
  refine .next ?_
  dsimp only
  split
  · exact h
  · split
    · exact h
    · obtain ⟨hmem, hmap, hwin, hcap, -⟩ := (State.legal_iff _).mp (h.preempt (b := _) (cause := 3))
      refine (State.legal_iff _).mpr ⟨hmem, hmap, hwin, hcap, fun x hx => ?_⟩
      rcases aput_mem hx with rfl | hx
      · exact h.governor
      · exact (s.legal_iff.mp h).2.2.2.2 x hx

end Sys2Proof.Machine
end

section
/-!
SUPPORT. A legal state stays legal. Pairs of copies (11 R235) and trials (12 R254).
-/
namespace Sys2Proof.Machine
variable {s : State}

theorem State.Legal.disarm (h : s.Legal) : s.disarm.Legal := h.same

theorem State.Legal.settleStores {l t' buf} (h : s.Legal) : (s.settleStores l t' buf).Legal :=
  h.foldl fun _ _ k => by
    dsimp only
    split
    · exact k.pieces
    · exact k.pieces.foldl fun _ _ m => m.evictFor.evictFor

theorem State.Legal.stopPair {l t' rl rt} (h : s.Legal) : (s.stopPair l t' rl rt).Legal :=
  (h.foldl fun _ _ k => k.endOp).modBlock.modBlock

theorem State.Legal.mismatch {l t' who} (h : s.Legal) : (s.mismatch l t' who).Legal := by
  fun_cases s.mismatch l t' who
  · exact h.stopPair
  · exact h.rollback.rollback.modBlock

theorem State.Legal.compareAt {l t' wl wt} (h : s.Legal) : (s.compareAt l t' wl wt).Legal := by
  unfold State.compareAt
  extract_lets +onlyGivenNames armed st s0 d
  have h0 : s0.Legal := .ite h.disarm h
  split
  · exact h0.mismatch
  · split
    · exact .ite h.parkOn h0.mismatch
    · exact h0.drain.settleStores.modBlock.modBlock
    · exact h

theorem State.Legal.pairTry {l t'} (h : s.Legal) : (s.pairTry l t').Legal := by
  fun_cases s.pairTry l t'
  · exact h.stopPair
  · exact h.mismatch
  · exact h.stopPair
  · exact h.mismatch
  · exact h
  · exact h.mismatch
  · exact h
  · exact h
  · exact h.flushCrc.flushCrc.compareAt
  · exact h

theorem State.Legal.execSignatureCompare {bid} (h : s.Legal) : LegalOutcome (Machine.execSignatureCompare bid s) := by
  refine .next ?_
  split
  · exact h
  · split
    · exact h
    · exact h.pairTry

theorem State.Legal.trialCtl {v} (h : s.Legal) : (s.trialCtl v).Legal := by
  fun_cases s.trialCtl v
  · exact h.same
  · exact h.same
  · exact h.same.same

theorem State.Legal.execTrialWindowEnd (h : s.Legal) : LegalOutcome (Machine.execTrialWindowEnd s) := by
  refine .next ?_
  dsimp only
  split
  · exact h
  · split
    · exact h.same
    · split
      · exact h.same
      · exact h.same

theorem State.Legal.trialCycle (h : s.Legal) : s.trialCycle.Legal := by
  fun_cases State.trialCycle s
  · exact h
  · exact h.same

theorem State.Legal.execTrialDelayExpire {core} (h : s.Legal) : LegalOutcome (Machine.execTrialDelayExpire core s) := by
  refine .next ?_
  dsimp only
  split
  · exact h
  · exact h.same

end Sys2Proof.Machine
end

section
/-!
SUPPORT. A legal state stays legal. The governors (13 R267): a step and an alarm keep the throttle state at most T7, T7 in
an emergency, and the refresh multiplier 1, 2 or 4.
-/
namespace Sys2Proof.Machine
variable {s : State}

theorem Governor.legal_iff {g : Governor} : g.legal = true ↔ g.throttle ≤ 7 ∧ (g.emergency = true → g.throttle = 7) ∧
    (g.refresh = 1 ∨ g.refresh = 2 ∨ g.refresh = 4) := by
  cases hg : g.emergency <;> simp [Governor.legal, hg, and_assoc, or_assoc]

theorem Governor.legal_alarm {g : Governor} {c : EmergencyCause} {now : Nat} (h : g.legal = true) :
    (g.alarm c now).legal = true := by
  obtain ⟨-, -, href⟩ := Governor.legal_iff.mp h
  refine Governor.legal_iff.mpr ⟨le_rfl, fun _ => rfl, ?_⟩
  show max 4 g.refresh = 1 ∨ max 4 g.refresh = 2 ∨ max 4 g.refresh = 4
  omega

theorem Governor.moved_le {g : Governor} (h : g.throttle ≤ 7) (policy : Bool) (cap : Nat) (r : Reading) :
    g.moved policy cap r ≤ 7 := by
  fun_cases Governor.moved g policy cap r <;> omega

theorem refreshMult_mem (t : Nat) : refreshMult t = 1 ∨ refreshMult t = 2 ∨ refreshMult t = 4 := by
  by_cases ht : t < 8
  · interval_cases t <;> decide
  · exact .inr (.inr (by simp [refreshMult, Nat.le_of_not_lt ht]))

theorem dramDemand_mem (c : Int) : dramDemand c = 1 ∨ dramDemand c = 2 ∨ dramDemand c = 4 := by
  unfold dramDemand
  split
  · exact .inr (.inr rfl)
  · split
    · exact .inr (.inl rfl)
    · exact .inl rfl

theorem Governor.legal_step {g : Governor} {policy : Bool} {cap : Nat} {r : Reading} {now : Nat} (h : g.legal = true) :
    (g.step policy cap r now).legal = true := by
  obtain ⟨hle, -, -⟩ := Governor.legal_iff.mp h
  have alarms (cs : List EmergencyCause) (x : Governor) (hx : x.legal = true) :
      (cs.foldl (fun y c => y.alarm c now) x).legal = true := by
    induction cs generalizing x with
    | nil => exact hx
    | cons c cs ih => exact ih _ (Governor.legal_alarm hx)
  refine alarms _ _ (Governor.legal_iff.mpr ⟨Governor.moved_le hle _ _ _, fun he => ?_, ?_⟩)
  · exact if_pos he
  · have ht := refreshMult_mem (g.moved policy cap r)
    have hd := dramDemand_mem r.dram
    dsimp only
    omega

theorem State.Legal.execGovernorEmergencyEnd {stack} (h : s.Legal) :
    LegalOutcome (Machine.execGovernorEmergencyEnd stack s) := by
  obtain ⟨hle, -, href⟩ := Governor.legal_iff.mp (h.governor (n := stack))
  have hg : Governor.legal { s.governor stack with emergency := false, causes := [] } = true :=
    Governor.legal_iff.mpr ⟨hle, fun he => absurd he Bool.false_ne_true, href⟩
  exact .next (.ite (State.legal_setGovernor h hg) h)

end Sys2Proof.Machine
end

section
/-!
SUPPORT. A legal state stays legal. DRAM channels, device registers and host ports.
-/
namespace Sys2Proof.Machine
variable {s : State}

theorem State.Legal.setChannel {n c} (h : s.Legal) : (s.setChannel n c).Legal := h.same

theorem State.Legal.dramError {r' origin} (h : s.Legal) : (s.dramError r' origin).Legal :=
  State.Legal.poisonReaders <| by
    split
    · exact h.addPoison.foldl fun _ _ l => l.poisonCopy
    · exact h.addPoison.foldl fun _ _ l => l.addPoison

theorem State.Legal.execDramRequestService {visit} (h : s.Legal) : LegalOutcome (Machine.execDramRequestService visit s) := by
  refine .next ?_
  dsimp only
  split
  · exact h
  · split
    · exact h.setChannel.dramError
    · exact h.setChannel

theorem State.Legal.execBankBackoffEnd {channel bank} (h : s.Legal) :
    LegalOutcome (Machine.execBankBackoffEnd channel bank s) := by
  refine .next ?_
  dsimp only
  split
  · exact h
  · split
    · exact h
    · exact h.setChannel

theorem State.Legal.modDean {f} (h : s.Legal) : (s.modDean f).Legal := h.same

theorem State.Legal.setQueueReg {n f} (h : s.Legal) : (s.setQueueReg n f).Legal := by
  fun_cases s.setQueueReg n f
  · exact h
  · exact h.setLq

theorem State.Legal.setQueueCfg {n v} (h : s.Legal) : (s.setQueueCfg n v).Legal := by
  fun_cases s.setQueueCfg n v
  · exact h
  · exact h.setLq

theorem State.Legal.setTrial {f} (h : s.Legal) : (s.setTrial f).Legal := by
  fun_cases s.setTrial f
  · exact h
  · exact h.same

theorem State.Legal.writeHifence {port v} (h : s.Legal) : (s.writeHifence port v).Legal := by
  fun_cases s.writeHifence port v
  · exact h
  · exact h.setPort
  · exact h.setPort
  · exact h.setPort.foldl fun _ _ k => k.remoteSend

theorem State.Legal.setWindowHandle {port w v} (h : s.Legal) : (s.setWindowHandle port w v).Legal :=
  h.withdrawReqs.modWindow

theorem State.Legal.stageElement {port w offset element} (h : s.Legal) : (s.stageElement port w offset element).Legal :=
  h.modWindow

theorem State.Legal.writeNamed {port reg value} (h : s.Legal) : (s.writeNamed port reg value).Legal := by
  fun_cases s.writeNamed port reg value
  · exact h.modDean
  · exact h.modDean
  · exact h.modDean
  · exact h.modDean
  · exact h.modDean
  · exact h.modDean
  · exact h.modDean
  · exact h
  · exact h
  · exact h.modDean
  · exact h.setQueueReg
  · exact h.setQueueReg
  · exact h.setQueueCfg
  · exact h.setQueueReg
  · exact h.setQueueReg
  · exact h.setQueueReg
  · exact h.setQueueReg
  · exact h.setQueueReg
  · exact h.trialCtl
  · exact h.setTrial
  · exact h.setTrial
  · exact h.setTrial
  · exact h
  · exact h
  · exact h
  · exact h
  · exact h.amapCtl
  · exact h
  · exact h.amapWrite
  · exact h
  · exact h.amapWrite
  · exact h
  · exact h.amapWrite
  · exact h
  · exact h.amapWrite
  · exact h.setChannel
  · exact h
  · exact h.setChannel
  · exact h
  · exact h.setChannel
  · exact h
  · exact h
  · exact State.legal_setGvCtl _ h
  · exact h.writeHifence
  · exact h.setPort
  · exact h.setWindowHandle
  · exact h
  · exact h.stageElement
  · exact h
  · exact h
  · exact h.same
  · exact h
  · exact h.modPeers
  · exact h.modPeers
  · exact h
  · exact h
  · exact h
  · exact h

theorem State.Legal.writeReg {port reg value} (h : s.Legal) : (s.writeReg port reg value).Legal := by
  fun_cases s.writeReg port reg value
  · exact h.writeNamed
  · exact h

theorem State.Legal.execAmapCommit {region value} (h : s.Legal) : LegalOutcome (Machine.execAmapCommit region value s) := by
  refine .next ?_
  split
  · exact h.amapCtl
  · exact h

theorem State.Legal.dropAllCode (h : s.Legal) : s.dropAllCode.Legal := h.dropCode

theorem State.Legal.execHifenceComplete {port} (h : s.Legal) : LegalOutcome (Machine.execHifenceComplete port s) := by
  refine .next ?_
  dsimp only
  split
  · exact h
  · exact h.dropAllCode.setPort

theorem State.Legal.fenceFails {port rid} (h : s.Legal) : (s.fenceFails port rid).Legal := by
  fun_cases s.fenceFails port rid
  · exact h
  · exact h.setPort

theorem State.Legal.execHifenceTimeout {port} (h : s.Legal) : LegalOutcome (Machine.execHifenceTimeout port s) := by
  refine .next ?_
  dsimp only
  split
  · exact h
  · exact h.dropAllCode.setPort

theorem State.Legal.execQwStagingEnqueue {port window} (h : s.Legal) :
    LegalOutcome (Machine.execQwStagingEnqueue port window s) := by
  refine .next ?_
  dsimp only
  split
  · exact h
  · split
    · exact h
    · exact h.sendAgent.modWindow

theorem State.Legal.deqAway {port w h' p} (h : s.Legal) : (s.deqAway port w h' p).Legal := h.remoteSend

theorem State.Legal.execQwDeq {port window} (h : s.Legal) : LegalOutcome (Machine.execQwDeq port window s) := by
  refine .next ?_
  split
  · exact h
  · dsimp only
    split
    · exact h.failDeq
    · split
      · exact h.controlBlock.forgetAgent.failDeq
      · split
        · exact h.controlBlock.forgetAgent
        · split
          · exact h.controlBlock.forgetAgent.deqAway
          · split
            · exact h.controlBlock.forgetAgent
            · split
              · exact h.controlBlock.forgetAgent.takeNow.failDeq
              · exact h.controlBlock.forgetAgent.takeNow.modWindow
              · exact h.controlBlock.forgetAgent.takeNow.modWindow

theorem State.Legal.execHostApertureRead {port offset len} (h : s.Legal) :
    LegalOutcome (Machine.execHostApertureRead port offset len s) := by
  refine .next ?_
  split
  · exact h
  · dsimp only
    split
    · exact h.setPort.logErr
    · exact h.recallAll.homeRead.setPort

theorem State.Legal.execHostApertureWrite {port offset bytes} (h : s.Legal) :
    LegalOutcome (Machine.execHostApertureWrite port offset bytes s) := by
  refine .next ?_
  split
  · exact h
  · dsimp only
    split
    · exact h.setPort.logErr
    · exact h.homeStore

end Sys2Proof.Machine
end

section
/-!
SUPPORT. A legal state stays legal. The queue instructions (07).
-/
namespace Sys2Proof.Machine
variable {s : State}

theorem State.Legal.holdBits {e bs} (h : s.Legal) : (s.holdBits e bs).Legal := h.modMe

theorem State.Legal.reachNow {e cb} (h : s.Legal) : (s.reachNow e cb).Legal := h.queueFirst.evictFor.reachQueue

theorem State.Legal.meetQueue {e cb code} (h : s.Legal) : (s.meetQueue e cb code).1.Legal := h.reachNow.checkHome

theorem State.Legal.enqNow {e cb code elem} (h : s.Legal) : (s.enqNow e cb code elem).1.Legal := by
  fun_cases s.enqNow e cb code elem
  · exact h
  · exact h.meetQueue
  · exact h.meetQueue
  · exact h.meetQueue.putElement
  · exact h.meetQueue.putElement.mark.forward

theorem State.Legal.enqAct {opcode try_ fe rb e h'} {fin : State → List Word → Act} (h : s.Legal)
    (hf : ∀ t x, t.Legal → (fin t x).Legal) : (Machine.enqAct opcode try_ fe rb e h' fin s).Legal := by
  unfold Machine.enqAct
  split
  · exact hf _ _ h
  · exact .wait h
  · exact hf _ _ h
  · exact .wait h
  · refine .ite (.trap h) ?_
    split
    · exact .trap h
    · split
      · exact .trap h
      · exact .wait h
      · extract_lets +onlyGivenNames elem r
        split
        · exact .trap h.controlBlock
        · refine .ite (.wait h.controlBlock) ?_
          refine (h.controlBlock.pairPoint.andThen fun _ k => .ite k.release k.commit).act fun t k => ?_
          split
          · split
            · exact .wait k
            · exact hf _ _ (k.takeForwarded ‹_›)
          · refine .ite (.wait k) (.ite (.wait k.ask) ?_)
            extract_lets +onlyGivenNames n
            split
            · exact .trap k.enqNow
            · exact hf _ _ k.enqNow
            · exact .wait k.enqNow.ask

theorem State.Legal.deqNow {e cb code} (h : s.Legal) : (s.deqNow e cb code).1.Legal := by
  fun_cases s.deqNow e cb code
  · exact h
  · exact h.meetQueue
  · exact h.meetQueue
  · exact h.meetQueue
  · exact h.meetQueue.setQhome.tick1

theorem State.Legal.deqAbroad {try_ e cb code empty} {fin : State → Taken → Act} (h : s.Legal)
    (hf : ∀ t x, t.Legal → (fin t x).Legal) : (Machine.deqAbroad try_ e cb code empty fin s).Legal :=
  Gate.Legal.act (.ite h.commitPoint (.go h)) fun _ k => .ite (hf _ _ k.tick1.askFor) (.wait k.ask.holdBits)

theorem State.Legal.deqTake {try_ e cb code empty} {fin : State → Taken → Act} (h : s.Legal)
    (hf : ∀ t x, t.Legal → (fin t x).Legal) : (Machine.deqTake try_ e cb code empty fin s).Legal := by
  fun_cases Machine.deqTake try_ e cb code empty fin s
  · exact .wait h
  · exact h.deqAbroad hf
  · exact .trap h.deqNow
  · exact hf _ _ h.deqNow.forward
  · exact .wait h.deqNow.ask.holdBits
  · exact hf _ _ h.deqNow
  · exact (State.Legal.setPhase (.ite h.deqNow.forward h.deqNow)).holdBits.commitPoint.act fun _ k => hf _ _ k

theorem State.Legal.deqTrail {try_ abroad e empty} {fin : State → Taken → Act} (h : s.Legal)
    (hf : ∀ t x, t.Legal → (fin t x).Legal) : (Machine.deqTrail try_ abroad e empty fin s).Legal := by
  unfold Machine.deqTrail
  dsimp only
  split
  · refine h.commitPoint.act fun t k => ?_
    split
    · exact .wait k.holdBits
    · exact hf _ _ (k.takeForwarded ‹_›)
  · refine Gate.Legal.act (.ite h.commitPoint (.go h)) fun t k => ?_
    split
    · exact .wait k.holdBits
    · refine .ite (hf _ _ (k.takeForwarded ‹_›)) (k.commitPoint.act fun u l => ?_)
      split
      · exact .wait l.holdBits
      · next v hv =>
        obtain ⟨r, hr, rfl⟩ := Option.map_eq_some_iff.mp hv
        have hr := l.takeForwarded hr
        split
        · exact .wait l.holdBits
        · exact hf _ _ (hr.takeForwarded ‹_›)

theorem State.Legal.deqAct {try_ base rd held e h'} {fin : State → Payload → Taken → Act} (h : s.Legal)
    (hf : ∀ t x y, t.Legal → (fin t x y).Legal) : (Machine.deqAct try_ base rd held e h' fin s).Legal := by
  fun_cases Machine.deqAct try_ base rd held e h' fin s
  · exact .trap h
  · exact .trap h
  · exact .trap h
  · exact hf _ _ _ h
  · exact .wait h.holdBits
  · exact .wait h.holdBits
  · exact Gate.Legal.act (.ite h.holdBits.commitPoint (.go h.holdBits)) fun _ k => hf _ _ _ k
  · exact .wait h
  · exact .trap (.ite h.controlBlock.holdBits h.controlBlock)
  · exact .wait h.controlBlock
  · exact h.controlBlock.deqTrail fun _ _ k => hf _ _ _ k
  · refine Gate.Legal.act (.ite (.go h.controlBlock) h.controlBlock.commitPoint) fun _ k => ?_
    exact k.deqTake fun _ _ l => hf _ _ _ l
  · exact h.controlBlock.deqTake fun _ _ k => hf _ _ _ k

theorem State.Legal.dequeued {e took} {d : Done} (h : d.state.Legal) : (d.dequeued e took).state.Legal := by
  fun_cases d.dequeued e took
  · exact h.point
  · exact h

theorem State.Legal.dequeuedDone {e h' p vals k' data} {t' : State} (h : t'.Legal) :
    (Machine.dequeuedDone t' e h' p vals k' data).state.Legal := h.dequeued

theorem State.Legal.execDeq {rd ra fe g} (h : s.Legal) : LegalOutcome (Machine.execDeq rd ra fe g s) :=
  h.issue fun _ _ _ k => k.deqAct fun _ _ _ l => by
    split
    · exact .done l
    · exact .done l.dequeuedDone

theorem State.Legal.execDeqt {rd ra rb fe g} (h : s.Legal) : LegalOutcome (Machine.execDeqt rd ra rb fe g s) :=
  h.issue fun _ _ _ k => k.deqAct fun _ _ _ l => by
    split
    · exact .done l.dequeued
    · exact .done l.dequeuedDone

theorem State.Legal.execQinit {rd ra rb fe g} (h : s.Legal) : LegalOutcome (Machine.execQinit rd ra rb fe g s) := by
  refine h.issue fun _ _ _ k => ?_
  dsimp only
  split
  · exact .wait k
  · exact .done k.point
  · refine .ite (.trap k) ?_
    split
    · exact .trap k.controlBlock
    · refine k.controlBlock.commitPoint.act fun _ l => ?_
      split
      · split
        · exact .wait l
        · exact .done (State.Legal.point (l.takeForwarded ‹_›))
      · split
        · exact .trap l.pieces
        · exact .trap l.pieces
        · refine .ite (.done l.pieces.forward.point) (l.pieces.release.act fun _ m => ?_)
          exact .ite (.wait m) (.ite (.wait m.remoteSend.asking) (.done m.reachNow.initHome.mark.forward.point))

theorem State.Legal.execQstat {rd ra fe g} (h : s.Legal) : LegalOutcome (Machine.execQstat rd ra fe g s) :=
  h.issue fun _ _ _ k => by
    dsimp only
    split
    · exact .wait k
    · exact .done k
    · split
      · exact .trap k
      · split
        · exact .trap k.controlBlock
        · split
          · split
            · exact .wait k.controlBlock
            · exact .done (k.controlBlock.takeForwarded ‹_›)
          · split
            · exact .wait k.controlBlock
            · split
              · exact .wait k.controlBlock.remoteSend.asking
              · split
                · exact .trap k.controlBlock.reachNow.statHome
                · exact .done k.controlBlock.reachNow.statHome.forward

end Sys2Proof.Machine
end

section
/-!
SUPPORT. A legal state stays legal. Requests of other devices, and those sent to them (13 R264, R265).
-/
namespace Sys2Proof.Machine
variable {s : State}

theorem State.Legal.execLaneRepair {port lane} (h : s.Legal) : LegalOutcome (Machine.execLaneRepair port lane s) := by
  refine .next ?_
  dsimp only
  split
  · exact h
  · split
    · exact h.modPeers
    · exact h.modPeers

theorem State.Legal.execLinkRetrainComplete {port} (h : s.Legal) : LegalOutcome (Machine.execLinkRetrainComplete port s) := by
  refine .next ?_
  dsimp only
  split
  · exact h
  · split
    · exact h
    · exact h.modPeers

theorem State.Legal.answerReq {req status bs} (h : s.Legal) : (s.answerReq req status bs).Legal := h.reply

theorem State.Legal.refuseRemote {req} (h : s.Legal) : (s.refuseRemote req).Legal := h.logErr.answerReq

theorem State.Legal.remoteAtom {req cells f old} (h : s.Legal) : (s.remoteAtom req cells f old).Legal := by
  fun_cases s.remoteAtom req cells f old with
  | case1 => exact h.recallAll.answerReq
  | case2 _ _ _ _ s2 =>
    have hs2 : s2.Legal := by
      unfold s2
      split
      · exact h.recallAll.homeRead.homeScatter
      · exact h.recallAll.homeRead
    exact hs2.respond

theorem State.Legal.remoteWrite {req cells n bytes poison tags} (h : s.Legal) :
    (s.remoteWrite req cells n bytes poison tags).Legal := by
  unfold State.remoteWrite
  extract_lets +onlyGivenNames p s1 s2
  have h1 : s1.Legal := h.recallAll.scatterHome
  have h2 : s2.Legal := .ite (h1.foldl fun _ _ k => k.addPoison) h1
  exact State.Legal.answerReq (.ite h2.tagWrite h2)

theorem State.Legal.remoteQueue {req enq try_ code payload} (h : s.Legal) :
    (s.remoteQueue req enq try_ code payload).Legal := h.same.tick1

theorem State.Legal.remoteTag {req load condition n data} (h : s.Legal) : (s.remoteTag req load condition n data).Legal :=
  h.same.tick1

theorem State.Legal.remoteCancel {source seq} (h : s.Legal) : (s.remoteCancel source seq).Legal := by
  fun_cases s.remoteCancel source seq
  · exact h.withdrawReqs.respond
  · exact h
  · exact h.same.respond

theorem State.Legal.remoteDo {req cells} (h : s.Legal) : (s.remoteDo req cells).Legal := by
  -- The address stays a variable: a comparison that reaches the power would unfold it.
  obtain ⟨pa, hpa⟩ : ∃ pa, s.device * 2 ^ 42 + req.addr = pa := ⟨_, rfl⟩
  unfold State.remoteDo
  rw [hpa]
  cases req.kind
  · exact h.recallAll.homeRead.answerReq
  · exact h.remoteWrite
  · exact h.remoteAtom
  · exact h.remoteAtom
  · exact h.remoteAtom
  · exact h.remoteQueue
  · exact h.remoteQueue
  · exact h.initHome.respond
  · dsimp only
    split
    · exact h.statHome.answerReq
    · exact h.statHome.respond
  · exact h.remoteTag
  · exact h.remoteTag
  · exact h.maintainHome.answerReq
  · exact h.dropAllCode.answerReq
  · exact h.remoteCancel.answerReq

theorem State.Legal.execRemoteRequestAtTarget {req} (h : s.Legal) :
    LegalOutcome (Machine.execRemoteRequestAtTarget req s) := by
  refine .next ?_
  split
  · exact h.refuseRemote
  · split
    · exact h.answerReq
    · exact h.refuseRemote
    · split
      · exact h.answerReq
      · exact h.remoteDo

theorem State.Legal.dropOp13 {rid} (h : s.Legal) : (s.dropOp13 rid).Legal := h.modPeers

theorem State.Legal.queueBack {q bs} (h : s.Legal) : (s.queueBack q bs).Legal := by
  fun_cases s.queueBack q bs
  · exact h.tryFails
  · exact h.enqAnswer.enqDone
  · exact h
  · exact State.Legal.deqDone (.ite h.forward h)
  · exact h
  · exact (State.Legal.mark (.ite h.forward h)).forward.modCtx.tick1
  · exact h.deqDone

theorem State.Legal.undoIssuer {bid who} (h : s.Legal) : (s.undoIssuer bid who).Legal := by
  fun_cases s.undoIssuer bid who
  · exact h.stepNotReady
  · exact h.undo

theorem State.Legal.withdrawnAbroad {o} (h : s.Legal) : (s.withdrawnAbroad o).Legal := by
  fun_cases s.withdrawnAbroad o
  · exact h.undoIssuer
  · exact h.modOp
  · exact h
  · exact h.undoIssuer
  · exact h

theorem State.Legal.fillHeld {bid who off bs} (h : s.Legal) : (s.fillHeld bid who off bs).Legal := h.modCtx

theorem State.Legal.fillLoads {bid readers bs} (h : s.Legal) : (s.fillLoads bid readers bs).Legal :=
  h.foldl fun _ _ k => k.modCtx

theorem State.Legal.atomBack {bid who pid ws} (h : s.Legal) : (s.atomBack bid who pid ws).Legal := by
  fun_cases s.atomBack bid who pid ws
  · exact h.forward.modCtx
  · exact h

theorem State.Legal.remoteDone {o bs} (h : s.Legal) : (s.remoteDone o bs).Legal := by
  unfold State.remoteDone
  split
  · exact h.withdrawnAbroad
  · split
    · exact h.fillLoads
    · exact h.atomBack
    · extract_lets +onlyGivenNames ws s1 s2
      have h1 : s1.Legal := .ite h.mark h
      have h2 : s2.Legal := by
        unfold s2
        split
        · exact .ite h1.forward h1
        · exact h1
      exact h2.answer
    · exact h.queueBack
    · exact h.fillHeld
    · exact h.modOp
    · exact h.modOp
    · exact h.same
    · exact h.deanHears
    · exact h

theorem State.Legal.remoteFails {o t'} (h : s.Legal) : (s.remoteFails o t').Legal := by
  fun_cases s.remoteFails o t'
  · exact h.foldl fun _ _ k => k.failProducer
  · exact h.failProducer
  · exact h.failActor
  · exact h.failActor
  · exact h.takeTrap
  · exact h
  · exact h.takeTrap
  · exact h.takeTrap
  · exact h.takeTrap
  · exact h.queueFail
  · exact h.opFault
  · exact h
  · exact h
  · exact h.opFault
  · exact h
  · exact h.fenceFails
  · exact h.deanHears
  · exact h

theorem State.Legal.remotePoison {o bs} (h : s.Legal) : (s.remotePoison o bs).Legal := by
  fun_cases s.remotePoison o bs
  · exact h.modOp
  · exact h.opRecord
  · exact h
  · exact h.sendRecord
  · exact h.remoteFails

theorem State.Legal.releaseFails {o} (h : s.Legal) : (s.releaseFails o).Legal := by
  fun_cases s.releaseFails o
  · exact h
  · exact h
  · exact h
  · exact h.foldl fun _ _ k => k.takeTrap

theorem State.Legal.remoteError {o detail} (h : s.Legal) : (s.remoteError o detail).Legal :=
  State.Legal.remoteFails (.ite h.dropOp13.releaseFails h.dropOp13)

theorem State.Legal.remoteEnd {o status bs} (h : s.Legal) : (s.remoteEnd o status bs).Legal := by
  fun_cases s.remoteEnd o status bs
  · exact h.dropOp13.remoteDone
  · exact h.dropOp13.remotePoison
  · exact h.modPeers
  · exact h.dropOp13.remoteFails
  · exact h.remoteError

theorem State.Legal.peerMessage {port source m} (h : s.Legal) : (s.peerMessage port source m).Legal := by
  fun_cases s.peerMessage port source m
  · exact h
  · exact h.same
  · exact h
  · exact h.remoteEnd
  · exact h

theorem State.Legal.execPeerFlitReceive {port flit} (h : s.Legal) :
    LegalOutcome (Machine.execPeerFlitReceive port flit s) := by
  refine .next ?_
  split
  · exact h
  · dsimp only
    split
    · exact h.modPeers.peerMessage
    · exact h.modPeers

theorem State.Legal.sendOp {o} (h : s.Legal) : (s.sendOp o).Legal := h.peerSend.modPeers

theorem State.Legal.execRemoteResend {op} (h : s.Legal) : LegalOutcome (Machine.execRemoteResend op s) := by
  refine .next ?_
  split
  · exact h
  · split
    · split
      · exact h
      · exact h.sendOp
    · exact h

theorem State.Legal.cleanExtent {base limit} (h : s.Legal) : (s.cleanExtent base limit).Legal :=
  h.foldl fun _ _ k => k.scClean

theorem State.Legal.endRelease {e} (h : s.Legal) : (s.endRelease e).Legal := by
  fun_cases s.endRelease e
  · exact h
  · exact h.cleanExtent.modPeers

theorem State.Legal.releaseExtent {base limit} (h : s.Legal) : (s.releaseExtent base limit).Legal :=
  h.modPeers.endRelease

theorem State.Legal.remoteSilent {o} (h : s.Legal) : (s.remoteSilent o).Legal := h.remoteError.logErr

theorem State.Legal.execRemoteTimeout {op} (h : s.Legal) : LegalOutcome (Machine.execRemoteTimeout op s) := by
  refine .next ?_
  split
  · exact h
  · split
    · exact h
    · exact (h.remoteSilent.modPeers.foldl fun _ _ k => k.remoteError).foldl fun _ _ k => k.releaseExtent

theorem State.Legal.peerCycle (h : s.Legal) : s.peerCycle.Legal :=
  (h.foldl fun _ _ k => k.sendOp).modPeers.foldl fun _ _ k => k.endRelease

end Sys2Proof.Machine
end

section
/-!
SUPPORT. A legal state stays legal. The ridge, firmware, arbiter, barriers, control and debug instructions.
-/
namespace Sys2Proof.Machine
variable {s : State}

theorem State.Legal.ridgeCycle (h : s.Legal) : s.ridgeCycle.Legal := h.same

theorem State.Legal.linkError {m} (h : s.Legal) : (s.linkError m).Legal := by
  fun_cases s.linkError m
  · exact ((h.foldl fun _ _ l => .ite l.addPoison <| by
      split
      · exact l.poisonCopy
      · exact l).foldl fun _ _ l => l.addPoison).poisonReaders
  · exact (h.foldl fun _ _ l => .ite l.addPoison <| by
      split
      · exact l.poisonCopy
      · exact l).foldl fun _ _ l => l.addPoison

theorem State.Legal.execRidgeMessageDeliver {cls src dst} (h : s.Legal) :
    LegalOutcome (Machine.execRidgeMessageDeliver cls src dst s) := by
  refine .next ?_
  split
  · exact h
  · split
    · exact h
    · split
      · exact h
      · dsimp only
        split
        · exact h.same.linkError
        · exact h.same

theorem State.Legal.execRidgeInjectionReserve {stop ascending} (h : s.Legal) :
    LegalOutcome (Machine.execRidgeInjectionReserve stop ascending s) := by
  refine .next ?_
  split
  · exact h
  · exact h.same

theorem State.Legal.execExpertUnlock {port signed} (h : s.Legal) : LegalOutcome (Machine.execExpertUnlock port signed s) := by
  refine .next ?_
  split
  · exact h
  · exact h.same

theorem State.Legal.fetchTraps {i t'} (h : s.Legal) : LegalOutcome (Machine.fetchTraps i t' s) := by
  fun_cases Machine.fetchTraps i t' s
  · exact .next h
  · exact .next h.unhold.issueTrap

theorem State.Legal.execUnassignedOpcode {word} (h : s.Legal) : LegalOutcome (Machine.execUnassignedOpcode word s) :=
  h.fetchTraps

theorem State.Legal.execInstructionFetchFault {fault} (h : s.Legal) :
    LegalOutcome (Machine.execInstructionFetchFault fault s) := h.fetchTraps

theorem State.Legal.nextCycle (h : s.Legal) : s.nextCycle.Legal := h.same.trialCycle.peerCycle.ridgeCycle.same

theorem State.Legal.setBarrier {e b x} (h : s.Legal) : (s.setBarrier e b x).Legal := h.modBlock

theorem State.Legal.execBari {ra rb fe g} (h : s.Legal) : LegalOutcome (Machine.execBari ra rb fe g s) :=
  h.issue fun _ _ _ k => by
    dsimp only
    split
    · exact .trap k
    · split
      · exact .trap k
      · exact .done k.setBarrier

theorem State.Legal.execBara {rd ra rb fe g} (h : s.Legal) : LegalOutcome (Machine.execBara rd ra rb fe g s) :=
  h.issue fun _ _ _ k => by
    dsimp only
    split
    · exact .trap k
    · split
      · exact .trap k
      · exact .done k.setBarrier

theorem State.Legal.execBarw {ra fe g} (h : s.Legal) : LegalOutcome (Machine.execBarw ra fe g s) :=
  h.issue fun _ _ _ k => by
    dsimp only
    split
    · exact .trap k
    · split
      · exact .trap k
      · split
        · exact .wait k
        · exact .done k

theorem State.Legal.jump {ok target vals} (h : s.Legal) : (Machine.jump ok target vals s).Legal := by
  fun_cases Machine.jump ok target vals s
  · exact .done h
  · exact .trap h

theorem State.Legal.execRep {cnt sd sa sb} (h : s.Legal) : LegalOutcome (Machine.execRep cnt sd sa sb s) := by
  unfold Machine.execRep
  refine h.issueChecked (fun e t k => ?_) fun _ _ _ k => .done k
  dsimp only
  split
  · exact k.fetch
  · exact k.fetch

theorem State.Legal.execFork {rd ra rb fe g} (h : s.Legal) : LegalOutcome (Machine.execFork rd ra rb fe g s) :=
  h.issue fun _ _ _ k => .ite (.trap k) <| by
    split
    · exact .done k
    · exact .done k.modBlock

theorem State.Legal.execWaitf {ra rb g} (h : s.Legal) : LegalOutcome (Machine.execWaitf ra rb g s) :=
  h.issue fun _ _ _ k => by
    dsimp only
    split
    · exact .wait k
    · exact .done k

theorem State.Legal.execHread {rd ra rb fe g} (h : s.Legal) : LegalOutcome (Machine.execHread rd ra rb fe g s) :=
  h.issue fun _ _ _ k => .ite (.wait k) <| by
    dsimp only
    split
    · exact .done k
    · exact .done k

theorem State.Legal.execHwrite {rd ra rb fe g} (h : s.Legal) : LegalOutcome (Machine.execHwrite rd ra rb fe g s) := by
  refine h.issue fun e v t k => ?_
  split
  · exact .wait k
  · dsimp only
    split
    · next r hr =>
      split at hr
      · split at hr
        · cases hr
        · obtain ⟨c, -, rfl⟩ := Option.map_eq_some_iff.mp hr
          exact .done (k.outside k.modCtx)
      · cases hr
    · exact .done k

theorem State.Legal.stepStatus {e status} (h : s.Legal) : (s.stepStatus e status).Legal := .done h.forward

theorem State.Legal.execHstep {rd ra fe g} (h : s.Legal) : LegalOutcome (Machine.execHstep rd ra fe g s) :=
  h.issue fun _ _ _ k => .ite (by
    split
    · exact .wait k
    · exact .done (k.takeForwarded ‹_›)) <| by
    split
    · exact k.stepStatus
    · exact .wait k
    · exact .wait k
    · exact .wait k
    · split
      · exact .wait k
      · split
        · exact k.stepStatus
        · exact k.stepStatus
        · split
          · exact k.stepStatus
          · exact .wait k.modCtx.same.setPhase

theorem State.Legal.execHrun {ra rb fe g} (h : s.Legal) : LegalOutcome (Machine.execHrun ra rb fe g s) :=
  h.issue fun _ _ _ k =>
    .ite (.trap k) (.ite (.wait k) (.ite (.done (k.outside k.same.modLaunch)) (.done (k.outside k.same))))

theorem State.Legal.execWset {ra rb fe g} (h : s.Legal) : LegalOutcome (Machine.execWset ra rb fe g s) :=
  h.issue fun _ _ _ k => .ite (.trap k) <| by
    dsimp only
    split
    · exact .trap k.pieces
    · exact k.pieces.beforeRead.act fun _ l => l.awayRead fun _ _ m => by
        split
        · exact .trap m
        · exact .done (m.outside m.same)

theorem State.Legal.fpProducer {r'} (h : s.Legal) : (Machine.fpProducer r' s).Legal := .done h

end Sys2Proof.Machine
end

section
/-!
SUPPORT. A legal state stays legal. Every instruction and event, every turn and every step.
-/
namespace Sys2Proof.Machine
variable {s : State}

/-- Every instruction and every event leaves a legal state; the arms that share a proof share a case. -/
theorem State.Legal.exec {i} (h : s.Legal) : LegalOutcome (Machine.exec i s) := by
  cases i
  case nop | yield | div | divu | sel | lea | mov | movi | movhi | win | winadd | pmovFromWord | sysr | sigr |
      fminF32 | fmaxF32 | fabs | fneg | frnd | fclass =>
    exact h.issue fun _ _ _ k => .done k
  case br | bri | call | ret => exact h.issue fun _ _ _ k => k.jump
  case rep => exact h.execRep
  case trap => exact h.issue fun _ _ _ k => .trap k
  case eret => exact h.issue fun _ _ _ k => .ite (.trap k) (.done k)
  case endIssue | sete => exact h.issue fun _ _ _ k => .done k.modMe
  case fork => exact h.execFork
  case upush => exact h.issue fun _ _ _ k => .ite (.wait k) (.done k.modBlock)
  case waitf => exact h.execWaitf
  case waito => exact h.issue fun _ _ _ k => .ite (.wait k) (.done k.acquire)
  case iadd | isub | imul | imulh | imulhu | and | or | xor | andn | shl | shr | sar | imin | imax | iminu | imaxu
      | iadds | bfx =>
    exact h.issue fun _ _ _ k => k.alu2
  case imad | addmin | addmax | bfi => exact h.issue fun _ _ _ k => k.alu3
  case icmp | icmpu | pand | por | pxor | pnot | pmovToPredicate | fcmpF32 | fcmpBf16x2 | fcmpF16x2 =>
    exact h.issue fun _ _ _ k => k.predResult
  case iabs | popc | clz | brev | iaddi | andImm | orImm | xorImm | shlImm | shrImm | sarImm =>
    exact h.issue fun _ _ _ k => k.alu1
  case movx => exact h.issue fun _ _ _ k => .ite (.trap k) (.ite (.ite (.trap k) (.wait k)) (.done k))
  case movxw => exact h.issue fun _ _ _ k => .ite (.trap k) (.ite (.wait k) (.done k.modMe))
  case xlane | xshf | vote | stl => exact h.collective
  case sread => exact h.issue fun _ _ _ k => .done (.ite k.modMe k)
  case sysw => exact h.issue fun _ _ _ k => .ite (.done k.modMe) (.done (k.outside k.amapWrite))
  case tlbiPage | tlbiAsn | tlbiAll => exact h.issue fun _ _ _ k => k.tlbiAct
  case chkpt => exact h.issue fun _ _ _ k => k.commitPoint.act fun _ l => .done l.point
  case prog => exact h.issue fun _ _ _ k => .ite (.done k.same) (.done k)
  case ifence => exact h.execIfence
  case faddF32 | faddBf16x2 | faddF16x2 | fsubF32 | fsubBf16x2 | fsubF16x2 | fmulF32 | fmulBf16x2 | fmulF16x2 |
      fmaF32 | fmaBf16x2 | fmaF16x2 | fminBf16x2 | fminF16x2 | fmaxBf16x2 | fmaxF16x2 | fcvt | fcvti | icvtf |
      fdot2Bf16 | fdot2F16 | fdot4F8a | fdot4F8b =>
    exact h.issue fun _ _ _ k => k.fpResult
  case frcp | frsq | fexp2 | flog2 => exact h.issue fun _ _ _ k => k.fpProducer
  case ld => exact h.execLd
  case st => exact h.execSt
  case ldl => exact h.execLdl
  case ldt => exact h.execLdt
  case stt => exact h.execStt
  case lde => exact h.execLde
  case pref => exact h.execPref
  case cflush => exact h.execCflush
  case cinv => exact h.execCinv
  case fence => exact h.execFence
  case acasRelaxed | acasAcqRel | atomRelaxed | atomAcqRel => exact h.issue fun _ _ _ k => k.atomicAct
  case red => exact h.execRed
  case enq | enqt => exact h.issue fun _ _ _ k => k.enqAct fun _ _ l => .done l.point
  case deq => exact h.execDeq
  case deqt => exact h.execDeqt
  case qinit => exact h.execQinit
  case qstat => exact h.execQstat
  case bari => exact h.execBari
  case bara => exact h.execBara
  case barw => exact h.execBarw
  case cpy => exact h.execCpy
  case cpyb | cpys | mldb | mdrst => exact h.issue fun _ _ _ k => k.bulkAct
  case mma | mzero => exact h.issue fun _ _ _ k => .ite (.trap k) k.issueCmd
  case mdrain => exact h.execMdrain
  case afeed => exact h.execAfeed
  case adrn => exact h.execAdrn
  case hread => exact h.execHread
  case hwrite => exact h.execHwrite
  case hstep => exact h.execHstep
  case hrun => exact h.execHrun
  case wset => exact h.execWset
  case wclr => exact h.issue fun _ _ _ k => .ite (.trap k) (.done (k.outside k.same))
  case deviceReset => exact .next State.legal_reset.same
  case bundleReformation => exact h.execBundleReformation
  case readyAgeOverride => exact h.execReadyAgeOverride
  case producerComplete => exact h.execProducerComplete
  case fibreEnded => exact h.execFibreEnded
  case blockRetire => exact h.execBlockRetire
  case releaseAckComplete => exact .next h.modCtx
  case pageWalkComplete => exact h.execPageWalkComplete
  case l1Eviction => exact h.execL1Eviction
  case queueEnqAtHome => exact .next h.enqHome
  case queueEnqWriteAck => exact .next h.enqAck
  case queueDeqAtHome => exact .next h.deqHome
  case queueDeqReadDone => exact .next h.deqRead
  case rollBusyResend => exact .next h.same
  case taggedAccessAtHome => exact .next h.tagHome
  case cpyComplete => exact h.execCpyComplete
  case engineTriggerDeq => exact h.execEngineTriggerDeq
  case operandsConsumedEvent => exact h.execOperandsConsumedEvent
  case engineUnitWrite => exact h.execEngineUnitWrite
  case engineOperationEnd => exact h.execEngineOperationEnd
  case bSliceLoadComplete => exact h.execBSliceLoadComplete
  case matrixCommandStart => exact h.execMatrixCommandStart
  case matrixCommandComplete => exact h.execMatrixCommandComplete
  case mdrainReadoutDone => exact h.execMdrainReadoutDone
  case summitContributionArrive => exact h.execSummitContributionArrive
  case summitDelivery => exact h.execSummitDelivery
  case launchAccept => exact h.execLaunchAccept
  case blockSeat => exact h.execBlockSeat
  case launchComplete => exact h.execLaunchComplete
  case preemptPriority => exact h.execPreemptPriority
  case preemptHost => exact .next (h.foldl fun _ _ k => k.preempt)
  case preemptGovernor => exact h.execPreemptGovernor
  case blockSave => exact h.execBlockSave
  case preemptRetry => exact h.execPreemptRetry
  case blockResume => exact h.execBlockResume
  case resumeRetry | resumeSkip | resumeAbort => exact h.takeResume
  case checkpointSeal => exact h.execCheckpointSeal
  case signatureCompare => exact h.execSignatureCompare
  case trialStart => exact .next h.trialCtl
  case trialWindowEnd => exact h.execTrialWindowEnd
  case trialDelayExpire => exact h.execTrialDelayExpire
  case governorStep => exact .next (.ite h (State.legal_setGovernor h (Governor.legal_step h.governor)))
  case governorEmergencyBegin => exact .next (h.foldl fun _ _ k => State.legal_setGovernor k (Governor.legal_alarm k.governor))
  case governorEmergencyEnd => exact h.execGovernorEmergencyEnd
  case dramRequestService => exact h.execDramRequestService
  case deadlineUrgent | actselClear | ordinaryRefresh => exact .next h.setChannel
  case bankBackoffEnd => exact h.execBankBackoffEnd
  case amapCommit => exact h.execAmapCommit
  case launchQueueEnable => exact .next h.setQueueCfg
  case registerWrite => exact .next h.writeReg
  case hifence => exact .next h.writeHifence
  case hifenceComplete => exact h.execHifenceComplete
  case hifenceTimeout => exact h.execHifenceTimeout
  case qwHandle => exact .next h.setWindowHandle
  case qwEnq => exact .next h.stageElement
  case qwStagingEnqueue => exact h.execQwStagingEnqueue
  case qwDeq => exact h.execQwDeq
  case hostApertureRead => exact h.execHostApertureRead
  case hostApertureWrite => exact h.execHostApertureWrite
  case peerFlitReceive => exact h.execPeerFlitReceive
  case laneRepair => exact h.execLaneRepair
  case remoteRequestAtTarget => exact h.execRemoteRequestAtTarget
  case remoteResend => exact h.execRemoteResend
  case remoteTimeout => exact h.execRemoteTimeout
  case deadMarkClear => exact .next h.modPeers
  case extentRelease => exact .next h.releaseExtent
  case ridgeMessageDeliver => exact h.execRidgeMessageDeliver
  case ridgeInjectionReserve => exact h.execRidgeInjectionReserve
  case attestationRequest => exact .next h.same.tick1
  case expertUnlock => exact h.execExpertUnlock
  case linkRetrainComplete => exact h.execLinkRetrainComplete
  case amapCommitComplete => exact .next h.amapFinish
  case unassignedOpcode => exact h.execUnassignedOpcode
  case instructionFetchFault => exact h.execInstructionFetchFault

theorem State.Legal.passTurn {bid who c} (h : s.Legal) : (s.passTurn bid who c).Legal := by
  fun_cases s.passTurn bid who c
  · exact h.modCtx
  · exact h.endStepOf
  · exact h

theorem State.Legal.fetchInstr {e} (h : s.Legal) : (s.fetchInstr e).1.Legal := by
  fun_cases s.fetchInstr e
  · exact h.fetch
  · exact h.fetch

theorem State.Legal.holdHomes {held : State} {r' : Host.Outcome State Fault Refusal} (h : held.Legal) (k : LegalOutcome r') :
    LegalOutcome (Machine.holdHomes s held r') := by
  fun_cases Machine.holdHomes s held r'
  · exact .next h
  · exact .next k
  · exact k

theorem State.Legal.afterWait {bid who c} {r' : Host.Outcome State Fault Refusal} (h : s.Legal) (k : LegalOutcome r') :
    LegalOutcome (s.afterWait bid who c r') := by
  fun_cases s.afterWait bid who c r'
  · exact .next h.modCtx
  · exact .next k
  · exact k

theorem State.Legal.codeWait {e} (h : s.Legal) {t : State} (ht : s.codeWait e = some t) : t.Legal := by
  revert ht
  fun_cases s.codeWait e <;> intro ht
  · cases ht
    exact h.askCode ‹_›
  · exact h.fetchInstr.askCode ht
  · cases ht

theorem State.Legal.issueNow {bid who} (h : s.Legal) : LegalOutcome (s.issueNow bid who) := by
  fun_cases s.issueNow bid who
  · exact .next h
  · exact .next h.passTurn
  · exact .next (h.codeWait ‹_›)
  · exact h.afterWait (h.modCtx.holdHomes h.fetchInstr.same.exec)

theorem State.Legal.issueTurn {bid who} (h : s.Legal) : LegalOutcome (s.issueTurn bid who) := by
  fun_cases s.issueTurn bid who
  · exact .next h
  · exact h.tagsFirst.issueNow

theorem State.Legal.lookAhead (h : s.Legal) : s.lookAhead.Legal :=
  h.foldl fun _ _ k => k.foldl fun _ _ l => by
    split
    · exact l
    · split
      · split
        · exact l.modCtx
        · exact l
      · exact l

theorem State.Legal.passCycle (h : s.Legal) : s.passCycle.Legal := h.lookAhead.leaveBundles.nextCycle

theorem State.Legal.eventTurn {i} (h : s.Legal) : LegalOutcome (s.eventTurn i) := by
  fun_cases s.eventTurn i
  · exact .next h
  · exact h.same.exec
  · exact h.holdHomes h.same.exec

theorem State.Legal.turn (h : s.Legal) : LegalOutcome s.turn := by
  fun_cases State.turn s
  · exact .next h.passCycle
  · exact .next h.same.passCycle
  · exact h.same.eventTurn
  · exact h.same.issueTurn

/-- A step from a legal state leaves a legal state. -/
theorem State.Legal.step (h : s.Legal) : LegalOutcome (Machine.step s) := h.turn

/-- Settles O4: memory and the registers that carry an invariant are changed by few operations, and each
of those keeps them legal; every other operation leaves them as they are. -/
theorem everyStepKeepsTheStateLegal : Obligations.EveryStepKeepsTheStateLegal :=
  fun _ _ h e => h.step.of_next e

end Sys2Proof.Machine
end

section
/-!
SUPPORT. The store buffer (06 R121, R122; 18 R375, R376, R386, R390): which bytes an appended entry hides, how the buffer stands to the
readers of its own block, and what ST, RED and STT leave in it when they complete.
-/
namespace Sys2Proof.Machine

/-! Bytes by virtual address. -/

@[simp] theorem toBytes_length (n x : Nat) : (toBytes n x).length = n := by
  induction n generalizing x with
  | zero => rfl
  | succ n ih => simp [toBytes, ih]

/-- A finite map gives nothing exactly at the keys that it does not list. -/
theorem aget_eq_none_iff {α : Type} {m : List (Nat × α)} {k : Nat} : aget m k = none ↔ ∀ v, (k, v) ∉ m := by
  induction m with
  | nil => simp [aget]
  | cons x rest ih =>
    obtain ⟨j, w⟩ := x
    by_cases hj : j = k
    · exact iff_of_false (by simp [aget, hj]) fun h => h w (by simp [hj])
    · simp [aget, hj, ih, Ne.symm hj]

theorem mem_placeBytes {a va : Nat} {data : List Byte} {b : Byte} :
    (va, b) ∈ placeBytes a data ↔ ∃ k < data.length, va = (a + k) % 2 ^ 64 ∧ data[k]? = some b := by
  simp only [placeBytes, List.mem_map, List.mem_range, Prod.mk.injEq]
  refine exists_congr fun k => and_congr_right fun hk => ?_
  simp [List.getElem?_eq_getElem hk, eq_comm]

/-- Offsets of at most 2^64 bytes name different virtual addresses. -/
theorem offset_inj {a j k n : Nat} (hn : n ≤ 2 ^ 64) (hj : j < n) (hk : k < n) (h : (a + j) % 2 ^ 64 = (a + k) % 2 ^ 64) : j = k :=
  Nat.ModEq.eq_of_lt_of_lt (Nat.ModEq.add_left_cancel' a h) (hj.trans_le hn) (hk.trans_le hn)

/-- Placed bytes stand at their own addresses. -/
theorem aget_placeBytes {a k : Nat} {data : List Byte} (hlen : data.length ≤ 2 ^ 64) (hk : k < data.length) :
    aget (placeBytes a data) ((a + k) % 2 ^ 64) = data[k]? := by
  have hdata : data[k]? = some data[k] := List.getElem?_eq_getElem hk
  cases hget : aget (placeBytes a data) ((a + k) % 2 ^ 64) with
  | none => exact absurd (mem_placeBytes.2 ⟨k, hk, rfl, hdata⟩) (aget_eq_none_iff.1 hget _)
  | some b =>
    obtain ⟨j, hj, haddr, hb⟩ := mem_placeBytes.1 (aget_mem hget)
    rw [offset_inj hlen hk hj haddr, hb]

/-- Bytes are placed at no other address. -/
theorem aget_placeBytes_ne {a va : Nat} {data : List Byte} (h : ∀ k, k < data.length → va ≠ (a + k) % 2 ^ 64) :
    aget (placeBytes a data) va = none :=
  aget_eq_none_iff.2 fun _ hmem => by
    obtain ⟨k, hk, hva, -⟩ := mem_placeBytes.1 hmem
    exact h k hk hva

theorem placeBytes_singleton {a : Nat} (ha : a < 2 ^ 64) (b : Byte) : placeBytes a [b] = [(a, b)] := by
  simpa [placeBytes] using ha

/-! The youngest uncommitted byte (06 R122). -/

/-- An appended entry that is no RED is asked first. -/
theorem bufferByte_concat (buf : List SbEntry) {x : SbEntry} (hx : ∀ op, x.kind ≠ .red op) (va : Nat) :
    bufferByte (buf ++ [x]) va = (aget x.bytes va).or (bufferByte buf va) := by
  simp only [bufferByte, List.foldl_append, List.foldl_cons, List.foldl_nil]
  cases hk : x.kind with
  | red op => exact absurd hk (hx op)
  | _ => cases aget x.bytes va <;> rfl

section
variable {s t : State} {e : Env} {b : Block} {x : SbEntry}

/-! Entering the buffer. -/

theorem State.block_enterBuffer (hb : s.block? e.bid = some b) (x : SbEntry) :
    (s.enterBuffer e x).block? e.bid = some (b.modBody fun y => { y with buffer := y.buffer ++ [x] }) :=
  block_modBlock_self _ (fun _ => rfl) hb

/-- What is buffered is no issuer's context. -/
theorem ctx_modBody_buffer (b : Block) (f : BlockBody → List SbEntry) (w : Who) :
    (b.modBody fun y => { y with buffer := f y }).ctx? w = b.ctx? w := by cases w <;> rfl

/-- An issuer that reads its environment again finds the entry in its block's buffer. -/
theorem Env.again_enterBuffer (he : s.envOf e.bid e.who = some e) (x : SbEntry) :
    e.again (s.enterBuffer e x) = { e with blk := e.blk.modBody fun y => { y with buffer := y.buffer ++ [x] } } := by
  obtain ⟨hb, hc, -⟩ := State.envOf_eq_some_iff.1 he
  exact Env.again_of_envOf (State.envOf_eq_some_iff.2 ⟨State.block_enterBuffer hb x, (ctx_modBody_buffer _ _ _).trans hc, rfl⟩)

theorem State.homeByte_enterBuffer (s : State) (e : Env) (x : SbEntry) (c : Nat) : (s.enterBuffer e x).homeByte c = s.homeByte c := rfl

/-! The buffer as a reader of pieces sees it (06 R121; log entry 59). -/

/-- A byte that a reader's piece shares with another mapping stands at the reader's own address. -/
theorem State.aliasAt_shared {sp : Space} {ps qs : List Piece} {p q : Piece} {va : Nat}
    (hq : (s.pieces sp va 1 { r := false, w := false, x := false }).2 = .ok (q :: qs))
    (hp : ps.find? (fun p => decide (p.pa ≤ q.pa) && decide (q.pa < p.pa + p.len)) = some p) :
    s.aliasAt sp ps va = p.va + (q.pa - p.pa) := by
  simp [State.aliasAt, hq, hp]

/-- An entry of a store buffer as a reader of pieces sees it. -/
def State.entrySeen (s : State) (sp : Space) (ps : List Piece) (x : SbEntry) : SbEntry :=
  { x with va := BitVec.ofNat 64 (s.aliasAt sp ps x.va.toNat), bytes := x.bytes.map fun y => (s.aliasAt sp ps y.1, y.2) }

theorem State.bufferSeen_eq (s : State) (b : Block) (ps : List Piece) :
    s.bufferSeen b ps = b.body.buffer.map (s.entrySeen b.space ps) := rfl

/-- The youngest entry, of one byte, is seen where that byte stands for the reader. -/
theorem State.bufferByte_bufferSeen {buf : List SbEntry} {a : Nat} {d : Byte} {ps : List Piece} (hbuf : b.body.buffer = buf ++ [x])
    (hkind : ∀ op, x.kind ≠ .red op) (hbytes : x.bytes = [(a, d)]) :
    bufferByte (s.bufferSeen b ps) (s.aliasAt b.space ps a) = some d := by
  have hseen : ∀ op, (s.entrySeen b.space ps x).kind ≠ .red op := hkind
  rw [State.bufferSeen_eq, hbuf, List.map_append, List.map_singleton, bufferByte_concat _ hseen]
  simp [State.entrySeen, hbytes, aget]

/-! Stores and REDs (18 R376, R386). -/

variable {s1 s2 s3 : State} {rd ra rb : Reg} {sz : BitVec 3} {ord : BitVec 2} {sc : BitVec 4} {sc3 : BitVec 3} {op : BitVec 4}
  {g : Bool} {a d : Nat} {ps : List Piece}

/-- The entry of an issuer's store of bytes at an address. -/
def Env.bufferEntry (e : Env) (k : SbKind) (a code : Nat) (bs : List Byte) : SbEntry :=
  { kind := k, va := BitVec.ofNat 64 a, szcode := code, who := e.who, pc := e.ctx.pc, bytes := placeBytes a bs }

/-- Below .core a store appends its bytes once there is room for them. -/
theorem storeAct_buffers {n : Nat} {data : List Byte} (hsc : n < 2)
    (hgo : ((s.roomFor e data.length).andThen fun u => u.slackGate e (storeBytes a sz.toNat data)) = .go t) :
    storeAct e a sz n data s = .write (t.enterBuffer e (e.bufferEntry .st a sz.toNat data)) [] := by
  simp only [storeAct, ge_iff_le, Nat.not_le.2 hsc, if_false, hgo, Gate.act]
  rfl

/-- At .core or wider a store that has not entered the buffer yet releases, enters it and commits again. -/
theorem storeAct_releases {n : Nat} {data : List Byte} (hsc : 2 ≤ n) (hnew : e.ctx.phase.answer = .none)
    (hrel : s.releasePoint e (storeBytes a sz.toNat data) n = .go s2)
    (hcommit : (s2.enterBuffer e (e.bufferEntry .st a sz.toNat data)).secondCommit e = .go s3) :
    storeAct e a sz n data s = .done { state := s3.takeOrdinal e, sealed := e.blk.ckptMode } := by
  have hentered : e.ctx.phase.entered = false := by simp [Phase.entered, hnew]
  unfold Env.bufferEntry at hcommit
  simp only [storeAct, ge_iff_le, hsc, if_true, hentered, Bool.false_eq_true, if_false, hrel, Gate.act, hcommit, Done.point]

/-- A permitted ST does what its store comes to. -/
theorem exec_st_done {r : Done} (h : Issues s e (.st rd ra sz ord sc g) [a, d])
    (hps : s.pieces e.blk.space a (sizeBytes sz) needW = (s1, .ok ps))
    (hact : storeAct e a sz (if ord = 1 then sc.toNat else 0) (toBytes (sizeBytes sz) d) s1 = .done r) (hr : r.loaded = none) :
    exec (.st rd ra sz ord sc g) s = .next (s.retired e (.st rd ra sz ord sc g) r) :=
  issue_done h (by simpa only [List.getD_cons_zero, List.getD_cons_succ, hps] using hact) (by simp [hr])

/-- A permitted, aligned RED appends its contribution once there is room for it. -/
theorem exec_red_buffers (h : Issues s e (.red op ra rb sc3) [a, d]) (halign : a % 4 = 0)
    (hps : s.pieces e.blk.space a 4 needRW = (s1, .ok ps))
    (hgo : ((s1.roomFor e 4).andThen fun u => u.slackGate e (atomBytes a (0xB0 + op.toNat) [BitVec.ofNat 32 d])) = .go s2) :
    exec (.red op ra rb sc3) s = .next (s.retired e (.red op ra rb sc3)
      { state := s2.enterBuffer e (e.bufferEntry (.red (redOpOf op)) a 4 (toBytes 4 (BitVec.ofNat 32 d).toNat)) }) :=
  issue_done h (by
    simp only [word, List.getD_cons_zero, List.getD_cons_succ, halign, ne_eq, not_true_eq_false, if_false, hps, hgo, Gate.act]
    rfl)

/-! STT (18 R390). -/

/-- An STT whose home has answered marks its block, and its commit point takes an ordinal. -/
theorem exec_stt_granted {ws : List Word} (h : Issues s e (.stt rd ra sz ord sc g) [a, d]) (hgot : e.ctx.phase.answer = .got ws) :
    exec (.stt rd ra sz ord sc g) s = .next (s.retired e (.stt rd ra sz ord sc g)
      { state := (s.mark e.bid).takeOrdinal e, sealed := e.blk.ckptMode }) :=
  issue_done h (by simp only [hgot]; rfl)

@[simp] theorem modCtx_buffer (b : Block) (w : Who) (f : Ctx → Ctx) : (b.modCtx w f).body.buffer = b.body.buffer := by
  unfold Block.modCtx
  split
  · rfl
  · cases w <;> rfl

theorem State.evictFor_blocks (s : State) (core pa : Nat) : (s.evictFor core pa).blocks = s.blocks := by
  unfold State.evictFor
  split <;> simp

/-- An STT that asks its home stands in the store buffer. -/
theorem State.block_askTag (hb : s.block? e.bid = some b) (p : Piece) (cond : Bool) (data : List Byte) :
    ∃ z, (s.askTag e p false cond data).block? e.bid = some z ∧ z.body.buffer = b.body.buffer ++ [e.sttEntry p data] := by
  let sent := (s.evictFor e.core p.pa).ridgeSend .memory e.stop (s.homeStop p.pa) []
  have hsent : sent.block? e.bid = some b := by
    rw [← hb, State.block?, State.block?, State.ridgeSend_blocks, State.evictFor_blocks]
  exact ⟨_, block_modBlock_self _ (fun k => modCtx_bid k _ _) (State.block_enterBuffer hsent (e.sttEntry p data)), modCtx_buffer _ _ _⟩

end

/-- Settles O9: an appended store is asked first, at the addresses of its own bytes, and another mapping's reader finds it at its own. -/
theorem storedBytesAreSeenByTheirOwnBlock : Obligations.StoredBytesAreSeenByTheirOwnBlock := by
  intro s e buf a data who pc sz va c p q ps qs entry hlen
  have hkind : ∀ op, entry.kind ≠ .red op := fun _ => SbKind.noConfusion
  refine ⟨fun k hk => ?_, fun hne => ?_, s.homeByte_enterBuffer e entry c, fun b hb => ⟨_, State.block_enterBuffer hb entry, rfl⟩,
    fun he hone ha hq hp => ?_⟩
  · rw [bufferByte_concat _ hkind, aget_placeBytes hlen hk, List.getElem?_eq_getElem hk, Option.some_or]
  · rw [bufferByte_concat _ hkind, aget_placeBytes_ne hne, Option.none_or]
  · obtain ⟨d, rfl⟩ := List.length_eq_one_iff.1 hone
    rw [State.bufferFor, Env.again_enterBuffer he, ← State.aliasAt_shared hq hp]
    exact State.bufferByte_bufferSeen rfl hkind (placeBytes_singleton ha d)

/-- Settles O29, instruction by instruction. -/
theorem storesEnterTheStoreBuffer : Obligations.StoresEnterTheStoreBuffer := by
  intro s s1 s2 s3 e rd ra rb sz ord sc sc3 op b a d ps ws n data ev entry enter word4
  refine ⟨fun h hps hlow hgo => ?_, fun h hps hord hsc hnew hrel hcommit => ?_, exec_red_buffers, exec_stt_granted,
    fun t p cond y hy => ?_⟩
  · have hscope : (if ord = 1 then sc.toNat else 0) < 2 := by
      split
      · exact Nat.lt_succ_of_le (hlow.resolve_left (not_not_intro ‹_›))
      · decide
    exact exec_st_done h hps (storeAct_buffers hscope (by rwa [toBytes_length])) rfl
  · exact exec_st_done h hps (storeAct_releases (by rwa [if_pos hord]) hnew (by rwa [if_pos hord]) hcommit) rfl
  · obtain ⟨z, hz, hbuf⟩ := State.block_askTag hy p cond data
    exact ⟨z, _, hz, hbuf, rfl, rfl, rfl, rfl, rfl⟩

end Sys2Proof.Machine
end

section
/-!
SUPPORT. Barriers of a block (07 R158, R159; 15 R304, R305): what BARI, BARA and BARW leave when their checks pass.
-/
namespace Sys2Proof.Machine

section
variable {s : State} {e : Env} {rd ra rb : Reg} {fe : Bool} {g : Guard} {a c n : Nat} {x : Barrier}

/-- A barrier that the block has is found. -/
theorem Env.barrier_eq_some (hn : n < e.blk.params.barrierCount) (hx : e.blk.body.barriers[n]? = some x) : e.barrier n = some x := by
  simp [Env.barrier, hn, List.getD_eq_getElem?_getD, hx]

/-- BARI sets the expected count of a barrier without arrivals. -/
theorem exec_bari_sets (h : Issues s e (.bari ra rb fe g) [a, c]) (hx : e.barrier (a % 2 ^ 32) = some x)
    (hpos : 1 ≤ c % 2 ^ 32) (hmax : c % 2 ^ 32 ≤ 1025) (hnew : x.arrived = 0) :
    exec (.bari ra rb fe g) s = .next (s.retired e (.bari ra rb fe g)
      { state := s.setBarrier e (a % 2 ^ 32) { x with expected := c % 2 ^ 32 } }) :=
  issue_done h (by
    simp only [low, List.getD_cons_zero, List.getD_cons_succ, hx]
    exact if_neg (by omega))

/-- BARA adds its arrivals and answers the token of the phase of the last of them. -/
theorem exec_bara_arrives (h : Issues s e (.bara rd ra rb fe g) [a, c]) (hx : e.barrier (a % 2 ^ 32) = some x)
    (hset : x.expected ≠ 0) (hpos : 1 ≤ c % 2 ^ 32) (hmax : c % 2 ^ 32 ≤ 65535) :
    exec (.bara rd ra rb fe g) s = .next (s.retired e (.bara rd ra rb fe g)
      { state := s.setBarrier e (a % 2 ^ 32) (x.arrive (c % 2 ^ 32)),
        vals := [a % 2 ^ 32 * 2 ^ 28 + x.token (c % 2 ^ 32)] }) :=
  issue_done h (by
    simp only [low, List.getD_cons_zero, List.getD_cons_succ, hx]
    exact if_neg (by omega))

/-- BARW passes once its barrier is past the token's phase. -/
theorem exec_barw_passes (h : Issues s e (.barw ra fe g) [a]) (hx : e.barrier (a % 2 ^ 32 / 2 ^ 28) = some x)
    (hset : x.expected ≠ 0) (hpast : 1 ≤ (x.phase + 2 ^ 28 - a % 2 ^ 32 % 2 ^ 28) % 2 ^ 28)
    (hnear : (x.phase + 2 ^ 28 - a % 2 ^ 32 % 2 ^ 28) % 2 ^ 28 < 2 ^ 27) :
    exec (.barw ra fe g) s = .next (s.writes e (.barw ra fe g) []) :=
  issue_done h (by
    simp only [low, List.getD_cons_zero, hx]
    rw [if_neg (by omega), if_neg (by omega)]
    rfl)

end

/-- Settles O26, instruction by instruction. -/
theorem barriersCountPhases : Obligations.BarriersCountPhases := by
  intro s e rd ra rb fe g a c x set n m unit ahead
  exact ⟨fun h hn hx => exec_bari_sets h (Env.barrier_eq_some hn hx), fun h hn hx => exec_bara_arrives h (Env.barrier_eq_some hn hx),
    fun h hn hx => exec_barw_passes h (Env.barrier_eq_some hn hx)⟩

end Sys2Proof.Machine
end

section
/-!
SUPPORT. Atomics (07 R160; 15 R298, R299, R302, R303; 13 R264): what one that passes its checks and its commit point comes to, at a
home of this package and toward another device.
-/
namespace Sys2Proof.Machine

section
variable {s s1 s2 : State} {e : Env} {p : Piece} {ps : List Piece} {a sc code : Nat} {ordered : Bool} {args : List Word}
  {f : Word → Option Word} {raises : Word → FpFlags} {kind : RemoteKind} {late : Late}

/-- The commit point of an atomic: the pair's comparison, then a release at its scope if it is ordered, else a commit. -/
def State.atomicPoint (s : State) (e : Env) (ordered : Bool) (sc : Nat) (ev : List Byte) : Gate :=
  (s.pairPoint e ev).andThen fun t => if ordered = true ∧ 2 ≤ sc then t.release e sc else t.commit e

/-- The state after the event of an atomic at its home: performed, its block marked, its results forwarded in a pair. -/
def State.atomicHome (s : State) (e : Env) (p : Piece) (f : Word → Option Word) (raises : Word → FpFlags) : State :=
  let q := s.atHome e.core p f
  (q.1.mark e.bid).forward e.blk e.who [q.2, BitVec.ofNat 32 (raises q.2).toNat]

/-- The state of an atomic that has asked another device. -/
def State.atomicAsks (s : State) (e : Env) (p : Piece) (a : Nat) (kind : RemoteKind) : State :=
  (s.mark e.bid).tick1.remoteSend p.pa kind (.atom s.fresh) (some (e.bid, e.who, e.ctx.pc)) (BitVec.ofNat 64 a)

variable (halign : a % 4 = 0) (hps : s.pieces e.blk.space a 4 needRW = (s1, .ok (p :: ps)))
  (hgo : s1.atomicPoint e ordered sc (atomBytes a code args) = .go s2) (hrole : e.blk.role ≠ .trailing) (hmig : p.mig = false)
include halign hps hgo hrole hmig

/-- At a home of this package an atomic of an unpoisoned word is done with the old word. -/
theorem atomicAct_here (haway : s2.away p.pa = false) (hclean : (s2.evictFor e.core p.pa).piecePoison p = none) :
    let home := s2.evictFor e.core p.pa
    let old := (home.atHome e.core p f).2
    let u := home.atomicHome e p f raises
    atomicAct ordered sc code args f raises kind late e a s = .done
      { state := u.takeOrdinal e, vals := [old.toNat], flags := raises old, long := true, src := u.readSpan e.blk.space a 4,
        acquire := acquireScope ordered sc, sealed := e.blk.ckptMode } := by
  simp only [State.atomicPoint] at hgo
  simp only [atomicAct, halign, ne_eq, not_true_eq_false, if_false, hps, Bool.and_eq_true, decide_eq_true_eq, ge_iff_le, hgo,
    Gate.act, hrole, hmig, Bool.false_eq_true, haway, hclean]
  rfl

/-- Of a word of another device an atomic is done with a value still to come. -/
theorem atomicAct_away (haway : s2.away p.pa = true) :
    atomicAct ordered sc code args f raises kind late e a s = .done
      { state := (s2.atomicAsks e p a kind).takeOrdinal e, long := true, acquire := acquireScope ordered sc,
        sealed := e.blk.ckptMode, pid := some s2.fresh, late := some late } := by
  simp only [State.atomicPoint] at hgo
  simp only [atomicAct, halign, ne_eq, not_true_eq_false, if_false, hps, Bool.and_eq_true, decide_eq_true_eq, ge_iff_le, hgo,
    Gate.act, hrole, hmig, Bool.false_eq_true, haway, if_true]
  rfl

end

/-- Settles O32: each of the four forms is one operation, `atomicAct`, with its own order, code, operands and function. -/
theorem atomicsPerformAtTheHome : Obligations.AtomicsPerformAtTheHome := by
  intro s s1 s2 e i op rd ra rb sc3 a v d p ps ordered code args f raises kind late x expected sc home q u swap write flags hform
    halign hrole hps hmig hgo
  have hexec : ∃ vals body, Issues s e i vals ∧ (∀ t, exec i t = issue i body t) ∧
      body e vals s = atomicAct ordered sc code args f raises kind late e a s := by
    rcases hform with ⟨rfl, h, rfl, rfl, rfl, rfl, rfl, rfl, rfl⟩ | ⟨rfl, h, rfl, rfl, rfl, rfl, rfl, rfl, rfl⟩ |
      ⟨rfl, h, rfl, rfl, rfl, rfl, rfl, rfl, rfl⟩ | ⟨rfl, h, rfl, rfl, rfl, rfl, rfl, rfl, rfl⟩
    all_goals exact ⟨_, _, h, fun _ => rfl, rfl⟩
  obtain ⟨vals, body, h, hbody, hact⟩ := hexec
  rw [hbody]
  exact ⟨fun haway hclean => issue_done h (hact.trans (atomicAct_here halign hps hgo hrole hmig haway hclean)),
    fun haway => issue_done h (hact.trans (atomicAct_away halign hps hgo hrole hmig haway))⟩

end Sys2Proof.Machine
end

section
/-!
SUPPORT. Tagged accesses (07 R156, R157; 17 R352; 18 R390): what an LDT and an STT that pass their checks come to as they issue.
-/
namespace Sys2Proof.Machine

section
variable {s s1 s2 s3 s4 : State} {e : Env} {rd ra : Reg} {sz : BitVec 3} {ord : BitVec 2} {sc : BitVec 4} {b : Bool} {a d n : Nat}
  {p : Piece} {ps : List Piece} {need : Need} {ws : List Word}

/-- An aligned, permitted access to a page of FMT 4 is a tagged access. -/
theorem State.tagPiece_ok (halign : a % n = 0) (hps : s.pieces e.blk.space a n need = (s1, .ok (p :: ps))) (hfmt : p.fmt = 4) :
    s.tagPiece e a n need = (s1, .ok p) := by
  simp [State.tagPiece, halign, hps, hfmt]

/-- Proctors see what a load loaded as it issues: its completion does not keep it. -/
theorem State.retired_loaded (s : State) (e : Env) (i : Instr) (r : Done) (x : Option SeenValue) :
    s.retired e i { r with loaded := x } = s.retired e i r := rfl

/-- The commit point before a consuming LDT in checkpoint mode. -/
def State.consumePoint (s : State) (e : Env) (ord : BitVec 2) : Gate :=
  if ord = 1 ∧ e.blk.ckptMode = true then s.commitPoint e [] else .go s

/-- Whether an LDT that issues now has to wait: for another device, for its tag, or for what left its stop before (01 R13). -/
def State.ldtWaits (s : State) (e : Env) (p : Piece) (cons : Bool) : Bool :=
  s.away p.pa || s.tagWaits (s.tagReq e p true cons []) || s.tagAhead e.stop (s.homeStop p.pa) none

/-- What a completed LDT of these words produces. -/
def Env.ldtDone (e : Env) (a : Nat) (sz : BitVec 3) (sc : BitVec 4) (t : State) (ws : List Word) : Done :=
  { state := t, vals := [loadValue sz ((bytesOf ws).take (sizeBytes sz))], long := true, acquire := acquireScope true sc.toNat,
    src := t.readSpan e.blk.space a (sizeBytes sz) }

variable (hnew : e.ctx.phase.answer = .none) (hrole : e.blk.role ≠ .trailing) (hstep : e.ctx.halt.stepper = none)
include hnew hrole hstep

/-- An LDT that has to wait asks its granule's home. -/
theorem exec_ldt_asks (h : Issues s e (.ldt rd ra sz ord sc b) [a]) (hp : s.tagPiece e a (sizeBytes sz) needR = (s1, .ok p))
    (hgo : s1.consumePoint e ord = .go s2) (hread : s2.beforeRead e a (sizeBytes sz) = .go s3)
    (hwait : s3.ldtWaits e p (decide (ord = 1)) = true) :
    exec (.ldt rd ra sz ord sc b) s = .next ((s3.askTag e p true (decide (ord = 1)) []).stay (.ldt rd ra sz ord sc b) e
      (e.form (.ldt rd ra sz ord sc b)) .tag) := by
  simp only [State.consumePoint] at hgo
  simp only [State.ldtWaits] at hwait
  refine issue_wait h ?_ (by simp [hstep])
  simp only [hnew, List.getD_cons_zero, hp, hstep, Option.isSome_none, Bool.false_and, Bool.false_eq_true, if_false,
    Bool.and_eq_true, decide_eq_true_eq, hgo, Gate.act, hrole, and_false, hread, hwait, if_true]

/-- An LDT that need not wait produces what its home holds. -/
theorem exec_ldt_ready (h : Issues s e (.ldt rd ra sz ord sc b) [a]) (hp : s.tagPiece e a (sizeBytes sz) needR = (s1, .ok p))
    (hgo : s1.consumePoint e ord = .go s2) (hread : s2.beforeRead e a (sizeBytes sz) = .go s3)
    (hwait : s3.ldtWaits e p (decide (ord = 1)) = false) (hnow : s3.ldtNow e p (decide (ord = 1)) = (s4, .ok ws))
    (hplain : ord ≠ 1 ∨ e.blk.ckptMode = false) :
    exec (.ldt rd ra sz ord sc b) s = .next (s.retired e (.ldt rd ra sz ord sc b) (e.ldtDone a sz sc s4 ws)) := by
  simp only [State.ldtWaits] at hwait
  have hnopoint : ¬ (ord = 1 ∧ e.blk.ckptMode = true) := fun hc => hplain.elim (· hc.1) fun hm => by simp [hm] at hc
  obtain rfl : s1 = s2 := Gate.go.inj ((if_neg hnopoint).symm.trans hgo)
  rw [← State.retired_loaded s e _ _
    (if decide (ord = 1) then none else some (seenValue sz (ofBytes ((bytesOf ws).take (sizeBytes sz)))))]
  refine issue_done h ?_ fun _ => rfl
  simp only [hnew, List.getD_cons_zero, hp, hstep, Option.isSome_none, Bool.false_and, Bool.false_eq_true, if_false,
    Bool.and_eq_true, decide_eq_true_eq, Gate.act, hrole, and_false, hread, hwait, hnow, hnopoint, Env.ldtDone]

/-- The gate of an STT: the pair's comparison, then a release at its scope, or a commit. -/
def State.sttPoint (s : State) (e : Env) (ev : List Byte) (sc : Nat) : Gate :=
  (s.pairPoint e ev).andThen fun t => if sc ≥ 2 then t.release e sc else t.commit e

/-- An STT that fits the store buffer enters it and asks its granule's home. -/
theorem exec_stt_asks (h : Issues s e (.stt rd ra sz ord sc b) [a, d]) (hp : s.tagPiece e a (sizeBytes sz) needW = (s1, .ok p))
    (hmig : p.mig = false)
    (hgo : s1.sttPoint e (storeBytes a (sz.toNat + 0x40) (toBytes (sizeBytes sz) d)) sc.toNat = .go s2)
    (hfits : s2.fits e (sizeBytes sz) = true) :
    exec (.stt rd ra sz ord sc b) s = .next ((s2.askTag e p false (decide (ord = 1)) (toBytes (sizeBytes sz) d)).stay
      (.stt rd ra sz ord sc b) e (e.form (.stt rd ra sz ord sc b)) .answer) := by
  simp only [State.sttPoint] at hgo
  refine issue_wait h ?_ (by simp [hstep])
  simp only [hnew, List.getD_cons_zero, List.getD_cons_succ, hp, hstep, Option.isSome_none, Bool.false_and, Bool.false_eq_true,
    if_false, hgo, Gate.act, hrole, hmig, hfits, Bool.not_true]

/-- An STT for which the store buffer has no room waits. -/
theorem exec_stt_waits (h : Issues s e (.stt rd ra sz ord sc b) [a, d]) (hp : s.tagPiece e a (sizeBytes sz) needW = (s1, .ok p))
    (hmig : p.mig = false)
    (hgo : s1.sttPoint e (storeBytes a (sz.toNat + 0x40) (toBytes (sizeBytes sz) d)) sc.toNat = .go s2)
    (hfits : s2.fits e (sizeBytes sz) = false) :
    exec (.stt rd ra sz ord sc b) s =
      .next (s2.stay (.stt rd ra sz ord sc b) e (e.form (.stt rd ra sz ord sc b)) .condition) := by
  simp only [State.sttPoint] at hgo
  refine issue_wait h ?_ (by simp [hstep])
  simp only [hnew, List.getD_cons_zero, List.getD_cons_succ, hp, hstep, Option.isSome_none, Bool.false_and, Bool.false_eq_true,
    if_false, hgo, Gate.act, hrole, hmig, hfits, Bool.not_false, if_true]

end

/-- The request that a tagged access leaves is the last one under way. -/
theorem State.treqs_askTag (s : State) (e : Env) (p : Piece) (load cond : Bool) (data : List Byte) :
    ∃ t : State, t.fresh + 1 = (s.askTag e p load cond data).fresh ∧
      (s.askTag e p load cond data).treqs.getLast? = some (t.tagReq e p load cond data) := by
  refine ⟨(s.evictFor e.core p.pa).ridgeSend .memory e.stop (s.homeStop p.pa) [], ?_, List.getLast?_concat⟩
  cases load <;> rfl

/-- Settles O28, instruction by instruction. -/
theorem taggedAccessesAskTheirHome : Obligations.TaggedAccessesAskTheirHome := by
  intro s s1 s2 s3 s4 ws e rd ra sz ord sc b a d p ps n data ldt stt asked halign hfmt hnew hrole hstep
  refine ⟨fun h hps hgo hread => ?ldt, fun h hps hmig hgo => ?stt, ?request⟩
  case ldt =>
    have hp := State.tagPiece_ok halign hps hfmt
    exact ⟨exec_ldt_asks hnew hrole hstep h hp hgo hread, exec_ldt_ready hnew hrole hstep h hp hgo hread⟩
  case stt =>
    have hp := State.tagPiece_ok halign hps hfmt
    exact ⟨exec_stt_asks hnew hrole hstep h hp hmig hgo, exec_stt_waits hnew hrole hstep h hp hmig hgo⟩
  case request =>
    obtain ⟨t, hrid, hlast⟩ := s2.treqs_askTag e p false (decide (ord = 1)) data
    exact ⟨_, hlast, hrid, rfl, rfl, rfl, rfl, rfl, rfl, rfl, rfl, rfl, rfl, rfl, rfl, rfl⟩

end Sys2Proof.Machine
end

section
/-!
SUPPORT. The queue instructions (07 R144 to R151; 03 R57; 11 R229, R236; 16 R324; 15 R317): what an enqueue and a dequeue that pass
their checks come to.
-/
namespace Sys2Proof.Machine

section
variable {s s1 s2 t u : State} {e : Env} {h code k opcode : Nat} {base : Reg} {p : Payload} {cb : Piece} {try_ fe : Bool} {x : Trap}

/-! Handles and operands (07 R144, R147). -/

theorem bits_eq_div_mod (x lo n : Nat) : bits x lo n = x / 2 ^ lo % 2 ^ n := by rw [bits, Nat.shiftRight_eq_div_pow]

theorem handleOk_of (hzero : h / 8 % 8 = 0) (hcode : h % 8 ≤ 6) : handleOk h = true := by
  simp [handleOk, bits_eq_div_mod, hzero, hcode]

/-- A register of one word has one full bit at most. -/
theorem Fld.fullBits_word (rd : Reg) (lead : Bool) (wb : Nat) :
    ((Fld.d rd 1).fullBits lead wb).head?.toList = (Fld.d rd 1).fullBits lead wb := by
  unfold Fld.fullBits
  split
  · rfl
  · cases lead <;> rfl

/-- A destination outside the payload registers is no conflict. -/
theorem any_head_contains {ks bs : List Nat} (hout : ∀ k ∈ ks, k ∉ bs) : ks.head?.any (fun k => bs.contains k) = false := by
  cases ks with
  | nil => rfl
  | cons k rest => simpa using hout k (List.mem_cons_self ..)

/-- Issuer e, which has asked nothing yet, passes the checks of a queue instruction with handle h and payload base register `base`:
its payload registers p are full, and translation leaves s1 and the control block cb, which no migration holds (07 R144, R147). -/
structure State.Reaches (s : State) (e : Env) (h : Nat) (base : Reg) (p : Payload) (s1 : State) (cb : Piece) : Prop where
  handle : handleOk h = true
  payload : e.payload base (bits h 0 3) = some p
  full : e.ctx.firstEmpty p.bits = none
  block : s.controlBlock e.blk.space h needRW = (s1, .ok cb)
  settled : cb.mig = false
  unasked : e.ctx.phase.answer = .none
  unstepped : e.ctx.halt.stepper = none
  performs : e.blk.role ≠ .trailing

/-- An issuer that no debugger steps may wait in the roll. -/
theorem State.wouldPark_unstepped (hstep : e.ctx.halt.stepper = none) (waits : State → Bool) :
    s.wouldPark e try_ cb code waits = false := by
  simp [State.wouldPark, hstep]

/-! What a completing queue instruction shows proctors late: nothing (12 R242). -/

@[simp] theorem Done.point_loaded (r : Done) (e : Env) : (r.point e).loaded = r.loaded := rfl

@[simp] theorem dequeuedDone_loaded (t : State) (e : Env) (h : Nat) (p : Payload) (vals : List Nat) (k : Option Nat)
    (data : Option (List Word)) : (dequeuedDone t e h p vals k data).loaded = none := by
  unfold dequeuedDone Done.dequeued
  split <;> rfl

/-! Enqueues (07 R150). -/

/-- The gate of an enqueue: the pair's comparison, then a release at the queue's scope, or a commit. -/
def State.enqPoint (s : State) (e : Env) (cb : Piece) (ev : List Byte) : Gate :=
  (s.pairPoint e ev).andThen fun t =>
    if (s.reachQueue cb.pa cb.unc).queueScope cb.pa ≥ 2 then t.release e ((s.reachQueue cb.pa cb.unc).queueScope cb.pa)
    else t.commit e

section
variable {fin : State → List Word → Act} (hr : s.Reaches e h base p s1 cb)
  (hgo : s1.enqPoint e cb (queueBytes h opcode (e.element p (bits h 0 3))) = .go s2)
include hr hgo

/-- A try form that passes its checks and its gate asks its home. -/
theorem enqAct_try : enqAct opcode true fe base e h fin s =
    .wait (s2.ask e true true cb (bits h 0 3) (e.element p (bits h 0 3))) .answer := by
  obtain ⟨hhandle, hpayload, hfull, hblock, hmig, hnew, hstep, hrole⟩ := hr
  simp only [State.enqPoint] at hgo
  simp only [enqAct, hnew, hhandle, Bool.not_true, Bool.false_eq_true, if_false, hpayload, enqMissing, hfull, hblock,
    State.wouldPark_unstepped hstep, hgo, Gate.act, hrole, hmig, if_true]

/-- An enqueue that passes its checks and its gate does what it finds at its home as it issues. -/
theorem enqAct_now {r : Except Trap Bool} (hnow : s2.enqNow e cb (bits h 0 3) (e.element p (bits h 0 3)) = (t, r)) :
    enqAct opcode false fe base e h fin s = match r with
      | .error x => .trap t x
      | .ok true => fin t []
      | .ok false => .wait (t.ask e true false cb (bits h 0 3) (e.element p (bits h 0 3))) .roll := by
  obtain ⟨hhandle, hpayload, hfull, hblock, hmig, hnew, hstep, hrole⟩ := hr
  simp only [State.enqPoint] at hgo
  simp only [enqAct, hnew, hhandle, Bool.not_true, Bool.false_eq_true, if_false, hpayload, enqMissing, hfull, hblock,
    State.wouldPark_unstepped hstep, hgo, Gate.act, hrole, hmig, hnow]
  rcases r with x | _ | _ <;> rfl

end

/-! Dequeues (07 R151). -/

/-- The gate of a dequeue: the leading copy's DEQ compares before it asks (11 R229). -/
def State.deqPoint (s : State) (e : Env) (try_ : Bool) : Gate :=
  if e.blk.role = .leading ∧ try_ = false then s.commitPoint e [] else .go s

/-- A dequeue that passes its checks and its gate takes an element, for whatever follows. -/
theorem deqAct_takes {rd : Option Nat} {held : List Nat} {fin : State → Payload → Taken → Act} (hr : s.Reaches e h base p s1 cb)
    (hrd : rd.any (fun k => p.bits.contains k) = false) (hgo : s1.deqPoint e try_ = .go s2) :
    deqAct try_ base rd held e h fin s = deqTake try_ e cb (bits h 0 3) (p.bits ++ held) (fun t x => fin t p x) s2 := by
  obtain ⟨hhandle, hpayload, hfull, hblock, hmig, hnew, hstep, hrole⟩ := hr
  simp only [deqAct, hhandle, Bool.not_true, Bool.false_eq_true, if_false, hpayload, hrd, hnew, hfull, hblock,
    State.wouldPark_unstepped hstep]
  unfold State.deqPoint at hgo
  cases hcase : e.blk.role with
  | trailing => exact absurd hcase hrole
  | single =>
    obtain rfl : s1 = s2 := by simpa [hcase] using hgo
    rfl
  | leading =>
    cases try_ with
    | true =>
      obtain rfl : s1 = s2 := by simpa [hcase] using hgo
      rfl
    | false =>
      obtain hgo : s1.commitPoint e [] = .go s2 := by simpa [hcase] using hgo
      simp only [hgo, Gate.act, Bool.false_eq_true, if_false]

/-- The state of a dequeue in checkpoint mode that has been allocated element k and still has to commit (11 R229). -/
def State.deqGranted (s : State) (e : Env) (try_ : Bool) (k : Nat) (empty : List Nat) : State :=
  ((if try_ then s.forward e.blk e.who [1#32] else s).setPhase e (fun p => { p with answer := .granted k none })).holdBits e empty

section
variable {empty : List Nat} {fin : State → Taken → Act} (hmig : cb.mig = false)
include hmig

section
variable (hhere : s.away cb.pa = false)
include hhere

/-- A dequeue whose home's checks fail traps. -/
theorem deqTake_traps (hnow : s.deqNow e cb code = (t, .error x)) : deqTake try_ e cb code empty fin s = .trap t x := by
  simp only [deqTake, hmig, hhere, hnow, Bool.false_eq_true, if_false]

/-- Without checkpoints a dequeue goes on with the element that is there. -/
theorem deqTake_takes (hnow : s.deqNow e cb code = (t, .ok (some k))) (hplain : e.blk.ckptMode = false) :
    deqTake try_ e cb code empty fin s = fin t (some (some k, none)) := by
  simp only [deqTake, hmig, hhere, hnow, hplain, Bool.not_false, if_true, Bool.false_eq_true, if_false]

/-- With checkpoints it commits before it goes on with that element. -/
theorem deqTake_commits (hnow : s.deqNow e cb code = (t, .ok (some k))) (hckpt : e.blk.ckptMode = true)
    (hgo : (t.deqGranted e try_ k empty).commitPoint (e.again (t.deqGranted e try_ k empty)) [] = .go u) :
    deqTake try_ e cb code empty fin s = fin u (some (some k, none)) := by
  simp only [State.deqGranted] at hgo
  simp only [deqTake, hmig, hhere, hnow, hckpt, Bool.not_true, Bool.false_eq_true, if_false, hgo, Gate.act]

/-- A DEQ that finds no element asks its home and waits in the roll. -/
theorem deqTake_asks (hnow : s.deqNow e cb code = (t, .ok none)) :
    deqTake false e cb code empty fin s = .wait ((t.ask e false false cb code []).holdBits e empty) .roll := by
  simp only [deqTake, hmig, hhere, hnow, Bool.false_eq_true, if_false]

/-- A DEQT that finds no element goes on without one. -/
theorem deqTake_empty (hnow : s.deqNow e cb code = (t, .ok none)) :
    deqTake true e cb code empty fin s = fin (t.forward e.blk e.who [0#32]) none := by
  simp only [deqTake, hmig, hhere, hnow, Bool.false_eq_true, if_false, if_true]

end

/-- A dequeue of a queue on another device that has committed: a try form goes on as a producer, the other waits for the roll. -/
theorem deqTake_away (haway : s.away cb.pa = true) (hgo : (if e.blk.ckptMode then s.commitPoint e [] else .go s) = .go t) :
    deqTake try_ e cb code empty fin s =
      if try_ then fin (t.tick1.askFor e (.producer e.bid e.who t.fresh) false true cb code []) (some (some t.fresh, none))
      else .wait ((t.ask e false false cb code []).holdBits e empty) .roll := by
  simp only [deqTake, deqAbroad, hmig, haway, hgo, Gate.act, Bool.false_eq_true, if_false, if_true]

end

end

/-- Settles O33: the two enqueues are `enqAct`, the two dequeues `deqAct`, each with what follows its own operation. -/
theorem queueInstructionsAskTheHome : Obligations.QueueInstructionsAskTheHome := by
  intro s s1 s2 t u e i rd ra rb fe try_ g h code k base p cb op more vals x elem sc empty hcode hzero hmax hnew hstep hmig hpayload
    hfull hblock hi hrole
  subst hcode
  have hr : s.Reaches e _ base p s1 cb :=
    ⟨handleOk_of hzero hmax, hpayload, Ctx.firstEmpty_eq_none hfull, hblock, hmig, hnew, hstep, hrole⟩
  refine ⟨fun hform hgo => ?enqueue, fun hform hgo => ?dequeue⟩
  case enqueue =>
    rcases hform with ⟨rfl, rfl, rfl, rfl⟩ | ⟨rfl, rfl, rfl, rfl⟩
    · exact ⟨nofun, fun _ hnow => issue_done hi (enqAct_now hr hgo hnow), fun _ hnow => issue_wait hi (enqAct_now hr hgo hnow),
        fun _ hnow => issue_trap hi (enqAct_now hr hgo hnow)⟩
    · exact ⟨fun _ => issue_wait hi (enqAct_try hr hgo), nofun, nofun, nofun⟩
  case dequeue =>
    have hexec : ∃ body rd held fin, (∀ t, exec i t = issue i body t) ∧ body e [h] s = deqAct try_ base rd held e h fin s ∧
        held = more ∧ rd.any (fun k => p.bits.contains k) = false ∧
        (∀ t k data, fin t p (some (k, data)) = .done (dequeuedDone t e h p vals k data)) ∧
        (try_ = true → ∀ t, fin t p none = .done { state := t, vals := [0], long := true }) := by
      rcases hform with ⟨rfl, rfl, rfl, rfl, rfl⟩ | ⟨rfl, rfl, rfl, rfl, rfl, hout⟩
      · exact ⟨_, _, _, _, fun _ => rfl, rfl, rfl, rfl, fun _ _ _ => rfl, nofun⟩
      · exact ⟨_, _, _, _, fun _ => rfl, rfl, Fld.fullBits_word _ _ _, any_head_contains hout, fun _ _ _ => rfl,
          fun _ _ => by simp [Done.dequeued]⟩
    obtain ⟨body, rd, held, fin, hbody, hact, rfl, hrd, hsome, hnone⟩ := hexec
    have htake := hact.trans (deqAct_takes hr hrd hgo)
    rw [hbody]
    refine ⟨fun hhere => ⟨fun hnow => ?_, fun hnow hplain => ?_, fun hnow hckpt hcommit => ?_, fun hnow htry => ?_,
      fun hnow htry => ?_⟩, fun haway hcommit => ⟨fun htry => ?_, fun htry => ?_⟩⟩
    · exact issue_trap hi (htake.trans (deqTake_traps hmig hhere hnow))
    · exact issue_done hi ((htake.trans (deqTake_takes hmig hhere hnow hplain)).trans (hsome _ _ _))
    · exact issue_done hi ((htake.trans (deqTake_commits hmig hhere hnow hckpt hcommit)).trans (hsome _ _ _))
    · subst htry
      exact issue_wait hi (htake.trans (deqTake_asks hmig hhere hnow))
    · subst htry
      exact issue_done hi ((htake.trans (deqTake_empty hmig hhere hnow)).trans (hnone rfl _))
    · subst htry
      exact issue_wait hi (htake.trans (deqTake_away hmig haway hcommit))
    · subst htry
      exact issue_done hi ((htake.trans (deqTake_away hmig haway hcommit)).trans (hsome _ _ _))

end Sys2Proof.Machine
end

section
/-!
SUPPORT. The completion of queue instructions (07 R148 to R151; 03 R57; 11 R230; 18 R372 to R374): what an answered or granted one
leaves, what QINIT leaves at its home, and what QSTAT reads.
-/
namespace Sys2Proof.Machine

section
variable {s t u : State} {e : Env} {h k opcode : Nat} {base : Reg} {p : Payload} {try_ fe : Bool} {ws : List Word}
  {data : Option (List Word)}

/-! Answered enqueues and dequeues (07 R150, R151). -/

theorem enqAct_answered {fin : State → List Word → Act} (hgot : e.ctx.phase.answer = .got ws) :
    enqAct opcode try_ fe base e h fin s = fin s ws := by
  simp only [enqAct, hgot]

section
variable {rd : Option Nat} {held : List Nat} {fin : State → Payload → Taken → Act} (hhandle : handleOk h = true)
  (hpayload : e.payload base (bits h 0 3) = some p) (hrd : rd.any (fun k => p.bits.contains k) = false)
include hhandle hpayload hrd

/-- A dequeue whose home had nothing goes on without an element. -/
theorem deqAct_refused (hgot : e.ctx.phase.answer = .got ws) : deqAct try_ base rd held e h fin s = fin s p none := by
  simp only [deqAct, hhandle, Bool.not_true, Bool.false_eq_true, if_false, hpayload, hrd, hgot]

/-- A dequeue that has been granted an element, past its commit, goes on with it. -/
theorem deqAct_granted (hgrant : e.ctx.phase.answer = .granted k data)
    (hgo : (if e.blk.ckptMode then (s.holdBits e (p.bits ++ held)).commitPoint e [] else .go (s.holdBits e (p.bits ++ held))) = .go u) :
    deqAct try_ base rd held e h fin s = fin u p (some (some k, data)) := by
  simp only [deqAct, hhandle, Bool.not_true, Bool.false_eq_true, if_false, hpayload, hrd, hgrant, hgo, Gate.act]

end

end

/-! QINIT at its home (07 R148). -/

section
variable {s : State} {pa area lcap code scope : Nat}

/-- A queue at which requests are parked is not initialised. -/
theorem State.initHome_parked (hparked : ¬ (s.parkedAt pa true = [] ∧ s.parkedAt pa false = [])) :
    s.initHome pa area lcap code scope = (s, 5) := by
  refine if_pos ?_
  simpa only [Bool.or_eq_true, Bool.not_eq_true', List.isEmpty_eq_false_iff, ne_eq, not_and_or] using hparked

/-- With nobody parked at a block that memory backs, QINIT succeeds. -/
theorem State.initHome_status (hnone : s.parkedAt pa true = [] ∧ s.parkedAt pa false = []) (hcell : (s.paCell pa).isSome) :
    (s.initHome pa area lcap code scope).2 = 0 := by
  obtain ⟨henq, hdeq⟩ := hnone
  obtain ⟨c, hc⟩ := Option.isSome_iff_exists.1 hcell
  simp [State.initHome, henq, hdeq, hc]

end

section
variable {s s1 s2 s3 s4 : State} {e : Env} {rd ra rb : Reg} {fe : Bool} {g : Guard} {h q area lcap scope code : Nat} {cb p : Piece}
  {ps : List Piece} {ws : List Word}

/-- What a QINIT leaves that completes with this status: it is a commit point. -/
def Env.statusDone (e : Env) (t : State) (st : Nat) : Done := ({ state := t, vals := [st] } : Done).point e

/-- An answered QINIT completes with the status that came. -/
theorem exec_qinit_answered (hi : Issues s e (.qinit rd ra rb fe g) [h, q]) (hgot : e.ctx.phase.answer = .got ws) :
    exec (.qinit rd ra rb fe g) s = .next (s.retired e (.qinit rd ra rb fe g) (e.statusDone s (ws.getD 0 0).toNat)) :=
  issue_done hi (d := e.statusDone s (ws.getD 0 0).toNat) (by simp only [hgot]; rfl) (by simp [Env.statusDone])

section
variable (hi : Issues s e (.qinit rd ra rb fe g) [h, q]) (harea : bits q 0 64 = area) (hlcap : bits q 64 32 = lcap)
  (hscope : bits q 96 32 = scope) (hcode : bits h 0 3 = code) (hhandle : handleOk h = true) (hnew : e.ctx.phase.answer = .none)
  (hrole : e.blk.role ≠ .trailing) (hblock : s.controlBlock e.blk.space h needRW = (s1, .ok cb))
  (hgo : s1.commitPoint e (queueBytes h 0xC4 (toBytes 8 area ++ toBytes 8 lcap ++ toBytes 8 scope)) = .go s2)
  (hps : s2.pieces e.blk.space area 1 { r := false, w := false, x := false } = (s3, .ok (p :: ps)))
include hi harea hlcap hscope hcode hhandle hnew hrole hblock hgo hps

/-- A QINIT of an unsuitable area, capacity or page completes with its status and writes nothing else. -/
theorem exec_qinit_unsuitable {st : Nat}
    (hst : qinitStatus p (s3.pageOf e.blk.space area) area lcap scope code (cb.pa / 2 ^ 42) = st) (hbad : st ≠ 0) :
    exec (.qinit rd ra rb fe g) s =
      .next (s.retired e (.qinit rd ra rb fe g) (e.statusDone (s3.forward e.blk e.who [BitVec.ofNat 32 st]) st)) := by
  refine issue_done hi (d := e.statusDone (s3.forward e.blk e.who [BitVec.ofNat 32 st]) st) ?_ (by simp [Env.statusDone])
  simp only [List.getD_cons_zero, List.getD_cons_succ, harea, hlcap, hscope, hcode, hnew, hhandle, Bool.not_true, Bool.false_eq_true,
    if_false, hblock, hgo, Gate.act, hrole, hps, hst, ne_eq, hbad, not_false_eq_true, if_true, Env.statusDone]

/-- A suitable QINIT of a queue on this package is performed at its home once its release is done. -/
theorem exec_qinit_atHome (hgood : qinitStatus p (s3.pageOf e.blk.space area) area lcap scope code (cb.pa / 2 ^ 42) = 0)
    (hrel : s3.release e scope = .go s4) (hmig : cb.mig = false) (hhere : s4.away cb.pa = false) {z : State} {st : Nat}
    (hz : (s4.reachNow e cb).initHome cb.pa p.pa lcap code scope = (z, st)) :
    exec (.qinit rd ra rb fe g) s = .next (s.retired e (.qinit rd ra rb fe g)
      (e.statusDone ((z.mark e.bid).forward e.blk e.who [BitVec.ofNat 32 st]) st)) := by
  refine issue_done hi (d := e.statusDone ((z.mark e.bid).forward e.blk e.who [BitVec.ofNat 32 st]) st) ?_
    (by simp [Env.statusDone])
  simp only [List.getD_cons_zero, List.getD_cons_succ, harea, hlcap, hscope, hcode, hnew, hhandle, Bool.not_true, Bool.false_eq_true,
    if_false, hblock, hgo, Gate.act, hrole, hps, hgood, ne_eq, not_true_eq_false, hrel, hmig, hhere, hz, Env.statusDone]

end

/-! QSTAT (07 R149). -/

/-- The four words of an unpoisoned control block, which a failed check breaks first. -/
theorem State.statHome_ok {pa : Nat} {bs : List Byte} (hctl : s.ctlBytes pa = (s2, bs))
    (hclean : (s2.paCell pa).bind (fun c => s2.poisonIn c 64) = none) :
    let t := if queueCheck bs none = none then s2 else s2.breakQueue pa
    let c := t.ctl pa
    s.statHome pa =
      (t, .ok [BitVec.ofNat 32 c.occupied, BitVec.ofNat 32 c.free, BitVec.ofNat 32 c.conf, BitVec.ofNat 32 c.wait]) := by
  simp only [State.statHome, hctl, hclean]
  cases queueCheck bs none <;> rfl

/-- An answered QSTAT completes with the words that came. -/
theorem exec_qstat_answered (hi : Issues s e (.qstat rd ra fe g) [h]) (hgot : e.ctx.phase.answer = .got ws) :
    exec (.qstat rd ra fe g) s = .next (s.retired e (.qstat rd ra fe g) { state := s, vals := [ofBytes (bytesOf ws)] }) :=
  issue_done hi (by simp only [hgot]; rfl)

/-- A QSTAT of a queue on this package completes with what its home gives. -/
theorem exec_qstat_atHome {t : State} (hi : Issues s e (.qstat rd ra fe g) [h]) (hhandle : handleOk h = true)
    (hnew : e.ctx.phase.answer = .none) (hrole : e.blk.role ≠ .trailing)
    (hblock : s.controlBlock e.blk.space h needR = (s1, .ok cb)) (hmig : cb.mig = false) (hhere : s1.away cb.pa = false)
    (hstat : (s1.reachNow e cb).statHome cb.pa = (t, .ok ws)) :
    exec (.qstat rd ra fe g) s =
      .next (s.retired e (.qstat rd ra fe g) { state := t.forward e.blk e.who ws, vals := [ofBytes (bytesOf ws)] }) :=
  issue_done hi (by
    simp only [List.getD_cons_zero, hnew, hhandle, Bool.not_true, Bool.false_eq_true, if_false, hblock, hrole, hmig, hhere, hstat]
    rfl)

end

/-- Settles O34, instruction by instruction. -/
theorem queueInstructionsComplete : Obligations.QueueInstructionsComplete := by
  refine ⟨?answers, ?control⟩
  case answers =>
    intro s u e rd ra rb fe g h k p ws data code bits1 passes hzero hmax
    have hhandle := handleOk_of hzero hmax
    refine ⟨fun hgot => ⟨fun hi => ?_, fun hi => ?_, fun hi hp hout => ?_⟩, fun hgrant => ⟨fun hi hp hgo => ?_, fun hi hp hout hgo => ?_⟩⟩
    · exact issue_done hi (enqAct_answered hgot)
    · exact issue_done hi (enqAct_answered hgot)
    · refine issue_done hi ((deqAct_refused hhandle hp (any_head_contains hout) hgot).trans ?_)
      simp [Done.dequeued]
    · exact issue_done hi (deqAct_granted hhandle hp rfl hgrant hgo)
    · exact issue_done hi (deqAct_granted hhandle hp (any_head_contains hout) hgrant (by rwa [Fld.fullBits_word]))
  case control =>
    intro s s1 s2 s3 s4 e rd ra rb fe g h q cb p ps ws area lcap scope status u z leave none5 hzero hmax hrole
    have hhandle := handleOk_of hzero hmax
    refine ⟨fun hi => ⟨exec_qinit_answered hi, fun hnew hblock hgo hps => ?qinit⟩,
      fun hi => ⟨exec_qstat_answered hi, fun hnew hblock hmig hhere hctl hclean => ?qstat⟩⟩
    case qinit =>
      have hlcap : bits q 64 32 = lcap := bits_eq_div_mod ..
      have hscope : bits q 96 32 = scope := bits_eq_div_mod ..
      refine ⟨fun hbad => ?_, fun hgood hrel hmig hhere => ⟨fun hparked => ?_, fun hnone hcell => ?_⟩⟩
      · exact exec_qinit_unsuitable hi rfl hlcap hscope rfl hhandle hnew hrole hblock hgo hps rfl hbad
      · have hstays : u.initHome cb.pa p.pa lcap (h % 8) scope = (u, 5) := State.initHome_parked hparked
        exact exec_qinit_atHome hi rfl hlcap hscope rfl hhandle hnew hrole hblock hgo hps hgood hrel hmig hhere hstays
      · have hdone : u.initHome cb.pa p.pa lcap (h % 8) scope = (z, 0) := Prod.ext rfl (State.initHome_status hnone hcell)
        exact exec_qinit_atHome hi rfl hlcap hscope rfl hhandle hnew hrole hblock hgo hps hgood hrel hmig hhere hdone
    case qstat => exact exec_qstat_atHome hi hhandle hnew hrole hblock hmig hhere (State.statHome_ok hctl hclean)

end Sys2Proof.Machine
end

section
/-!
SUPPORT. Requests at their homes (07 R145, R150 to R153, R155 to R157; 05 R102; 01 R13): what a queue request and a tagged access come
to when they reach theirs, and what the completion of an allocated queue operation leaves.
-/
namespace Sys2Proof.Machine

/-! What a request does at a home that is free for it (07 R150, R151). -/

/-- An enqueue at its home that nobody waits before: its record's release first, then an index, an answer of 0, or the roll. -/
def State.enqTaken (s : State) (q : QReq) : State :=
  let t := s.recordRelease q.from_
  if t.owesRelease q then t
  else if t.room q.pa = 0 || !(t.parkedAt q.pa true).isEmpty then (if q.try_ then t.tryFails q else t.parkReq q)
  else t.allocEnq q

/-- A dequeue at its home: an element, an answer of 0, or the roll. -/
def State.deqTaken (s : State) (q : QReq) : State :=
  if s.unclaimed q.pa = 0 || !(s.parkedAt q.pa false).isEmpty then (if q.try_ then s.tryFails q else s.parkReq q) else s.allocDeq q

/-- A queue request at its home, by its kind. -/
def State.reqTaken (enq : Bool) (s : State) (q : QReq) : State :=
  match enq with
  | true => s.enqTaken q
  | false => s.deqTaken q

theorem exec_queueEnqAtHome (req : Nat) (s : State) :
    exec (.queueEnqAtHome req) s = .next (s.takeUp req true (State.reqTaken true)) := rfl

theorem exec_queueDeqAtHome (req : Nat) (s : State) :
    exec (.queueDeqAtHome req) s = .next (s.takeUp req false (State.reqTaken false)) := rfl

section
variable {s t : State} {q : QReq}

theorem State.enqTaken_owes (howes : (s.recordRelease q.from_).owesRelease q = true) : s.enqTaken q = s.recordRelease q.from_ :=
  if_pos howes

theorem State.enqTaken_allocates (ht : s.recordRelease q.from_ = t) (hpaid : t.owesRelease q = false) (hroom : 0 < t.room q.pa)
    (hnone : t.parkedAt q.pa true = []) : s.enqTaken q = t.allocEnq q := by
  simp [State.enqTaken, ht, hpaid, Nat.ne_of_gt hroom, hnone]

theorem State.enqTaken_waits (ht : s.recordRelease q.from_ = t) (hpaid : t.owesRelease q = false)
    (hfull : t.room q.pa = 0 ∨ t.parkedAt q.pa true ≠ []) :
    s.enqTaken q = if q.try_ then t.tryFails q else t.parkReq q := by
  have hwait : (decide (t.room q.pa = 0) || !(t.parkedAt q.pa true).isEmpty) = true := by simpa using hfull
  simp only [State.enqTaken, ht, hpaid, Bool.false_eq_true, if_false, hwait, if_true]

theorem State.deqTaken_allocates (helem : 0 < s.unclaimed q.pa) (hnone : s.parkedAt q.pa false = []) :
    s.deqTaken q = s.allocDeq q := by
  simp [State.deqTaken, Nat.ne_of_gt helem, hnone]

theorem State.deqTaken_waits (hempty : s.unclaimed q.pa = 0 ∨ s.parkedAt q.pa false ≠ []) :
    s.deqTaken q = if q.try_ then s.tryFails q else s.parkReq q :=
  if_pos (by simpa using hempty)

end

/-! A queue request that reaches its home (07 R145; 01 R13; 05 R102). -/

section
variable {s s1 s2 : State} {req : Nat} {enq : Bool} {q q1 : QReq} {x : Trap} {go : State → QReq → State}

/-- The checks that a resolved request meets at its home, once its core has given up the control block's line (05 R102). -/
def State.checkedAt (s : State) (q : QReq) : State × Option Trap :=
  ((s.evictCtl q.from_ q.pa).reachQueue q.pa q.unc).checkHome q.pa (some q.code)

variable (hq : s.qreqs.find? (fun r => r.rid == req) = some q) (hkind : q.enq = enq) (hway : q.parked = false)
  (hidle : q.busy = false)
include hq hkind hway hidle

/-- A request that cannot be resolved fails. -/
theorem State.takeUp_fails (hres : s.resolve q = (s1, .error x)) : s.takeUp req enq go = (s1.dropReq req).queueFail q x := by
  simp [State.takeUp, hq, hkind, hway, hidle, hres]

section
variable (hres : s.resolve q = (s1, .ok (some q1)))
include hres

/-- A request waits for those of its pair of stops before it. -/
theorem State.takeUp_behind (hahead : s.queueAhead q.src (s.homeStop q1.pa) (some req) = true) : s.takeUp req enq go = s := by
  simp [State.takeUp, hq, hkind, hway, hidle, hres, hahead]

variable (hfirst : s.queueAhead q.src (s.homeStop q1.pa) (some req) = false)
include hfirst

/-- A request of a queue on another device goes to its link, after the release that a record owes. -/
theorem State.takeUp_away (haway : s.away q1.pa = true) : s.takeUp req enq go =
    if (s1.recordRelease q1.from_).owesRelease q1 then s1.recordRelease q1.from_ else (s1.recordRelease q1.from_).queueAway q1 := by
  simp [State.takeUp, hq, hkind, hway, hidle, hres, hfirst, haway]

/-- A failed check fails the request. -/
theorem State.takeUp_refused (hhere : s.away q1.pa = false) (hcheck : s1.checkedAt q1 = (s2, some x)) :
    s.takeUp req enq go = (s2.dropReq req).queueFail q1 x := by
  simp only [State.checkedAt] at hcheck
  simp [State.takeUp, hq, hkind, hway, hidle, hres, hfirst, hhere, hcheck]

/-- A request that passes its checks is taken. -/
theorem State.takeUp_goes (hhere : s.away q1.pa = false) (hcheck : s1.checkedAt q1 = (s2, none)) :
    s.takeUp req enq go = go s2 q1 := by
  simp only [State.checkedAt] at hcheck
  simp [State.takeUp, hq, hkind, hway, hidle, hres, hfirst, hhere, hcheck]

end

end

/-! Allocated operations that complete (07 R150, R151, R153). -/

section
variable {s s1 : State} {pa : Nat} {f : QFrom} {rest : List QFrom} {data : List Byte}

/-- The control block with the oldest enqueue visible. -/
def QCtl.pushed (c : QCtl) : QCtl :=
  { c with tail := (c.tail + 1) % 2 ^ 32, free := (c.free + 2 ^ 32 - 1) % 2 ^ 32, enqcnt := (c.enqcnt + 1) % 2 ^ 64 }

/-- The state in which the home looks at the control block for whoever made an operation. -/
def State.ctlFound (s : State) (f : QFrom) (pa : Nat) : State := ((s.evictCtl f pa).ctlBytes pa).1

/-- An acknowledged write makes the oldest enqueue visible. -/
theorem exec_queueEnqWriteAck (holdest : (s.qhome pa).enqs = f :: rest) : exec (.queueEnqWriteAck pa) s =
    .next (((((s.ctlFound f pa).ctlUpdate pa ((s.ctlFound f pa).ctl pa).pushed).setQhome
      { s.qhome pa with enqs := rest }).enqDone f).serve pa) := by
  show execQueueEnqWriteAck pa s = _
  simp only [execQueueEnqWriteAck, event, State.enqAck, holdest]
  rfl

/-- A performed read frees its slot and brings its data. -/
theorem exec_queueDeqReadDone (holdest : (s.qhome pa).deqs = f :: rest) (hcommitted : s.beforeCommit f = false)
    (hread : (s.ctlFound f pa).readSlot (some f) ((s.ctlFound f pa).ctl pa)
      (4 * stackOfCell (((s.ctlFound f pa).paCell pa).getD 0)) ((s.ctlFound f pa).ctl pa).head = (s1, .ok data)) :
    let c := (s.ctlFound f pa).ctl pa
    let s2 := (s1.setQhome { s.qhome pa with deqs := rest }).ctlUpdate pa c.popped
    exec (.queueDeqReadDone pa) s = .next (((s2.deqDone f data).readFor f s.fresh (c.slot c.head)
      ((s2.cellsOf (c.slot c.head) (2 ^ c.lsize)).getD [])).serve pa) := by
  show execQueueDeqReadDone pa s = _
  simp only [State.ctlFound] at hread
  simp only [execQueueDeqReadDone, event, State.deqRead, holdest, hcommitted, Bool.false_eq_true, if_false, hread]
  rfl

/-- The read of a dequeue whose block owes a commit is not performed. -/
theorem exec_queueDeqReadDone_held (holdest : (s.qhome pa).deqs = f :: rest) (hheld : s.beforeCommit f = true) :
    exec (.queueDeqReadDone pa) s = .next s := by
  show execQueueDeqReadDone pa s = _
  simp only [execQueueDeqReadDone, event, State.deqRead, holdest, hheld, if_true]

end

/-! A tagged access that reaches its granule's home (07 R152, R156, R157). -/

section
variable {s : State} {req c : Nat} {q : TagReq} (hq : s.treqs.find? (fun x => x.rid == req) = some q) (hway : q.waiting = false)
  (hidle : q.busy = false) (hfirst : s.tagAhead q.src (s.homeStop q.pa) (some req) = false)
include hq hway hidle hfirst

/-- One toward another device leaves by its link. -/
theorem exec_taggedAccess_away (hcell : s.paCell q.pa = none) (haway : s.away q.pa = true) :
    exec (.taggedAccessAtHome req) s = .next (s.tagAway q) := by
  show execTaggedAccessAtHome req s = _
  simp [execTaggedAccessAtHome, event, State.tagHome, hq, hcell, hway, hidle, haway, hfirst]

variable (hcell : s.paCell q.pa = some c)
include hcell

/-- One whose condition holds is performed, and its granule's waiters after a change of the tag. -/
theorem exec_taggedAccess_performs (hready : s.tagReady q c = true) : exec (.taggedAccessAtHome req) s =
    .next (if ((s.recall (c / 64)).tagPerform q c).2 then ((s.recall (c / 64)).tagPerform q c).1.tagChanged (c / 16)
      else ((s.recall (c / 64)).tagPerform q c).1) := by
  show execTaggedAccessAtHome req s = _
  simp [execTaggedAccessAtHome, event, State.tagHome, hq, hcell, hway, hidle, hfirst, hready]

section
variable (hblocked : s.tagReady q c = false) (hclean : q.load = true → s.poisonIn c q.size = none)
  (hunstepped : q.remote = none → s.stepped q.bid q.who = false)
include hblocked hclean hunstepped

/-- One that has to wait stands in its granule's list, or is busy where the roll has no entry free. -/
theorem exec_taggedAccess_waits : exec (.taggedAccessAtHome req) s = .next
    (if s.rollFree q.pa then
      let t : State := { s with treqs := s.treqs.filter (fun x => x.rid != req) ++ [{ q with waiting := true }] }
      if q.remote.isSome then t else t.modCtx q.bid q.who (fun c => { c with wait := some .tag })
    else { s with treqs := s.treqs.map (fun x => if x.rid = req then { x with busy := true } else x) }) := by
  show execTaggedAccessAtHome req s = _
  have hsound : (q.load && (s.poisonIn c q.size).isSome) = false := by
    cases hload : q.load with
    | false => rfl
    | true => simp [hclean hload]
  have hmay : (q.remote.isNone && s.stepped q.bid q.who) = false := by
    cases hremote : q.remote with
    | none => simpa using hunstepped hremote
    | some r => rfl
  simp only [execTaggedAccessAtHome, event, State.tagHome, hq, hcell, hway, hidle, hfirst, hblocked, hsound, hmay, Bool.or_self,
    Bool.false_eq_true, if_false]

end

end

/-- Settles O42: queue requests go through `takeUp`, tagged accesses through `tagHome`. -/
theorem homesPerformTheirRequests : Obligations.HomesPerformTheirRequests := by
  refine ⟨?queue, ?tag⟩
  case queue =>
    intro s s1 s2 req pa enq i q q1 x f rest data here t a
    refine ⟨fun hform hq hkind hway hidle => ?request, exec_queueEnqWriteAck, exec_queueDeqReadDone, exec_queueDeqReadDone_held⟩
    have hexec : exec i s = .next (s.takeUp req enq (State.reqTaken enq)) := by
      rcases hform with ⟨rfl, rfl⟩ | ⟨rfl, rfl⟩
      · exact exec_queueEnqAtHome req s
      · exact exec_queueDeqAtHome req s
    rw [hexec]
    refine ⟨fun hres => congrArg _ (State.takeUp_fails hq hkind hway hidle hres),
      fun hres hahead => congrArg _ (State.takeUp_behind hq hkind hway hidle hres hahead),
      fun hres hfirst haway => congrArg _ (State.takeUp_away hq hkind hway hidle hres hfirst haway),
      fun hres hfirst hhere => ⟨fun hcheck => congrArg _ (State.takeUp_refused hq hkind hway hidle hres hfirst hhere hcheck),
        fun hcheck => ?_⟩⟩
    rw [State.takeUp_goes hq hkind hway hidle hres hfirst hhere hcheck]
    cases enq with
    | true =>
      refine ⟨fun _ howes => congrArg _ (State.enqTaken_owes howes),
        fun _ hpaid hroom hnone => congrArg _ (State.enqTaken_allocates rfl hpaid hroom hnone), nofun, ?_⟩
      rintro (⟨-, hpaid, hfull⟩ | ⟨hfalse, -⟩)
      · exact congrArg _ (State.enqTaken_waits rfl hpaid hfull)
      · cases hfalse
    | false =>
      refine ⟨nofun, nofun, fun _ helem hnone => congrArg _ (State.deqTaken_allocates helem hnone), ?_⟩
      rintro (⟨hfalse, -⟩ | ⟨-, hempty⟩)
      · cases hfalse
      · exact congrArg _ (State.deqTaken_waits hempty)
  case tag =>
    intro s req c q first holds r
    refine ⟨rfl, fun hq hcell hway hidle hfirst => ⟨exec_taggedAccess_performs hq hway hidle hfirst hcell,
      fun hblocked hclean hunstepped => ?_⟩,
      fun hq hcell hway hidle haway hfirst => exec_taggedAccess_away hq hway hidle hfirst hcell haway⟩
    have hwaits := exec_taggedAccess_waits hq hway hidle hfirst hcell hblocked hclean hunstepped
    exact ⟨fun hfree => hwaits.trans (congrArg _ (if_pos hfree)),
      fun hfull => hwaits.trans (congrArg _ (if_neg (Bool.eq_false_iff.1 hfull)))⟩

end Sys2Proof.Machine
end

section
/-!
SUPPORT. The engine instructions (08 R162, R164, R165; 15 R313 to R316; 17 R356, R357): what a CPY and a bulk operation whose checks pass
start, and how the read of a record goes.
-/
namespace Sys2Proof.Machine

section
variable {s s1 s2 s3 s4 t : State} {e : Env} {i : Instr} {rd ra rb : Reg} {sz : BitVec 3} {b fe mem : Bool} {g : Guard}
  {a d n tq opcode va : Nat} {k : EngKind} {h : Shape} {ps : List Piece} {bs : List Byte} {known : List (Nat × Byte)}

/-! What an instruction leaves that has started an operation (11 R229, R230). -/

/-- An instruction that has started an operation goes on; if that writes memory in checkpoint mode, as a commit point. -/
def Env.engineDone (e : Env) (mem : Bool) (t : State) : Done :=
  if mem && e.blk.ckptMode then { state := t.takeOrdinal e, sealed := true } else { state := t }

theorem Env.engineDone_eq (e : Env) (mem : Bool) (t : State) :
    (if mem && e.blk.ckptMode then ({ state := t } : Done).point e else { state := t }) = e.engineDone mem t := by
  cases mem with
  | false => rfl
  | true => cases hmode : e.blk.ckptMode <;> simp [Env.engineDone, Done.point, hmode]

@[simp] theorem Env.engineDone_loaded (e : Env) (mem : Bool) (t : State) : (e.engineDone mem t).loaded = none := by
  unfold Env.engineDone
  split <;> rfl

theorem Env.classFull_eq_true {cls : Nat} (hfull : 255 ≤ e.ctx.counter cls) : e.classFull cls = true := decide_eq_true hfull

theorem Env.classFull_eq_false {cls : Nat} (hroom : e.ctx.counter cls < 255) : e.classFull cls = false :=
  decide_eq_false (Nat.not_le.2 hroom)

/-! CPY (08 R162). -/

/-- The copy of n bytes that an issuer's CPY starts. -/
def Env.copyOp (e : Env) (t : State) (src dst n : Nat) : EngOp :=
  { oid := t.fresh, bid := e.bid, who := e.who, pc := e.ctx.pc, kind := .cpy,
    shape := { src := BitVec.ofNat 64 src, dst := BitVec.ofNat 64 dst, ticket := 0, addm := false, tbuf := 0, trig := 0, dec := false,
               dfmt := 0, ndim := 0, esize := 0, dkind := 0, skind := 0, box := [], valid := [], sstr := [], dstr := [] },
    size := n, cq := 0, tq := 0, phase := .running, done := 0, bytes := 0, readers := [], status := 0, code := none, detail := 0,
    faddr := 0, srcOff := 0, desc := 0, page := 0, fetched := [], sending := false }

/-- An aligned CPY whose class has room starts its copy. -/
theorem exec_cpy_starts (hi : Issues s e (.cpy rd ra sz b) [a, d]) (hsrc : a % sizeBytes sz = 0) (hdst : d % sizeBytes sz = 0)
    (hroom : e.ctx.counter 0 < 255) (hgo : s.enginePoint e (toBytes 8 d ++ [0xC0, 0xC9]) = .go t) :
    exec (.cpy rd ra sz b) s = .next (s.retired e (.cpy rd ra sz b)
      (e.engineDone true (t.startOp e (e.copyOp t a d (sizeBytes sz))))) :=
  issue_done hi (by
    simp only [List.getD_cons_zero, List.getD_cons_succ, hsrc, hdst, ne_eq, not_true_eq_false, or_self, if_false,
      Env.classFull_eq_false hroom, Bool.false_eq_true, hgo, Gate.act, ← Env.engineDone_eq, Bool.true_and]
    rfl)

/-! Bytes that an instruction uses as it issues (08 R165). -/

/-- The n bytes that issuer e reads from these pieces are bs, known in state s3: all that it has asked other devices for have come, or it
has asked for none and every piece lies in this package. -/
def State.HasRead (s : State) (e : Env) (n : Nat) (ps : List Piece) (known : List (Nat × Byte)) (s3 : State) (bs : List Byte) : Prop :=
  (e.ctx.phase.answer = .loading known ∧ gathered known n = some bs ∧ s3 = s) ∨
    ((∀ x, e.ctx.phase.answer ≠ .loading x) ∧ s.anyAway ps = false ∧ s.readPieces e.core (s.bufferFor e ps) ps = (s3, .ok bs))

/-- An instruction that has read its bytes goes on with them. -/
theorem awayRead_goes (hread : s.HasRead e n ps known s3 bs) (go : State → List Byte → Act) :
    awayRead e va n ps go s = go s3 bs := by
  rcases hread with ⟨hcome, hall, rfl⟩ | ⟨hnew, hhere, hbytes⟩
  · simp only [awayRead, hcome, hall]
  · unfold awayRead
    split
    · exact absurd ‹_› (hnew _)
    · simp only [hhere, Bool.false_eq_true, if_false, hbytes]

/-- An instruction some of whose bytes lie on another device asks for them and waits. -/
theorem awayRead_asks (hnew : ∀ x, e.ctx.phase.answer ≠ .loading x) (haway : s.anyAway ps = true)
    (hknown : s.knownBytes e.core (s.bufferFor e ps) va ps = (s3, .ok known)) (hmissing : gathered known n = none)
    (go : State → List Byte → Act) : awayRead e va n ps go s = .wait (s3.askHeld e va ps known) .answer := by
  unfold awayRead
  split
  · exact absurd ‹_› (hnew _)
  · simp only [haway, if_true, hknown, hmissing]

/-! Bulk operations (08 R164, R165). -/

/-- The operation that a record h starts, with its completion and trigger queues. -/
def Env.bulkOp (e : Env) (t : State) (k : EngKind) (h : Shape) (cq tq : Nat) : EngOp :=
  { oid := t.fresh, bid := e.bid, who := e.who, pc := e.ctx.pc, kind := k, shape := h, size := 0, cq := BitVec.ofNat 64 cq,
    tq := BitVec.ofNat 64 tq, phase := if h.trig = 0 then .running else .waitTrigger, done := 0, bytes := 0,
    readers := if h.trig = 1 then t.pendingReaders e.core e.bid h.tbuf else [], status := 0, code := none, detail := 0, faddr := 0,
    srcOff := 0, desc := 0, page := 0, fetched := [], sending := false }

theorem bulkStart_full (hfull : 255 ≤ e.ctx.counter k.cls) : bulkStart k opcode a d tq h e s = .wait s .classFull := by
  simp only [bulkStart, Env.classFull_eq_true hfull, if_true]

/-- A checked record whose class has room and whose grains can be claimed starts its operation; an MLDB makes what the array has latched of
its slice stale first (09 R184). -/
theorem bulkStart_starts (hroom : e.ctx.counter k.cls < 255)
    (hclaim : (if h.dkind = 0 ∧ k ≠ .mdrst then .ok s else s.claim e (h.grains k)) = .ok s4)
    (hgo : (if h.dkind = 0 then s4.enginePoint e (engineEvent a opcode) else .go s4) = .go t) :
    let t1 := if k = .mldb then t.unlatch e.core h.dindex else t
    bulkStart k opcode a d tq h e s = .done (e.engineDone (decide (h.dkind = 0)) (t1.startOp e (e.bulkOp t1 k h d tq))) := by
  simp only [bulkStart, Env.classFull_eq_false hroom, Bool.false_eq_true, if_false, hclaim, decide_eq_true_eq, hgo, Gate.act,
    ← Env.engineDone_eq]
  rfl

section
variable (halign : a % 64 = 0) (hps : s.pieces e.blk.space a 64 needR = (s1, .ok ps)) (hgo : s1.beforeRead e a 64 = .go s2)
include halign hps hgo

/-- An aligned record of which a part lies on another device is asked for. -/
theorem bulkAct_asks (hnew : ∀ x, e.ctx.phase.answer ≠ .loading x) (haway : s2.anyAway ps = true)
    (hknown : s2.knownBytes e.core (s2.bufferFor e ps) a ps = (s3, .ok known)) (hmissing : gathered known 64 = none) :
    bulkAct k opcode rb fe e [a, d] s = .wait (s3.askHeld e a ps known) .answer := by
  simp only [bulkAct, List.getD_cons_zero, halign, ne_eq, not_true_eq_false, if_false, hps, hgo, Gate.act,
    awayRead_asks hnew haway hknown hmissing]

/-- A record that has been read and is legal, with legal handles, starts its operation as its class allows. -/
theorem bulkAct_checked (hread : s2.HasRead e 64 ps known s3 bs) (hcq : d = 0 ∨ (d / 8 % 8 = 0 ∧ d % 8 = 3))
    (hlegal : (shapeZeros bs && (Shape.of bs).codesOk && (Shape.of bs).shapeOk && (Shape.of bs).kindOk k) = true)
    (htq : (if (Shape.of bs).trig = 2 then triggerHandle e rb fe else .ok 0) = .ok tq) :
    bulkAct k opcode rb fe e [a, d] s = bulkStart k opcode a d tq (Shape.of bs) e s3 := by
  obtain ⟨⟨⟨hzeros, hcodes⟩, hshape⟩, hkind⟩ : ((shapeZeros bs = true ∧ (Shape.of bs).codesOk = true) ∧
    (Shape.of bs).shapeOk = true) ∧ (Shape.of bs).kindOk k = true := by simpa only [Bool.and_eq_true] using hlegal
  have hhandle : ¬ (d ≠ 0 ∧ (bits d 3 3 ≠ 0 ∨ bits d 0 3 ≠ 3)) := by
    simp only [bits_eq_div_mod]
    omega
  simp only [bulkAct, List.getD_cons_zero, List.getD_cons_succ, halign, ne_eq, not_true_eq_false, if_false, hps, hgo, Gate.act,
    awayRead_goes hread, hzeros, hcodes, hshape, hkind, Bool.not_true, Bool.or_self, Bool.false_eq_true, hhandle, htq]

end

/-- The four bulk instructions, each with its kind of operation and its opcode (15 R314; 17 R356, R357). -/
def IsBulk (i : Instr) (rd ra rb : Reg) (fe : Bool) (g : Guard) (k : EngKind) (opcode : Nat) : Prop :=
  (i = .cpyb rd ra rb fe g ∧ k = .cpyb ∧ opcode = 0xCA) ∨ (i = .cpys rd ra rb fe g ∧ k = .cpys ∧ opcode = 0xCB) ∨
    (i = .mldb rd ra rb fe g ∧ k = .mldb ∧ opcode = 0xD2) ∨ (i = .mdrst rd ra rb fe g ∧ k = .mdrst ∧ opcode = 0xD4)

theorem IsBulk.exec_eq (hform : IsBulk i rd ra rb fe g k opcode) (s : State) :
    exec i s = issue i (fun e v s => bulkAct k opcode rb fe e v s) s := by
  rcases hform with ⟨rfl, rfl, rfl⟩ | ⟨rfl, rfl, rfl⟩ | ⟨rfl, rfl, rfl⟩ | ⟨rfl, rfl, rfl⟩ <;> rfl

end

/-- Settles O35: the four bulk instructions are one operation, `bulkAct`, which reads its record by `awayRead`. -/
theorem engineInstructionsStartTheirOperation : Obligations.EngineInstructionsStartTheirOperation := by
  intro s s1 s2 s3 s4 t e i rd ra rb sz b fe g a d tq k op ps bs known n h raise start leave t1
  refine ⟨fun hi hsrc hdst hroom hgo => ⟨e.copyOp t a d n, rfl, rfl, rfl, rfl, rfl, rfl, exec_cpy_starts hi hsrc hdst hroom hgo⟩,
    fun (hform : IsBulk i rd ra rb fe g k op) hi halign hps hgo => ?bulk⟩
  rw [hform.exec_eq]
  refine ⟨fun hnew haway hknown hmissing => issue_wait hi (bulkAct_asks halign hps hgo hnew haway hknown hmissing),
    fun hread hcq hlegal htq => ?checked⟩
  have hact : bulkAct k op rb fe e [a, d] s = bulkStart k op a d tq h e s3 := bulkAct_checked halign hps hgo hread hcq hlegal htq
  exact ⟨fun hfull => issue_wait hi (hact.trans (bulkStart_full hfull)),
    fun hroom hclaim hpoint => ⟨e.bulkOp t1 k h d tq, rfl, rfl, rfl, rfl, rfl, rfl, rfl, rfl,
      issue_done (d := e.engineDone (decide (h.dkind = 0)) (t1.startOp e (e.bulkOp t1 k h d tq))) hi
        (hact.trans (bulkStart_starts hroom hclaim hpoint))⟩⟩

end Sys2Proof.Machine
end

section
/-!
SUPPORT. A unit of a compressed stream whose read fills the TLB (05 R97; 08 R167, R171): the model takes the end of the stream from the
state before the unit was read, EngineOperationsAdvance from the state after.
-/
namespace Sys2Proof.Machine

/-- A running addition of 16 FP32 elements from a compressed stream at 0xFFD8 to 0x1_0000, behind the stream's first block. That block, a
stored one of one sector, has come from device 5. -/
def overlappingAdd : EngOp :=
  { oid := 0, bid := 0, who := .lead, pc := 0x10000, kind := .cpyb,
    shape := { src := 0xFFD8, dst := 0x10000, ticket := 0, addm := true, tbuf := 0, trig := 0, dec := true, dfmt := 0, ndim := 0,
               esize := 2, dkind := 0, skind := 0, box := [16, 1, 1, 1], valid := [16, 1, 1, 1], sstr := [0, 0, 0], dstr := [0, 0, 0] },
    size := 0, cq := 0, tq := 0, phase := .running, done := 0, bytes := 0, readers := [], status := 0, code := none, detail := 0,
    faddr := 0, srcOff := 0, desc := 0, page := 0,
    fetched := (span (5 * 2 ^ 42 + 0xFFD8) 40).zip ((toBytes 8 0x20010 ++ List.replicate 32 0).map (fun x => (x, false))),
    sending := false }

/-- A machine that runs it. The page table maps the first GiB to device 5 (its root entry at local address 0, its leaf at 0x1000, which is
DRAM byte 2^32), while the TLB still holds a page of this device at 0x1_0000. -/
def staleTlb : State :=
  { State.reset with
    blocks := [placedBlock 0 0], ops := [overlappingAdd], tlb := [placedPage 0],
    mem := writeSparse (writeSparse [] 0 (toBytes 8 0x1001)) (2 ^ 32) (toBytes 8 (5 * 2 ^ 42 + 0x1F)) }

/-- Its first unit. -/
def staleUnit : State × Stream := staleTlb.stream (placedBlock 0 0).space overlappingAdd 0 8

/-- What a stream gives for a unit, if it gives bytes. -/
def Stream.bytes? (x : Stream) : Option (List Byte × Option (Nat × Nat)) :=
  match x with
  | .ok bs p => some (bs, p)
  | _ => none

theorem Stream.eq_ok {x : Stream} {bs : List Byte} {p : Option (Nat × Nat)} (h : x.bytes? = some (bs, p)) : x = .ok bs p := by
  cases x with
  | ok => simpa [Stream.bytes?] using h
  | _ => simp [Stream.bytes?] at h

/-- The additions of single words that have left for other devices (07 R160): a word that overlaps its source leaves as a free write. -/
def additionsAway (r : Host.Outcome State Fault Refusal) : Nat :=
  match r with
  | .next t => t.peers.outstanding.countP (fun x => match x.kind with
    | .red .. => true
    | _ => false)
  | _ => 0

/-- What EngineOperationsAdvance says the unit leaves: its bytes delivered with the end of the stream as the state after the read has it. -/
def claimedUnit : State :=
  let h := overlappingAdd.shape
  let t := staleUnit.1
  (t.deliver (placedBlock 0 0) overlappingAdd 8 (t.streamBytes (placedBlock 0 0).space overlappingAdd)
    (h.zeroed 0 8 (List.replicate 32 0)) none).landed (placedBlock 0 0) staleTlb.fresh (h.dstAt 0) (h.unitLen 0 * h.size)

/-- Before the unit is read the stale page answers for the stream's second header, at 0x1_0000: the stream ends behind it, after 48 bytes,
and the first two of the unit's eight words overlap it. -/
theorem additionsAway_staleTlb : additionsAway (exec (.engineUnitWrite 0) staleTlb) = 6 := by decide +kernel

/-- The read has put the GiB page in front of the stale one: the second header, now on device 5, has not come, the stream ends before it,
after 40 bytes, and no word overlaps. -/
theorem additionsAway_claimedUnit : additionsAway (.next claimedUnit) = 8 := by decide +kernel

/-- Refutes O43 by its last clause: a unit of a compressed stream. That clause takes the end of the stream, by which 08 R167 frees what
overlaps the source, from the state after the unit's read, which may have changed the TLB; the model takes it from the state before. -/
theorem not_engineOperationsAdvance : ¬ Obligations.EngineOperationsAdvance := by
  intro h
  obtain ⟨-, -, -, hbulk⟩ := h staleTlb staleUnit.1 staleTlb 0 8 0 0 0 0 overlappingAdd (placedBlock 0 0) (List.replicate 32 0) []
    none none rfl rfl rfl nofun
  obtain ⟨-, -, -, hdecoded⟩ := hbulk nofun nofun rfl (by decide) (by decide)
  have hunit : staleUnit = (staleUnit.1, .ok (List.replicate 32 0) none) := Prod.ext rfl (Stream.eq_ok (by decide +kernel))
  have hclaimed : exec (.engineUnitWrite 0) staleTlb = .next claimedUnit := (hdecoded rfl (by decide) rfl).2.2 hunit
  have hsame : 6 = 8 := additionsAway_staleTlb.symm.trans ((congrArg additionsAway hclaimed).trans additionsAway_claimedUnit)
  exact absurd hsame (by decide)

end Sys2Proof.Machine
end

section
/-!
SUPPORT. The end of engine operations (08 R169, R170; 06 R137): what an ended operation comes to, with and without a completion queue.
-/
namespace Sys2Proof.Machine

section
variable {s : State} {op : Nat} {o y : EngOp} {b : Block} {x : Trap}

theorem op_oid (hop : s.op? op = some o) : o.oid = op := by simpa using List.find?_some hop

/-! A fault of an operation without a completion queue (08 R170; log entry 12). -/

theorem State.faultOp_gone (hgone : (s.engineTrap b o.who o.pc x).op? o.oid = none) :
    s.faultOp b o x = s.engineTrap b o.who o.pc x := by
  simp only [State.faultOp, hgone]

theorem State.faultOp_ends (hstill : (s.engineTrap b o.who o.pc x).op? o.oid = some y) (hrole : b.role = .single) :
    s.faultOp b o x = (s.engineTrap b o.who o.pc x).endOp y := by
  simp only [State.faultOp, hstill, hrole, if_true]

theorem State.faultOp_stays (hstill : (s.engineTrap b o.who o.pc x).op? o.oid = some y) (hrole : b.role ≠ .single) :
    s.faultOp b o x = (s.engineTrap b o.who o.pc x).modOp o.oid (fun z =>
      { z with phase := .faulted, sending := false, code := some x.code, detail := x.detail, faddr := x.addr }) := by
  simp only [State.faultOp, hstill, hrole, if_false]

/-! The event (08 R169). -/

/-- The state in which an operation ends: the trailing copy of a pair has been told of one that writes memory (15 R316). -/
def State.endTold (s : State) (b : Block) (o : EngOp) : State :=
  if o.shape.dkind = 0 then s.tellPartner b o.who o.kind.cls else s

/-- What an ended operation that may complete comes to. -/
def State.opEnds (s : State) (b : Block) (o : EngOp) : State :=
  if o.cq = 0 then
    match o.trap? with
    | some x => (s.endTold b o).faultOp b o x
    | none => (s.endTold b o).endOp o
  else if b.role = .trailing then (s.endTold b o).endOp o
  else ((s.endTold b o).modOp o.oid (fun x => { x with phase := .reporting })).sendDone b o

/-- An ended operation of a resident block that is the oldest of its class and whose writes are acknowledged ends. -/
theorem exec_engineOperationEnd (hop : s.op? op = some o) (hb : s.block? o.bid = some b) (hcore : b.core.isSome = true)
    (holdest : s.opOldest o = true) (hacked : s.writesAbroad op = false) (hended : o.phase = .ended) :
    exec (.engineOperationEnd op) s = .next (s.opEnds b o) := by
  obtain rfl := op_oid hop
  show execEngineOperationEnd o.oid s = _
  simp only [execEngineOperationEnd, event, hop, hb, Option.isNone_eq_false_iff.2 hcore, holdest, hacked, hended, Bool.not_true,
    Bool.false_eq_true, or_self, if_false, reduceCtorEq, ne_eq, not_true_eq_false]
  rfl

theorem State.opEnds_done (hcq : o.cq = 0) (hclean : o.trap? = none) : s.opEnds b o = (s.endTold b o).endOp o := by
  simp only [State.opEnds, hcq, if_true, hclean]

theorem State.opEnds_faulted (hcq : o.cq = 0) (htrap : o.trap? = some x) : s.opEnds b o = (s.endTold b o).faultOp b o x := by
  simp only [State.opEnds, hcq, if_true, htrap]

theorem State.opEnds_trailing (hcq : o.cq ≠ 0) (hrole : b.role = .trailing) : s.opEnds b o = (s.endTold b o).endOp o := by
  simp only [State.opEnds, hcq, if_false, hrole, if_true]

theorem State.opEnds_reports (hcq : o.cq ≠ 0) (hrole : b.role ≠ .trailing) :
    s.opEnds b o = ((s.endTold b o).modOp o.oid (fun x => { x with phase := .reporting })).sendDone b o := by
  simp only [State.opEnds, hcq, if_false, hrole]

end

/-- Settles O44: an ended operation ends by `State.opEnds`, a fault of one without a completion queue by `State.faultOp`. -/
theorem engineOperationsEndWithTheirRecord : Obligations.EngineOperationsEndWithTheirRecord := by
  intro s op o y b x s1 u fcode detail hop hb hcore holdest hacked hended
  rw [exec_engineOperationEnd hop hb hcore holdest hacked hended]
  refine ⟨fun hcq hclean => ?done, fun hcq htrap hgone => ?gone, fun hcq htrap hstill => ⟨fun hrole => ?ends, fun hrole => ?stays⟩,
    fun hcq hrole => ?trailing, fun hcq hrole => ?reports⟩
  case done => exact congrArg _ (State.opEnds_done hcq (by simp [EngOp.trap?, hclean]))
  case gone => exact congrArg _ ((State.opEnds_faulted hcq htrap).trans (State.faultOp_gone hgone))
  case ends => exact congrArg _ ((State.opEnds_faulted hcq htrap).trans (State.faultOp_ends hstill hrole))
  case stays => exact congrArg _ ((State.opEnds_faulted hcq htrap).trans (State.faultOp_stays hstill hrole))
  case trailing => exact congrArg _ (State.opEnds_trailing hcq hrole)
  case reports =>
    rw [State.opEnds_reports hcq hrole]
    obtain rfl := op_oid hop
    exact ⟨_, rfl, rfl, rfl, rfl, rfl⟩

end Sys2Proof.Machine
end

section
/-!
SUPPORT. The matrix instructions (09 R181 to R183; 15 R300, R301; 17 R355): a command enters its queue by `issueCmd`, MDRAIN starts an
engine operation that holds its descriptor.
-/
namespace Sys2Proof.Machine

/-! The collective descriptor that an operation holds (09 R186). -/

theorem bits_mod_two_pow {lo n k : Nat} (x : Nat) (h : lo + n ≤ k) : bits (x % 2 ^ k) lo n = bits x lo n := by
  refine Nat.eq_of_testBit_eq fun i => ?_
  simp only [bits, Nat.testBit_mod_two_pow, Nat.testBit_shiftRight]
  by_cases hi : i < n
  · simp [hi, show lo + i < k by omega]
  · simp [hi]

/-- A descriptor is 128 bits of an a-register pair. -/
theorem SummitDesc.of_mod (a : Nat) : SummitDesc.of (a % 2 ^ 128) = SummitDesc.of a := by
  have hqh : BitVec.ofNat 64 (a % 2 ^ 128 / 2 ^ 64) = BitVec.ofNat 64 (a / 2 ^ 64) := BitVec.eq_of_toNat_eq (by simp; omega)
  simp only [SummitDesc.of, bitAt, Nat.testBit_mod_two_pow, hqh, bits_mod_two_pow a (k := 128) (by decide : 46 + 7 ≤ 128),
    bits_mod_two_pow a (k := 128) (by decide : 38 + 8 ≤ 128), bits_mod_two_pow a (k := 128) (by decide : 30 + 8 ≤ 128),
    bits_mod_two_pow a (k := 128) (by decide : 20 + 10 ≤ 128), bits_mod_two_pow a (k := 128) (by decide : 10 + 10 ≤ 128),
    bits_mod_two_pow a (k := 128) (by decide : 0 + 10 ≤ 128)]
  simp

section
variable {s t u : State} {e : Env} {i : Instr} {rd ra rb : Reg} {fe zero : Bool} {g : Guard} {a b : Nat} {gs : List Named}
  {ev : List Byte}

/-! Commands (09 R181 to R183). -/

theorem State.issueCmd_enters (hqueue : s.queueFull e = false) (hclass : e.ctx.counter 2 < 255) (hclaim : s.claim e gs = .ok t)
    (w : DWord) : s.issueCmd e gs zero w = .done { state := t.enqueueCmd e zero w } := by
  simp only [State.issueCmd, hqueue, Env.classFull_eq_false hclass, Bool.false_eq_true, if_false, hclaim]

theorem State.issueCmd_queueFull (hqueue : s.queueFull e = true) (w : DWord) :
    s.issueCmd e gs zero w = .wait s .commandQueue := by
  simp only [State.issueCmd, hqueue, if_true]

theorem State.issueCmd_classFull (hqueue : s.queueFull e = false) (hclass : 255 ≤ e.ctx.counter 2) (w : DWord) :
    s.issueCmd e gs zero w = .wait s .classFull := by
  simp only [State.issueCmd, hqueue, Env.classFull_eq_true hclass, Bool.false_eq_true, if_false, if_true]

/-- The two matrix commands, each with the check of its word, its grains and whether it clears (09 R181, R182). -/
def IsCommand (i : Instr) (ra : Reg) (fe : Bool) (g : Guard) (a : Nat) (gs : List Named) (zero : Bool) : Prop :=
  (i = .mma ra fe g ∧ cmdOk a = true ∧ gs = cmdGrains a ∧ zero = false) ∨
    (i = .mzero ra fe g ∧ (a < 2 ^ 20 ∧ zeroRow a + zeroCount a ≤ 1024) ∧ gs = rowGrains (zeroRow a) (zeroCount a) ∧ zero = true)

/-- A command whose word is legal goes on as `issueCmd`. -/
theorem IsCommand.exec_eq (hform : IsCommand i ra fe g a gs zero) : ∃ body, (∀ s, exec i s = issue i body s) ∧
    ∀ e s, body e [a] s = s.issueCmd e gs zero (BitVec.ofNat 64 a) := by
  rcases hform with ⟨rfl, hok, rfl, rfl⟩ | ⟨rfl, ⟨hlow, hrows⟩, rfl, rfl⟩
  · refine ⟨_, fun _ => rfl, fun e s => ?_⟩
    simp only [List.getD_cons_zero, hok, Bool.not_true, Bool.false_eq_true, if_false]
  · refine ⟨_, fun _ => rfl, fun e s => ?_⟩
    have hzero : a / 2 ^ 20 = 0 := Nat.div_eq_of_lt hlow
    simp only [List.getD_cons_zero, hzero, ne_eq, not_true_eq_false, false_or, Nat.not_lt.2 hrows, if_false]

theorem exec_command_enters (hform : IsCommand i ra fe g a gs zero) (hi : Issues s e i [a]) (hclaim : s.claim e gs = .ok t)
    (hqueue : s.queueFull e = false) (hclass : e.ctx.counter 2 < 255) :
    exec i s = .next (s.retired e i { state := t.enqueueCmd e zero (BitVec.ofNat 64 a) }) := by
  obtain ⟨body, hexec, hbody⟩ := hform.exec_eq
  exact (hexec s).trans (issue_done hi ((hbody e s).trans (State.issueCmd_enters hqueue hclass hclaim _)))

theorem exec_command_queueFull (hform : IsCommand i ra fe g a gs zero) (hi : Issues s e i [a]) (hqueue : s.queueFull e = true) :
    exec i s = .next (s.stay i e (e.form i) .commandQueue) := by
  obtain ⟨body, hexec, hbody⟩ := hform.exec_eq
  exact (hexec s).trans (issue_wait hi ((hbody e s).trans (State.issueCmd_queueFull hqueue _)))

theorem exec_command_classFull (hform : IsCommand i ra fe g a gs zero) (hi : Issues s e i [a]) (hqueue : s.queueFull e = false)
    (hclass : 255 ≤ e.ctx.counter 2) : exec i s = .next (s.stay i e (e.form i) .classFull) := by
  obtain ⟨body, hexec, hbody⟩ := hform.exec_eq
  exact (hexec s).trans (issue_wait hi ((hbody e s).trans (State.issueCmd_classFull hqueue hclass _)))

/-! Operands of the array that an issuer reaches itself (15 R300, R301). -/

/-- An AFEED of an aligned place in an A buffer writes it, once it owns the buffer. -/
theorem exec_afeed_writes (hi : Issues s e (.afeed ra rb fe g) [a, b]) (hloc : a % 2 ^ 32 < 2 ^ 19) (halign : a % 2 ^ 32 % 16 = 0)
    (hclaim : s.claim e [⟨.abuf, a % 2 ^ 32 / 2 ^ 16 % 8, a % 2 ^ 32 / 2 ^ 16 % 8⟩] = .ok t) :
    exec (.afeed ra rb fe g) s = .next (s.retired e (.afeed ra rb fe g)
      { state := t.coreWrite e.core 1 (a % 2 ^ 32 / 2 ^ 16 % 8) (a % 2 ^ 32 % 2 ^ 16) (toBytes 16 b) }) :=
  have hhigh : bits (a % 2 ^ 32) 19 13 = 0 := by rw [bits_eq_div_mod, Nat.div_eq_of_lt hloc, Nat.zero_mod]
  have hlow : bits (a % 2 ^ 32) 0 4 = 0 := halign
  have hbuf : bits (a % 2 ^ 32) 16 3 = a % 2 ^ 32 / 2 ^ 16 % 8 := bits_eq_div_mod _ _ _
  issue_done hi (by
    simp only [low, List.getD_cons_zero, List.getD_cons_succ, hhigh, hlow, ne_eq, not_true_eq_false, or_self, if_false, hbuf, hclaim,
      bits_from_zero]
    rfl)

/-- An ADRN of four columns of a row leaves its values to the moment at which it completes. -/
theorem exec_adrn_reads (hi : Issues s e (.adrn rd ra fe g) [a]) (hloc : a % 2 ^ 32 < 2 ^ 19)
    (halign : a % 2 ^ 32 / 2 ^ 10 % 2 ^ 9 % 4 = 0) (hcol : a % 2 ^ 32 / 2 ^ 10 % 2 ^ 9 ≤ 380)
    (hclaim : s.claim e (rowGrains (a % 2 ^ 32 % 2 ^ 10) 1) = .ok t) :
    exec (.adrn rd ra fe g) s = .next (s.retired e (.adrn rd ra fe g)
      { state := t, vals := [0], long := true, reads := some (a % 2 ^ 32 % 2 ^ 10 * 384 + a % 2 ^ 32 / 2 ^ 10 % 2 ^ 9) }) :=
  have hhigh : bits (a % 2 ^ 32) 19 13 = 0 := by rw [bits_eq_div_mod, Nat.div_eq_of_lt hloc, Nat.zero_mod]
  have hcols : bits (a % 2 ^ 32) 10 9 = a % 2 ^ 32 / 2 ^ 10 % 2 ^ 9 := bits_eq_div_mod _ _ _
  issue_done hi (by
    simp only [low, List.getD_cons_zero, hhigh, hcols, halign, ne_eq, not_true_eq_false, false_or, gt_iff_lt, Nat.not_lt.2 hcol,
      if_false, bits_from_zero, hclaim])

/-! MDRAIN (17 R355). -/

/-- The operation that an issuer's MDRAIN starts. -/
def Env.drainOp (e : Env) (t : State) (a : Nat) : EngOp :=
  { oid := t.fresh, bid := e.bid, who := e.who, pc := e.ctx.pc, kind := .mdrain,
    shape := { src := BitVec.ofNat 64 a, dst := 0, ticket := 0, addm := false, tbuf := 0, trig := 0, dec := false, dfmt := 0, ndim := 0,
               esize := 0, dkind := 0, skind := 1, box := [], valid := [], sstr := [], dstr := [] },
    size := 0, cq := 0, tq := 0, phase := .running, done := 0, bytes := 0, readers := [], status := 0, code := none, detail := 0,
    faddr := 0, srcOff := 0, desc := (SummitDesc.of a).qh, page := 0, fetched := [], sending := false }

/-- The operation holds the descriptor in two of its fields. -/
theorem Env.drainOp_summit (e : Env) (t : State) (a : Nat) : (e.drainOp t a).summit = SummitDesc.of a := by
  rw [← SummitDesc.of_mod a]
  refine congrArg SummitDesc.of ?_
  simp only [Env.drainOp, SummitDesc.of, BitVec.toNat_ofNat]
  omega

/-- What an MDRAIN's event holds: nothing outside paired mode, else its rows (11 R233). -/
def Env.drainEvent (e : Env) (t : State) (d : SummitDesc) : List Byte :=
  if e.blk.role = .single then [] else [0xC0#8, 0xD3#8] ++ t.rowValues e.core d.srow (d.nrow + 1)

theorem exec_mdrain_starts (hi : Issues s e (.mdrain ra fe g) [a]) (hok : descOk a = true)
    (hclaim : s.claim e (rowGrains (SummitDesc.of a).srow ((SummitDesc.of a).nrow + 1)) = .ok t) (hroom : e.ctx.counter 3 < 255)
    (hgo : t.enginePoint e (e.drainEvent t (SummitDesc.of a)) = .go u) :
    exec (.mdrain ra fe g) s = .next (s.retired e (.mdrain ra fe g) (e.engineDone true (u.startOp e (e.drainOp u a)))) :=
  issue_done hi (by
    simp only [Env.drainEvent] at hgo
    simp only [List.getD_cons_zero, hok, Bool.not_true, Bool.false_eq_true, if_false, Env.classFull_eq_false hroom, hclaim, hgo, Gate.act,
      ← Env.engineDone_eq, Bool.true_and]
    rfl)

end

/-- Settles O36: MMA and MZERO are one command, AFEED and ADRN claim one grain, MDRAIN starts its operation. -/
theorem matrixInstructionsComplete : Obligations.MatrixInstructionsComplete := by
  intro s t u e rd ra rb fe g a b ev loc buf row col d room
  have mma (hok : cmdOk a = true) : IsCommand (.mma ra fe g) ra fe g a (cmdGrains a) false := .inl ⟨rfl, hok, rfl, rfl⟩
  have mzero (hlow : a < 2 ^ 20) (hrows : zeroRow a + zeroCount a ≤ 1024) :
      IsCommand (.mzero ra fe g) ra fe g a (rowGrains (zeroRow a) (zeroCount a)) true := .inr ⟨rfl, ⟨hlow, hrows⟩, rfl, rfl⟩
  refine ⟨fun hi hok hclaim ⟨hqueue, hclass⟩ => exec_command_enters (mma hok) hi hclaim hqueue hclass,
    fun hi hlow hrows hclaim ⟨hqueue, hclass⟩ => exec_command_enters (mzero hlow hrows) hi hclaim hqueue hclass,
    fun i hform hi => ?waits, exec_afeed_writes, exec_adrn_reads,
    fun hi hok hclaim hroom hev hgo => ⟨e.drainOp u a, u.startOp e (e.drainOp u a), rfl, rfl, e.drainOp_summit u a, rfl,
      exec_mdrain_starts hi hok hclaim hroom ((congrArg (t.enginePoint e) hev.symm).trans hgo)⟩⟩
  case waits =>
    obtain ⟨gs, zero, hcommand⟩ : ∃ gs zero, IsCommand i ra fe g a gs zero := by
      rcases hform with ⟨rfl, hok⟩ | ⟨rfl, hlow, hrows⟩
      · exact ⟨_, _, mma hok⟩
      · exact ⟨_, _, mzero hlow hrows⟩
    exact ⟨exec_command_queueFull hcommand hi, exec_command_classFull hcommand hi⟩

end Sys2Proof.Machine
end

section
/-!
SUPPORT. The summit's collectives, each an `Instance` (09 R187 to R189): what a contribution that joins one leaves of it, and the sum of
its members' values.
-/
namespace Sys2Proof.Machine

/-! Writes of consecutive entries. -/

/-- Entries written from a place upward hold what was written, the others what they held. -/
theorem sget_foldl_sput_range {α : Type} [DecidableEq α] (d : α) (m : List (Nat × α)) (base n : Nat) (f : Nat → α) (k : Nat) :
    sget d ((List.range n).foldl (fun m c => sput d m (base + c) (f c)) m) k =
      if base ≤ k ∧ k < base + n then f (k - base) else sget d m k := by
  induction n with
  | zero => simp
  | succ n ih =>
    rw [List.range_succ, List.foldl_append, List.foldl_cons, List.foldl_nil, sget_sput, ih]
    by_cases hlast : k = base + n
    · rw [if_pos hlast, if_pos (by omega), hlast, Nat.add_sub_cancel_left]
    · rw [if_neg hlast]
      exact if_congr (by omega) rfl rfl

/-! The sum of the members' values (09 R187): the order does not matter to a wrapping sum, nor to a sum of two. -/

theorem getD_add_sum_eraseIdx {ws : List Word} {i : Nat} (hi : i < ws.length) : ws.getD i 0 + (ws.eraseIdx i).sum = ws.sum :=
  calc ws.getD i 0 + (ws.eraseIdx i).sum = (ws[i] :: ws.eraseIdx i).sum := by rw [List.getD_eq_getElem _ _ hi, List.sum_cons]
    _ = ws.sum := (List.getElem_cons_eraseIdx_perm hi).sum_eq

/-- The wrapping sum of two or more words is that of the words in which some two have met. -/
theorem sum_meet {ws : List Word} {i j : Nat} (hi : i < ws.length) (hj : j < (ws.eraseIdx i).length) :
    ((ws.getD i 0 + (ws.eraseIdx i).getD j 0) :: (ws.eraseIdx i).eraseIdx j).sum = ws.sum := by
  rw [List.sum_cons, add_assoc, getD_add_sum_eraseIdx hj, getD_add_sum_eraseIdx hi]

theorem treeSum_add_eq_sum (fuel seed : Nat) (ws : List Word) (hlen : ws.length ≤ fuel) :
    treeSum (fun a b => a + b) fuel seed ws = ws.sum := by
  induction fuel generalizing seed ws with
  | zero =>
    obtain rfl := List.length_eq_zero_iff.1 (Nat.le_zero.1 hlen)
    rfl
  | succ fuel ih =>
    match ws with
    | [] => rfl
    | [x] => simp [treeSum]
    | x :: y :: rest =>
      have hi : Config.choice seed % (x :: y :: rest).length < (x :: y :: rest).length := Nat.mod_lt _ (Nat.succ_pos _)
      have hrest := List.length_eraseIdx_of_lt hi
      have hj := Nat.mod_lt (Config.choice (seed + 1)) (Nat.lt_of_lt_of_eq (Nat.succ_pos rest.length) hrest.symm)
      refine (ih _ _ ?_).trans (sum_meet hi hj)
      rw [List.length_cons, List.length_eraseIdx_of_lt hj, hrest]
      simp only [List.length_cons] at hlen ⊢
      omega

theorem treeSum_single (add : Word → Word → Word) (seed : Nat) (x : Word) : treeSum add 1 seed [x] = x := rfl

theorem treeSum_pair (add : Word → Word → Word) (seed : Nat) (x y : Word) :
    treeSum add 2 seed [x, y] = add x y ∨ treeSum add 2 seed [x, y] = add y x := by
  rcases Nat.mod_two_eq_zero_or_one (Config.choice seed) with h | h <;> simp [treeSum, h, Nat.mod_one]

section
variable {i : Instance} {k : Nat} {p q : WordMap}

theorem Instance.element_iadd (hint : i.desc.iadd = true) :
    i.element k = (i.parts.map (fun p => sget 0 p k)).foldl (· + ·) 0 := by
  simp only [Instance.element, hint, if_true]
  rw [treeSum_add_eq_sum _ _ _ (by rw [List.length_map]), List.sum_eq_foldl]

theorem Instance.element_single (hparts : i.parts = [p]) : i.element k = sget 0 p k := by
  simp only [Instance.element, hparts, List.map_cons, List.map_nil, List.length_singleton, treeSum_single]

theorem Instance.element_pair (hparts : i.parts = [p, q]) (hfp : i.desc.iadd = false) :
    i.element k = BitVec.ofNat 32 (fpAdd f32 (sget 0 p k).toNat (sget 0 q k).toNat).1 ∨
      i.element k = BitVec.ofNat 32 (fpAdd f32 (sget 0 q k).toNat (sget 0 p k).toNat).1 := by
  simpa only [Instance.element, hparts, hfp, Bool.false_eq_true, if_false, List.map_cons, List.map_nil, List.length_cons,
    List.length_nil, Nat.reduceAdd] using
    treeSum_pair (fun a b => BitVec.ofNat 32 (fpAdd f32 a.toNat b.toNat).1) _ (sget 0 p k) (sget 0 q k)

end

section
variable {s : State} {i i1 : Instance} {c : Contribution} {f : TrapCode × Nat} {iid : Nat}

/-! A contribution that joins a collective (09 R187, R189). -/

/-- The first collective of an id, changed to one of the same id, is the first of that id. -/
theorem State.find_modInstance (hfind : s.instances.find? (fun x => x.iid == iid) = some i) (g : Instance → Instance)
    (hg : ∀ x, x.iid = iid → (g x).iid = iid) :
    (s.modInstance iid g).instances.find? (fun x => x.iid == iid) = some (g i) := by
  have hid : i.iid = iid := by simpa using List.find?_some hfind
  have hkeeps : (fun x : Instance => x.iid == iid) ∘ (fun x => if x.iid = iid then g x else x) = fun x => x.iid == iid := by
    funext x
    by_cases hx : x.iid = iid
    · simp [hx, hg x hx]
    · simp [hx]
  rw [State.modInstance, List.find?_map, hkeeps, hfind, Option.map_some, if_pos hid]

@[simp] theorem State.memberRecords_instances (s : State) (i : Instance) (f : TrapCode × Nat) :
    (s.memberRecords i f).instances = s.instances := by
  unfold State.memberRecords
  induction i.members generalizing s with
  | nil => rfl
  | cons m rest ih => exact ih _

theorem State.closeInstance_waits (hfind : s.instances.find? (fun x => x.iid == iid) = some i) (hmore : i.count ≤ i.desc.memb) :
    s.closeInstance iid = s := by
  simp only [State.closeInstance, hfind, hmore, if_true]

theorem State.closeInstance_closes (hfind : s.instances.find? (fun x => x.iid == iid) = some i) (hall : i.desc.memb < i.count)
    (hsound : i.failed = none) (hrows : s.refusedRow i = none) :
    s.closeInstance iid = s.modInstance iid (fun x => { x with closed := true }) := by
  simp only [State.closeInstance, hfind, Nat.not_le.2 hall, if_false, hsound, Option.isSome_none, Bool.false_eq_true, hrows]

theorem SummitDesc.agrees_iff (a b : SummitDesc) : a.agrees b = true ↔ { a with srow := 0 } = { b with srow := 0 } := decide_eq_true_iff

theorem SummitDesc.agrees_eq_false {a b : SummitDesc} (h : ¬ ({ a with srow := 0 } : SummitDesc) = { b with srow := 0 }) :
    a.agrees b = false := decide_eq_false h

/-- A collective with one more member. -/
def Instance.joined (i : Instance) (c : Contribution) : Instance :=
  { i with count := i.count + 1, members := i.members ++ [(c.block, c.bid, c.pc)], parts := i.parts ++ [c.cells] }

/-- The state in which a collective stands as x. -/
def State.putInstance (s : State) (iid : Nat) (x : Instance) : State := s.modInstance iid (fun _ => x)

/-- What a joining contribution leaves before it is asked whether it was the last: the collective with its member, failed if it is the
first that differs, and the records of those that a failure concerns. -/
def State.memberJoined (s : State) (i : Instance) (c : Contribution) : State :=
  match i.failed, i.desc.agrees c.desc with
  | none, true => s.putInstance i.iid (i.joined c)
  | none, false => (s.putInstance i.iid { i.joined c with failed := some (.barerr, 1) }).memberRecords (i.joined c) (.barerr, 1)
  | some f, true => (s.putInstance i.iid (i.joined c)).memberRecord i.params (c.block, c.bid, c.pc) f 0
  | some _, false => (s.putInstance i.iid (i.joined c)).memberRecord i.params (c.block, c.bid, c.pc) (.barerr, 1) 0

theorem State.joinInstance_eq (s : State) (i : Instance) (c : Contribution) :
    s.joinInstance i c = (s.memberJoined i c).closeInstance i.iid := by
  rfl

theorem State.find_putInstance (hfind : s.instances.find? (fun x => x.iid == iid) = some i) (hid : i1.iid = iid) :
    (s.putInstance iid i1).instances.find? (fun x => x.iid == iid) = some i1 :=
  State.find_modInstance hfind _ (fun _ _ => hid)

variable (hfind : s.instances.find? (fun x => x.iid == i.iid) = some i)
include hfind

/-- The collective that a member has joined counts it. -/
theorem State.find_memberJoined : ∃ x, (s.memberJoined i c).instances.find? (fun x => x.iid == i.iid) = some x ∧
    x.count = i.count + 1 ∧ x.desc = i.desc := by
  unfold State.memberJoined
  rcases i.failed with _ | f <;> rcases i.desc.agrees c.desc
  · exact ⟨{ i.joined c with failed := some (.barerr, 1) },
      (congrArg _ (State.memberRecords_instances _ _ _)).trans (State.find_putInstance hfind rfl), rfl, rfl⟩
  all_goals exact ⟨i.joined c, State.find_putInstance hfind rfl, rfl, rfl⟩

/-- A member that is not the last leaves its collective open. -/
theorem State.joinInstance_waits (hmore : i.count < i.desc.memb) : s.joinInstance i c = s.memberJoined i c := by
  obtain ⟨x, hx, hcount, hdesc⟩ := State.find_memberJoined (c := c) hfind
  exact (s.joinInstance_eq i c).trans (State.closeInstance_waits hx (by rw [hcount, hdesc]; exact hmore))

/-- The last member closes a collective in which all agree and whose rows take its delivery. -/
theorem State.joinInstance_closes (hsound : i.failed = none) (hagrees : i.desc.agrees c.desc = true) (hlast : i.count = i.desc.memb)
    (hrows : s.refusedRow (i.joined c) = none) : s.joinInstance i c = s.putInstance i.iid { i.joined c with closed := true } := by
  have hjoined : s.memberJoined i c = s.putInstance i.iid (i.joined c) := by simp only [State.memberJoined, hsound, hagrees]
  rw [State.joinInstance_eq, hjoined, State.closeInstance_closes (State.find_putInstance (i1 := i.joined c) hfind rfl)
    (hlast ▸ Nat.lt_succ_self i.count) hsound hrows]
  simp only [State.putInstance, State.modInstance, List.map_map]
  refine congrArg (fun l => ({ s with instances := l } : State)) (List.map_congr_left fun x _ => ?_)
  by_cases hx : x.iid = i.iid <;> simp [hx, Instance.joined]

end

end Sys2Proof.Machine
end

section
/-!
SUPPORT. The summit's events (09 R186 to R190; 17 R355): the rows of an MDRAIN leave, a contribution arrives, a closed collective delivers.
-/
namespace Sys2Proof.Machine

section
variable {s : State} {op contrib inst core : Nat} {o : EngOp} {b : Block} {c : Contribution} {i : Instance}

/-- The contribution as which the rows of an MDRAIN leave: the rows as they stand when the readout ends (log entry 31). -/
def State.readOut (s : State) (o : EngOp) (b : Block) (core : Nat) : Contribution :=
  { cid := s.fresh, src := stopOf (stackOf core), params := b.params, desc := o.summit, block := b.index, bid := b.bid, pc := o.pc,
    cells := s.readRows core o.summit }

/-- The readout of the oldest MDRAIN of a block that is not a trailing copy ends. -/
theorem exec_mdrainReadoutDone (hop : s.op? op = some o) (hb : s.block? o.bid = some b) (hcore : b.core = some core)
    (hkind : o.kind = .mdrain) (hruns : o.phase = .running) (hfirst : s.opFirst o = true) (hrole : b.role ≠ .trailing) :
    let t := s.ridgeSend .summit (stopOf (stackOf core)) (stopOf (stackOf o.summit.root)) []
    exec (.mdrainReadoutDone op) s = .next ((({ t with contribs := t.contribs ++ [s.readOut o b core], fresh := t.fresh + 1 } :
      State).mark b.bid).endOp o) := by
  show execMdrainReadoutDone op s = _
  simp only [execMdrainReadoutDone, event, hop, hb, hcore, hkind, hruns, hfirst, hrole, ne_eq, not_true_eq_false, Bool.not_true,
    Bool.false_eq_true, or_self, if_false]
  rfl

section
variable (hc : s.contribs.find? (fun c => c.cid == contrib) = some c) (hahead : s.summitAhead c = false)
include hc hahead

/-- A contribution that nothing precedes joins the open collective of its launch and group. -/
theorem exec_summitContributionArrive_joins (hopen : s.instances.find? (fun i =>
      i.params.lid == c.params.lid && i.desc.group == c.desc.group && i.isOpen) = some i) :
    exec (.summitContributionArrive contrib) s =
      .next (({ s with contribs := s.contribs.filter (fun x => x.cid != contrib) } : State).joinInstance i c) := by
  show execSummitContributionArrive contrib s = _
  simp only [execSummitContributionArrive, event, hc, hahead, Bool.false_eq_true, if_false, hopen]

/-- One that finds none opens it where fewer than 1,024 are open. -/
theorem exec_summitContributionArrive_opens (hnone : s.instances.find? (fun i =>
      i.params.lid == c.params.lid && i.desc.group == c.desc.group && i.isOpen) = none)
    (hroom : (s.instances.filter Instance.isOpen).length < 1024) :
    let first : Instance := { iid := s.fresh, params := c.params, desc := c.desc, count := 0, parts := [], members := [],
                              failed := none, closed := false, sent := 0 }
    exec (.summitContributionArrive contrib) s =
      .next (({ s with contribs := s.contribs.filter (fun x => x.cid != contrib), instances := s.instances ++ [first],
                       fresh := s.fresh + 1 } : State).joinInstance first c) := by
  show execSummitContributionArrive contrib s = _
  simp only [execSummitContributionArrive, event, hc, hahead, Bool.false_eq_true, if_false, hnone, ge_iff_le, Nat.not_le.2 hroom]

end

/-! Delivery (09 R188). -/

/-- What a collective that may deliver comes to. -/
def State.delivered (s : State) (i : Instance) : State :=
  if i.desc.dest then
    if i.sent ≥ 6 * (i.desc.nrow + 1) then s.endInstance i.iid else s.summitSend i i.chunk
  else if i.sent ≤ i.desc.nrow then
    match s.refusedRow i with
    | some row => s.failInstance i.iid (.perm, 7) (BitVec.ofNat 64 row)
    | none => s.deliverRow i
  else if i.desc.qh = 0 ∨ i.sent > i.desc.nrow + 1 then s.endInstance i.iid
  else s.summitSend i i.note

theorem exec_summitDelivery (hi : s.instances.find? (fun i => i.iid == inst) = some i) (hclosed : i.closed = true)
    (hidle : s.inFlight (.summit inst) = false) : exec (.summitDelivery inst) s = .next (s.delivered i) := by
  obtain rfl : i.iid = inst := by simpa using List.find?_some hi
  show execSummitDelivery i.iid s = _
  simp only [execSummitDelivery, event, hi, hclosed, hidle, Bool.not_true, Bool.or_self, Bool.false_eq_true, if_false]
  rfl

theorem State.delivered_row (hdest : i.desc.dest = false) (hmore : i.sent ≤ i.desc.nrow) (hrows : s.refusedRow i = none) :
    s.delivered i = s.deliverRow i := by
  simp only [State.delivered, hdest, Bool.false_eq_true, if_false, hmore, if_true, hrows]

theorem State.delivered_note (hdest : i.desc.dest = false) (hrows : i.sent = i.desc.nrow + 1) (hqueue : i.desc.qh ≠ 0) :
    s.delivered i = s.summitSend i i.note := by
  simp only [State.delivered, hdest, Bool.false_eq_true, if_false, hrows, hqueue, Nat.not_succ_le_self, gt_iff_lt,
    Nat.lt_irrefl, or_self]

theorem State.delivered_chunk (hdest : i.desc.dest = true) (hmore : i.sent < 6 * (i.desc.nrow + 1)) :
    s.delivered i = s.summitSend i i.chunk := by
  simp only [State.delivered, hdest, if_true, ge_iff_le, Nat.not_le.2 hmore, if_false]

theorem State.delivered_ends (hall : if i.desc.dest then 6 * (i.desc.nrow + 1) ≤ i.sent
      else i.desc.nrow + 1 < i.sent ∨ (i.sent = i.desc.nrow + 1 ∧ i.desc.qh = 0)) : s.delivered i = s.endInstance i.iid := by
  cases hdest : i.desc.dest with
  | true =>
    rw [if_pos hdest] at hall
    simp only [State.delivered, hdest, if_true, ge_iff_le, hall]
  | false =>
    rw [if_neg (Bool.eq_false_iff.1 hdest)] at hall
    have hdone : ¬ i.sent ≤ i.desc.nrow := by omega
    have hend : i.desc.qh = 0 ∨ i.sent > i.desc.nrow + 1 := hall.symm.imp And.right id
    simp only [State.delivered, hdest, Bool.false_eq_true, if_false, hdone, hend, if_true]

/-- A row delivered is one write of its 384 elements. -/
theorem State.deliverRow_acc (s : State) (i : Instance) (k : Nat) :
    let lo := (i.desc.root * 1024 + i.desc.drow + i.sent) * 384
    sget 0 (s.deliverRow i).matrix.acc k =
      if lo ≤ k ∧ k < lo + 384 then i.element (i.sent * 384 + (k - lo)) else sget 0 s.matrix.acc k := by
  simp only [State.deliverRow, State.modInstance]
  exact sget_foldl_sput_range 0 s.matrix.acc ((i.desc.root * 1024 + i.desc.drow + i.sent) * 384) 384
    (fun c => i.element (i.sent * 384 + c)) k

end

/-- Settles O46: the events by what they leave of contribution and collective, a joining contribution by `State.memberJoined`, a row by
`State.deliverRow_acc`, an element by the sum's independence of its order. -/
theorem summitJoinsAndDelivers : Obligations.SummitJoinsAndDelivers := by
  refine ⟨?events, ?members⟩
  case events =>
    intro s op contrib inst core o b c i sends
    refine ⟨fun hop hb hcore hkind hruns hfirst hrole => ⟨s.readOut o b core, rfl, rfl, rfl, rfl, rfl,
        exec_mdrainReadoutDone hop hb hcore hkind hruns hfirst hrole⟩,
      fun hc hahead => ⟨exec_summitContributionArrive_joins hc hahead, exec_summitContributionArrive_opens hc hahead⟩,
      fun hi hclosed hidle => ?delivery⟩
    obtain rfl : i.iid = inst := by simpa using List.find?_some hi
    have hexec := exec_summitDelivery hi hclosed hidle
    have hsends {payload : List Byte} (h : s.delivered i = s.summitSend i payload) : sends payload :=
      ⟨_, rfl, rfl, rfl, rfl, rfl, hexec.trans (congrArg _ h)⟩
    exact ⟨fun hdest hmore hrows => hexec.trans (congrArg _ (State.delivered_row hdest hmore hrows)),
      fun hdest hrows hqueue => hsends (State.delivered_note hdest hrows hqueue),
      fun hdest hmore => hsends (State.delivered_chunk hdest hmore),
      fun hall => hexec.trans (congrArg _ (State.delivered_ends hall))⟩
  case members =>
    intro s i c f p q k m i1 putAs agrees t lo
    refine ⟨fun hfind => ⟨fun hsound hagrees hmore => ?_, fun hsound hagrees hlast hrows => ?_, fun hsound hdiffers hmore => ?_,
        fun hfailed hmore hagrees => ?_, fun hfailed hmore hdiffers => ?_⟩,
      fun hk => ?_, fun hk => ?_, rfl, rfl, Instance.element_iadd, Instance.element_single, Instance.element_pair⟩
    · have hsame := (SummitDesc.agrees_iff i.desc c.desc).2 hagrees
      rw [State.joinInstance_waits hfind hmore, State.memberJoined, hsound, hsame]
      rfl
    · exact State.joinInstance_closes hfind hsound ((SummitDesc.agrees_iff _ _).2 hagrees) hlast hrows
    · rw [State.joinInstance_waits hfind hmore, State.memberJoined, hsound, SummitDesc.agrees_eq_false hdiffers]
      rfl
    · rw [State.joinInstance_waits hfind hmore, State.memberJoined, hfailed, (SummitDesc.agrees_iff _ _).2 hagrees]
      rfl
    · rw [State.joinInstance_waits hfind hmore, State.memberJoined, hfailed, SummitDesc.agrees_eq_false hdiffers]
      rfl
    · have hin : lo ≤ lo + k ∧ lo + k < lo + 384 := ⟨Nat.le_add_right _ _, by omega⟩
      rw [State.deliverRow_acc, if_pos hin, Nat.add_sub_cancel_left]
    · have hout : ¬ (lo ≤ k ∧ k < lo + 384) := by omega
      rw [State.deliverRow_acc, if_neg hout]

end Sys2Proof.Machine
end

section
/-!
SUPPORT. One output element of an MMA (04 R82 to R86): its groups along K, by their exact sums and scales.
-/
namespace Sys2Proof.Machine

/-! Sums. -/

theorem foldl_add_eq_add_sum {α : Type} (f : α → Int) (l : List α) (t : Int) :
    l.foldl (fun u x => u + f x) t = t + (l.map f).sum := by
  induction l generalizing t with
  | nil => simp
  | cons x l ih => rw [List.foldl_cons, ih, List.map_cons, List.sum_cons, add_assoc]

/-- A sum over a range is the sum of its parts of b. -/
theorem sum_map_range_mul (f : Nat → Int) (a b : Nat) :
    ((List.range (a * b)).map f).sum = ((List.range a).map (fun i => ((List.range b).map (fun j => f (i * b + j))).sum)).sum := by
  induction a with
  | zero => simp
  | succ a ih =>
    rw [Nat.succ_mul, List.range_add, List.map_append, List.sum_append, ih, List.range_succ, List.map_append, List.sum_append]
    simp [Function.comp_def]

/-! Groups (04 R83). -/

theorem cmdK_eq_mul (w : Nat) : cmdK w = cmdK w / cmdG w * cmdG w := by
  unfold cmdK cmdG
  split <;> rfl

/-- A group's pairs, one after another. -/
theorem groupPairs_eq (w : Nat) (arow bcol : List Byte) (k : Nat) : groupPairs w arow bcol k =
    (List.range (cmdG w)).map (fun j => (operandAt (cmdAfmt w) arow (k + j), operandAt (cmdBfmt w) bcol (k + j))) := by
  simp only [groupPairs, span, List.map_map, Function.comp_def]

section
variable {w : Nat} {arow bcol scale : List Byte} {m n old : Nat}

/-- INT8 without scales adds every product to the old value, modulo 2^32 (04 R86). -/
theorem mmaElement_int8 (hint : cmdAfmt w = 3) (hscl : cmdScl w = false) : mmaElement w arow bcol scale m n old =
    (Int.toNat ((((List.range (cmdK w)).map (fun i => (operandAt (cmdAfmt w) arow i).toInt * (operandAt (cmdBfmt w) bcol i).toInt)).sum +
      (if cmdAcc w then (old : Int) else 0)) % 2 ^ 32), 0) := by
  have hform : (isInt8 (cmdAfmt w) && !cmdScl w) = true := by simp [isInt8, hint, hscl]
  rw [cmdK_eq_mul, sum_map_range_mul, add_comm]
  simp only [mmaElement, hform, if_true, foldl_add_eq_add_sum, groupPairs_eq, List.map_map, Function.comp_def]
  rfl

/-- The value of a group's pairs, before its scales: exact products, their exact sum, and whether that is invalid (04 R83, R84). -/
def pairedSum (int : Bool) (g : Nat) (pair : Nat → Fp × Fp) : Fp × Bool :=
  let ps := (List.range g).map (fun j => fpMul (pair j).1 (pair j).2)
  if ps.any (·.2) then (.nan, true)
  else if int && (fpSum (ps.map (·.1))).1.isZero then (.fin false 0 0, false) else fpSum (ps.map (·.1))

theorem groupSum_map_range (int : Bool) (g : Nat) (pair : Nat → Fp × Fp) :
    groupSum int ((List.range g).map pair) = pairedSum int g pair := by
  simp only [groupSum, pairedSum, List.map_map, Function.comp_def]

/-- In other formats an element takes its groups one by one: the group's value meets its scales and is accumulated (04 R83). -/
theorem mmaElement_groups (hform : cmdAfmt w ≠ 3 ∨ cmdScl w = true) : mmaElement w arow bcol scale m n old =
    (List.range (cmdK w / cmdG w)).foldl (fun acc i =>
      let x := pairedSum (decide (cmdAfmt w = 3)) (cmdG w) (fun j =>
        (operandAt (cmdAfmt w) arow (i * cmdG w + j), operandAt (cmdBfmt w) bcol (i * cmdG w + j)))
      accumulate acc (if cmdScl w = false then x else scaledSum x (groupScales w scale m n (i * cmdG w))))
      (if cmdAcc w then old else 0x80000000, 0) := by
  have hother : (isInt8 (cmdAfmt w) && !cmdScl w) = false := by
    rcases hform with h | h
    · simp [isInt8, h]
    · simp [h]
  simp only [mmaElement, hother, Bool.false_eq_true, if_false, List.foldl_map, groupPairs_eq, groupSum_map_range]
  cases cmdScl w <;> rfl

end

/-! A scale that meets a value (04 R82). -/

theorem scaleMeet_nan {c x : Fp} (h : c = .nan ∨ x = .nan) : scaleMeet c x = (.nan, false) := by
  rcases h with rfl | rfl
  · rfl
  · cases c <;> rfl

theorem scaleMeet_inf_zero (k neg : Bool) (e : Int) : scaleMeet (.inf k) (.fin neg 0 e) = (.nan, true) := rfl

theorem scaleMeet_zero_inf (k neg : Bool) (e : Int) : scaleMeet (.fin k 0 e) (.inf neg) = (.nan, true) := rfl

theorem scaleMeet_fin (k neg : Bool) (a m : Nat) (e f : Int) :
    scaleMeet (.fin k a e) (.fin neg m f) = (.fin (k != neg) (a * m) (e + f), false) := rfl

/-! The cases that the manual works out (04 R82 to R86). -/

/-- n bytes of which these are listed by index and the others are zero. -/
def listedBytes (l : List (Nat × Nat)) (n : Nat) : List Byte := (List.range n).map (fun i => BitVec.ofNat 8 ((aget l i).getD 0))

/-- BF16: an exact sum of 1.25 × 2^−24 rounds 1.0 up. -/
theorem mmaElement_bf16_sum :
    mmaElement (2 * 2 ^ 29 + 2 * 2 ^ 32 + 2 ^ 35) (listedBytes [(0, 0x80), (1, 0x39), (3, 0x39)] 256)
      (listedBytes [(0, 0x80), (1, 0x39), (3, 0x39)] 256) [] 0 0 0x3F800000 = (0x3F800001, fInexact) := by decide +kernel

/-- NQ4: a code meets its SF8 scale and its super-scale. -/
theorem mmaElement_nq4_scaled :
    mmaElement (2 * 2 ^ 29 + 4 * 2 ^ 32 + 2 ^ 36) (listedBytes [(0, 0x80), (1, 0x3F)] 256) (listedBytes [(0, 11)] 128)
      (listedBytes [(0, 0x70), (2048, 0x70), (5123, 0x3F)] 11264) 0 0 0 = (0x3E2E0000, 0) := by decide +kernel

/-- An infinity of A over a B scale of zero is invalid. -/
theorem mmaElement_inf_zero_scale :
    mmaElement (1 * 2 ^ 29 + 4 * 2 ^ 32 + 2 ^ 36) (listedBytes [(0, 0x7C)] 256) (listedBytes [(0, 11)] 128)
      (listedBytes [(0, 0x70), (5123, 0x3F)] 11264) 0 0 0 = (0x7FC00000, fInvalid) := by decide +kernel

end Sys2Proof.Machine
end

section
/-!
SUPPORT. A whole MMA (09 R177, R178, R181): which accumulator elements it writes, and what exceptions it gathers.
-/
namespace Sys2Proof.Machine

/-! Elements written one by one. -/

section
variable {α : Type} {key : α → Nat} {val : α → Nat → Nat × FpFlags} {l : List α} {acc : WordMap × FpFlags} {x : α} {j : Nat}

/-- An element computed from what its accumulator element holds and written there, its exceptions gathered. -/
def writeElement (key : α → Nat) (val : α → Nat → Nat × FpFlags) (acc : WordMap × FpFlags) (x : α) : WordMap × FpFlags :=
  let r := val x (sget 0 acc.1 (key x)).toNat
  (sput 0 acc.1 (key x) (BitVec.ofNat 32 r.1), acc.2 ||| r.2)

theorem sget_writeElement_ne (h : j ≠ key x) : sget 0 (writeElement key val acc x).1 j = sget 0 acc.1 j := sget_sput_ne 0 _ _ h

theorem sget_foldl_writeElement_ne (h : ∀ x ∈ l, j ≠ key x) : sget 0 (l.foldl (writeElement key val) acc).1 j = sget 0 acc.1 j := by
  induction l generalizing acc with
  | nil => rfl
  | cons x l ih =>
    rw [List.foldl_cons, ih (fun y hy => h y (List.mem_cons_of_mem x hy)), sget_writeElement_ne (h x List.mem_cons_self)]

/-- Of elements at different places each is computed from what its place held before any was written. -/
theorem sget_foldl_writeElement (hkeys : (l.map key).Nodup) (hx : x ∈ l) :
    sget 0 (l.foldl (writeElement key val) acc).1 (key x) = BitVec.ofNat 32 (val x (sget 0 acc.1 (key x)).toNat).1 := by
  induction l generalizing acc with
  | nil => cases hx
  | cons y l ih =>
    obtain ⟨hy, hrest⟩ := List.nodup_cons.1 hkeys
    rw [List.foldl_cons]
    rcases List.mem_cons.1 hx with rfl | hx
    · rw [sget_foldl_writeElement_ne fun z hz heq => hy (List.mem_map.2 ⟨z, hz, heq.symm⟩)]
      exact sget_sput_self 0 _ _ _
    · rw [ih hrest hx, sget_writeElement_ne fun heq => hy (List.mem_map.2 ⟨x, hx, heq⟩)]

theorem getLsbD_foldl_writeElement (hkeys : (l.map key).Nodup) (b : Nat) : (l.foldl (writeElement key val) acc).2.getLsbD b = true ↔
    acc.2.getLsbD b = true ∨ ∃ x ∈ l, (val x (sget 0 acc.1 (key x)).toNat).2.getLsbD b = true := by
  induction l generalizing acc with
  | nil => simp
  | cons y l ih =>
    obtain ⟨hy, hrest⟩ := List.nodup_cons.1 hkeys
    have hsame : ∀ x ∈ l, sget 0 (writeElement key val acc y).1 (key x) = sget 0 acc.1 (key x) := fun x hx =>
      sget_writeElement_ne fun heq => hy (List.mem_map.2 ⟨x, hx, heq⟩)
    have hmore : (∃ x ∈ l, (val x (sget 0 (writeElement key val acc y).1 (key x)).toNat).2.getLsbD b = true) ↔
        ∃ x ∈ l, (val x (sget 0 acc.1 (key x)).toNat).2.getLsbD b = true :=
      exists_congr fun x => and_congr_right fun hx => by rw [hsame x hx]
    rw [List.foldl_cons, ih hrest, hmore]
    simp only [writeElement, BitVec.getLsbD_or, Bool.or_eq_true, List.exists_mem_cons_iff, or_assoc]

end

/-! What an MMA reads (09 R177, R178). -/

theorem sget_within {m : Memory} {lo n k : Nat} (h : lo ≤ k ∧ k < lo + n) : sget 0 (within m lo n) k = sget 0 m k := by
  induction m with
  | nil => rfl
  | cons e rest ih =>
    obtain ⟨j, v⟩ := e
    simp only [within] at ih
    simp only [within, List.filter_cons, sget]
    by_cases hj : j = k
    · simp [hj, h, sget]
    · split <;> simpa [sget, hj] using ih

/-- Bytes are read alike from the part of a memory that holds them. -/
theorem readSparse_within {m : Memory} {lo n at_ len : Nat} (hlo : lo ≤ at_) (hhi : at_ + len ≤ lo + n) :
    readSparse (within m lo n) at_ len = readSparse m at_ len := by
  refine List.map_congr_left fun k hk => sget_within ?_
  obtain ⟨i, hi, rfl⟩ := List.mem_map.1 hk
  have := List.mem_range.1 hi
  omega

theorem sliceColumn_eq (fmt : Nat) (slice : Memory) (n : Nat) :
    sliceColumn fmt slice n = readSparse slice ((if fmt = 4 then 128 else 256) * n) (if fmt = 4 then 128 else 256) :=
  readSparse_within (Nat.le_refl _) (Nat.le_refl _)

/-- A row of an A buffer. -/
def State.mmaRow (s : State) (core w m : Nat) : List Byte := readSparse s.matrix.abuf ((core * 8 + cmdBuf w) * 65536 + 256 * m) 256

/-- The scale extent of a command, if it has one. -/
def State.mmaScale (s : State) (core w : Nat) : List Byte :=
  if cmdScl w then readSparse s.matrix.scale (core * 262144 + cmdScale w) (cmdExtent w) else []

/-- Element (row, column) of an MMA, from what the accumulator element holds. -/
def State.mmaOut (s : State) (core w : Nat) (slice : Memory) (x : Nat × Nat) (old : Nat) : Nat × FpFlags :=
  mmaElement w (s.mmaRow core w x.1) (sliceColumn (cmdBfmt w) slice x.2) (s.mmaScale core w) x.1 x.2 old

/-- The accumulator element that element (row, column) of a command writes. -/
def mmaPlace (core w : Nat) (x : Nat × Nat) : Nat := (core * 1024 + cmdRow w + x.1) * 384 + x.2

/-- The elements of a command in the order of rows and columns. -/
def mmaElements (w : Nat) : List (Nat × Nat) := List.range (cmdM w) ×ˢ List.range 384

theorem mem_mmaElements {w m n : Nat} : (m, n) ∈ mmaElements w ↔ m < cmdM w ∧ n < 384 :=
  List.pair_mem_product.trans (and_congr List.mem_range List.mem_range)

/-- Different elements have different places. -/
theorem mmaElements_places_nodup (core w : Nat) : ((mmaElements w).map (mmaPlace core w)).Nodup := by
  refine List.Nodup.map_on ?_ (List.nodup_range.product List.nodup_range)
  rintro ⟨m, n⟩ hx ⟨p, q⟩ hy heq
  obtain ⟨-, hn⟩ := mem_mmaElements.1 hx
  obtain ⟨-, hq⟩ := mem_mmaElements.1 hy
  simp only [mmaPlace] at heq
  rw [Prod.mk.injEq]
  omega

theorem zipIdx_map_range {α : Type} (f : Nat → α) (n : Nat) :
    ((List.range n).map f).zipIdx = (List.range n).map (fun i => (f i, i)) := by
  refine List.ext_getElem (by simp) fun i _ _ => ?_
  simp

theorem cmdM_le (w : Nat) : cmdM w ≤ 256 := Nat.succ_le_of_lt (Nat.mod_lt _ (by decide))

/-- An MMA writes its elements one by one. -/
theorem State.runMma_eq (s : State) (core w : Nat) (slice : Memory) : s.runMma core w slice =
    (mmaElements w).foldl (writeElement (mmaPlace core w) (s.mmaOut core w slice)) (s.matrix.acc, fNone) := by
  have hscale : (if cmdScl w then readSparse (within s.matrix.scale (grainBase core .scale 0 + cmdScale w) (cmdExtent w))
      (grainBase core .scale 0 + cmdScale w) (cmdExtent w) else []) = s.mmaScale core w := by
    simp only [readSparse_within (Nat.le_refl _) (Nat.le_refl _), State.mmaScale, grainBase, Nat.zero_mul, Nat.add_zero]
  have hrow : ∀ m ∈ List.range (cmdM w), readSparse (within (within s.matrix.abuf (grainBase core .abuf (cmdBuf w)) 65536)
      (grainBase core .abuf (cmdBuf w) + 256 * m) 256) (grainBase core .abuf (cmdBuf w) + 256 * m) 256 = s.mmaRow core w m := by
    intro m hm
    have := List.mem_range.1 hm
    have := cmdM_le w
    rw [readSparse_within (Nat.le_refl _) (Nat.le_refl _), readSparse_within (Nat.le_add_right _ _) (by omega)]
    rfl
  have hflat : mmaElements w = (List.range (cmdM w)).flatMap (fun m => (List.range 384).map (Prod.mk m)) := rfl
  rw [hflat, List.foldl_flatMap]
  simp only [State.runMma, hscale, zipIdx_map_range, List.foldl_map]
  refine List.foldl_ext _ _ _ fun acc m hm => ?_
  simp only [hrow m hm]
  rfl

section
variable {s : State} {core w m n j : Nat} {slice : Memory}

theorem State.runMma_written (hm : m < cmdM w) (hn : n < 384) : sget 0 (s.runMma core w slice).1 (mmaPlace core w (m, n)) =
    BitVec.ofNat 32 (s.mmaOut core w slice (m, n) (sget 0 s.matrix.acc (mmaPlace core w (m, n))).toNat).1 := by
  rw [State.runMma_eq, sget_foldl_writeElement (mmaElements_places_nodup core w) (mem_mmaElements.2 ⟨hm, hn⟩)]

theorem State.runMma_kept (h : ∀ m n, m < cmdM w → n < 384 → j ≠ mmaPlace core w (m, n)) :
    sget 0 (s.runMma core w slice).1 j = sget 0 s.matrix.acc j := by
  rw [State.runMma_eq, sget_foldl_writeElement_ne]
  rintro ⟨m, n⟩ hx
  obtain ⟨hm, hn⟩ := mem_mmaElements.1 hx
  exact h m n hm hn

theorem State.runMma_raises (b : Nat) : (s.runMma core w slice).2.getLsbD b = true ↔ ∃ m n, m < cmdM w ∧ n < 384 ∧
    (s.mmaOut core w slice (m, n) (sget 0 s.matrix.acc (mmaPlace core w (m, n))).toNat).2.getLsbD b = true := by
  rw [State.runMma_eq, getLsbD_foldl_writeElement (mmaElements_places_nodup core w)]
  simp only [fNone, BitVec.getLsbD_zero, Bool.false_eq_true, false_or, Prod.exists, mem_mmaElements, and_assoc]

end

end Sys2Proof.Machine
end

section
/-!
SUPPORT. The events of a matrix array (09 R181 to R183; 04 R85; 01 R18): a slice load ends, a command starts and completes.
-/
namespace Sys2Proof.Machine

section
variable {s : State} {core slice fmt done start k : Nat} {c : MatrixCmd}

/-- The copy of a slice as it stands. -/
def State.sliceCopy (s : State) (core slice fmt : Nat) : Latch :=
  { slice := slice, fmt := fmt, valid := true, bytes :=
      (within s.matrix.bslice (grainBase core .bslice slice) 98304).map (fun e => (e.1 - grainBase core .bslice slice, e.2)) }

/-- A slice load whose time has come latches the slice in the set that is not in use. -/
theorem exec_bSliceLoadComplete (hload : (s.array core).loading = some (slice, fmt, done)) (htime : done ≤ s.time) :
    exec (.bSliceLoadComplete core) s = .next (s.setArray ((({ s.array core with loading := none } : MArray).setSet
      (1 - (s.array core).lastUsed) (s.sliceCopy core slice fmt)).schedule s.time)) := by
  show execBSliceLoadComplete core s = _
  simp only [execBSliceLoadComplete, event, hload, Nat.not_lt.2 htime, if_false]
  rfl

/-- An array with a queued command running from now on. -/
def MArray.run (a : MArray) (c : MatrixCmd) (now : Nat) : MArray :=
  { a with queue := a.queue.filter (fun x => x.mid != c.mid), running := some (c, now), lastLead := c.lead }

section
variable (hfree : (s.array core).running = none) (hnext : (s.array core).next = some c)
include hfree hnext

theorem exec_matrixCommandStart_mzero (hzero : c.zero = true) :
    exec (.matrixCommandStart core) s = .next (s.setArray (((s.array core).run c s.time).schedule s.time)) := by
  show execMatrixCommandStart core s = _
  simp only [execMatrixCommandStart, event, hfree, hnext, hzero, if_true]
  rfl

/-- An MMA starts from the set that holds its slice; the other set is spent. -/
theorem exec_matrixCommandStart_mma (hmma : c.zero = false) (hready : (s.array core).ready c = some k) :
    let spent := (s.array core).setSet (1 - k) { (s.array core).set (1 - k) with valid := false }
    exec (.matrixCommandStart core) s = .next (s.setArray ((({ spent with lastUsed := k } : MArray).run c s.time).schedule s.time)) := by
  show execMatrixCommandStart core s = _
  simp only [execMatrixCommandStart, event, hfree, hnext, hmma, Bool.false_eq_true, if_false, hready]
  rfl

end

/-- The accumulator elements and the exceptions that a command leaves. -/
def State.commandResult (s : State) (core : Nat) (c : MatrixCmd) : WordMap × FpFlags :=
  if c.zero then (Machine.outside ((core * 1024 + zeroRow c.word.toNat) * 384) (zeroCount c.word.toNat * 384) s.matrix.acc, fNone)
  else s.runMma core c.word.toNat ((s.array core).set (s.array core).lastUsed).bytes

/-- A command whose cycles have passed leaves its result and its exceptions, and its counter falls. -/
theorem exec_matrixCommandComplete (hruns : (s.array core).running = some (c, start))
    (hcycles : cmdCycles c ≤ s.allowedSince core start) :
    exec (.matrixCommandComplete core) s = .next ((({ s with matrix := { s.matrix with acc := (s.commandResult core c).1 } } :
      State).setArray (({ s.array core with running := none } : MArray).schedule s.time)).modCtx c.bid .lead (fun x =>
        { x.setCounter 2 (x.counter 2 - 1) with fps := x.fps ||| (s.commandResult core c).2 })) := by
  show execMatrixCommandComplete core s = _
  simp only [execMatrixCommandComplete, event, hruns, Nat.not_lt.2 hcycles, if_false]
  rfl

theorem State.commandResult_mzero (hzero : c.zero = true) : s.commandResult core c =
    (Machine.outside ((core * 1024 + zeroRow c.word.toNat) * 384) (zeroCount c.word.toNat * 384) s.matrix.acc, fNone) := if_pos hzero

theorem State.commandResult_mma (hmma : c.zero = false) : s.commandResult core c =
    s.runMma core c.word.toNat ((s.array core).set (s.array core).lastUsed).bytes := if_neg (Bool.eq_false_iff.1 hmma)

end

/-- Settles O45: the array by its events, an MMA by the elements it writes one by one, an element by its groups, the manual's cases by
evaluation. -/
theorem matrixCommandsStartAndComplete : Obligations.MatrixCommandsStartAndComplete := by
  refine ⟨?array, ?mma, ?scales, ?cases⟩
  case array =>
    intro s core slice fmt done start k c a w run freed lo count
    refine ⟨exec_bSliceLoadComplete, exec_matrixCommandStart_mzero, exec_matrixCommandStart_mma,
      fun hruns hcycles => ⟨fun hzero => ?_, fun hmma => ?_⟩⟩
    · rw [exec_matrixCommandComplete hruns hcycles, State.commandResult_mzero hzero]
      rfl
    · rw [exec_matrixCommandComplete hruns hcycles, State.commandResult_mma hmma]
  case mma =>
    intro s core w m n j slice arow bcol scale old len out r g k int at_ group met
    have hout (m n : Nat) : out m n = s.mmaOut core w slice (m, n) (sget 0 s.matrix.acc (mmaPlace core w (m, n))).toNat := by
      simp only [State.mmaOut, sliceColumn_eq]
      rfl
    refine ⟨fun hm hn => ?_, State.runMma_kept, fun b _ => ?_, mmaElement_int8, fun hform => ?_⟩
    · rw [hout]
      exact State.runMma_written hm hn
    · simp only [hout]
      exact State.runMma_raises b
    · exact mmaElement_groups hform
  case scales =>
    intro c x
    refine ⟨scaleMeet_nan, ?_, ?_, ?_, ?_⟩
    · rintro k e neg rfl rfl
      exact scaleMeet_zero_inf k neg e
    · rintro k neg m e f rfl rfl
      exact (scaleMeet_fin k neg 0 m e f).trans (by rw [Nat.zero_mul])
    · rintro k neg e rfl rfl
      exact scaleMeet_inf_zero k neg e
    · rintro k neg a m e f rfl rfl
      exact scaleMeet_fin k neg a m e f
  case cases =>
    rintro bytes rfl
    exact ⟨mmaElement_bf16_sum, mmaElement_nq4_scaled, mmaElement_inf_zero_scale⟩

end Sys2Proof.Machine
end

section
/-!
SUPPORT. Arbitration of a top unit (10 R205, R206): the passes and deficits that its queues come with, and which of the candidates each
mode picks.
-/
namespace Sys2Proof.Machine

/-! Lists and folds. -/

/-- Of the least entries of a list `argmin` takes the first. -/
theorem argmin_first {α β : Type} [LinearOrder β] [DecidableEq α] {f : α → β} {key : α → Nat} {l : List α} {m a : α}
    (hsorted : l.Pairwise (key · < key ·)) (hm : m ∈ l.argmin f) (ha : a ∈ l) (hle : f a ≤ f m) : key m ≤ key a := by
  have hml : m ∈ l := List.argmin_mem hm
  rcases (List.index_of_argmin hm ha hle).lt_or_eq with hlt | heq
  · have hkeys := List.pairwise_iff_getElem.1 hsorted _ _ (List.idxOf_lt_length_iff.2 hml) (List.idxOf_lt_length_iff.2 ha) hlt
    simpa using hkeys.le
  · rw [(List.idxOf_inj hml).1 heq]

/-- What every step of a fold leaves as it is the fold leaves so. -/
theorem foldl_keeps {α β : Type} (p : State → β) {f : State → α → State} (h : ∀ s x, p (f s x) = p s) (l : List α) (s : State) :
    p (l.foldl f s) = p s := by
  induction l generalizing s with
  | nil => rfl
  | cons x l ih => exact (ih (f s x)).trans (h s x)

/-- A running maximum is at least every value that it has met. -/
theorem le_foldl_max {α : Type} (f : α → Nat) {l : List α} {x : α} (hx : x ∈ l) : f x ≤ l.foldl (fun m r => max m (f r)) 0 := by
  rw [← List.foldl_map (f := f) (g := max)]
  have hmax : (0 :: l.map f).max? = some ((l.map f).foldl max 0) := List.max?_cons'
  exact (List.max?_eq_some_iff.1 hmax).2 _ (List.mem_cons_of_mem _ (List.mem_map_of_mem hx))

theorem span_sorted (lo n : Nat) : (span lo n).Pairwise (· < ·) := by
  simpa [span, List.pairwise_map] using List.pairwise_lt_range (n := n)

theorem span_nodup (lo n : Nat) : (span lo n).Nodup := (span_sorted lo n).imp Nat.ne_of_lt

theorem mem_span {lo n k : Nat} : k ∈ span lo n ↔ lo ≤ k ∧ k < lo + n := by
  simp only [span, List.mem_map, List.mem_range]
  exact ⟨by rintro ⟨i, hi, rfl⟩; omega, fun ⟨hlo, hhi⟩ => ⟨k - lo, by omega, by omega⟩⟩

theorem zipIdx_sorted {α : Type} (l : List α) : l.zipIdx.Pairwise (·.2 < ·.2) := by
  rw [← List.pairwise_map (f := Prod.snd) (R := (· < ·)), List.zipIdx_map_snd]
  exact List.pairwise_lt_range'

/-! The registers of a launch queue. -/

theorem State.lq_setLq (s : State) (n k : Nat) (q : LaunchQueue) : (s.setLq n q).lq k = if k = n then q else s.lq k := by
  split
  · next h => simp [State.lq, h]
  · next h => simp [State.lq, aget_aput_ne _ _ h]

theorem State.lq_of_dean {s t : State} (h : t.dean = s.dean) (k : Nat) : t.lq k = s.lq k := by rw [State.lq, h, State.lq]

/-! A fold over items that each change one launch queue. -/

section
variable {α : Type} {f : State → α → State} {key : α → Nat} {g : α → LaunchQueue → LaunchQueue}
  (hf : ∀ t x k, (f t x).lq k = if k = key x then g x (t.lq k) else t.lq k)
include hf

theorem State.lq_foldl_ne {l : List α} {k : Nat} (h : ∀ x ∈ l, k ≠ key x) (s : State) : (l.foldl f s).lq k = s.lq k := by
  induction l generalizing s with
  | nil => rfl
  | cons x l ih =>
    rw [List.foldl_cons, ih (fun y hy => h y (List.mem_cons_of_mem _ hy)), hf, if_neg (h x List.mem_cons_self)]

theorem State.lq_foldl_mem {l : List α} {x : α} (hkeys : (l.map key).Nodup) (hx : x ∈ l) (s : State) :
    (l.foldl f s).lq (key x) = g x (s.lq (key x)) := by
  induction l generalizing s with
  | nil => exact nomatch hx
  | cons y l ih =>
    obtain ⟨hy, hrest⟩ := List.nodup_cons.1 hkeys
    rcases List.mem_cons.1 hx with rfl | hmem
    · rw [List.foldl_cons, State.lq_foldl_ne hf (fun z hz heq => hy (List.mem_map.2 ⟨z, hz, heq.symm⟩)), hf, if_pos rfl]
    · rw [List.foldl_cons, ih hrest hmem, hf, if_neg (fun heq => hy (List.mem_map.2 ⟨x, hmem, heq⟩))]

end

/-! Queues that become ready and queues that are not (10 R205, R206). -/

/-- A launch queue once a top unit has seen whether it is ready: a queue that becomes so comes with a pass of at least `v`. -/
def LaunchQueue.seen (q : LaunchQueue) (ready : Bool) (v : Nat) : LaunchQueue :=
  if ready then (if q.wasReady then q else { q with wasReady := true, pass := max q.pass v })
  else if q.wasReady || q.deficit ≠ 0 then { q with wasReady := false, deficit := 0 } else q

theorem LaunchQueue.seen_ready_deficit (q : LaunchQueue) (v : Nat) : (q.seen true v).deficit = q.deficit := by
  unfold LaunchQueue.seen
  cases q.wasReady <;> rfl

theorem LaunchQueue.seen_ready_pass (q : LaunchQueue) (v : Nat) :
    (q.seen true v).pass = if q.wasReady then q.pass else max q.pass v := by
  unfold LaunchQueue.seen
  cases q.wasReady <;> rfl

theorem LaunchQueue.seen_idle_deficit (q : LaunchQueue) (v : Nat) : (q.seen false v).deficit = 0 := by
  unfold LaunchQueue.seen
  by_cases h : q.deficit = 0 <;> cases q.wasReady <;> simp [h]

/-- The pass with which a queue becomes ready (10 R205): the lowest of the queues that were ready, or the last winner's. -/
def State.leastPass (s : State) (unit : Nat) (ready : List Nat) : Nat :=
  (((ready.filter (fun n => (s.lq n).wasReady)).map (fun n => (s.lq n).pass)).min?).getD (sget 0 s.dean.lastPass unit)

theorem State.leastPass_of_least {s : State} {unit v n : Nat} {ready : List Nat} (hn : n ∈ ready) (hwas : (s.lq n).wasReady = true)
    (hpass : (s.lq n).pass = v) (hleast : ∀ k ∈ ready, (s.lq k).wasReady = true → v ≤ (s.lq k).pass) : s.leastPass unit ready = v := by
  have hmin : ((ready.filter (fun n => (s.lq n).wasReady)).map (fun n => (s.lq n).pass)).min? = some v := by
    rw [List.min?_eq_some_iff]
    refine ⟨List.mem_map.2 ⟨n, List.mem_filter.2 ⟨hn, hwas⟩, hpass⟩, fun p hp => ?_⟩
    obtain ⟨k, hk, rfl⟩ := List.mem_map.1 hp
    exact hleast k (List.mem_filter.1 hk).1 (List.mem_filter.1 hk).2
  rw [State.leastPass, hmin, Option.getD_some]

theorem State.leastPass_of_none {s : State} {unit : Nat} {ready : List Nat} (hnone : ∀ k ∈ ready, (s.lq k).wasReady = false) :
    s.leastPass unit ready = sget 0 s.dean.lastPass unit := by
  have hempty : ready.filter (fun n => (s.lq n).wasReady) = [] := by simpa using hnone
  rw [State.leastPass, hempty]
  rfl

theorem State.leastPass_of_dean {s t : State} (h : t.dean = s.dean) (unit : Nat) (ready : List Nat) :
    t.leastPass unit ready = s.leastPass unit ready := by
  simp only [State.leastPass, State.lq_of_dean h, h]

/-- A top unit sees whether one queue is ready. -/
def State.seeQueue (v : Nat) (ready : List Nat) (t : State) (n : Nat) : State :=
  if ready.contains n then
    (if (t.lq n).wasReady then t else t.setLq n { t.lq n with wasReady := true, pass := max (t.lq n).pass v })
  else if (t.lq n).wasReady || (t.lq n).deficit ≠ 0 then t.setLq n { t.lq n with wasReady := false, deficit := 0 }
  else t

theorem State.noteReady_eq (s : State) (unit : Nat) (ready : List Nat) :
    s.noteReady unit ready = (span (unit * 32) 32).foldl (State.seeQueue (s.leastPass unit ready) ready) s := by
  have hleast : s.leastPass unit ready = match (ready.filter (fun n => (s.lq n).wasReady)).map (fun n => (s.lq n).pass) with
      | [] => sget 0 s.dean.lastPass unit
      | p :: ps => ps.foldl min p := by
    unfold State.leastPass
    split
    · next h => rw [h]; rfl
    · next h => rw [h]; rfl
  rw [hleast]
  rfl

theorem State.lq_seeQueue (v : Nat) (ready : List Nat) (t : State) (n k : Nat) :
    (t.seeQueue v ready n).lq k = if k = n then (t.lq k).seen (ready.contains n) v else t.lq k := by
  by_cases hk : k = n
  · subst hk
    unfold State.seeQueue LaunchQueue.seen
    rw [if_pos rfl]
    split_ifs <;> simp only [State.lq_setLq, if_true]
  · unfold State.seeQueue
    rw [if_neg hk]
    split_ifs <;> simp only [State.lq_setLq, if_neg hk]

theorem State.lq_noteReady {unit k : Nat} (hk : k ∈ span (unit * 32) 32) (s : State) (ready : List Nat) :
    (s.noteReady unit ready).lq k = (s.lq k).seen (ready.contains k) (s.leastPass unit ready) := by
  rw [State.noteReady_eq]
  have hkeys : ((span (unit * 32) 32).map id).Nodup := by simpa using span_nodup _ _
  exact State.lq_foldl_mem (key := id) (g := fun n q => q.seen (ready.contains n) (s.leastPass unit ready))
    (State.lq_seeQueue _ _) hkeys hk s

theorem State.visit_noteReady (s : State) (unit : Nat) (ready : List Nat) :
    (s.noteReady unit ready).dean.visit = s.dean.visit := by
  rw [State.noteReady_eq]
  refine foldl_keeps (·.dean.visit) (fun t n => ?_) _ s
  unfold State.seeQueue
  split_ifs <;> rfl

theorem State.dean_noteUnseated (s : State) (unit : Nat) : (s.noteUnseated unit).dean = s.dean := by
  refine foldl_keeps State.dean (fun t n => ?_) _ s
  cases s.oldestLaunch n <;> rfl

/-! Strides (10 R205). -/

theorem State.pickStride_eq (s : State) (cands : List Nat) : s.pickStride cands = cands.argmin (fun n => (s.lq n).pass) := by
  unfold State.pickStride List.argmin
  congr 1
  funext acc n
  cases acc <;> rfl

/-- By strides the queue of lowest pass wins, then the lowest number. -/
theorem State.pickStride_spec {s : State} {cands : List Nat} {n m : Nat} (hsorted : cands.Pairwise (· < ·))
    (hpick : s.pickStride cands = some n) (hm : m ∈ cands) :
    (s.lq n).pass < (s.lq m).pass ∨ ((s.lq n).pass = (s.lq m).pass ∧ n ≤ m) := by
  rw [State.pickStride_eq] at hpick
  rcases (List.le_of_mem_argmin hm hpick).lt_or_eq with hlt | heq
  · exact .inl hlt
  · exact .inr ⟨heq, argmin_first (key := id) hsorted hpick hm heq.ge⟩

/-! Deficits (10 R206). -/

/-- After its visits a queue may seat. -/
theorem LaunchQueue.deficit_after_visits (q : LaunchQueue) : 0 < q.deficit + q.visits * (max 1 q.quant : Nat) := by
  have hquant : (0 : Int) < (max 1 q.quant : Nat) := by omega
  have henough := Int.lt_ediv_add_one_mul_self (-q.deficit) hquant
  have hvisits : -q.deficit / (max 1 q.quant : Nat) + 1 ≤ q.visits := by
    unfold LaunchQueue.visits
    omega
  linarith [mul_le_mul_of_nonneg_right hvisits hquant.le]

/-- After fewer visits than it needs, but some, it may not. -/
theorem LaunchQueue.deficit_before_visits {q : LaunchQueue} {k : Nat} (hsome : k ≠ 0) (hfewer : k < q.visits) :
    q.deficit + k * (max 1 q.quant : Nat) ≤ 0 := by
  have hquant : (0 : Int) < (max 1 q.quant : Nat) := by omega
  have hk : (k : Int) ≤ -q.deficit / (max 1 q.quant : Nat) := by
    unfold LaunchQueue.visits at hfewer
    omega
  linarith [Int.mul_le_of_le_ediv hquant hk]

/-- The order in which deficit round-robin comes to its candidates: from the queue after the one visited last, cyclically. -/
def visitOrder (cur : Option Nat) (cands : List Nat) : List Nat :=
  let after := cands.filter (fun n => match cur with
    | some m => decide (n > m)
    | none => true)
  after ++ cands.filter (fun n => !after.contains n)

theorem visitOrder_perm (cur : Option Nat) (cands : List Nat) : (visitOrder cur cands).Perm cands := by
  unfold visitOrder
  refine .trans (.append_left _ (.of_eq ?_)) (List.filter_append_perm _ cands)
  refine List.filter_congr fun n hn => ?_
  simp [hn]

/-- A queue that has been visited so many times. -/
def LaunchQueue.visited (q : LaunchQueue) (visits : Nat) : LaunchQueue :=
  { q with deficit := q.deficit + visits * (max 1 q.quant : Nat) }

/-- The visits of a queue on the way to the queue at a place, which needs so many: one fewer behind that place. -/
def visitsOf (need at_ i : Nat) : Nat := if i > at_ then need - 1 else need

/-- The visits of one queue on the way. -/
def State.visitQueue (need at_ : Nat) (t : State) (p : Nat × Nat) : State :=
  t.setLq p.1 ((t.lq p.1).visited (visitsOf need at_ p.2))

/-- The state once the visits have come to the queue at a place of their order, which needs so many. -/
def State.visitedUpTo (s : State) (unit : Nat) (order : List Nat) (x : Nat × Nat × Nat) : State :=
  let t := order.zipIdx.foldl (State.visitQueue x.1 x.2.1) s
  { t with dean := { t.dean with visit := aput t.dean.visit unit x.2.2 } }

/-- Of the queues in their order the one that needs the fewest visits, the first of them: its visits, its place and its number. -/
def State.fewestVisits (s : State) (order : List Nat) : Option (Nat × Nat × Nat) :=
  order.zipIdx.foldl (fun (acc : Option (Nat × Nat × Nat)) p => match acc with
    | none => some ((s.lq p.1).visits, p.2, p.1)
    | some a => if (s.lq p.1).visits < a.1 then some ((s.lq p.1).visits, p.2, p.1) else acc) none

theorem State.fewestVisits_eq (s : State) (order : List Nat) : s.fewestVisits order =
    (order.zipIdx.argmin (fun p => (s.lq p.1).visits)).map (fun p => ((s.lq p.1).visits, p.2, p.1)) := by
  refine List.foldl_hom (Option.map fun p : Nat × Nat => ((s.lq p.1).visits, p.2, p.1)) (init := none) fun acc p => ?_
  cases acc with
  | none => rfl
  | some a => exact (apply_ite (Option.map _) _ (some p) (some a)).symm

/-- Whether the queue visited last goes on: it competes and its deficit is positive. -/
def State.goesOn (s : State) (cands : List Nat) (n : Nat) : Bool := cands.contains n && decide ((s.lq n).deficit > 0)

/-- The queue that deficit round-robin picks, with the deficits that the visits on the way leave. -/
theorem State.pickDeficit_eq (s : State) (unit : Nat) (cands : List Nat) : s.pickDeficit unit cands =
    if (aget s.dean.visit unit).any (s.goesOn cands) then (aget s.dean.visit unit).map (fun n => (s, n))
    else match s.fewestVisits (visitOrder (aget s.dean.visit unit) cands) with
      | none => none
      | some (need, at_, n) => some (s.visitedUpTo unit (visitOrder (aget s.dean.visit unit) cands) (need, at_, n), n) := by
  unfold State.pickDeficit
  generalize aget s.dean.visit unit = cur
  cases cur with
  | none => rfl
  | some m =>
    simp only [visitOrder, Option.any_some, State.goesOn]
    rfl

theorem State.lq_visitQueue (need at_ : Nat) (t : State) (p : Nat × Nat) (k : Nat) : (t.visitQueue need at_ p).lq k =
    if k = p.1 then (t.lq k).visited (visitsOf need at_ p.2) else t.lq k := by
  rw [State.visitQueue, State.lq_setLq]
  split_ifs with h
  · rw [h]
  · rfl

section
variable {s : State} {unit k i : Nat} {order : List Nat} {x : Nat × Nat × Nat}

theorem State.lq_visitedUpTo_of_mem (hnodup : order.Nodup) (hk : (k, i) ∈ order.zipIdx) :
    (s.visitedUpTo unit order x).lq k = (s.lq k).visited (visitsOf x.1 x.2.1 i) := by
  have hkeys : (order.zipIdx.map Prod.fst).Nodup := by rwa [List.zipIdx_map_fst]
  exact State.lq_foldl_mem (key := Prod.fst) (g := fun p q => q.visited (visitsOf x.1 x.2.1 p.2)) (State.lq_visitQueue _ _) hkeys hk s

theorem State.lq_visitedUpTo_of_notMem (hk : k ∉ order) : (s.visitedUpTo unit order x).lq k = s.lq k := by
  refine State.lq_foldl_ne (key := Prod.fst) (g := fun p q => q.visited (visitsOf x.1 x.2.1 p.2)) (State.lq_visitQueue _ _) ?_ s
  rintro ⟨j, i⟩ hj rfl
  exact hk (List.fst_mem_of_mem_zipIdx hj)

/-- The queue that needs the fewest visits may seat after them. -/
theorem State.deficit_winner (hnodup : order.Nodup) (hk : (k, i) ∈ order.zipIdx) :
    0 < ((s.visitedUpTo unit order ((s.lq k).visits, i, k)).lq k).deficit := by
  rw [State.lq_visitedUpTo_of_mem hnodup hk, visitsOf, if_neg (lt_irrefl i)]
  exact (s.lq k).deficit_after_visits

/-- Any other that has been visited on the way may not. -/
theorem State.deficit_loser {n at_ : Nat} (hnodup : order.Nodup)
    (hleast : (n, at_) ∈ order.zipIdx.argmin (fun p => (s.lq p.1).visits)) (hk : k ∈ order) (hne : k ≠ n)
    (hpos : 0 < ((s.visitedUpTo unit order ((s.lq n).visits, at_, n)).lq k).deficit) :
    ((s.visitedUpTo unit order ((s.lq n).visits, at_, n)).lq k).deficit = (s.lq k).deficit := by
  obtain ⟨i, hplace⟩ := List.getElem?_of_mem hk
  have hi : (k, i) ∈ order.zipIdx := List.mk_mem_zipIdx_iff_getElem?.2 hplace
  rw [State.lq_visitedUpTo_of_mem hnodup hi] at hpos ⊢
  have hfewer : visitsOf (s.lq n).visits at_ i < (s.lq k).visits := by
    have hle := List.le_of_mem_argmin (f := fun p : Nat × Nat => (s.lq p.1).visits) hi hleast
    dsimp only at hle
    have hsome : 1 ≤ (s.lq n).visits := le_max_left ..
    unfold visitsOf
    split_ifs with hbehind
    · omega
    · refine hle.lt_of_ne fun htie => hne ?_
      have hfirst : at_ ≤ i := argmin_first (zipIdx_sorted order) hleast hi htie.ge
      have hsame : at_ = i := by omega
      subst hsame
      exact Option.some.inj (hplace.symm.trans (List.mk_mem_zipIdx_iff_getElem?.1 (List.argmin_mem hleast)))
  by_cases hsome : visitsOf (s.lq n).visits at_ i = 0
  · simp [LaunchQueue.visited, hsome]
  · exact absurd hpos (not_lt.2 (LaunchQueue.deficit_before_visits hsome hfewer))

end

/-- What deficit round-robin picks and leaves: it has a positive deficit, the queue visited last goes on while it has, any other that was
visited has none left, and no queue but a candidate changes. -/
theorem State.pickDeficit_spec {s t : State} {unit n : Nat} {cands : List Nat} (hnodup : cands.Nodup)
    (hpick : s.pickDeficit unit cands = some (t, n)) :
    n ∈ cands ∧ 0 < (t.lq n).deficit ∧
      (∀ m ∈ cands, aget s.dean.visit unit = some m → 0 < (s.lq m).deficit → n = m) ∧
      (∀ m ∈ cands, m ≠ n → 0 < (t.lq m).deficit → (t.lq m).deficit = (s.lq m).deficit) ∧
      (∀ k, k ∉ cands → t.lq k = s.lq k) := by
  rw [State.pickDeficit_eq] at hpick
  split_ifs at hpick with hgoes
  case pos =>
    obtain ⟨m, hcur, hmn⟩ := Option.map_eq_some_iff.1 hpick
    obtain ⟨rfl, rfl⟩ := Prod.mk.inj hmn
    simp only [hcur, Option.any_some, State.goesOn, Bool.and_eq_true, List.contains_iff_mem, decide_eq_true_eq] at hgoes
    exact ⟨hgoes.1, hgoes.2, fun k _ hk _ => Option.some.inj (hcur.symm.trans hk), fun _ _ _ _ => rfl, fun _ _ => rfl⟩
  case neg =>
    have hperm := visitOrder_perm (aget s.dean.visit unit) cands
    have hround := hperm.nodup_iff.2 hnodup
    rw [State.fewestVisits_eq] at hpick
    cases hleast : (visitOrder (aget s.dean.visit unit) cands).zipIdx.argmin (fun p => (s.lq p.1).visits) with
    | none => simp [hleast] at hpick
    | some p =>
      simp only [hleast, Option.map_some, Option.some.injEq, Prod.mk.injEq] at hpick
      obtain ⟨rfl, rfl⟩ := hpick
      have hp := List.argmin_mem hleast
      refine ⟨hperm.mem_iff.1 (List.fst_mem_of_mem_zipIdx hp), State.deficit_winner hround hp, fun m hm hcur hpos => ?_,
        fun m hm hne hpos => State.deficit_loser hround hleast (hperm.mem_iff.2 hm) hne hpos,
        fun k hk => State.lq_visitedUpTo_of_notMem (fun h => hk (hperm.mem_iff.1 h))⟩
      exact absurd (by simp [hcur, State.goesOn, hm, hpos]) hgoes

end Sys2Proof.Machine
end

section
/-!
SUPPORT. What a top unit offers and seats (10 R194, R202, R204 to R209, R213).
-/
namespace Sys2Proof.Machine

/-! Ready queues and candidates (10 R204). -/

theorem State.oldestLaunch_queue {s : State} {n : Nat} {l : Launch} (h : s.oldestLaunch n = some l) : l.params.queue = n := by
  have hfound := List.find?_some h
  simp only [Bool.and_eq_true, decide_eq_true_eq] at hfound
  exact hfound.1

/-- A ready queue with its oldest ready launch and the work that this can seat. -/
theorem State.mem_readyQueues {s : State} {unit n : Nat} {l : Launch} {w : Work} : (n, l, w) ∈ s.readyQueues unit ↔
    n ∈ span (unit * 32) 32 ∧ s.oldestLaunch n = some l ∧ (s.works l).find? (s.seatable l) = some w := by
  simp only [State.readyQueues, List.mem_filterMap, Option.bind_eq_some_iff, Option.map_eq_some_iff, Prod.mk.injEq]
  constructor
  · rintro ⟨k, hk, m, hm, v, hv, rfl, rfl, rfl⟩
    exact ⟨hk, hm, hv⟩
  · rintro ⟨hn, hl, hw⟩
    exact ⟨n, hn, l, hl, w, hw, rfl, rfl, rfl⟩

theorem State.readyQueues_sorted (s : State) (unit : Nat) : ((s.readyQueues unit).map (·.1)).Pairwise (· < ·) := by
  rw [List.pairwise_map, State.readyQueues, List.pairwise_filterMap]
  refine (span_sorted _ _).imp fun hlt x hx y hy => ?_
  simp only [Option.bind_eq_some_iff, Option.map_eq_some_iff] at hx hy
  obtain ⟨_, _, _, _, rfl⟩ := hx
  obtain ⟨_, _, _, _, rfl⟩ := hy
  exact hlt

/-- The highest priority among a top unit's ready queues. -/
def State.topPrio (s : State) (unit : Nat) : Nat := (s.readyQueues unit).foldl (fun m r => max m r.2.1.params.prio) 0

/-- The queues among which a top unit's mode picks: those of the highest priority. -/
def State.candidates (s : State) (unit : Nat) : List Nat :=
  ((s.readyQueues unit).filter (fun r => r.2.1.params.prio == s.topPrio unit)).map (·.1)

theorem State.prio_le_topPrio {s : State} {unit : Nat} {r : Nat × Launch × Work} (hr : r ∈ s.readyQueues unit) :
    r.2.1.params.prio ≤ s.topPrio unit := le_foldl_max (fun r => r.2.1.params.prio) hr

theorem State.candidates_sorted (s : State) (unit : Nat) : (s.candidates unit).Pairwise (· < ·) :=
  (s.readyQueues_sorted unit).sublist (List.filter_sublist.map _)

theorem State.mem_candidates {s : State} {unit n : Nat} : n ∈ s.candidates unit ↔
    ∃ l w, (n, l, w) ∈ s.readyQueues unit ∧ l.params.prio = s.topPrio unit := by
  simp [State.candidates, and_assoc]

/-- A top unit's state once it has seen which of its queues are ready. -/
def State.seen (s : State) (unit : Nat) : State :=
  (s.noteUnseated unit).noteReady unit ((s.readyQueues unit).map (·.1))

theorem State.seatOffer_eq (s : State) (unit : Nat) : s.seatOffer unit =
    let picked : State × Option Nat :=
      if s.dean.drr then match (s.seen unit).pickDeficit unit (s.candidates unit) with
        | none => (s.seen unit, none)
        | some (t, n) => (t, some n)
      else (s.seen unit, (s.seen unit).pickStride (s.candidates unit))
    (picked.1, picked.2.bind (fun n => ((s.readyQueues unit).find? (fun r => r.1 == n)).map (·.2))) := rfl

theorem State.visit_seen (s : State) (unit : Nat) : (s.seen unit).dean.visit = s.dean.visit := by
  rw [State.seen, State.visit_noteReady, State.dean_noteUnseated]

/-- A launch queue of a top unit that has seen which of them are ready. -/
theorem State.lq_seen {s : State} {unit k : Nat} (hk : k ∈ span (unit * 32) 32) : (s.seen unit).lq k =
    (s.lq k).seen (((s.readyQueues unit).map (·.1)).contains k) (s.leastPass unit ((s.readyQueues unit).map (·.1))) := by
  have hdean := s.dean_noteUnseated unit
  rw [State.seen, State.lq_noteReady hk, State.lq_of_dean hdean, State.leastPass_of_dean hdean]

theorem State.lq_seen_ready {s : State} {unit : Nat} {r : Nat × Launch × Work} (hr : r ∈ s.readyQueues unit) :
    (s.seen unit).lq r.1 = (s.lq r.1).seen true (s.leastPass unit ((s.readyQueues unit).map (·.1))) := by
  rw [State.lq_seen (State.mem_readyQueues.1 hr).1, List.contains_iff_mem.2 (List.mem_map_of_mem hr)]

theorem State.lq_seen_idle {s : State} {unit k : Nat} (hk : k ∈ span (unit * 32) 32) (hidle : ∀ r ∈ s.readyQueues unit, r.1 ≠ k) :
    (s.seen unit).lq k = (s.lq k).seen false (s.leastPass unit ((s.readyQueues unit).map (·.1))) := by
  have hnot : ((s.readyQueues unit).map (·.1)).contains k = false := by
    rw [Bool.eq_false_iff, ne_eq, List.contains_iff_mem, List.mem_map]
    exact fun ⟨r, hr, hrk⟩ => hidle r hr hrk
  rw [State.lq_seen hk, hnot]

/-! What a top unit offers (10 R204). -/

section
variable {s : State} {unit : Nat} {l : Launch} {w : Work}

theorem State.mem_ready_of_find {n : Nat} (h : ((s.readyQueues unit).find? (fun r => r.1 == n)).map (·.2) = some (l, w)) :
    (n, l, w) ∈ s.readyQueues unit ∧ l.params.queue = n := by
  obtain ⟨⟨k, m, v⟩, hfind, heq⟩ := Option.map_eq_some_iff.1 h
  obtain ⟨rfl, rfl⟩ := Prod.mk.inj heq
  obtain rfl : k = n := by simpa using List.find?_some hfind
  have hmem := List.mem_of_find?_eq_some hfind
  exact ⟨hmem, State.oldestLaunch_queue (State.mem_readyQueues.1 hmem).2.1⟩

/-- By strides the unit offers the work of the queue that they pick. -/
theorem State.seatOffer_stride (hmode : s.dean.drr = false) (h : (s.seatOffer unit).2 = some (l, w)) :
    (s.seatOffer unit).1 = s.seen unit ∧ (s.seen unit).pickStride (s.candidates unit) = some l.params.queue ∧
      (l.params.queue, l, w) ∈ s.readyQueues unit := by
  simp only [State.seatOffer_eq, hmode, Bool.false_eq_true, if_false] at h ⊢
  obtain ⟨n, hpick, hfind⟩ := Option.bind_eq_some_iff.1 h
  obtain ⟨hready, rfl⟩ := State.mem_ready_of_find hfind
  exact ⟨trivial, hpick, hready⟩

/-- By deficits the unit offers the work of the queue that they pick, in the state that its visits leave. -/
theorem State.seatOffer_deficit (hmode : s.dean.drr = true) (h : (s.seatOffer unit).2 = some (l, w)) :
    (s.seen unit).pickDeficit unit (s.candidates unit) = some ((s.seatOffer unit).1, l.params.queue) ∧
      (l.params.queue, l, w) ∈ s.readyQueues unit := by
  simp only [State.seatOffer_eq, hmode, if_true] at h ⊢
  cases hpick : (s.seen unit).pickDeficit unit (s.candidates unit) with
  | none => simp [hpick] at h
  | some x =>
    obtain ⟨t, n⟩ := x
    simp only [hpick, Option.bind_some] at h
    obtain ⟨hready, rfl⟩ := State.mem_ready_of_find h
    exact ⟨rfl, hready⟩

theorem State.seatOffer_candidate (h : (s.seatOffer unit).2 = some (l, w)) :
    l.params.queue ∈ s.candidates unit ∧ (l.params.queue, l, w) ∈ s.readyQueues unit := by
  cases hmode : s.dean.drr with
  | false =>
    obtain ⟨-, hpick, hready⟩ := State.seatOffer_stride hmode h
    rw [State.pickStride_eq] at hpick
    exact ⟨List.argmin_mem hpick, hready⟩
  | true =>
    obtain ⟨hpick, hready⟩ := State.seatOffer_deficit hmode h
    exact ⟨(State.pickDeficit_spec ((s.candidates_sorted unit).imp Nat.ne_of_lt) hpick).1, hready⟩

/-- What is offered is of the highest priority. -/
theorem State.seatOffer_prio (h : (s.seatOffer unit).2 = some (l, w)) : l.params.prio = s.topPrio unit := by
  obtain ⟨hcand, hready⟩ := State.seatOffer_candidate h
  obtain ⟨m, v, hm, hprio⟩ := State.mem_candidates.1 hcand
  obtain rfl : m = l := Option.some.inj ((State.mem_readyQueues.1 hm).2.1.symm.trans (State.mem_readyQueues.1 hready).2.1)
  exact hprio

/-- A ready queue of the offer's priority competes with it. -/
theorem State.mem_candidates_of_prio (h : (s.seatOffer unit).2 = some (l, w)) {r : Nat × Launch × Work}
    (hr : r ∈ s.readyQueues unit) (hprio : r.2.1.params.prio = l.params.prio) : r.1 ∈ s.candidates unit :=
  State.mem_candidates.2 ⟨r.2.1, r.2.2, hr, hprio.trans (State.seatOffer_prio h)⟩

end

/-! Billing (10 R205, R206). -/

theorem State.lq_bill_stride {s : State} (hmode : s.dean.drr = false) (n bid : Nat) :
    ((s.bill n bid).lq n).pass = ((s.lq n).pass + 2 ^ 24 / max 1 (s.lq n).tickets) % 2 ^ 64 := by
  simp only [State.bill, hmode, Bool.false_eq_true, if_false]
  exact congrArg LaunchQueue.pass ((State.lq_setLq ..).trans (if_pos rfl))

theorem State.lq_bill_deficit {s : State} (hmode : s.dean.drr = true) (n bid : Nat) :
    ((s.bill n bid).lq n).deficit = (s.lq n).deficit - (((s.lq n).lastCost.getD (max 1 (s.lq n).quant) : Nat) : Int) := by
  simp only [State.bill, hmode, if_true]
  exact congrArg LaunchQueue.deficit ((State.lq_setLq ..).trans (if_pos rfl))

/-! Seating (10 R194, R202, R208, R213). -/

/-- The state once the launch of work to be seated runs, as its TCB says (10 R202). -/
def State.launchRuns (s : State) (l : Launch) : State := if l.status = .ready then s.tcbStatus l.params 3 else s

theorem State.seatWork_again (s : State) (l : Launch) (x : Block) :
    s.seatWork l (.again x) = (s.launchRuns l).resumeBlock x := rfl

theorem State.seatWork_fresh {s : State} {l : Launch} {i : Nat} {cores : List Nat} {rr : Bool}
    (hplace : (s.launchRuns l).placeWork l (.fresh i) [] = some (cores, rr)) :
    let c := l.params.coords i
    let t := ((s.launchRuns l).logPlan l (c.1, c.2.1, c.2.2.1)).noteSeat (l.params.queue / 32) cores rr
    s.seatWork l (.fresh i) = .next (((t.seatFresh l.params i cores).bill l.params.queue t.fresh).modLaunch l.params.lid
      (fun x => { x.seatedBlock i with next := i + 1 })) := by
  unfold State.launchRuns at hplace ⊢
  simp only [State.seatWork, hplace]

section
variable {s s1 : State} {unit bid : Nat} {l : Launch} {w : Work} {b x : Block}

/-- A top unit whose offer comes second seats nothing. -/
theorem exec_blockSeat_yields (hyields : s.yields unit = true) : exec (.blockSeat unit) s = .next s := by
  show execBlockSeat unit s = _
  simp [execBlockSeat, hyields]

/-- One without an offer has seen its queues. -/
theorem exec_blockSeat_nothing (hunit : unit < 2) (hyields : s.yields unit = false) (hoffer : s.seatOffer unit = (s1, none)) :
    exec (.blockSeat unit) s = .next s1 := by
  show execBlockSeat unit s = _
  simp [execBlockSeat, Nat.not_le.2 hunit, hyields, hoffer]

/-- One that offers work seats it. -/
theorem exec_blockSeat_seats (hunit : unit < 2) (hyields : s.yields unit = false)
    (hoffer : s.seatOffer unit = (s1, some (l, w))) : exec (.blockSeat unit) s = s1.seatWork l w := by
  show execBlockSeat unit s = _
  simp [execBlockSeat, Nat.not_le.2 hunit, hyields, hoffer]

variable (hb : s.block? bid = some b) (hunit : b.params.queue / 32 = unit)
include hb hunit

/-- A block whose unit's offer comes second waits. -/
theorem exec_blockResume_yields (hyields : s.yields unit = true) : exec (.blockResume bid) s = .next s := by
  show execBlockResume bid s = _
  simp [execBlockResume, hb, hunit, hyields]

/-- One that its unit does not offer waits. -/
theorem exec_blockResume_waits (hother : ∀ m x, (s.seatOffer unit).2 = some (m, .again x) → x.bid ≠ bid) :
    exec (.blockResume bid) s = .next s := by
  show execBlockResume bid s = _
  simp only [execBlockResume, hb, hunit]
  split
  · rfl
  · split
    · next m x hoffer => exact if_neg (hother m x hoffer)
    · rfl

/-- One that its unit offers is resumed. -/
theorem exec_blockResume_resumes (hlt : unit < 2) (hyields : s.yields unit = false)
    (hoffer : s.seatOffer unit = (s1, some (l, .again x))) (hbid : x.bid = bid) :
    exec (.blockResume bid) s = (s1.launchRuns l).resumeBlock x := by
  show execBlockResume bid s = _
  simp [execBlockResume, hb, hunit, Nat.not_le.2 hlt, hyields, hoffer, hbid, State.seatWork_again]

end

/-- Settles O48: the first part by what a top unit offers, the second by what each mode picks. -/
theorem blocksAreSeatedWhereTheyFit : Obligations.BlocksAreSeatedWhereTheyFit := by
  refine ⟨?seating, ?modes⟩
  case seating =>
    intro s s1 unit i bid l w b x cores rr c s2 s3 hunit
    refine ⟨fun hoffer => ?_, exec_blockSeat_yields, exec_blockSeat_nothing hunit, fun hyields hoffer hplace => ?_,
      fun hyields hoffer => ⟨exec_blockSeat_seats hunit hyields hoffer, fun hb hqueue =>
        ⟨exec_blockResume_resumes hb hqueue hunit hyields hoffer, fun hbid => ?_⟩⟩, fun hb hqueue hnot => ?_⟩
    · exact ⟨⟨l.params.queue, (State.seatOffer_candidate hoffer).2⟩,
        fun r hr => State.seatOffer_prio hoffer ▸ State.prio_le_topPrio hr⟩
    · exact (exec_blockSeat_seats hunit hyields hoffer).trans (State.seatWork_fresh hplace)
    · refine exec_blockResume_waits hb hqueue fun m y hy => ?_
      rw [hoffer] at hy
      cases hy
      exact hbid
    · rcases hnot with hyields | ⟨t, hnone⟩ | ⟨t, hfresh⟩
      · exact exec_blockResume_yields hb hqueue hyields
      · exact exec_blockResume_waits hb hqueue fun m y hy => by simp [hnone] at hy
      · exact exec_blockResume_waits hb hqueue fun m y hy => by simp [hfresh] at hy
  case modes =>
    intro s unit v n bid l w t ready won lowest paid hunit hoffer
    refine ⟨fun hmode => ?strides, fun hmode => ?deficits⟩
    case strides =>
      obtain ⟨hseen, hpick, -⟩ := State.seatOffer_stride hmode hoffer
      rw [show t = s.seen unit from hseen]
      refine ⟨fun r hr hprio => ?_, fun hlowest r hr => ?_, State.lq_bill_stride hmode n bid⟩
      · exact State.pickStride_spec (s.candidates_sorted unit) hpick (State.mem_candidates_of_prio hoffer hr hprio)
      · have hleast : s.leastPass unit (ready.map (·.1)) = v := by
          rcases hlowest with ⟨x, hx, hwas, hpass, hmin⟩ | ⟨hnone, hlast⟩
          · exact State.leastPass_of_least (List.mem_map_of_mem hx) hwas hpass (List.forall_mem_map.2 hmin)
          · exact (State.leastPass_of_none (List.forall_mem_map.2 hnone)).trans hlast.symm
        rw [State.lq_seen_ready hr, LaunchQueue.seen_ready_pass, hleast]
    case deficits =>
      obtain ⟨hpick, -⟩ := State.seatOffer_deficit hmode hoffer
      obtain ⟨hwon, hpos, hgoes, hothers, hkept⟩ := State.pickDeficit_spec ((s.candidates_sorted unit).imp Nat.ne_of_lt) hpick
      have hseen {r} (hr : r ∈ ready) : ((s.seen unit).lq r.1).deficit = (s.lq r.1).deficit := by
        rw [State.lq_seen_ready hr, LaunchQueue.seen_ready_deficit]
      refine ⟨hpos, fun r hr hprio hvisit hleft => ?_, fun r hr hprio hne hleft => ?_, fun k hlo hhi hidle => ?_,
        State.lq_bill_deficit hmode n bid⟩
      · exact hgoes r.1 (State.mem_candidates_of_prio hoffer hr hprio) (s.visit_seen unit ▸ hvisit) ((hseen hr).symm ▸ hleft)
      · exact (hothers r.1 (State.mem_candidates_of_prio hoffer hr hprio) hne hleft).trans (hseen hr)
      · have hcand : k ∉ s.candidates unit := fun h => by
          obtain ⟨m, u, hm, -⟩ := State.mem_candidates.1 h
          exact hidle _ hm rfl
        rw [hkept k hcand, State.lq_seen_idle (mem_span.2 ⟨hlo, hhi⟩) hidle, LaunchQueue.seen_idle_deficit]

end Sys2Proof.Machine
end

section
/-!
SUPPORT. Pre-emption and resumption (10 R212, R213; 11 R218, R224, R226, R231): the victim of each cause, what asking for a pre-emption
does, and what a block that is put back on a core comes to.
-/
namespace Sys2Proof.Machine

/-! The victim (10 R212). -/

/-- The order in which the dean takes victims: of the lowest priority first, then the youngest. -/
def Block.victimKey (b : Block) : Nat ×ₗ Natᵒᵈ := toLex (b.params.prio, OrderDual.toDual b.seatedAt)

theorem Block.victimKey_lt {a b : Block} : a.victimKey < b.victimKey ↔
    a.params.prio < b.params.prio ∨ (a.params.prio = b.params.prio ∧ a.seatedAt > b.seatedAt) := Prod.Lex.toLex_lt_toLex

theorem Block.victimKey_le {a b : Block} : a.victimKey ≤ b.victimKey ↔
    a.params.prio < b.params.prio ∨ (a.params.prio = b.params.prio ∧ b.seatedAt ≤ a.seatedAt) := Prod.Lex.toLex_le_toLex

theorem lowestYoungest_eq (bs : List Block) : lowestYoungest bs = bs.argmin Block.victimKey := by
  unfold lowestYoungest List.argmin
  congr 1
  funext acc b
  cases acc with
  | none => rfl
  | some a => exact if_congr Block.victimKey_lt.symm rfl rfl

theorem lowestYoungest_spec {bs : List Block} {v : Block} (h : lowestYoungest bs = some v) : v ∈ bs ∧ ∀ u ∈ bs,
    v.params.prio < u.params.prio ∨ (v.params.prio = u.params.prio ∧ u.seatedAt ≤ v.seatedAt) := by
  rw [lowestYoungest_eq] at h
  exact ⟨List.argmin_mem h, fun u hu => Block.victimKey_le.1 (List.le_of_mem_argmin hu h)⟩

theorem State.mem_victims {s : State} {prio : Nat} {b : Block} : b ∈ s.victims prio ↔
    b ∈ s.blocks ∧ b.running = true ∧ b.tooSoon s.time = false ∧ b.params.prio < prio := by
  simp [State.victims, and_assoc]

/-- The victim for a launch is the first, in the order of victims, of those whose removal lets some work of it be seated that has found no
place for PWAIT. -/
theorem State.victimFor_spec {s : State} {l : Launch} {v : Block} (h : s.victimFor l = some v) :
    ∃ w ∈ s.works l, ∃ t, aget l.unseatedSince w.index = some t ∧ t + s.dean.pwait * 256 * cycleTime ≤ s.time ∧
      s.poolRoom l w = true ∧ s.placeWork l w [] = none ∧
      lowestYoungest ((s.victims l.params.prio).filter (s.helps l w (s.victims l.params.prio))) = some v := by
  obtain ⟨w, hw, hfound⟩ := List.exists_of_findSome?_eq_some h
  cases hsince : aget l.unseatedSince w.index with
  | none => simp [hsince] at hfound
  | some t =>
    simp only [hsince] at hfound
    split_ifs at hfound with hnot
    simp only [Bool.or_eq_true, decide_eq_true_eq, Bool.not_eq_true', not_or, Bool.not_eq_false, Bool.not_eq_true,
      Option.isSome_eq_false_iff, Option.isNone_iff_eq_none, not_lt] at hnot
    obtain ⟨⟨htime, hroom⟩, hplace⟩ := hnot
    exact ⟨w, hw, t, hsince, htime, hroom, hplace, hfound⟩

/-! Asking for a pre-emption (10 R212; 11 R224, R232). -/

/-- A block whose pre-emption has been asked for. -/
def Block.asked (cause : Nat) (b : Block) : Block := { b with saveReq := some { kind := 0, cause := cause }, retry := none }

section
variable {s : State} {v x y : Block} {cause : Nat}

theorem State.preempt_tooSoon (hsoon : v.tooSoon s.time = true) : s.preempt v cause = s := if_pos hsoon

theorem State.preempt_single (hdue : v.tooSoon s.time = false) (hrole : v.role = .single) (hx : s.block? v.bid = some x) :
    s.preempt v cause = if x.running then s.modBlock v.bid (Block.asked cause) else s := by
  have hcopies : v.copies = [v.bid] := if_pos hrole
  simp only [State.preempt, hdue, hcopies, List.all_cons, List.all_nil, hx, Bool.and_true]
  rfl

theorem State.preempt_pair (hdue : v.tooSoon s.time = false) (hrole : v.role ≠ .single) (hx : s.block? v.bid = some x)
    (hy : s.block? v.partner = some y) : s.preempt v cause =
      if x.running && y.running then (s.modBlock v.bid (Block.asked cause)).modBlock v.partner (Block.asked cause) else s := by
  have hcopies : v.copies = [v.bid, v.partner] := if_neg hrole
  simp only [State.preempt, hdue, hcopies, List.all_cons, List.all_nil, hx, hy, Bool.and_true]
  rfl

end

/-! The events of pre-emption (10 R212; 11 R224). -/

section
variable {s : State} {v b : Block} {l : Launch}

theorem exec_preemptPriority {lid : Nat} (hl : s.launch? lid = some l) (hheld : l.held = false)
    (hnone : ∀ b ∈ s.blocks, ∀ r, b.saveReq = some r → r.cause ≠ 1) (hv : s.victimFor l = some v) :
    exec (.preemptPriority lid) s = .next (s.preempt v 1) := by
  show execPreemptPriority lid s = _
  simp only [execPreemptPriority, event, hl, hheld, hv, Bool.false_or]
  rw [if_neg]
  rw [List.any_eq_true]
  rintro ⟨b, hb, hbusy⟩
  cases hreq : b.saveReq with
  | none => simp [hreq] at hbusy
  | some r => exact hnone b hb r hreq (by simpa [hreq] using hbusy)

theorem exec_preemptGovernor {stack : Nat} (hemergency : (s.governor stack).emergency = true)
    (htime : (s.governor stack).lastPreempt + nsTime 10000 ≤ s.time)
    (hv : lowestYoungest (s.blocks.filter (fun b => b.running && !b.tooSoon s.time && decide (b.core.map stackOf = some stack))) =
      some v) :
    exec (.preemptGovernor stack) s = .next { s.preempt v 3 with
      governors := aput s.governors stack { s.governor stack with lastPreempt := s.time } } := by
  show execPreemptGovernor stack s = _
  simp only [execPreemptGovernor, event, hemergency, Nat.not_lt.2 htime, decide_false, Bool.not_true, Bool.or_self,
    Bool.false_eq_true, if_false, hv]

theorem exec_preemptRetry {bid t : Nat} {r : SaveReq} (hb : s.block? bid = some b) (hretry : b.retry = some (t, r))
    (htime : t ≤ s.time) (hrunning : b.running = true) : exec (.preemptRetry bid) s = .next (s.preempt b r.cause) := by
  show execPreemptRetry bid s = _
  simp [execPreemptRetry, event, hb, hretry, hrunning, Nat.not_lt.2 htime]

end

/-! Resumption (10 R213; 11 R226, R231). -/

section
variable {s : State} {b : Block} {c : Nat} {after : State → State}

theorem State.reseat_body {y : BlockBody} (h : s.restored b = .body y) : s.reseat [(b, c)] after =
    .next (after ((s.modBlock b.bid (fun x => { x with body := y })).settleOn b.bid c)) := by
  simp only [State.reseat, h]

theorem State.reseat_poison {o : Nat} (h : s.restored b = .poison o) : s.reseat [(b, c)] after = .next (s.imageBad b o) := by
  simp only [State.reseat, h]

theorem State.reseat_edited (h : s.restored b = .edited) : s.reseat [(b, c)] after = .fault .editedImage := by
  simp only [State.reseat, h]

/-- A block alone is put back where placement finds it a core. -/
theorem State.resumeBlock_single {l : Launch} {rr : Bool} (hrole : b.role = .single) (hl : s.launch? b.params.lid = some l)
    (hheld : l.held = false) (hplace : s.place l (b.bx, b.by_, b.bz) b.seatee none [] = some ([c], rr)) :
    s.resumeBlock b = (s.logPlan l (b.bx, b.by_, b.bz)).reseat [(b, c)] (fun t =>
      ((t.noteSeat (l.params.queue / 32) [c] rr).bill l.params.queue b.bid).modLaunch l.params.lid (fun x => x.seatedBlock b.index)) := by
  simp only [State.resumeBlock, hl, hrole, if_true, hheld, Bool.not_true, Bool.or_self, Bool.false_eq_true, if_false,
    Option.map_none, hplace]
  rfl

end

/-- Settles O49: the causes by the order of victims, the resumption by what reading the image back comes to. -/
theorem blocksArePreemptedAndResume : Obligations.BlocksArePreemptedAndResume := by
  refine ⟨?causes, ?resumption⟩
  case causes =>
    intro s lid stack l v x y target hit asked first onDie
    refine ⟨exec_preemptPriority, fun hv => ?_, rfl, fun hemergency htime hv => ⟨?_, exec_preemptGovernor hemergency htime hv⟩,
      State.preempt_tooSoon, fun hdue hrole hb hrunning => ?_, fun hdue hrole hx hy => ?_⟩
    · obtain ⟨w, hw, t, hsince, htime, hroom, hplace, hlowest⟩ := State.victimFor_spec hv
      obtain ⟨hmem, hfirst⟩ := lowestYoungest_spec hlowest
      obtain ⟨hvictim, hhelps⟩ := List.mem_filter.1 hmem
      obtain ⟨hblock, hrunning, hdue, hprio⟩ := State.mem_victims.1 hvictim
      exact ⟨hblock, hrunning, hdue, hprio, w, hw, t, hsince, htime, hroom, hplace, hhelps,
        fun u hu huhelps => hfirst u (List.mem_filter.2 ⟨hu, huhelps⟩)⟩
    · exact lowestYoungest_spec hv
    · rw [State.preempt_single hdue hrole hb, hrunning]
      rfl
    · exact State.preempt_pair hdue (by simp [hrole]) hx hy
  case resumption =>
    intro s u bid t c o b x r l l0 rr y s0 s1 s2
    refine ⟨exec_preemptRetry, fun hx hqueue hyields hoffer hbid hrole hl hheld hplace => ?_⟩
    subst hbid
    have hresumes : exec (.blockResume b.bid) s = s0.resumeBlock b :=
      exec_blockResume_resumes hx rfl (by omega) hyields hoffer rfl
    rw [hresumes, State.resumeBlock_single hrole hl hheld hplace]
    exact ⟨State.reseat_body, State.reseat_poison, State.reseat_edited⟩

end Sys2Proof.Machine
end

section
/-!
SUPPORT. The acceptance of launches (10 R198, R199; log entry 28): the record that a top unit takes, the check that refuses it, and what
acceptance and refusal leave.
-/
namespace Sys2Proof.Machine

/-! The first check that fails (10 R198). -/

/-- That an answer is the number of the first check of a list that fails, or none. -/
def IsFirstOf : List (Nat × Prop) → Option Nat → Prop
  | [], o => o = none
  | c :: rest, o => (c.2 ∧ o = some c.1) ∨ (¬c.2 ∧ IsFirstOf rest o)

theorem IsFirstOf.ite {n : Nat} {p q : Prop} [Decidable p] {rest : List (Nat × Prop)} {o : Option Nat} (hpq : p ↔ q)
    (h : IsFirstOf rest o) : IsFirstOf ((n, q) :: rest) (if p then some n else o) := by
  by_cases hp : p
  · exact .inl ⟨hpq.1 hp, if_pos hp⟩
  · exact .inr ⟨fun hq => hp (hpq.2 hq), by rwa [if_neg hp]⟩

theorem IsFirstOf.none_iff {l : List (Nat × Prop)} {o : Option Nat} (h : IsFirstOf l o) : o = none ↔ ∀ c ∈ l, ¬c.2 := by
  induction l with
  | nil => simpa [IsFirstOf] using h
  | cons c l ih =>
    rcases h with ⟨hc, rfl⟩ | ⟨hc, hrest⟩
    · simp [hc]
    · simp [hc, ih hrest]

theorem IsFirstOf.some_iff {l : List (Nat × Prop)} {o : Option Nat} (hsorted : l.Pairwise (·.1 < ·.1)) (h : IsFirstOf l o) (k : Nat) :
    o = some k ↔ (∃ c ∈ l, c.1 = k ∧ c.2) ∧ ∀ c ∈ l, c.1 < k → ¬c.2 := by
  induction l with
  | nil => simp [show o = none from h]
  | cons c l ih =>
    obtain ⟨hfirst, hsorted⟩ := List.pairwise_cons.1 hsorted
    rcases h with ⟨hc, rfl⟩ | ⟨hc, hrest⟩
    · constructor
      · rintro ⟨⟩
        refine ⟨⟨c, List.mem_cons_self, rfl, hc⟩, fun d hd hlt => ?_⟩
        rcases List.mem_cons.1 hd with rfl | hd
        · exact absurd hlt (lt_irrefl _)
        · exact absurd hlt (hfirst d hd).asymm
      · rintro ⟨⟨d, hd, rfl, -⟩, hleast⟩
        rcases List.mem_cons.1 hd with rfl | hd
        · rfl
        · exact absurd hc (hleast c List.mem_cons_self (hfirst d hd))
    · simp [hc, ih hsorted hrest]

/-- The checks of a launch record, each with what fails it (10 R198). -/
def State.checks (s : State) (x : LaunchRecord) (tcb : Option (List Nat)) : List (Nat × Prop) :=
  let p := x.params
  let w := tcb.getD []
  [(1, x.zeros = false ∨ 1 < x.rmode ∨ (x.rmode = 1 ∧ p.slack < 32)),
   (2, ¬(p.initialCount ≤ p.fibreCount ∧ 16 ≤ p.allocation ∧ p.allocation ≤ 4096 ∧ p.regs ≤ 1048576 ∧ p.barrierCount ≤ 16 ∧
     p.dimX ≠ 0 ∧ p.dimY ≠ 0 ∧ p.dimZ ≠ 0 ∧ p.dimX * p.dimY * p.dimZ * p.stages ≤ 16777216)),
   (3, tcb = none ∨ s.tcbPlain p needRW = false),
   (4, 2 ^ 49 ≤ w.getD 0 0 ∨ 2 ^ 16 ≤ w.getD 1 0 ∨ w.getD 7 0 ≠ 0 ∨ (w.getD 0 0 % 256 ≠ 0 ∧ w.getD 0 0 % 256 ≠ 4)),
   (5, goodPc p.code = false ∨ (p.lead ≠ 0 ∧ goodPc p.lead = false)),
   (6, w.getD 3 0 % 128 ≠ 0 ∨ s.reachable p (w.getD 3 0) 128 needW = false ∨ (w.getD 1 0 ≠ 0 ∧
     (w.getD 2 0 % 8 ≠ 0 ∨ s.reachable p (w.getD 2 0) (8 * w.getD 1 0) needR = false))),
   (7, w.getD 4 0 ≠ 0 ∧ (bits (w.getD 4 0) 3 3 ≠ 0 ∨ bits (w.getD 4 0) 0 3 ≠ 3))]

theorem LaunchParams.limitsOk_iff (p : LaunchParams) : p.limitsOk = true ↔
    p.initialCount ≤ p.fibreCount ∧ 16 ≤ p.allocation ∧ p.allocation ≤ 4096 ∧ p.regs ≤ 1048576 ∧ p.barrierCount ≤ 16 ∧
      p.dimX ≠ 0 ∧ p.dimY ≠ 0 ∧ p.dimZ ≠ 0 ∧ p.dimX * p.dimY * p.dimZ * p.stages ≤ 16777216 := by
  simp only [LaunchParams.limitsOk, Bool.and_eq_true, decide_eq_true_eq, and_assoc]
  rfl

theorem State.refusal_isFirst (s : State) (x : LaunchRecord) (tcb : Option (List Nat)) :
    IsFirstOf (s.checks x tcb) (s.refusal x tcb) := by
  refine .ite (by simp [or_assoc]) (.ite (by rw [Bool.not_eq_true', ← Bool.not_eq_true, LaunchParams.limitsOk_iff]) ?_)
  cases tcb with
  | none => exact .inl ⟨.inl rfl, rfl⟩
  | some w =>
    refine .ite (by simp) (.ite ?_ (.ite (by simp) (.ite (by simp) (.ite (by simp) rfl))))
    simp [Nat.div_eq_zero_iff]

/-! The launch id (10 R199). -/

/-- The lowest free launch id is the one that no launch has, all below it being taken. -/
theorem State.freeLid_eq {s : State} {lid : Nat} (hfree : s.launch? lid = none) (hused : ∀ k < lid, s.launch? k ≠ none) :
    s.freeLid = lid := by
  have hids : List.range lid ⊆ s.launches.map (·.params.lid) := by
    intro k hk
    obtain ⟨l, hl⟩ := Option.ne_none_iff_exists'.1 (hused k (List.mem_range.1 hk))
    exact List.mem_map.2 ⟨l, List.mem_of_find?_eq_some hl, by simpa using List.find?_some hl⟩
  have hle : lid ≤ s.launches.length := by simpa using (List.nodup_range.subperm hids).length_le
  have hfind : (List.range (s.launches.length + 1)).find? (fun k => (s.launch? k).isNone) = some lid := by
    rw [List.find?_range_eq_some]
    refine ⟨by simp [hfree], by simp; omega, fun k hk => ?_⟩
    simpa [Option.isSome_iff_ne_none] using hused k hk
  rw [State.freeLid, hfind, Option.getD_some]

/-! Judging a record (10 R198, R199). -/

/-- The TCB of a refused launch has been told the reason, where it may be and can be. -/
def State.toldRefusal (s : State) (p : LaunchParams) (k : Nat) : State :=
  if k = 3 ∨ s.reachable p p.tcb.toNat 64 needRW = false then s else s.tcbPut p 0 (toBytes 2 (k * 2 ^ 8 + 5))

/-- The fault queue of a refused launch has been told too, where that is due. -/
def State.recordedRefusal (s : State) (p : LaunchParams) (cq k : Nat) : State :=
  if k = 3 ∨ k = 7 ∨ (cq ≠ 0 ∧ ¬(bits cq 3 3 = 0 ∧ bits cq 0 3 = 3)) then
    (s.toldRefusal p k).sendLaunchRec p.queue (p.deanRec { code := .perm, detail := 8, addr := p.tcb })
  else s.toldRefusal p k

theorem State.refuse_eq (s : State) (p : LaunchParams) (tcb : Option (List Nat)) (k : Nat) :
    let cq := (tcb.getD []).getD 4 0
    s.refuse p tcb k = if cq ≠ 0 ∧ (bits cq 3 3 = 0 ∧ bits cq 0 3 = 3) then
        (s.recordedRefusal p cq k).sendCompletion .refusal (BitVec.ofNat 64 cq) p.queue (completionRecord p.tcb 0 k 5 0 0)
      else s.recordedRefusal p cq k := by
  have hcq : (tcb.map (fun w => w.getD 4 0)).getD 0 = (tcb.getD []).getD 4 0 := by cases tcb <;> rfl
  simp only [State.refuse, State.recordedRefusal, State.toldRefusal, hcq, Bool.or_eq_true, decide_eq_true_eq, Bool.not_eq_true',
    Bool.and_eq_true, Bool.and_eq_false_imp, not_and, decide_eq_false_iff_not]

section
variable {s s1 s2 s3 : State} {queue lid : Nat} {p : Piece} {bs t : List Byte} {tcb : Option (List Byte)} {x : LaunchRecord}

/-- A top unit with a free place takes the record that has come from another device, or the one at the head of its queue. -/
theorem exec_launchAccept (hqueue : queue < 64) (hen : (s.lq queue).en = true) (hhandle : handleOk (s.lq queue).handle.toNat = true)
    (hjudging : s.judging queue = false)
    (hroom : (s.launches.filter (fun l => l.params.queue / 32 == queue / 32)).length < 4096)
    (htaken : s.takeSent queue = some (s2, bs) ∨ (s.takeSent queue = none ∧
      s.controlBlock (s.queueSpace queue (agentCore queue)) (s.lq queue).handle.toNat needRW = (s1, .ok p) ∧ p.mig = false ∧
      s.away p.pa = false ∧ s.readsHeld p.pa = false ∧
      s1.forgetAgent.takeNow (agentStop .refusal queue) p.pa (bits (s.lq queue).handle.toNat 0 3) = (s2, .ok (some bs)))) :
    exec (.launchAccept queue) s = .next (s2.judge queue bs) := by
  show execLaunchAccept queue s = _
  simp only [execLaunchAccept, event, hen, hhandle, hjudging, ge_iff_le, Nat.not_le.2 hqueue, Nat.not_le.2 hroom, decide_false,
    Bool.not_true, Bool.or_self, Bool.false_eq_true, if_false]
  rcases htaken with hsent | ⟨hnone, hblock, hmig, hhere, hheld, htake⟩
  · simp only [hsent]
  · simp only [hnone, hblock, hmig, hhere, hheld, htake, Bool.false_eq_true, if_false]

/-- A record whose TCB is asked of another device is judged once it has come. -/
theorem State.judge_waits (hfetch : s.agentFetch (LaunchRecord.of bs queue (s.lq queue)).params.space
    (LaunchRecord.of bs queue (s.lq queue)).params.tcb.toNat 64 (.judge queue bs) = (s1, none)) : s.judge queue bs = s1 := by
  simp only [State.judge, hfetch]

theorem State.judge_judged (hfetch : s.agentFetch (LaunchRecord.of bs queue (s.lq queue)).params.space
    (LaunchRecord.of bs queue (s.lq queue)).params.tcb.toNat 64 (.judge queue bs) = (s1, some tcb)) :
    s.judge queue bs = s1.judged queue bs tcb := by
  simp only [State.judge, hfetch]

theorem State.judged_accepts (hx : LaunchRecord.of bs queue (s.lq queue) = x) (hpass : s.refusal x (some (tcbWords t)) = none) :
    s.judged queue bs (some t) = s.accept x bs (tcbWords t) := by
  simp only [State.judged, hx, Option.map_some, hpass]

theorem State.judged_refuses {k : Nat} (hx : LaunchRecord.of bs queue (s.lq queue) = x)
    (hfails : s.refusal x (tcb.map tcbWords) = some k) :
    s.judged queue bs tcb = s.refuse x.params (tcb.map tcbWords) k := by
  simp only [State.judged, hx, hfails]

end

end Sys2Proof.Machine
end

section
/-!
SUPPORT. The completion of launches and their successors (10 R201 to R203).
-/
namespace Sys2Proof.Machine

/-! Launches by their id. -/

theorem State.launch?_lid {s : State} {lid : Nat} {l : Launch} (h : s.launch? lid = some l) : l.params.lid = lid := by
  simpa using List.find?_some h

theorem State.launch?_modLaunch (s : State) (lid : Nat) {f : Launch → Launch} (hf : ∀ l, (f l).params.lid = l.params.lid) :
    (s.modLaunch lid f).launch? lid = (s.launch? lid).map f := by
  have hsame (l : Launch) : (if l.params.lid = lid then f l else l).params.lid = l.params.lid := by
    split_ifs
    · exact hf l
    · rfl
  simp only [State.launch?, State.modLaunch_launches, List.find?_map, Function.comp_def, hsame]
  refine Option.map_congr fun l hl => if_pos ?_
  simpa using List.find?_some hl

theorem State.launch?_dropLaunch (s : State) (lid : Nat) : (s.dropLaunch lid).launch? lid = none := by
  simp [State.launch?, State.dropLaunch]

/-! The steps of a completion (10 R202). -/

/-- The STATUS that a launch ends with. -/
def Launch.endStatus (l : Launch) : Nat := if l.abortedBlocks > 0 then 6 else 4

/-- What the dean holds of a launch that has ended. -/
def Launch.ended (l x : Launch) : Launch :=
  { x with status := if l.endStatus = 4 then .done else .aborted, reported := true, reportDone := decide (l.cq = 0) }

/-- The state in which a launch has ended: its TCB's STATUS, the end of a trial of it, and what the dean holds of it (10 R202 step 1). -/
def State.launchEnds (s : State) (l : Launch) : State :=
  ((s.tcbStatus l.params l.endStatus).trialLaunchEnd l.params.lid).modLaunch l.params.lid l.ended

/-- Steps 3 and 4, once the report is done and nothing is awaited. -/
def State.completes (s : State) (lid : Nat) : State :=
  match s.launch? lid with
  | none => s
  | some m => if m.reportDone && !s.completing lid then s.freeLaunch m else s

section
variable {s s1 s2 s3 : State} {lid : Nat} {l m : Launch} {tcb : Option (List Byte)}

theorem State.reportDone_launchEnds (h : (s.launchEnds l).launch? l.params.lid = some m) : m.reportDone = decide (l.cq = 0) := by
  rw [State.launchEnds, State.launch?_modLaunch (f := l.ended) _ _ (fun _ => rfl)] at h
  obtain ⟨x, -, rfl⟩ := Option.map_eq_some_iff.1 h
  rfl

theorem State.completes_waits (hm : s.launch? lid = some m) (hnot : m.reportDone = false ∨ s.completing lid = true) :
    s.completes lid = s := by
  simp only [State.completes, hm]
  rcases hnot with h | h <;> simp [h]

theorem State.completes_frees (hm : s.launch? lid = some m) (hdone : m.reportDone = true) (hidle : s.completing lid = false) :
    s.completes lid = s.freeLaunch m := by
  simp [State.completes, hm, hdone, hidle]

section
variable (hl : s.launch? lid = some l) (hall : l.params.total ≤ l.retired + l.abortedBlocks)
include hl hall

theorem exec_launchComplete_reported (hreported : l.reported = true) : exec (.launchComplete lid) s = .next (s.completes lid) := by
  show execLaunchComplete lid s = _
  simp only [execLaunchComplete, event, hl, Nat.not_lt.2 hall, hreported, if_false, if_true]
  rw [State.completes, hl]

theorem exec_launchComplete_first (hnew : l.reported = false) :
    exec (.launchComplete lid) s = .next ((s.finishLaunch l).completes lid) := by
  show execLaunchComplete lid s = _
  simp only [execLaunchComplete, event, hl, Nat.not_lt.2 hall, hnew, Bool.false_eq_true, if_false]
  rfl

end

theorem State.finishLaunch_eq (s : State) (l : Launch) : s.finishLaunch l =
    if l.cq = 0 then s.launchEnds l
    else
      let r := (s.launchEnds l).agentFetch l.params.space l.params.tcb.toNat 64 (.report l.params.lid)
      match r.2 with
      | none => r.1
      | some t => r.1.report l.params.lid t := rfl

theorem State.finishLaunch_silent (hcq : l.cq = 0) : s.finishLaunch l = s.launchEnds l := by
  rw [State.finishLaunch_eq, if_pos hcq]

section
variable (hcq : l.cq ≠ 0)
include hcq

/-- The report waits for a TCB that is asked of another device. -/
theorem State.finishLaunch_waits
    (hfetch : (s.launchEnds l).agentFetch l.params.space l.params.tcb.toNat 64 (.report l.params.lid) = (s1, none)) :
    s.finishLaunch l = s1 := by
  simp only [State.finishLaunch_eq, if_neg hcq, hfetch]

/-- The report goes to the completion queue with what the TCB holds. -/
theorem State.finishLaunch_reports
    (hfetch : (s.launchEnds l).agentFetch l.params.space l.params.tcb.toNat 64 (.report l.params.lid) = (s1, some tcb))
    (hm : s1.launch? l.params.lid = some m) :
    let w := tcbWords (tcb.getD [])
    s.finishLaunch l = s1.sendCompletion (.launch l.params.lid) m.cq m.params.queue (completionRecord m.params.tcb
      (bits (w.getD 0 0) 16 16) (bits (w.getD 0 0) 8 8) m.endStatus (w.getD 5 0) (w.getD 6 0)) := by
  simp only [State.finishLaunch_eq, if_neg hcq, hfetch, State.report, hm]
  rfl

end

/-! Successors (10 R201, R202 steps 3 and 4). -/

/-- A record of the dean that names an address (10 R201, R202). -/
def State.addressRecord (s : State) (p : LaunchParams) (a : DWord) : State :=
  s.sendLaunchRec p.queue (p.deanRec { code := .perm, detail := 8, addr := a })

theorem State.freeLaunch_aborted (hstatus : l.status ≠ .done) : s.freeLaunch l = s.dropLaunch l.params.lid := if_pos hstatus

section
variable {words list : List Byte} {read : Option (List Byte)}

section
variable (hstatus : l.status = .done)
include hstatus

theorem State.freeLaunch_waits
    (hfetch : s.agentFetch l.params.space (l.params.tcb.toNat + 8) 16 (.count l.params.lid) = (s1, none)) : s.freeLaunch l = s1 := by
  simp only [State.freeLaunch, hstatus, ne_eq, not_true, if_false, hfetch]

theorem State.freeLaunch_reads
    (hfetch : s.agentFetch l.params.space (l.params.tcb.toNat + 8) 16 (.count l.params.lid) = (s1, some read)) :
    s.freeLaunch l = s1.readList l read := by
  simp only [State.freeLaunch, hstatus, ne_eq, not_true, if_false, hfetch]

end

theorem State.readList_empty (hn : fieldAt words 0 2 = 0) : s.readList l (some words) = s.dropLaunch l.params.lid := if_pos hn

section
variable (hn : fieldAt words 0 2 ≠ 0)
include hn

theorem State.readList_unaligned (halign : fieldAt words 8 8 % 8 ≠ 0) :
    s.readList l (some words) = (s.addressRecord l.params l.params.tcb).dropLaunch l.params.lid := by
  simp only [State.readList, Option.getD_some, if_neg hn, if_pos halign]
  rfl

variable (halign : fieldAt words 8 8 % 8 = 0)
include halign

theorem State.readList_waits (hfetch : s.agentFetch l.params.space (fieldAt words 8 8) (8 * fieldAt words 0 2)
    (.list l.params.lid) = (s1, none)) : s.readList l (some words) = s1 := by
  simp only [State.readList, Option.getD_some, if_neg hn, if_neg (not_not.2 halign), hfetch]

theorem State.readList_reads (hfetch : s.agentFetch l.params.space (fieldAt words 8 8) (8 * fieldAt words 0 2)
    (.list l.params.lid) = (s1, some read)) : s.readList l (some words) = s1.successors l read := by
  simp only [State.readList, Option.getD_some, if_neg hn, if_neg (not_not.2 halign), hfetch]

end

end

end

/-! One successor (10 R201). -/

/-- Whether a launch waits whose TCB starts at a piece's address. -/
def State.waitsAt (s : State) (k : Piece) (l : Launch) : Bool := decide (l.status = .waiting) &&
  match (s.agentPieces l.params.space l.params.tcb.toNat 8 needRW).2 with
  | .ok (y :: _) => y.pa == k.pa
  | _ => false

section
variable {s s1 s2 : State} {p : LaunchParams} {va : Nat} {ps : List Piece} {k : Piece} {bs : List Byte} {x : Trap} {l : Launch}

theorem State.decrement_refused (hpieces : s.agentPieces p.space va 8 needRW = (s1, .error x)) :
    s.decrement p va = s1.addressRecord p (BitVec.ofNat 64 va) := by
  simp only [State.decrement, hpieces]
  rfl

variable (hpieces : s.agentPieces p.space va 8 needRW = (s1, .ok ps)) (hk : ps.head? = some k)
  (hread : s1.readHome p.space.core ps .normal = (s2, .ok bs))
include hpieces hk hread

theorem State.decrement_eq : s.decrement p va =
    let w := ofBytes bs
    if bits w 32 16 = 0 then s2.writeHome p.space.core ps (toBytes 8 (if bitAt w 48 then w else w + 2 ^ 48)) .normal
    else match (if bits w 32 16 = 1 ∧ w % 256 = 1 then s2.launches.find? (s2.waitsAt k) else none) with
      | some l => (s2.writeHome p.space.core ps (toBytes 8 (w - 2 ^ 32 + 1)) .normal).modLaunch l.params.lid
          (fun z => { z with status := .ready })
      | none => s2.writeHome p.space.core ps (toBytes 8 (w - 2 ^ 32)) .normal := by
  simp only [State.decrement, hpieces, hk, hread]
  rfl

/-- PRED is 0 already. -/
theorem State.decrement_under (hpred : bits (ofBytes bs) 32 16 = 0) : s.decrement p va =
    s2.writeHome p.space.core ps (toBytes 8 (if bitAt (ofBytes bs) 48 then ofBytes bs else ofBytes bs + 2 ^ 48)) .normal :=
  (State.decrement_eq hpieces hk hread).trans (if_pos hpred)

/-- PRED falls, and no launch becomes ready by it. -/
theorem State.decrement_counts (hpred : bits (ofBytes bs) 32 16 ≠ 0)
    (hnone : bits (ofBytes bs) 32 16 ≠ 1 ∨ ofBytes bs % 256 ≠ 1 ∨ s2.launches.find? (s2.waitsAt k) = none) :
    s.decrement p va = s2.writeHome p.space.core ps (toBytes 8 (ofBytes bs - 2 ^ 32)) .normal := by
  have hready : (if bits (ofBytes bs) 32 16 = 1 ∧ ofBytes bs % 256 = 1 then s2.launches.find? (s2.waitsAt k) else none) = none := by
    split_ifs with hlast
    · exact (hnone.resolve_left (not_not.2 hlast.1)).resolve_left (not_not.2 hlast.2)
    · rfl
  rw [State.decrement_eq hpieces hk hread]
  simp only [if_neg hpred, hready]

/-- PRED falls to 0, and the launch that waited for it is ready. -/
theorem State.decrement_readies (hpred : bits (ofBytes bs) 32 16 = 1) (hstatus : ofBytes bs % 256 = 1)
    (hl : s2.launches.find? (s2.waitsAt k) = some l) : s.decrement p va =
      (s2.writeHome p.space.core ps (toBytes 8 (ofBytes bs - 2 ^ 32 + 1)) .normal).modLaunch l.params.lid
        (fun z => { z with status := .ready }) := by
  rw [State.decrement_eq hpieces hk hread]
  simp only [hpred, hstatus, one_ne_zero, if_false, and_self, if_true, hl]

end

/-- Settles O47: acceptance and refusal by what a record is judged, the table by its first failing check, completion by its steps. -/
theorem launchesAreAcceptedAndCompleted : Obligations.LaunchesAreAcceptedAndCompleted := by
  refine ⟨?acceptance, ?table, ?completion, ?successors⟩
  case acceptance =>
    intro s s1 s2 s3 queue lid p bs tcb q x w ws named copied pred ready noted cq good told noticed hqueue hen hhandle hjudging hroom
      htaken
    rw [exec_launchAccept hqueue hen hhandle hjudging hroom htaken]
    refine ⟨fun hfetch => congrArg _ (State.judge_waits hfetch), fun hfetch hkept => ?_⟩
    have hx : LaunchRecord.of bs queue (s3.lq queue) = x := by rw [hkept]
    rw [State.judge_judged hfetch]
    refine ⟨fun hread hpass hfree hused => ?_, fun k hfails => ?_⟩
    · cases tcb with
      | none => exact absurd rfl hread
      | some t =>
        rw [State.judged_accepts hx hpass, State.accept, State.freeLid_eq hfree hused]
        rfl
    · rw [State.judged_refuses hx hfails, State.refuse_eq]
      rfl
  case table =>
    intro s x tcb p w bad
    have hsorted : bad.Pairwise (·.1 < ·.1) := by simp [bad]
    exact ⟨(s.refusal_isFirst x tcb).none_iff, (s.refusal_isFirst x tcb).some_iff hsorted⟩
  case completion =>
    intro s s3 lid l m tcb st s2 w sent hl hall
    obtain rfl := State.launch?_lid hl
    refine ⟨fun hreported hnot => ?_, fun hreported hdone hidle => ?_, fun hnew hcq hm hidle => ?_, fun hnew hcq =>
      ⟨fun hfetch hm hwaits => ?_, fun hfetch hm hwaits => ?_⟩⟩
    · rw [exec_launchComplete_reported hl hall hreported, State.completes_waits hl hnot]
    · rw [exec_launchComplete_reported hl hall hreported, State.completes_frees hl hdone hidle]
    · have hdone : m.reportDone = true := (State.reportDone_launchEnds hm).trans (by simp [hcq])
      rw [exec_launchComplete_first hl hall hnew, State.finishLaunch_silent hcq]
      exact congrArg _ (State.completes_frees hm hdone hidle)
    · rw [exec_launchComplete_first hl hall hnew, State.finishLaunch_waits hcq hfetch, State.completes_waits hm (.inl hwaits)]
    · rw [exec_launchComplete_first hl hall hnew, State.finishLaunch_reports hcq hfetch hm]
      exact congrArg _ (State.completes_waits hm (.inl hwaits))
  case successors =>
    intro s s1 s2 lid va l ws list bs ps k x p n succl record word put home waits
    refine ⟨fun hl hlid hreported hdone hidle hall => ?_, s.launch?_dropLaunch lid, State.decrement_refused,
      fun hpieces hk hread => ⟨State.decrement_under hpieces hk hread, State.decrement_counts hpieces hk hread,
        fun y => State.decrement_readies hpieces hk hread⟩⟩
    rw [exec_launchComplete_reported hl hall hreported, State.completes_frees hl hdone hidle]
    obtain rfl : l.params.lid = lid := hlid
    refine ⟨fun hstatus => congrArg _ (State.freeLaunch_aborted hstatus),
      fun hstatus hfetch => congrArg _ (State.freeLaunch_waits hstatus hfetch), fun hstatus hfetch => ?_⟩
    rw [State.freeLaunch_reads hstatus hfetch]
    exact ⟨fun hn => congrArg _ (State.readList_empty hn), fun hn halign => congrArg _ (State.readList_unaligned hn halign),
      fun hn halign hlist => congrArg _ (State.readList_waits hn halign hlist),
      fun hn halign hlist => congrArg _ (State.readList_reads hn halign hlist),
      fun hn halign hlist => congrArg _ (State.readList_reads hn halign hlist)⟩

end Sys2Proof.Machine
end

section
/-!
SUPPORT. What a trap leaves of its block (11 R214, R215, R217, R221, R231, R235): the time at which a record is sent, the block that leaves
its core, and the block whose trap is taken.
-/
namespace Sys2Proof.Machine

/-! A core's push and a record that is sent take no time (06 R123; 11 R216). -/

section
variable (s : State)

/-- A fold whose every step takes no time takes none. -/
theorem foldl_time {α : Type} {f : State → α → State} (h : ∀ s x, (f s x).time = s.time) (l : List α) :
    (l.foldl f s).time = s.time := by
  induction l generalizing s with
  | nil => rfl
  | cons x l ih => exact (ih (f s x)).trans (h s x)

@[simp] theorem State.dramWrite_time (c : Nat) (bs : List Byte) : (s.dramWrite c bs).time = s.time := by
  induction bs generalizing s c with
  | nil => rfl
  | cons b bs ih => exact ih (s.dramPut c b) (c + 1)

@[simp] theorem State.homeWrite_time (c : Nat) (bs : List Byte) : (s.homeWrite c bs).time = s.time := by
  unfold State.homeWrite
  split <;> simp

@[simp] theorem State.ridgeSend_time (rc : RidgeClass) (src dst : Nat) (data : List Nat) (reader : Option Nat) :
    (s.ridgeSend rc src dst data reader).time = s.time := by
  unfold State.ridgeSend
  split <;> rfl

@[simp] theorem State.noteDram_time (unit : Nat) (cls : DramClass) (reading : Bool) (reader : Option Nat) :
    (s.noteDram unit cls reading reader).time = s.time := rfl

@[simp] theorem State.sendRecord_time (queue : Nat) (r : FaultRec) : (s.sendRecord queue r).time = s.time := rfl

@[simp] theorem State.combineLine_time (l : Line) : (s.combineLine l).time = s.time := by
  unfold State.combineLine State.combineAt
  split
  · rfl
  · refine foldl_time s (fun t off => ?_) _
    dsimp only
    split
    · rfl
    · split
      · exact foldl_time t (fun u g => u.sendRecord_time _ _) _
      · simp [State.putBytes, State.note]

@[simp] theorem State.recall_time (unit : Nat) : (s.recall unit).time = s.time := by
  unfold State.recall
  split
  · rfl
  · exact foldl_time _ (fun t l => by simp) _

@[simp] theorem State.writeSector_time (l : Line) (k : Nat) : (s.writeSector l k).time = s.time := by
  unfold State.writeSector
  split
  · rfl
  · extract_lets s1 s2
    have h2 : s2.time = s1.time := by
      unfold s2
      split
      · simp
      · refine foldl_time s1 (fun t i => ?_) _
        split <;> simp
    have h1 : s1.time = s.time := s.recall_time _
    split
    · exact h2.trans h1
    · exact h2.trans h1

@[simp] theorem State.noteBack_time (l : Line) (u : Nat) : (s.noteBack l u).time = s.time := by
  unfold State.noteBack
  split
  · rfl
  · dsimp only
    split <;> simp

@[simp] theorem State.pushLine_time (l : Line) : (s.pushLine l).time = s.time := by
  unfold State.pushLine State.writeBack
  split
  · simp
  · split
    · rfl
    · simp only [State.l1Put_time]
      rw [foldl_time _ (fun t u => t.noteBack_time l u)]
      refine foldl_time s (fun t k => ?_) _
      split <;> simp

@[simp] theorem State.blockRecord_time (b : Block) (r : FaultRec) : (s.blockRecord b r).time = s.time := by
  unfold State.blockRecord
  split
  · exact foldl_time s (fun t l => t.pushLine_time l) _
  · rfl

/-! What leaves every block as it is (06 R126; 07 R143, R154; 09 R176; 11 R216; 13 R264). -/

@[simp] theorem State.blockRecord_blocks (b : Block) (r : FaultRec) : (s.blockRecord b r).blocks = s.blocks := by
  unfold State.blockRecord
  split
  · exact s.pushCore_blocks _
  · rfl

@[simp] theorem State.recordFor_blocks (b : Block) (who : Who) (pc : DWord) (x : Trap) (eng : Bool) :
    (s.recordFor b who pc x eng).1.blocks = s.blocks := by
  unfold State.recordFor
  dsimp only
  split
  · rfl
  · exact State.blockRecord_blocks _ _ _

@[simp] theorem State.noteWaiters_blocks (pa : Nat) : (s.noteWaiters pa).blocks = s.blocks := by
  unfold State.noteWaiters State.ctlWrite
  split
  · rfl
  · dsimp only
    split
    · rfl
    · exact State.putBytes_blocks _ _ _ _

@[simp] theorem State.withdrawReqs_blocks (gone : QReq → Bool) : (s.withdrawReqs gone).blocks = s.blocks :=
  foldl_blocks (fun t pa => t.noteWaiters_blocks pa) _ _

@[simp] theorem State.cancelAbroad_blocks (bid : Nat) : (s.cancelAbroad bid).blocks = s.blocks := by
  refine foldl_blocks (fun t o => ?_) _ s
  unfold State.cancelOp
  split
  · rfl
  · split <;> rfl

@[simp] theorem State.clearGrain_blocks (g : Grain) : (s.clearGrain g).blocks = s.blocks := by
  unfold State.clearGrain
  dsimp only
  split <;> rfl

@[simp] theorem State.releaseGrains_blocks (bid : Nat) : (s.releaseGrains bid).blocks = s.blocks :=
  foldl_blocks (fun t g => t.clearGrain_blocks g) _ s

@[simp] theorem State.pushOf_blocks (bid : Nat) : (s.pushOf bid).blocks = s.blocks := by
  unfold State.pushOf
  split
  · exact s.pushCore_blocks _
  · rfl

end

/-- Blocks are found by the blocks alone. -/
theorem State.block_of_blocks {s t : State} (h : t.blocks = s.blocks) (n : Nat) : t.block? n = s.block? n := by
  simp only [State.block?, h]

/-- A block that is changed once all else has been done that leaves the blocks as they are. -/
theorem State.block_modBlock_of_blocks {s t : State} {n : Nat} {b : Block} (hb : s.block? n = some b) (f : Block → Block)
    (hf : ∀ b, (f b).bid = b.bid) (h : t.blocks = s.blocks) : (t.modBlock n f).block? n = some (f b) :=
  block_modBlock_self f hf ((State.block_of_blocks h n).trans hb)

section
variable {s : State} {bid : Nat} {b : Block} {who : Who} {pc : DWord} {x : Trap}

/-! A block that leaves its core (11 R221, R231). -/

theorem State.block_dropHeld (hb : s.block? bid = some b) : ∃ y, (s.dropHeld bid).block? bid = some { b with body := y } :=
  ⟨_, block_modBlock_self _ (fun _ => rfl) hb⟩

theorem State.block_dropWaiting (hb : s.block? bid = some b) : ∃ y, (s.dropWaiting bid).block? bid = some { b with body := y } := by
  refine ⟨_, block_modBlock_self _ (fun _ => rfl) ?_⟩
  rw [← hb]
  exact State.block_of_blocks (by simp [State.dropLoading]) bid

theorem State.block_dropRequests (hb : s.block? bid = some b) : ∃ y, (s.dropRequests bid).block? bid = some { b with body := y } := by
  obtain ⟨y, hy⟩ := State.block_dropHeld hb
  obtain ⟨z, hz⟩ := State.block_dropWaiting hy
  exact ⟨z, (State.block_of_blocks rfl bid).trans hz⟩

/-- A block that leaves its core keeps all but its body. -/
theorem State.block_unseat (hb : s.block? bid = some b) : ∃ y, (s.unseat bid).block? bid = some { b with body := y, core := none } := by
  obtain ⟨y, hy⟩ := State.block_dropRequests ((State.block_of_blocks (s.pushOf_blocks bid) bid).trans hb)
  have hblocks : (((((s.pushOf bid).dropRequests bid).dropAbroad bid).dropCommands bid).releaseGrains bid).blocks =
      ((s.pushOf bid).dropRequests bid).blocks := by
    simp [State.dropAbroad, State.dropCommands]
  exact ⟨y, State.block_modBlock_of_blocks hy (fun b => { b with core := none }) (fun _ => rfl) hblocks⟩

theorem State.block_relaunch (hb : s.block? bid = some b) (avoid : List Nat) : (s.relaunch bid avoid).block? bid =
    some { b with core := none, body := b.params.body s.time, saved := none, saveReq := none, primary := none, seconds := [],
                  avoid := avoid, forwarded := [], performed := [] } := by
  obtain ⟨y, hy⟩ := State.block_unseat hb
  refine (State.block_modBlock_of_blocks hy _ ?_ ?_).trans rfl
  · exact fun _ => rfl
  · rfl

theorem State.block_rollback {im : Image} (hb : s.block? bid = some b) (him : b.checkpoint = some im) (avoid : List Nat) :
    (s.rollback bid avoid).block? bid =
      some { b with core := none, body := (im.body.countOps (s.returnedOps im)).undrained,
                    saved := some { im with body := (im.body.countOps (s.returnedOps im)).undrained, ops := s.returnedOps im },
                    saveReq := none, primary := none, avoid := avoid, forwarded := [],
                    performed := keepTold b.performed (s.returnedOps im) } := by
  obtain ⟨y, hy⟩ := State.block_unseat hb
  have hckpt : (s.block? bid).bind (fun b => b.checkpoint) = some im := by rw [hb]; exact him
  unfold State.rollback
  rw [hckpt]
  refine (State.block_modBlock_of_blocks hy _ ?_ ?_).trans rfl
  · exact fun _ => rfl
  · rfl

/-! A stopping trap (11 R214, R217, R235). -/

theorem State.takeTrap_stops (hb : s.block? bid = some b) (hmiss : x.code ≠ .xlate) (hpoison : x.code ≠ .poison) :
    s.takeTrap bid who pc x = s.stopBlock bid (b.faultRec who pc x false) := by
  simp only [State.takeTrap, hb]

/-- A block that a fault stops: the first is its primary one, a later one secondary; a copy of a pair is not saved yet. -/
def Block.stoppedBy (r : FaultRec) (b : Block) : Block :=
  match b.primary with
  | some _ => { b with seconds := b.seconds ++ [r] }
  | none => { b with primary := some r, saveReq := if b.role = .single then some { kind := 1, cause := 0 } else b.saveReq }

theorem Block.stoppedBy_bid (r : FaultRec) (b : Block) : (b.stoppedBy r).bid = b.bid := by
  unfold Block.stoppedBy
  split <;> rfl

theorem Block.stoppedBy_first (hfirst : b.primary = none) (r : FaultRec) : b.stoppedBy r =
    { b with primary := some r, saveReq := if b.role = .single then some { kind := 1, cause := 0 } else b.saveReq } := by
  simp only [Block.stoppedBy, hfirst]

theorem Block.stoppedBy_later {r0 : FaultRec} (hlater : b.primary = some r0) (r : FaultRec) :
    b.stoppedBy r = { b with seconds := b.seconds ++ [r] } := by
  simp only [Block.stoppedBy, hlater]

theorem State.stopBlock_eq (s : State) (bid : Nat) (r : FaultRec) : s.stopBlock bid r = s.modBlock bid (Block.stoppedBy r) := rfl

theorem State.block_takeTrap_stops (hb : s.block? bid = some b) (hmiss : x.code ≠ .xlate) (hpoison : x.code ≠ .poison) :
    (s.takeTrap bid who pc x).block? bid = some (b.stoppedBy (b.faultRec who pc x false)) := by
  rw [State.takeTrap_stops hb hmiss hpoison, State.stopBlock_eq]
  exact block_modBlock_self _ (Block.stoppedBy_bid _) hb

/-! A translation miss (11 R214; 05 R100). -/

/-- A miss parks its issuer, and changes nothing else of the block than that issuer's context. -/
theorem State.block_takeTrap_xlate (hb : s.block? bid = some b) (hmiss : x.code = .xlate) : ∃ k, (s.takeTrap bid who pc x).block? bid =
    some (b.modCtx who (fun c => { c with parked := some k })) := by
  have hbid := block_bid hb
  subst hbid
  have hparks : s.takeTrap b.bid who pc x = s.parkOn b who pc x := by simp only [State.takeTrap, hb, hmiss]
  rw [hparks]
  exact ⟨_, block_modBlock_self _ (fun k => modCtx_bid k _ _)
    ((State.block_of_blocks (s.recordFor_blocks b who pc x false) b.bid).trans hb)⟩

@[simp] theorem modCtx_primary (b : Block) (w : Who) (f : Ctx → Ctx) : (b.modCtx w f).primary = b.primary := by
  unfold Block.modCtx
  split
  · rfl
  · cases w <;> rfl

@[simp] theorem modCtx_saveReq (b : Block) (w : Who) (f : Ctx → Ctx) : (b.modCtx w f).saveReq = b.saveReq := by
  unfold Block.modCtx
  split
  · rfl
  · cases w <;> rfl

/-! Consumed poison (11 R231). -/

/-- Poison that a block has consumed is counted. -/
def State.countPoison (s : State) (bid : Nat) : State := s.modBlock bid (fun x => { x with poisons := x.poisons + 1 })

/-- The report that containment sends before the block leaves its core. -/
def State.reportPoison (s : State) (b : Block) (who : Who) (pc : DWord) (x : Trap) : State :=
  (s.countPoison b.bid).blockRecord b { b.faultRec who pc x false with cont := true }

theorem State.block_countPoison (hb : s.block? b.bid = some b) :
    (s.countPoison b.bid).block? b.bid = some { b with poisons := b.poisons + 1 } := block_modBlock_self _ (fun _ => rfl) hb

theorem State.block_reportPoison (hb : s.block? b.bid = some b) :
    (s.reportPoison b who pc x).block? b.bid = some { b with poisons := b.poisons + 1 } :=
  (State.block_of_blocks (State.blockRecord_blocks _ _ _) b.bid).trans (State.block_countPoison hb)

theorem State.reportPoison_time : (s.reportPoison b who pc x).time = s.time := State.blockRecord_time _ _ _

variable (hb : s.block? b.bid = some b) (hrole : b.role = .single) (hpoison : x.code = .poison)
include hb hrole hpoison

/-- Containment of a block alone. -/
theorem State.takeTrap_poison : s.takeTrap b.bid who pc x =
    if b.poisons < 2 && !b.marked then (s.reportPoison b who pc x).relaunch b.bid (avoidAfter b.core x.detail)
    else if b.poisons < 2 && b.ckptMode && b.checkpoint.isSome && !b.unprotected && !b.unprotected then
      (s.reportPoison b who pc x).rollback b.bid (avoidAfter b.core x.detail)
    else (s.countPoison b.bid).stopCopies [b.bid] (b.faultRec who pc x false) := by
  have hcopies : b.copies = [b.bid] := if_pos hrole
  have hleading : s.leadingOf b = b := if_neg (by simp [hrole])
  simp only [State.takeTrap, hb, hpoison, State.contain, hcopies, hleading]
  rfl

theorem State.takeTrap_relaunches (hcount : b.poisons < 2) (hmarked : b.marked = false) :
    s.takeTrap b.bid who pc x = (s.reportPoison b who pc x).relaunch b.bid (avoidAfter b.core x.detail) := by
  simp [State.takeTrap_poison hb hrole hpoison, hcount, hmarked]

theorem State.takeTrap_rollsBack (hcount : b.poisons < 2) (hmarked : b.marked = true) (hmode : b.ckptMode = true)
    (hckpt : b.checkpoint.isSome = true) (hprotected : b.unprotected = false) :
    s.takeTrap b.bid who pc x = (s.reportPoison b who pc x).rollback b.bid (avoidAfter b.core x.detail) := by
  simp [State.takeTrap_poison hb hrole hpoison, hcount, hmarked, hmode, hckpt, hprotected]

theorem State.takeTrap_stopsPoisoned
    (hstops : 2 ≤ b.poisons ∨ b.marked = true ∧ (b.ckptMode = false ∨ b.checkpoint = none ∨ b.unprotected = true)) :
    s.takeTrap b.bid who pc x = (s.countPoison b.bid).stopCopies [b.bid] (b.faultRec who pc x false) := by
  rw [State.takeTrap_poison hb hrole hpoison]
  rcases hstops with hcount | ⟨hmarked, hmode | hckpt | hprotected⟩
  · simp [Nat.not_lt.2 hcount]
  · simp [hmarked, hmode]
  · simp [hmarked, hckpt]
  · simp [hmarked, hprotected]

end

theorem State.block_stopCopies_first {s : State} {bid : Nat} {b : Block} (hb : s.block? bid = some b) (hfirst : b.primary = none)
    (r : FaultRec) : (s.stopCopies [bid] r).block? bid = some { b with primary := some r, saveReq := some { kind := 1, cause := 0 } } := by
  refine (block_modBlock_self _ (fun z => ?_) hb).trans ?_
  · split <;> rfl
  · simp only [hfirst]

/-- Settles O8: a stopping trap by what it leaves of its block, poison by where containment takes the block. -/
theorem takingATrapStopsTheBlock : Obligations.TakingATrapStopsTheBlock := by
  refine ⟨?traps, ?containment⟩
  case traps =>
    intro s e x r t rec_ henv hrole
    obtain ⟨hb, hctx, -⟩ := State.envOf_eq_some_iff.1 henv
    refine ⟨⟨rfl, rfl, rfl, rfl, rfl, rfl, rfl⟩, fun hmiss hpoison hfirst => ?_, fun hmiss hpoison hlater => ?_,
      fun hmiss hpoison => ?_, fun hmiss => ?_⟩
    · have hstopped := State.block_takeTrap_stops (who := e.who) (pc := e.ctx.pc) hb hmiss hpoison
      rwa [Block.stoppedBy_first hfirst, if_pos hrole] at hstopped
    · have hstopped := State.block_takeTrap_stops (who := e.who) (pc := e.ctx.pc) hb hmiss hpoison
      rwa [Block.stoppedBy_later hlater] at hstopped
    · have ht : t = s.modBlock e.bid (Block.stoppedBy rec_) := State.takeTrap_stops hb hmiss hpoison
      rw [ht]
      exact ⟨rfl, fun n hn => block_modBlock_ne s _ (Block.stoppedBy_bid rec_) hn⟩
    · obtain ⟨k, hk⟩ := State.block_takeTrap_xlate (who := e.who) (pc := e.ctx.pc) hb hmiss
      exact ⟨_, _, k, hk, ctx_modCtx_self _ hctx, rfl, modCtx_primary _ _ _, modCtx_saveReq _ _ _⟩
  case containment =>
    intro s b who pc x core im t r avoid hb hcore
    have havoid : avoidAfter b.core x.detail = avoid := by rw [hcore]; rfl
    refine ⟨fun hpoison hrole => ⟨fun hcount hmarked => ?_, fun hcount hmarked hmode hckpt hprotected => ?_, fun hstops hfirst => ?_⟩,
      fun hmiss hpoison hrole hfirst => ?_⟩
    · have ht : t = _ := State.takeTrap_relaunches hb hrole hpoison hcount hmarked
      rw [ht, State.block_relaunch (State.block_reportPoison hb), State.reportPoison_time]
      exact ⟨_, rfl, rfl, rfl, rfl, rfl, rfl, rfl, havoid⟩
    · have ht : t = _ := State.takeTrap_rollsBack hb hrole hpoison hcount hmarked hmode (by rw [hckpt]; rfl) hprotected
      rw [ht, State.block_rollback (State.block_reportPoison hb) hckpt]
      exact ⟨_, _, rfl, rfl, rfl, rfl, rfl, rfl, rfl, havoid⟩
    · have ht : t = _ := State.takeTrap_stopsPoisoned hb hrole hpoison hstops
      rw [ht]
      exact State.block_stopCopies_first (State.block_countPoison hb) hfirst r
    · have hstopped := State.block_takeTrap_stops (who := who) (pc := pc) hb hmiss hpoison
      rwa [Block.stoppedBy_first hfirst, if_neg hrole] at hstopped

end Sys2Proof.Machine
end

section
/-!
SUPPORT. Saving and checkpoints (11 R217, R221, R224, R228, R230, R235; log entries 25, 32): what becomes of a block that is asked to be
saved, how its image is written, and how a checkpoint is sealed.
-/
namespace Sys2Proof.Machine

section
variable {s s1 s2 : State} {b : Block} {r : SaveReq} {core : Nat} {im im2 : Image} {extra : List Part} {short : Bool}

/-! Images (11 R221, R228). -/

/-- A block whose image is whole leaves its core and reports what stopped it. -/
theorem State.writeSave_whole (hcore : (s.block? b.bid).bind (fun x => x.core) = some core)
    (hwrite : s.writeImage core b im extra short = (s1, im2, .whole)) : s.writeSave b im extra short =
      (((s1.park b im2).tick1).reportStop b (s.imageField b.extent) false).abortSigmis b := by
  simp only [State.writeSave, hcore, hwrite]

theorem State.writeSave_unwritten (hcore : (s.block? b.bid).bind (fun x => x.core) = some core)
    (hwrite : s.writeImage core b im extra short = (s1, im2, .unwritten)) :
    s.writeSave b im extra short = ((s1.park b im2).tick1).saveFailed b im2 0 := by
  simp only [State.writeSave, hcore, hwrite, if_true]

theorem State.writeSave_truncated (hcore : (s.block? b.bid).bind (fun x => x.core) = some core)
    (hwrite : s.writeImage core b im extra short = (s1, im2, .truncated)) :
    s.writeSave b im extra short = ((s1.park b im2).tick1).saveFailed b im2 (s.imageField b.extent) := by
  simp only [State.writeSave, hcore, hwrite, reduceCtorEq, if_false]

/-- The room that an image needs beyond its extent (11 R223, R224). -/
def State.imageRoom (s : State) (b : Block) (im : Image) (at_ : Nat) : Option (State × List Part) :=
  s.takeExcess b.bid at_ (excessOf b.params.reserve (im.sections b.params))

/-- A settled block before its image is written: the excess of its last image is free, and what it has committed is written back. -/
def State.readied (s : State) (b : Block) : State := (s.freeExcess b b.ckptExcess).pushOf b.bid

/-- The image that a save of a block writes. -/
def State.saveImage (s : State) (b : Block) (r : SaveReq) : Image := s.imageOf b r.kind r.cause b.extent

theorem State.saveBlocks_fits (hroom : (s.readied b).imageRoom b ((s.readied b).saveImage b r) b.extent = some (s1, extra)) :
    s.saveBlocks [b] r = s1.writeSave b ((s.readied b).saveImage b r) extra false := by
  have himages : (s.readied b).roomForImages [b] r = some (s1, [(b, (s.readied b).saveImage b r, extra)]) := by
    unfold State.imageRoom State.saveImage at hroom
    simp only [State.roomForImages, hroom, Option.map_some, State.saveImage]
  have hfold : [b].foldl (fun t b => (t.freeExcess b b.ckptExcess).pushOf b.bid) s = s.readied b := rfl
  simp only [State.saveBlocks, hfold, himages, List.foldl_cons, List.foldl_nil]

theorem State.saveBlocks_noRoom (hroom : (s.readied b).imageRoom b ((s.readied b).saveImage b r) b.extent = none) :
    s.saveBlocks [b] r = if r.kind = 0 then ((s.readied b).abandon [b] r).saveShort b.bid
      else ((s.readied b).saveShort b.bid).writeSave b ((s.readied b).saveImage b r) [] true := by
  have himages : (s.readied b).roomForImages [b] r = none := by
    unfold State.imageRoom State.saveImage at hroom
    simp only [State.roomForImages, hroom]
  have hfold : [b].foldl (fun t b => (t.freeExcess b b.ckptExcess).pushOf b.bid) s = s.readied b := rfl
  simp only [State.saveBlocks, hfold, himages]
  rfl

/-! BLOCK_SAVE (11 R221, R235; log entry 25). -/

/-- What the blocks of a save have asked for and is not allocated is withdrawn. -/
def State.withdrawFor (s : State) (bs : List Block) : State := bs.foldl (fun t x => t.withdrawAll x.bid) s

variable {bid : Nat}

theorem exec_blockSave (hb : s.block? bid = some b) (hasked : b.saveReq = some r) (hcore : b.core = some core) :
    exec (.blockSave bid) s = .next (
      let bs := s.savedWith b r
      let s1 := s.withdrawFor bs
      if !bs.all s1.settled then s1
      else if decide (r.kind = 0) && bs.any (fun x => x.primary.isSome) then bs.foldl (fun t x => t.goOnHere x) s1
      else (bs.foldl (fun t x => t.endSteps x.bid 1) s1).saveBlocks bs r) := by
  show execBlockSave bid s = _
  simp only [execBlockSave, event, hb, hasked, hcore]
  rfl

variable (hb : s.block? bid = some b) (hasked : b.saveReq = some r) (hcore : b.core = some core)
include hb hasked hcore

theorem exec_blockSave_waits (hopen : ∃ x ∈ s.savedWith b r, (s.withdrawFor (s.savedWith b r)).settled x = false) :
    exec (.blockSave bid) s = .next (s.withdrawFor (s.savedWith b r)) := by
  rw [exec_blockSave hb hasked hcore]
  refine congrArg _ (if_pos ?_)
  rw [Bool.not_eq_true', List.all_eq_false]
  exact hopen.imp fun x hx => ⟨hx.1, by simp [hx.2]⟩

variable (hsettled : ∀ x ∈ s.savedWith b r, (s.withdrawFor (s.savedWith b r)).settled x = true)
include hsettled

/-- The fault of a copy ends its pair's pre-emption. -/
theorem exec_blockSave_faulted (hkind : r.kind = 0) (hfault : ∃ x ∈ s.savedWith b r, x.primary.isSome = true) :
    exec (.blockSave bid) s =
      .next ((s.savedWith b r).foldl (fun t x => t.goOnHere x) (s.withdrawFor (s.savedWith b r))) := by
  rw [exec_blockSave hb hasked hcore]
  refine congrArg _ ((if_neg ?_).trans (if_pos ?_))
  · rw [List.all_eq_true.2 hsettled]
    exact Bool.false_ne_true
  · rw [Bool.and_eq_true, List.any_eq_true]
    exact ⟨decide_eq_true hkind, hfault⟩

theorem exec_blockSave_saves (hgoes : r.kind ≠ 0 ∨ ∀ x ∈ s.savedWith b r, x.primary = none) :
    exec (.blockSave bid) s = .next (((s.savedWith b r).foldl (fun t x => t.endSteps x.bid 1)
      (s.withdrawFor (s.savedWith b r))).saveBlocks (s.savedWith b r) r) := by
  rw [exec_blockSave hb hasked hcore]
  refine congrArg _ ((if_neg ?_).trans (if_neg ?_))
  · rw [List.all_eq_true.2 hsettled]
    exact Bool.false_ne_true
  · rw [Bool.and_eq_true, List.any_eq_true, decide_eq_true_eq]
    rintro ⟨hkind, x, hx, hfault⟩
    rcases hgoes with hother | hnone
    · exact hother hkind
    · rw [hnone x hx] at hfault
      exact absurd hfault Bool.false_ne_true

end

/-! CHECKPOINT_SEAL (11 R230, R224, R228; log entry 32). -/

section
variable {s t : State} {bid core : Nat} {b : Block}

theorem exec_checkpointSeal_seals (hb : s.block? bid = some b) (hcore : b.core = some core) (hdue : b.sealDue = true)
    (hsettled : s.settledBut b true = true) (hstays : b.saveReq = none) (hempty : b.role ≠ .single ∨ b.body.stores = []) :
    exec (.checkpointSeal bid) s = .next (s.sealBlock b core) := by
  have hready : (decide (b.role ≠ .single) || b.body.stores.isEmpty) = true := by
    rw [Bool.or_eq_true, decide_eq_true_eq, List.isEmpty_iff]
    exact hempty
  show execCheckpointSeal bid s = _
  simp only [execCheckpointSeal, event, hb, hcore, hdue, hsettled, hstays, Option.isSome_none, Bool.not_true, Bool.or_self,
    Bool.false_eq_true, if_false, hready, if_true]

/-- What others of a block alone have stored meanwhile is committed first. -/
theorem exec_checkpointSeal_commits (hb : s.block? bid = some b) (hcore : b.core = some core) (hdue : b.sealDue = true)
    (hsettled : s.settledBut b true = true) (hstays : b.saveReq = none) (hrole : b.role = .single) (hstores : b.body.stores ≠ [])
    (hdrained : s.drained b b.body.stores [] = .go t) :
    exec (.checkpointSeal bid) s = .next (t.sealBlock ((t.block? bid).getD b) core) := by
  have hready : (decide (b.role ≠ .single) || b.body.stores.isEmpty) = false := by
    simp [hrole, hstores]
  show execCheckpointSeal bid s = _
  simp only [execCheckpointSeal, event, hb, hcore, hdue, hsettled, hstays, Option.isSome_none, Bool.not_true, Bool.or_self,
    Bool.false_eq_true, if_false, hready, hdrained]

/-- The checkpoint image of a block, whose issuers it shows past the seal. -/
def State.sealImage (s : State) (b : Block) : Image := s.imageOf (b.mapCtx (fun _ c => c.unsealed)) 2 0 b.ckptExtent

/-- A block whose checkpoint has been dealt with goes on. -/
def State.goOnSealed (s : State) (bid : Nat) : State :=
  s.modBlock bid (fun x => { x.mapCtx (fun _ c => c.unsealed) with runs := 0 })

variable {s1 s2 : State} {im2 : Image} {extra : List Part}

theorem State.sealBlock_noRoom
    (hroom : (s.freeExcess b []).imageRoom b ((s.freeExcess b []).sealImage b) b.ckptExtent = none) :
    s.sealBlock b core = (((s.freeExcess b []).saveShort b.bid).goOnSealed b.bid).modBlock b.bid
      (fun x => { x with unprotected := true }) := by
  unfold State.imageRoom State.sealImage at hroom
  simp only [State.sealBlock, hroom]
  rfl

variable (hroom : (s.freeExcess b []).imageRoom b ((s.freeExcess b []).sealImage b) b.ckptExtent = some (s1, extra))
include hroom

theorem State.sealBlock_whole (hwrite : s1.writeImage core b ((s.freeExcess b []).sealImage b) extra false = (s2, im2, .whole)) :
    s.sealBlock b core = ((s2.goOnSealed b.bid).modBlock b.bid
      (fun x => { x with checkpoint := some im2, unprotected := false })).tick1 := by
  unfold State.imageRoom State.sealImage at hroom
  unfold State.sealImage at hwrite
  simp only [State.sealBlock, hroom, hwrite]
  rfl

theorem State.sealBlock_unwritten (hwrite : s1.writeImage core b ((s.freeExcess b []).sealImage b) extra false = (s2, im2, .unwritten)) :
    s.sealBlock b core = s2.sealFailed b im2 true := by
  unfold State.imageRoom State.sealImage at hroom
  unfold State.sealImage at hwrite
  simp only [State.sealBlock, hroom, hwrite, decide_true]

end

/-- Settles O50: saves by what the settled blocks have met and whether their images have room, checkpoints by room and by how the image
is written. -/
theorem blocksAreSavedAndCheckpointed : Obligations.BlocksAreSavedAndCheckpointed := by
  refine ⟨?saves, ?checkpoints⟩
  case saves =>
    intro s bid core b r bs s1 s2 im room off hb hasked hcore
    refine ⟨exec_blockSave_waits hb hasked hcore, exec_blockSave_faulted hb hasked hcore, fun hgoes hsettled => ?_⟩
    have hsaves : exec (.blockSave bid) s = .next ((bs.foldl (fun t x => t.endSteps x.bid 1) s1).saveBlocks bs r) :=
      exec_blockSave_saves hb hasked hcore hsettled hgoes
    refine ⟨hsaves, fun halone => ?_⟩
    have hsave : exec (.blockSave bid) s = .next ((s1.endSteps b.bid 1).saveBlocks [b] r) := by
      rw [hsaves, halone]
      rfl
    rw [hsave]
    refine ⟨fun s3 extra s4 im2 hroom hcore3 hwrite => ?_, fun s3 extra s4 im2 hroom hcore3 hwrite => ?_, fun hroom hkind => ?_,
      fun s4 im2 hroom hkind hcore2 hwrite => ?_⟩
    · exact congrArg _ ((State.saveBlocks_fits hroom).trans (State.writeSave_whole hcore3 hwrite))
    · exact congrArg _ ((State.saveBlocks_fits hroom).trans (State.writeSave_unwritten hcore3 hwrite))
    · exact congrArg _ ((State.saveBlocks_noRoom hroom).trans (if_pos hkind))
    · exact congrArg _ (((State.saveBlocks_noRoom hroom).trans (if_neg hkind)).trans (State.writeSave_truncated hcore2 hwrite))
  case checkpoints =>
    intro s t bid core b s0 b1 im goOn room hb hcore hdue hsettled hstays
    have hbid := block_bid hb
    subst hbid
    refine ⟨fun hempty => ?_, exec_checkpointSeal_commits hb hcore hdue hsettled hstays⟩
    rw [exec_checkpointSeal_seals hb hcore hdue hsettled hstays hempty]
    exact ⟨fun hroom => congrArg _ (State.sealBlock_noRoom hroom),
      fun s1 extra s2 im2 hroom hwrite => congrArg _ (State.sealBlock_whole hroom hwrite),
      fun s1 extra s2 im2 hroom hwrite => congrArg _ (State.sealBlock_unwritten hroom hwrite)⟩

end Sys2Proof.Machine
end

section
/-!
SUPPORT. Resume records (11 R218, R219): the record that a resume event takes, and what it answers.
-/
namespace Sys2Proof.Machine

section
variable {s s1 s2 : State} {k : Nat} {bs : List Byte} {r : ResumeRec}

/-! The record taken (11 R218; 10 R438). -/

/-- A record whose action is the event's is performed, sent by the device that holds it or taken from the queue here. -/
theorem State.takeResume_performs {p : Piece} (hnamed : s.dean.resq.toNat ≠ 0) (hhandle : handleOk s.dean.resq.toNat = true)
    (hcode : bits s.dean.resq.toNat 0 3 = 3)
    (htaken : s.takeSent 64 = some (s2, bs) ∨ (s.takeSent 64 = none ∧
      s.controlBlock (s.queueSpace s.dean.svq (agentCore s.dean.svq)) s.dean.resq.toNat needRW = (s1, .ok p) ∧ p.mig = false ∧
      s.away p.pa = false ∧ s.readsHeld p.pa = false ∧
      s1.forgetAgent.takeNow (agentStop .trace s.dean.svq) p.pa 3 = (s2, .ok (some bs))))
    (haction : (ResumeRec.of bs).action = k) : s.takeResume k = s2.perform218 (ResumeRec.of bs) := by
  have hvalid : ¬(s.dean.resq.toNat = 0 ∨ (!handleOk s.dean.resq.toNat) = true ∨ bits s.dean.resq.toNat 0 3 ≠ 3) := by
    simp [hnamed, hhandle, hcode]
  refine (if_neg hvalid).trans ?_
  rcases htaken with hsent | ⟨hnone, hcontrol, hmig, haway, hheld, htake⟩
  case inl => simp [hsent, haction]
  case inr => simp [hnone, hcontrol, hmig, haway, hheld, htake, haction]

theorem exec_resume {i : Instr} (hi : (i = .resumeRetry ∧ k = 0) ∨ (i = .resumeSkip ∧ k = 1) ∨ (i = .resumeAbort ∧ k = 2)) :
    exec i s = s.takeResume k := by
  obtain ⟨rfl, rfl⟩ | ⟨rfl, rfl⟩ | ⟨rfl, rfl⟩ := hi <;> rfl

/-! What a record answers (11 R218, R219). -/

theorem State.perform218_nothing (h : r.zeros = false ∨ s.answers r = .nothing) :
    s.perform218 r = .next (s.logErr (.resumeDropped (BitVec.ofNat 64 r.handle))) := by
  unfold State.perform218
  split
  · rfl
  · rcases h with h | h
    · simp_all
    · simp only [h]

theorem State.perform218_aborts {b : Block} (hzeros : r.zeros = true) (h : s.answers r = .stopped b) (habort : r.action = 2) :
    s.perform218 r = .next (s.abortBlock b.bid) := by
  simp [State.perform218, hzeros, h, habort]

variable (hzeros : r.zeros = true) (haction : r.action < 3)
include hzeros haction

theorem State.perform218_record {x : XRec} (h : s.answers r = .record x) :
    s.perform218 r = .next (if r.action = 0 then s.retryRecord x else s.abortBlock x.bid) := by
  by_cases hretry : r.action = 0 <;> simp [State.perform218, hzeros, Nat.not_le.2 haction, h, hretry]

theorem State.perform218_answers {b : Block} {f : FaultRec} (h : s.answers r = .stopped b) (hgoes : r.action ≠ 2)
    (hfault : b.primary = some f) : s.perform218 r = s.answerStopped b.copies f.who (decide (r.action = 1)) := by
  simp [State.perform218, hzeros, Nat.not_le.2 haction, h, hgoes, hfault]

end

/-- The body with which a stopped block that has been answered goes on: its image as its supervisor has edited it. -/
def State.answeredBody (s : State) (b : Block) : Option BlockBody :=
  match b.saved with
  | none => some b.body
  | some im => s.editedBody b.params b.index im

theorem State.answerStopped_single {s : State} {b : Block} {y : BlockBody} {who : Who} {skip : Bool} (hb : s.block? b.bid = some b)
    (hbody : s.answeredBody b = some y) : s.answerStopped [b.bid] who skip = .next (s.modBlock b.bid (fun z => { z with
      body := (y.withHalts z.body).returnFrom who skip, primary := none, seconds := [], awaiting := false })) := by
  cases hsaved : b.saved with
  | none =>
    obtain rfl : b.body = y := by simpa only [State.answeredBody, hsaved, Option.some.injEq] using hbody
    simp only [State.answerStopped, hb, hsaved]
  | some im =>
    simp only [State.answeredBody, hsaved] at hbody
    simp only [State.answerStopped, hb, hsaved, hbody]

/-- Settles O51: the record that is taken is performed, by what it answers. -/
theorem resumeRecordsAnswerWhatTheyName : Obligations.ResumeRecordsAnswerWhatTheyName := by
  intro s s1 s2 i k p bs x b f y h r hi hnamed hhandle hcode htaken haction
  have hk : k < 3 := by omega
  have hexec : exec i s = s2.perform218 r :=
    (exec_resume hi).trans (State.takeResume_performs hnamed hhandle hcode htaken haction)
  rw [hexec, ← haction]
  have haction3 : r.action < 3 := haction ▸ hk
  refine ⟨State.perform218_nothing, fun hzeros hrecord => State.perform218_record hzeros haction3 hrecord,
    fun hzeros hstopped habort => State.perform218_aborts hzeros hstopped habort,
    fun hzeros hstopped hgoes hfault hrole hb hbody => ?_⟩
  have hcopies : b.copies = [b.bid] := if_pos hrole
  rw [State.perform218_answers hzeros haction3 hstopped hgoes hfault, hcopies, State.answerStopped_single hb hbody]

end Sys2Proof.Machine
end

section
/-!
SUPPORT. The comparison of a pair (11 R233 to R237): what both copies at a commit point come to, and what the faults of one or of both.
-/
namespace Sys2Proof.Machine

section
variable {s : State} {bid : Nat} {l t : Block} {wl wt who : Who} {a b : FaultRec} {pc : DWord} {x : Trap}

theorem exec_signatureCompare (hpair : s.pairOf bid = some (l, t)) (hthawed : s.frozen l = false) :
    exec (.signatureCompare bid) s = .next (s.pairTry l t) := by
  show execSignatureCompare bid s = _
  simp [execSignatureCompare, event, hpair, hthawed]

/-! Faults (11 R235). -/

theorem State.pairTry_faults (ha : l.primary = some a) (hb : t.primary = some b) :
    s.pairTry l t = if a.same b then s.stopPair l t a b else s.mismatch l t a.who := by
  simp only [State.pairTry, ha, hb]

theorem State.pairTry_leadingFault (ha : l.primary = some a) (hb : t.primary = none) :
    s.pairTry l t = if t.awaitsResult a then s.stopPair l t a a else if t.waitsForCopy then s.mismatch l t a.who else s := by
  simp only [State.pairTry, ha, hb]

theorem State.pairTry_trailingFault (ha : l.primary = none) (hb : t.primary = some b) :
    s.pairTry l t = if l.waitsForCopy then s.mismatch l t b.who else s := by
  simp only [State.pairTry, ha, hb]

/-! The comparison (11 R235, R237). -/

/-- A pair whose CRCs have taken in all that they can. -/
def State.flushPair (s : State) (l t : Block) : State := (s.flushCrc l.bid).flushCrc t.bid

theorem State.pairTry_points (ha : l.primary = none) (hb : t.primary = none) (hl : l.atPoint = some wl) (ht : t.atPoint = some wt)
    (hrows : s.rowsUnread l = false) (hrows' : s.rowsUnread t = false) :
    s.pairTry l t = (s.flushPair l t).compareAt (((s.flushPair l t).block? l.bid).getD l)
      (((s.flushPair l t).block? t.bid).getD t) wl wt := by
  simp only [State.pairTry, ha, hb, hl, ht, hrows, hrows', Bool.or_self, Bool.false_eq_true, if_false]
  rfl

/-- The state in which the copies' signatures are compared: DN_STCTL is used up if it is armed for them. -/
def State.comparing (s : State) (l : Block) : State := if s.testArmed l then s.disarm else s

/-- The trailing copy's signature as it is compared: changed by DN_STXOR if DN_STCTL is armed. -/
def State.signatureSeen (s : State) (l t : Block) : DWord := if s.testArmed l then t.signature ^^^ s.dean.stxor else t.signature

theorem State.compareAt_differ (h : l.signature ≠ s.signatureSeen l t) :
    s.compareAt l t wl wt = (s.comparing l).mismatch l t wl := if_pos h

variable (hsame : l.signature = s.signatureSeen l t)
include hsame

theorem State.compareAt_drained (hfault : ((s.comparing l).drain l l.body.stores).fault = none)
    (hleft : ((s.comparing l).drain l l.body.stores).left = []) :
    s.compareAt l t wl wt = (((((s.comparing l).drain l l.body.stores).state.settleStores l t l.body.stores).modBlock l.bid
      (fun b => b.matched wl)).modBlock t.bid (fun b => b.matched wt)) := by
  refine (if_neg (not_not.2 hsame)).trans ?_
  simp only [State.comparing] at hfault hleft
  simp only [State.comparing, hfault, hleft]

theorem State.compareAt_held (hfault : ((s.comparing l).drain l l.body.stores).fault = none)
    (hleft : ((s.comparing l).drain l l.body.stores).left ≠ []) : s.compareAt l t wl wt = s := by
  refine (if_neg (not_not.2 hsame)).trans ?_
  simp only [State.comparing] at hfault hleft
  obtain ⟨y, ys, hcons⟩ := List.exists_cons_of_ne_nil hleft
  simp only [hfault, hcons]

theorem State.compareAt_fault (hfault : ((s.comparing l).drain l l.body.stores).fault = some (who, pc, x)) :
    s.compareAt l t wl wt = if x.code = .xlate then s.parkOn l who pc x else (s.comparing l).mismatch l t who := by
  refine (if_neg (not_not.2 hsame)).trans ?_
  simp only [State.comparing] at hfault
  simp only [State.comparing, hfault]

end

/-- Settles O52: the comparison by what it and the drain that it allows find, the faults by which copies have one. -/
theorem signaturesAreCompared : Obligations.SignaturesAreCompared := by
  intro s bid l t wl wt who a b pc x u l1 t1 armed s0 d out hpair hthawed
  have hout : out = .next (s.pairTry l t) := exec_signatureCompare hpair hthawed
  rw [hout]
  refine ⟨fun ha hb hl ht hrows hrows' => ?points, fun ha hb => ?both, fun ha hb hawaits => ?common,
    fun ha hb hpassed hwaits => ?leading, fun ha hb hwaits => ?trailing⟩
  case points =>
    rw [State.pairTry_points ha hb hl ht hrows hrows']
    refine ⟨fun hdiffer => congrArg _ (State.compareAt_differ hdiffer), fun hsame => ⟨fun hfault hleft => ?_, fun hfault hleft => ?_,
      fun hfault => ?_⟩⟩
    · exact congrArg _ (State.compareAt_drained hsame hfault hleft)
    · exact congrArg _ (State.compareAt_held hsame hfault hleft)
    · exact congrArg _ (State.compareAt_fault hsame hfault)
  case both => rw [State.pairTry_faults ha hb]
  case common => rw [State.pairTry_leadingFault ha hb, if_pos hawaits]
  case leading => rw [State.pairTry_leadingFault ha hb, hpassed, hwaits, if_neg Bool.false_ne_true, if_pos rfl]
  case trailing => rw [State.pairTry_trailingFault ha hb, if_pos hwaits]

end Sys2Proof.Machine
end

section
/-!
SUPPORT. The results of the integer, logical, shift and bit-field instructions (04 R87; 15 R319 to R321; 16 R339, R340; 17 R364, R367;
18 R380, R403): each function of the model as the number that the manual gives.
-/
namespace Sys2Proof.Machine

set_option Elab.async false

/-- An instruction whose operation is done, with no value loaded to show, completes. -/
theorem issue_retires {s : State} {e : Env} {i : Instr} {vals : List Nat} (h : Issues s e i vals)
    {body : Env → List Nat → State → Act} {d : Done} (hd : body e vals s = .done d) (hl : d.loaded = none) :
    issue i body s = .next (s.retired e i d) :=
  issue_done h hd (fun hsome => absurd hl (Option.isSome_iff_ne_none.1 hsome))

/-! Products and quotients (15 R319, 16 R339). -/

section
variable (x y z : Word)

theorem toNat_mulHigh : (mulHigh x y).toNat = (BitVec.ofInt 32 (x.toInt * y.toInt / 2 ^ 32)).toNat := by
  rw [mulHigh, wrap, BitVec.toNat_ofNat, BitVec.toNat_ofInt]
  generalize x.toInt * y.toInt = p
  push_cast
  omega

theorem toNat_mulHighU : (mulHighU x y).toNat = x.toNat * y.toNat / 2 ^ 32 := by
  have hlt : x.toNat * y.toNat < 2 ^ 32 * 2 ^ 32 := Nat.mul_lt_mul'' x.isLt y.isLt
  rw [mulHighU, BitVec.toNat_ofNat, Nat.mod_eq_of_lt (Nat.div_lt_of_lt_mul hlt)]

theorem toNat_divUnsigned : (divUnsigned x y).toNat = if y = 0 then 0xFFFFFFFF else x.toNat / y.toNat := by
  have hlt : x.toNat / y.toNat < 2 ^ 32 := (Nat.div_le_self ..).trans_lt x.isLt
  rw [divUnsigned, apply_ite BitVec.toNat, BitVec.toNat_ofNat (BitVec.toNat x / _), Nat.mod_eq_of_lt hlt]
  rfl

/-- The one quotient outside the 32-bit range, 2^31, comes out as 0x8000_0000. -/
theorem toNat_divSigned : (divSigned x y).toNat = if y = 0 then 0xFFFFFFFF
    else if x.toInt = -(2 ^ 31) ∧ y.toInt = -1 then 0x80000000 else (BitVec.ofInt 32 (x.toInt.tdiv y.toInt)).toNat := by
  rw [divSigned, apply_ite BitVec.toNat]
  refine if_congr Iff.rfl rfl ?_
  split
  · next h => rw [h.1, h.2]; rfl
  · rfl

/-! Minima, maxima, saturation (16 R339, 15 R319). -/

theorem minSigned_eq : minSigned x y = BitVec.ofInt 32 (min x.toInt y.toInt) := by
  unfold minSigned
  split
  · next h => rw [min_eq_right (BitVec.slt_iff_toInt_lt.1 h).le, BitVec.ofInt_toInt]
  · next h => rw [min_eq_left (not_lt.1 (mt BitVec.slt_iff_toInt_lt.2 h)), BitVec.ofInt_toInt]

theorem maxSigned_eq : maxSigned x y = BitVec.ofInt 32 (max x.toInt y.toInt) := by
  unfold maxSigned
  split
  · next h => rw [max_eq_right (BitVec.slt_iff_toInt_lt.1 h).le, BitVec.ofInt_toInt]
  · next h => rw [max_eq_left (not_lt.1 (mt BitVec.slt_iff_toInt_lt.2 h)), BitVec.ofInt_toInt]

theorem toNat_minUnsigned : (minUnsigned x y).toNat = min x.toNat y.toNat := by
  unfold minUnsigned
  split
  · next h => rw [min_eq_right (BitVec.ult_iff_lt.1 h).le]
  · next h => rw [min_eq_left (not_lt.1 (mt BitVec.ult_iff_lt.2 h))]

theorem toNat_maxUnsigned : (maxUnsigned x y).toNat = max x.toNat y.toNat := by
  unfold maxUnsigned
  split
  · next h => rw [max_eq_right (BitVec.ult_iff_lt.1 h).le]
  · next h => rw [max_eq_left (not_lt.1 (mt BitVec.ult_iff_lt.2 h))]

/-- The saturated sum is the exact one, held within the 32-bit range. -/
theorem addSat_eq : addSat x y = BitVec.ofInt 32 (max (-(2 ^ 31)) (min (2 ^ 31 - 1) (x.toInt + y.toInt))) := by
  unfold addSat
  dsimp only
  split
  · next h => rw [max_eq_left ((min_le_right _ _).trans h.le)]; rfl
  · next hlow =>
    split
    · next h => rw [min_eq_left h.le]; rfl
    · next hhigh =>
      rw [min_eq_right (not_lt.1 hhigh), max_eq_right (not_lt.1 hlow), BitVec.ofInt_add, BitVec.ofInt_toInt, BitVec.ofInt_toInt]

theorem absolute_eq : absolute x = BitVec.ofNat 32 x.toInt.natAbs := by
  have hx : BitVec.ofInt 32 x.toInt = x := BitVec.ofInt_toInt
  unfold absolute
  rw [← BitVec.ofInt_natCast, Int.natCast_natAbs]
  split
  · next h => rw [abs_of_neg (BitVec.toInt_neg_of_msb_true h), BitVec.ofInt_neg, hx]
  · next h => rw [abs_of_nonneg (BitVec.toInt_nonneg_of_msb_false (Bool.eq_false_iff.2 h)), hx]

/-! Shifts and bit fields (18 R380, 15 R321). -/

theorem toNat_shiftLeft (n : Nat) : (shiftLeft x n).toNat = x.toNat * 2 ^ n % 2 ^ 32 := by
  unfold shiftLeft
  split
  · next h => exact (Nat.mod_eq_zero_of_dvd ((Nat.pow_dvd_pow 2 h).mul_left _)).symm
  · rw [BitVec.toNat_shiftLeft, Nat.shiftLeft_eq]

theorem toNat_shiftRight (n : Nat) : (shiftRight x n).toNat = x.toNat / 2 ^ n := by
  unfold shiftRight
  split
  · next h => exact (Nat.div_eq_of_lt (x.isLt.trans_le (Nat.pow_le_pow_right two_pos h))).symm
  · rw [BitVec.toNat_ushiftRight, Nat.shiftRight_eq_div_pow]

/-- A number of 32 bits shifted right arithmetically by 31 or more leaves copies of its sign. -/
theorem toInt_div_two_pow {n : Nat} (h : 31 ≤ n) : x.toInt / 2 ^ n = if x.toInt < 0 then -1 else 0 := by
  have hpow : (2 : Int) ^ 31 ≤ 2 ^ n := pow_le_pow_right₀ one_le_two h
  have hlo : -(2 : Int) ^ 31 ≤ x.toInt := BitVec.le_toInt x
  have hhi : x.toInt < (2 : Int) ^ 31 := BitVec.toInt_lt
  split
  · next hneg => exact Int.ediv_eq_neg_one_of_neg_of_le hneg (by omega)
  · next hpos => exact Int.ediv_eq_zero_of_lt (not_lt.1 hpos) (hhi.trans_le hpow)

theorem shiftArith_eq (n : Nat) : shiftArith x n = BitVec.ofInt 32 (x.toInt / 2 ^ n) := by
  have hval (k : Nat) : x.sshiftRight k = BitVec.ofInt 32 (x.toInt / 2 ^ k) := by
    rw [← BitVec.ofInt_toInt (x := x.sshiftRight k), BitVec.toInt_sshiftRight, Int.shiftRight_eq_div_pow]
    norm_num
  unfold shiftArith
  split
  · next h => rw [hval, toInt_div_two_pow x le_rfl, toInt_div_two_pow x (by omega)]
  · exact hval n

theorem fieldWidth_eq : fieldWidth y = min (y.toNat / 2 ^ 8 % 64) 32 := by
  rw [fieldWidth, bits, Nat.shiftRight_eq_div_pow]
  rfl

theorem toNat_extractField :
    (extractField x y).toNat = x.toNat / 2 ^ (y.toNat % 32) % 2 ^ min (y.toNat / 2 ^ 8 % 64) 32 := by
  have hlt (k n : Nat) : x.toNat / 2 ^ k % 2 ^ n < 2 ^ 32 :=
    (Nat.mod_le ..).trans_lt ((Nat.div_le_self ..).trans_lt x.isLt)
  rw [extractField, bits_from_zero, fieldWidth_eq, bits, Nat.shiftRight_eq_div_pow, BitVec.toNat_ofNat, Nat.mod_eq_of_lt (hlt ..)]
  rfl

theorem testBit_maskOf (lo n k : Nat) : (maskOf lo n).testBit k = decide (lo ≤ k ∧ k < lo + n) := by
  rw [maskOf, Nat.testBit_shiftLeft, Nat.testBit_two_pow_sub_one, ← Bool.decide_and]
  exact decide_eq_decide.2 (by omega)

/-- Inside the field a bit comes from the inserted word, elsewhere it stays. -/
theorem insertField_eq : insertField x y z = BitVec.ofFnLE (n := 32) fun k =>
    if y.toNat % 32 ≤ k.val ∧ k.val < y.toNat % 32 + min (y.toNat / 2 ^ 8 % 64) 32 then x.getLsbD (k.val - y.toNat % 32)
    else z.getLsbD k.val := by
  refine BitVec.eq_of_getLsbD_eq fun k hk => ?_
  have hpos : bits y.toNat 0 5 = y.toNat % 32 := rfl
  rw [BitVec.getLsbD_ofFnLE, dif_pos hk]
  simp only [insertField, hpos, fieldWidth_eq, BitVec.getLsbD_or, BitVec.getLsbD_and, BitVec.getLsbD_not, BitVec.getLsbD_ofNat,
    BitVec.getLsbD_shiftLeft, hk, decide_true, Bool.true_and, testBit_maskOf]
  split
  · next h => rw [decide_eq_true h, decide_eq_false (not_lt.2 h.1)]; simp
  · next h => rw [decide_eq_false h]; simp

/-! Counts and reversal (17 R367, 15 R319). -/

/-- The ones of the low n + 1 bits are those of the low n bits and bit n. -/
theorem popCount_succ (n a : Nat) : popCount (n + 1) a = popCount n a + (a.testBit n).toNat := by
  induction n generalizing a with
  | zero => rw [popCount, popCount, popCount, Nat.testBit_zero]; rcases Nat.mod_two_eq_zero_or_one a with h | h <;> simp [h]
  | succ n ih => rw [popCount, ih, popCount, Nat.testBit_succ, Nat.add_assoc]

theorem popCount_eq (n acc : Nat) : popCount n x.toNat + acc = x.cpopNatRec n acc := by
  induction n generalizing acc with
  | zero => rw [popCount, Nat.zero_add, BitVec.cpopNatRec_zero_self]
  | succ n ih => rw [popCount_succ, BitVec.cpopNatRec_succ, ← ih, BitVec.getLsbD]; omega

theorem onesOf_eq : onesOf x = x.cpop := by
  rw [onesOf, ← Nat.add_zero (popCount 32 _), popCount_eq, BitVec.cpop]

theorem leadingZeros_eq : leadingZeros x = x.clz := by
  unfold leadingZeros
  split
  · next h => exact (BitVec.clz_eq_iff_eq_zero.2 h).symm
  · next h =>
    have hpos : 2 ^ (31 - x.clz.toNat) ≤ x.toNat := BitVec.two_pow_sub_clz_le_toNat_of_ne_zero (by decide) h
    have hlt : x.toNat < 2 ^ (32 - x.clz.toNat) := BitVec.toNat_lt_two_pow_sub_clz
    have hclz : x.clz.toNat < 32 := BitVec.clz_lt_iff_ne_zero.2 h
    have hne : x.toNat ≠ 0 := fun h0 => h (BitVec.eq_of_toNat_eq h0)
    have hlog : Nat.log2 x.toNat = 31 - x.clz.toNat :=
      (Nat.log2_eq_iff hne).2 ⟨hpos, by rwa [show 31 - x.clz.toNat + 1 = 32 - x.clz.toNat by omega]⟩
    rw [hlog, Nat.sub_sub_self (by omega), BitVec.ofNat_toNat, BitVec.setWidth_eq]

/-- The bits of n and the lower ones, read from the lowest to the highest. -/
theorem testBit_foldl_reversed (a n j : Nat) :
    ((List.range n).foldl (fun acc i => 2 * acc + bits a i 1) 0).testBit j = (decide (j < n) && a.testBit (n - 1 - j)) := by
  induction n generalizing j with
  | zero => simp
  | succ n ih =>
    rw [List.range_succ, List.foldl_append]
    show (2 * _ + bits a n 1).testBit j = _
    have hbit : bits a n 1 = (a.testBit n).toNat := (Nat.toNat_testBit a n).symm ▸ by rw [bits, Nat.shiftRight_eq_div_pow, pow_one]
    cases j with
    | zero => rw [Nat.testBit_zero, hbit]; cases h : a.testBit n <;> simp [h]
    | succ j =>
      have hhalf (r : Nat) (b : Bool) : (2 * r + b.toNat) / 2 = r := by
        cases b
        · exact Nat.mul_div_cancel_left r two_pos
        · exact Nat.mul_add_div two_pos r 1
      rw [Nat.testBit_succ, hbit, hhalf, ih, Nat.add_sub_cancel, Nat.sub_add_eq, Nat.sub_right_comm]
      simp

theorem reversed_eq : reversed x = x.reverse := by
  refine BitVec.eq_of_getLsbD_eq fun k hk => ?_
  rw [reversed, BitVec.getLsbD_ofNat, testBit_foldl_reversed, BitVec.getLsbD_reverse, BitVec.getMsbD]
  simp [hk, BitVec.getLsbD]

end

/-! Completion of the instructions of one result (16 R339). -/

section
variable {s : State} {e : Env} {i : Instr} {a b d v : Nat}

/-- An instruction of one source writes its result. -/
theorem issue_alu1 {f : Word → Word} (h : Issues s e i [a]) (hv : (f (BitVec.ofNat 32 a)).toNat = v) :
    issue i (alu1 f) s = .next (s.writes e i [v]) :=
  issue_retires h (by rw [← hv]; rfl) rfl

/-- An instruction of the sources ra and rb writes its result. -/
theorem issue_alu2 {f : Word → Word → Word} (h : Issues s e i [a, b])
    (hv : (f (BitVec.ofNat 32 a) (BitVec.ofNat 32 b)).toNat = v) : issue i (alu2 f) s = .next (s.writes e i [v]) :=
  issue_retires h (by rw [← hv]; rfl) rfl

/-- An instruction of the sources ra, rb and rd writes its result. -/
theorem issue_alu3 {f : Word → Word → Word → Word} (h : Issues s e i [a, b, d])
    (hv : (f (BitVec.ofNat 32 a) (BitVec.ofNat 32 b) (BitVec.ofNat 32 d)).toNat = v) :
    issue i (alu3 f) s = .next (s.writes e i [v]) :=
  issue_retires h (by rw [← hv]; rfl) rfl

end

/-- An immediate is added as a signed number (16 R340). -/
theorem add_imm32 (x : Word) (imm : BitVec 8) : x + imm32 imm = BitVec.ofInt 32 (x.toInt + imm.toInt) := by
  rw [BitVec.ofInt_add, BitVec.ofInt_toInt]
  rfl

/-- Settles O12, instruction by instruction: arithmetic first, then logic, shifts and bit fields. -/
theorem integerInstructionsWriteTheirResult : Obligations.IntegerInstructionsWriteTheirResult := by
  constructor
  · intro s e rd ra rb imm fe g a b d x y z
    exact ⟨(issue_alu2 · rfl), (issue_alu2 · rfl), (issue_alu2 · (BitVec.toNat_mul ..)), (issue_alu2 · (toNat_mulHigh ..)),
      (issue_alu2 · (toNat_mulHighU ..)), (issue_alu3 · rfl), (issue_alu2 · (congrArg _ (minSigned_eq ..))),
      (issue_alu2 · (congrArg _ (maxSigned_eq ..))), (issue_alu2 · (toNat_minUnsigned ..)), (issue_alu2 · (toNat_maxUnsigned ..)),
      (issue_alu2 · (congrArg _ (addSat_eq ..))), (issue_alu3 · (congrArg _ (minSigned_eq ..))),
      (issue_alu3 · (congrArg _ (maxSigned_eq ..))), (issue_alu1 · (congrArg _ (absolute_eq ..))),
      (issue_alu1 · (congrArg _ (add_imm32 ..)))⟩
  · intro s e rd ra rb imm fe g a b d x y z m pos len
    exact ⟨(issue_alu2 · rfl), (issue_alu2 · rfl), (issue_alu2 · rfl), (issue_alu2 · rfl), (issue_alu1 · rfl), (issue_alu1 · rfl),
      (issue_alu1 · rfl), (issue_alu2 · (toNat_shiftLeft ..)), (issue_alu2 · (toNat_shiftRight ..)),
      (issue_alu2 · (congrArg _ (shiftArith_eq ..))), (issue_alu1 · (toNat_shiftLeft ..)), (issue_alu1 · (toNat_shiftRight ..)),
      (issue_alu1 · (congrArg _ (shiftArith_eq ..))), (issue_alu2 · (toNat_extractField ..)),
      (issue_alu3 · (congrArg _ (insertField_eq ..))), (issue_alu1 · (congrArg _ (onesOf_eq ..))),
      (issue_alu1 · (congrArg _ (leadingZeros_eq ..))), (issue_alu1 · (congrArg _ (reversed_eq ..)))⟩

/-- Settles O13, both divisions by their quotients. -/
theorem divisionProducesTheQuotient : Obligations.DivisionProducesTheQuotient := by
  intro s e rd ra rb fe g a b x y
  exact ⟨fun h => issue_retires h (by rw [← toNat_divSigned]; rfl) rfl, fun h => issue_retires h (by rw [← toNat_divUnsigned]; rfl) rfl⟩

/-- Settles O10: the immediate forms by their results, the manual's words by the decoder. -/
theorem immediateFormsComputeAndDecode : Obligations.ImmediateFormsComputeAndDecode := by
  refine ⟨?_, ⟨rfl, rfl, rfl, rfl, rfl⟩, rfl, rfl, rfl, rfl⟩
  intro s e rd ra rb imm fe g a b x y m
  refine ⟨(issue_alu1 · rfl), (issue_alu1 · rfl), (issue_alu1 · rfl), (issue_alu2 · rfl), fun i hi => ?_, fun himm => ?_, fun himm => ?_⟩
  · simp only [List.mem_cons, List.not_mem_nil, or_false] at hi
    rcases hi with rfl | rfl | rfl | rfl <;> exact ⟨rfl, rfl, rfl, rfl⟩
  · have hm : m = BitVec.allOnes 32 <<< 4 := congrArg (BitVec.signExtend 32) himm
    have hdiv : x / 16#32 = x >>> 4 := BitVec.udiv_twoPow_eq_of_lt (k := 4) (by decide)
    have hmul : x >>> 4 * 16#32 = x >>> 4 <<< 4 := BitVec.mul_twoPow_eq_shiftLeft _ 4
    show x &&& m = x / 16#32 * 16#32
    rw [hm, hdiv, hmul, BitVec.shiftLeft_ushiftRight]
  · have hm : m = BitVec.allOnes 32 := congrArg (BitVec.signExtend 32) himm
    rw [hm, BitVec.xor_allOnes]

end Sys2Proof.Machine
end

section
/-!
SUPPORT. Compares, predicate logic, moves, constants and addresses (14 R280; 16 R330, R341; 17 R353, R359 to R361, R365, R366; 18 R381):
what each writes when it completes.
-/
namespace Sys2Proof.Machine

set_option Elab.async false

/-- An instruction that issues is well formed. -/
theorem Issues.wellFormed {s : State} {e : Env} {i : Instr} {vals : List Nat} (h : Issues s e i vals) : i.wellFormed = true := by
  obtain ⟨⟨-, hstatic, -⟩, -⟩ := h
  by_contra hw
  have hlegal : (e.form i).legal i e.lead e.ctx.wb.toNat e.alloc = false := by simp [Form.legal, Bool.eq_false_iff.2 hw]
  by_cases hruns : (if e.lead then (e.form i).lead else (e.form i).fibre) = true <;> simp [staticCheck, hlegal, hruns] at hstatic

/-! Integer compares (14 R280, 16 R341). -/

section
variable {s : State} {e : Env} {cond : BitVec 3} {pn : BitVec 4} {ra rb : Reg} {fe : Bool} {g : Guard} {a b : Nat}

/-- The relation of two numbers that a condition code names. -/
def CondHolds (cond : BitVec 3) (p q : Int) : Prop :=
  (cond = 0 → p = q) ∧ (cond = 1 → p ≠ q) ∧ (cond = 2 → p < q) ∧ (cond = 3 → p ≤ q) ∧ (cond = 4 → p > q) ∧ (cond = 5 → p ≥ q)

/-- A word as the integer that a compare takes it for. -/
def numberOf (uns : Bool) (x : Word) : Int := if uns then x.toNat else x.toInt

/-- Whether one word is below another, as such integers. -/
def isBelow (uns : Bool) (x y : Word) : Bool := if uns then x.ult y else x.slt y

theorem isBelow_iff {uns : Bool} {x y : Word} : isBelow uns x y = true ↔ numberOf uns x < numberOf uns y := by
  cases uns
  · exact BitVec.slt_iff_toInt_lt
  · exact BitVec.ult_iff_lt.trans Int.ofNat_lt.symm

theorem eq_iff_numberOf (uns : Bool) {x y : Word} : x = y ↔ numberOf uns x = numberOf uns y := by
  cases uns
  · exact BitVec.toInt_inj.symm
  · exact BitVec.toNat_inj.symm.trans Int.ofNat_inj.symm

/-- The condition by its code. -/
theorem intCond_eq (uns : Bool) (x y : Word) : intCond cond uns x y = match cond.toNat with
    | 0 => decide (x = y)
    | 1 => decide (x ≠ y)
    | 2 => isBelow uns x y
    | 3 => isBelow uns x y || decide (x = y)
    | 4 => isBelow uns y x
    | _ => isBelow uns y x || decide (x = y) := rfl

/-- On a legal code the condition is that of the operands, signed or not. -/
theorem intCond_iff {x y : Word} (uns : Bool) (hc : cond.toNat ≤ 5) :
    intCond cond uns x y = true ↔ CondHolds cond (numberOf uns x) (numberOf uns y) := by
  have hcases : cond = 0#3 ∨ cond = 1#3 ∨ cond = 2#3 ∨ cond = 3#3 ∨ cond = 4#3 ∨ cond = 5#3 := by bv_omega
  rw [intCond_eq]
  have hbelow (p q : Int) : p < q ∨ p = q ↔ p ≤ q := le_iff_lt_or_eq.symm
  have habove (p q : Int) : q < p ∨ p = q ↔ q ≤ p := by rw [le_iff_lt_or_eq, eq_comm]
  rcases hcases with rfl | rfl | rfl | rfl | rfl | rfl <;>
    simp [CondHolds, isBelow_iff, eq_iff_numberOf uns, hbelow, habove]

theorem exec_icmp (h : Issues s e (.icmp cond pn ra rb fe g) [a, b]) :
    exec (.icmp cond pn ra rb fe g) s = .next (s.predicates e (.icmp cond pn ra rb fe g)
      (setPred e.ctx.preds pn.toNat (intCond cond false (BitVec.ofNat 32 a) (BitVec.ofNat 32 b)))) :=
  issue_retires h rfl rfl

theorem exec_icmpu (h : Issues s e (.icmpu cond pn ra rb fe g) [a, b]) :
    exec (.icmpu cond pn ra rb fe g) s = .next (s.predicates e (.icmpu cond pn ra rb fe g)
      (setPred e.ctx.preds pn.toNat (intCond cond true (BitVec.ofNat 32 a) (BitVec.ofNat 32 b)))) :=
  issue_retires h rfl rfl

end

/-- An element of the low word of a register (04 R70). -/
theorem bits_low_half (x : Nat) {j : Nat} (hj : j < 2) : bits (x % 2 ^ 32) (16 * j) 16 = x / 2 ^ (16 * j) % 2 ^ 16 := by
  rw [bits_mod_two_pow x (by omega), bits_eq_div_mod]

theorem getLsbD_setPred (q : BitVec 16) {n : Nat} (k : Nat) (v : Bool) (hn : n < 16) :
    (setPred q n v).getLsbD k = if k = n then v else q.getLsbD k := by
  have hbit : (1#16 <<< n).getLsbD k = decide (k = n) := by
    rw [← BitVec.twoPow_eq, BitVec.getLsbD_twoPow, decide_eq_true hn, Bool.true_and]
    exact decide_eq_decide.2 eq_comm
  have hwidth : q.getLsbD k = true → k < 16 := BitVec.lt_of_getLsbD
  cases v
  · show (q &&& ~~~(1#16 <<< n)).getLsbD k = _
    rw [BitVec.getLsbD_and, BitVec.getLsbD_not, hbit]
    by_cases hk : k = n <;> simp [hk]
    exact hwidth
  · show (q ||| (1#16 <<< n)).getLsbD k = _
    rw [BitVec.getLsbD_or, hbit]
    by_cases hk : k = n <;> simp [hk]

/-- Settles O14: integer compares by the condition that their code names, floating-point ones by the model's condition. -/
theorem comparesSetTheirPredicates : Obligations.ComparesSetTheirPredicates := by
  constructor
  · intro s e cond pn ra rb fe g a b x y holds
    exact ⟨fun h => ⟨_, intCond_iff false (of_decide_eq_true h.wellFormed), exec_icmp h⟩,
      fun h => ⟨_, intCond_iff true (of_decide_eq_true h.wellFormed), exec_icmpu h⟩⟩
  · intro s e cond pn ra rb fe g a b p half two
    have hfirst (x : Nat) : bits (x % 2 ^ 32) (16 * 0) 16 = half x 0 := bits_low_half x (by decide)
    have hsecond (x : Nat) : bits (x % 2 ^ 32) (16 * 1) 16 = half x 1 := bits_low_half x (by decide)
    refine ⟨fun h => issue_retires h rfl rfl, fun h => issue_retires h ?_ rfl, fun h => issue_retires h ?_ rfl⟩ <;>
    · simp only [low, List.getD_cons_zero, List.getD_cons_succ, hfirst, hsecond]
      rfl

/-- Settles O15. -/
theorem predicateInstructionsSetTheirPredicate : Obligations.PredicateInstructionsSetTheirPredicate := by
  intro s e rd ra rb fe g a p
  refine ⟨fun h => issue_retires h rfl rfl, fun h => issue_retires h rfl rfl, fun h => issue_retires h rfl rfl, fun h => issue_retires h rfl rfl,
    fun h => issue_retires h ?_ rfl, fun h => issue_retires h rfl rfl, fun q n k v hn => ?_⟩
  · have hrd : rd = 0x40#7 ↔ rd.toNat = 64 := BitVec.toNat_inj.symm
    simp only [hrd]
    rfl
  · exact getLsbD_setPred q k v hn

/-- A shifted signed offset added to an address is the sum of integers, wrapped at 64 bits (14 R283; 17 R353). -/
theorem ofNat_add_signExtend_shiftLeft (a : Nat) {k : Nat} (x : BitVec k) (n : Nat) :
    BitVec.ofNat 64 a + (x.signExtend 64) <<< n = BitVec.ofInt 64 (a + x.toInt * 2 ^ n) := by
  have hpow : BitVec.ofInt 64 (2 ^ n) = BitVec.twoPow 64 n := by
    refine BitVec.eq_of_toNat_eq ?_
    rw [BitVec.toNat_ofInt, BitVec.toNat_twoPow]
    norm_cast
  rw [BitVec.ofInt_add, BitVec.ofInt_natCast, BitVec.ofInt_mul, hpow, BitVec.mul_twoPow_eq_shiftLeft]
  rfl

/-- Settles O16. -/
theorem movesAndConstantsWriteTheirValue : Obligations.MovesAndConstantsWriteTheirValue := by
  intro s e rd ra rb imm15 imm17 sh fe g a b d
  refine ⟨fun h => issue_retires h rfl rfl, fun h => issue_retires h rfl rfl, fun h => issue_retires h ?_ rfl, fun h => issue_retires h rfl rfl,
    fun h => issue_retires h ?_ rfl⟩
  · rw [low, List.getD_cons_zero, Nat.mod_mod_of_dvd _ (by norm_num)]
    rfl
  · rw [ofNat_add_signExtend_shiftLeft]
    rfl

end Sys2Proof.Machine
end

section
/-!
SUPPORT. Floating-point instructions (04 R74 to R81; 16 R327 to R334): what an instruction leaves that rounds, and the elements of the
packed formats.
-/
namespace Sys2Proof.Machine

set_option Elab.async false

section
variable {s : State} {e : Env} {i : Instr} {vals : List Nat} {body : Env → List Nat → State → Act} {r : Nat × FpFlags} {v : Nat}

/-- An instruction that writes a rounded result and raises its exceptions. -/
theorem issue_rounds (h : Issues s e i vals) (hb : body e vals s = fpResult r s) : issue i body s = .next (s.rounds e i r) :=
  issue_retires h hb rfl

/-- An instruction that only writes a value. -/
theorem issue_writes (h : Issues s e i vals) (hb : body e vals s = .write s [v]) : issue i body s = .next (s.writes e i [v]) :=
  issue_retires h hb rfl

/-- A floating-point producer. -/
theorem issue_fpProduces (h : Issues s e i vals) (hb : body e vals s = fpProducer r s) :
    issue i body s = .next (s.produces e i r.1 r.2) :=
  issue_retires h hb rfl

/-! Packed formats (04 R70, R76). -/

/-- Element j of the low word of a register. -/
def element (x j : Nat) : Nat := x / 2 ^ (16 * j) % 2 ^ 16

/-- Both elements' results, with the exceptions of both. -/
def bothElements (f : Nat → Nat × FpFlags) : Nat × FpFlags := ((f 0).1 + 2 ^ 16 * (f 1).1, (f 0).2 ||| (f 1).2)

theorem halves_low (x : Nat) : halves (x % 2 ^ 32) = (element x 0, element x 1) :=
  Prod.ext (bits_low_half x (j := 0) (by decide)) (bits_low_half x (j := 1) (by decide))

theorem packed2_low (f : Nat → Nat → Nat × FpFlags) (x y : Nat) :
    packed2 f (x % 2 ^ 32) (y % 2 ^ 32) = bothElements fun j => f (element x j) (element y j) := by
  rw [packed2, halves_low, halves_low]
  rfl

theorem packed3_low (f : Nat → Nat → Nat → Nat × FpFlags) (x y z : Nat) :
    packed3 f (x % 2 ^ 32) (y % 2 ^ 32) (z % 2 ^ 32) = bothElements fun j => f (element x j) (element y j) (element z j) := by
  rw [packed3, halves_low, halves_low, halves_low]
  rfl

/-- Two packed sources through an operation on elements. -/
theorem fpResult_packed2 (f : Nat → Nat → Nat × FpFlags) (x y : Nat) (hr : (bothElements fun j => f (element x j) (element y j)) = r) :
    fpResult (packed2 f (low [x, y] 0) (low [x, y] 1)) s = fpResult r s := by
  rw [← hr, ← packed2_low]
  rfl

/-- A packed choice between elements raises nothing. -/
theorem issue_packedChoice {a b : Nat} (f : Nat → Nat → Nat) (h : Issues s e i [a, b]) :
    issue i (fun _ v s => fpResult (packed2 (fun x y => (f x y, fNone)) (low v 0) (low v 1)) s) s =
      .next (s.writes e i [f (element a 0) (element b 0) + 2 ^ 16 * f (element a 1) (element b 1)]) :=
  issue_retires h ((fpResult_packed2 _ a b rfl).trans (by simp [fpResult, bothElements])) rfl

end

/-- Settles O18, format by format. -/
theorem floatArithmeticRoundsOnce : Obligations.FloatArithmeticRoundsOnce := by
  intro s e rd ra rb fe g a b d i r el w both
  constructor
  · intro hi h
    simp only [List.mem_cons, List.not_mem_nil, or_false, Prod.mk.injEq] at hi
    rcases hi with ⟨rfl, rfl⟩ | ⟨rfl, rfl⟩ | ⟨rfl, rfl⟩ | ⟨rfl, rfl⟩ | ⟨rfl, rfl⟩ | ⟨rfl, rfl⟩ | ⟨rfl, rfl⟩ |
        ⟨rfl, rfl⟩ | ⟨rfl, rfl⟩
    iterate 3 exact issue_rounds h rfl
    iterate 6 exact issue_rounds h (fpResult_packed2 _ _ _ rfl)
  · intro hi h
    simp only [List.mem_cons, List.not_mem_nil, or_false, Prod.mk.injEq] at hi
    rcases hi with ⟨rfl, rfl⟩ | ⟨rfl, rfl⟩ | ⟨rfl, rfl⟩
    · exact issue_rounds h rfl
    · exact issue_rounds h (congrArg (fpResult · s) (packed3_low ..))
    · exact issue_rounds h (congrArg (fpResult · s) (packed3_low ..))

/-- A mask on the low word as a bitwise operation on 32 bits (16 R327). -/
theorem toNat_and_low (x m : Nat) (hm : m < 2 ^ 32) : x % 2 ^ 32 &&& m = (BitVec.ofNat 32 x &&& BitVec.ofNat 32 m).toNat := by
  rw [BitVec.toNat_and, BitVec.toNat_ofNat, BitVec.toNat_ofNat, Nat.mod_eq_of_lt hm]

theorem toNat_xor_low (x m : Nat) (hm : m < 2 ^ 32) : x % 2 ^ 32 ^^^ m = (BitVec.ofNat 32 x ^^^ BitVec.ofNat 32 m).toNat := by
  rw [BitVec.toNat_xor, BitVec.toNat_ofNat, BitVec.toNat_ofNat, Nat.mod_eq_of_lt hm]

/-- The pairs of a dot product of m elements of n bits, from the low words of two registers (16 R333). -/
theorem dotPairs_low (t : FpFmt) (n m x y : Nat) (h : n * m ≤ 32) :
    (List.range m).map (fun j => (fpDecode t (bits (x % 2 ^ 32) (n * j) n), fpDecode t (bits (y % 2 ^ 32) (n * j) n))) =
      (List.range m).map (fun j => (fpDecode t (x / 2 ^ (n * j) % 2 ^ n), fpDecode t (y / 2 ^ (n * j) % 2 ^ n))) := by
  refine List.map_congr_left fun j hj => ?_
  have hfit : n * j + n ≤ 32 := (Nat.mul_le_mul_left n (Nat.succ_le_of_lt (List.mem_range.1 hj))).trans h
  rw [bits_mod_two_pow x hfit, bits_mod_two_pow y hfit, bits_eq_div_mod, bits_eq_div_mod]

/-- Settles O19, kind by kind. -/
theorem floatFunctionsWriteTheirValue : Obligations.FloatFunctionsWriteTheirValue := by
  constructor
  · intro s e rd ra rb fmt fe g a b i r el both
    refine ⟨fun hi h => ?_, fun hi h => ?_, fun hi h => ?_⟩
    · simp only [List.mem_cons, List.not_mem_nil, or_false, Prod.mk.injEq] at hi
      rcases hi with ⟨rfl, rfl⟩ | ⟨rfl, rfl⟩ | ⟨rfl, rfl⟩ | ⟨rfl, rfl⟩ | ⟨rfl, rfl⟩ | ⟨rfl, rfl⟩
      iterate 2 exact issue_writes h rfl
      iterate 4 exact issue_packedChoice _ h
    · subst hi
      refine issue_writes h (congrArg (fun v => Act.write s [v]) ?_)
      rcases eq_or_ne fmt 0#7 with rfl | hf
      · exact toNat_and_low a _ (by decide)
      · rw [if_neg hf, if_neg (c := fmt = 0) hf]
        exact toNat_and_low a _ (by decide)
    · subst hi
      refine issue_writes h (congrArg (fun v => Act.write s [v]) ?_)
      rcases eq_or_ne fmt 0#7 with rfl | hf
      · exact toNat_xor_low a _ (by decide)
      · rw [if_neg hf, if_neg (c := fmt = 0) hf]
        exact toNat_xor_low a _ (by decide)
  · intro s e rd ra rb mode src dst fe g a b d i r v x el acc
    refine ⟨fun hi h => ?_, fun hi h => ?_, fun hi h => ?_, fun hi h => ?_⟩ <;>
      simp only [List.mem_cons, List.not_mem_nil, or_false, Prod.mk.injEq] at hi
    · rcases hi with ⟨rfl, rfl⟩ | ⟨rfl, rfl⟩ | ⟨rfl, rfl⟩ <;> exact issue_rounds h rfl
    · rcases hi with ⟨rfl, rfl⟩ | ⟨rfl, rfl⟩ <;> exact issue_writes h rfl
    · rcases hi with ⟨rfl, rfl⟩ | ⟨rfl, rfl⟩ | ⟨rfl, rfl⟩ | ⟨rfl, rfl⟩ <;> exact issue_fpProduces h rfl
    · rcases hi with ⟨rfl, rfl⟩ | ⟨rfl, rfl⟩ | ⟨rfl, rfl⟩ | ⟨rfl, rfl⟩
      iterate 2 exact issue_rounds h (congrArg (fun ps => fpResult (fpDot f32 acc ps) s) (dotPairs_low _ 16 2 a b (by decide)))
      iterate 2 exact issue_rounds h (congrArg (fun ps => fpResult (fpDot f32 acc ps) s) (dotPairs_low _ 8 4 a b (by decide)))

end Sys2Proof.Machine
end

section
/-!
SUPPORT. A step (14 R270, R271, R274): what comes of an issuer's turn whose word has been fetched, and of the turns of events.
-/
namespace Sys2Proof.Machine

set_option Elab.async false

section
variable {s t : State} {bid : Nat} {who : Who} {rest : List Turn} {e e0 : Env} {i : Instr}

theorem State.tagsFirst_idle (h : s.treqs = []) (src : Nat) : s.tagsFirst src = s := by
  rw [State.tagsFirst, h]
  rfl

/-- Nothing is held while no commit is under way. -/
theorem holdHomes_idle (h : s.amapBusy = false) (held : State) (r : Host.Outcome State Fault Refusal) : holdHomes s held r = r := by
  cases r with
  | next t => exact if_neg (by simp [State.reaches, h])
  | _ => rfl

/-- An issuer that did not wait keeps what its turn comes to. -/
theorem State.afterWait_ready {c : Ctx} (h : c.wait = none) (r : Host.Outcome State Fault Refusal) : s.afterWait bid who c r = r := by
  simp only [State.afterWait, h]

theorem fetched_ok {w : Word} (h : decodeWord w = .ok i) : fetched w = i := by
  delta fetched
  rw [h]

theorem fetched_error {w : Word} {x : DecodeError} (h : decodeWord w = .error x) : fetched w = .unassignedOpcode w := by
  delta fetched
  rw [h]

theorem State.fetchInstr_word {w : Word} (h : s.fetch e.blk.space e.ctx.pc = (t, .ok w)) : s.fetchInstr e = (t, fetched w) := by
  simp only [State.fetchInstr, h]

theorem State.fetchInstr_fault {f : FetchFault} (h : s.fetch e.blk.space e.ctx.pc = (t, .error f)) :
    s.fetchInstr e = (t, .instructionFetchFault f) := by
  simp only [State.fetchInstr, h]

/-- A turn of an issuer that may issue and has its word on this device performs what it has fetched. -/
theorem step_issue (hturn : s.agenda = .issue bid who :: rest) (he0 : ({ s with agenda := rest } : State).envOf bid who = some e0)
    {s1 : State} (hs1 : s1 = ({ s with agenda := rest } : State).tagsFirst e0.stop) (he : s1.envOf bid who = some e)
    (htakes : s1.takesTurn e.blk e.ctx = true) (hcode : s1.codeWait e = none) (hfetch : s1.fetchInstr e = (t, i)) :
    step s = s1.afterWait bid who e.ctx (holdHomes s1 (s1.modCtx bid who (fun c => { c with wait := some .acks }))
      (exec i { t with issuer := some (bid, who) })) := by
  subst hs1
  simp only [step, State.turn, hturn, State.issueTurn, he0, State.issueNow, he, htakes, hcode, hfetch, Bool.not_true,
    Bool.false_eq_true, if_false]

/-- Without a commit under way and a wait before, nothing comes around the instruction. -/
theorem around_plain {s1 : State} {c : Ctx} (held : State) (h : c.wait = none ∧ s1.amapBusy = false)
    (r : Host.Outcome State Fault Refusal) : s1.afterWait bid who c (holdHomes s1 held r) = r := by
  rw [State.afterWait_ready h.1, holdHomes_idle h.2]

/-- An event's turn, but for the end of a commit, is held where it would ask a home for what a commit holds. -/
theorem step_event (hturn : s.agenda = .event i :: rest) (hrec : s.firmware.recovery = false) (hi : endsCommit i = false) :
    step s = holdHomes { s with agenda := rest } { s with agenda := rest } (exec i { s with agenda := rest, issuer := none }) := by
  simp only [step, State.turn, hturn, State.eventTurn, hrec, hi, Bool.false_and, Bool.false_eq_true, if_false]

theorem step_commitEnd {n : Nat} (hturn : s.agenda = .event (.amapCommitComplete n) :: rest) (hrec : s.firmware.recovery = false) :
    step s = exec (.amapCommitComplete n) { s with agenda := rest, issuer := none } := by
  simp only [step, State.turn, hturn, State.eventTurn, hrec, endsCommit, Bool.false_and, Bool.false_eq_true, if_false, if_true]

theorem endsCommit_eq_false (h : ∀ n, i ≠ .amapCommitComplete n) : endsCommit i = false := by
  unfold endsCommit
  split
  · next n => exact absurd rfl (h n)
  · rfl

end

/-- Settles O1, turn by turn. -/
theorem aStepRunsTheDecodedInstruction : Obligations.AStepRunsTheDecodedInstruction := by
  intro s t bid who rest e0 e i w x f n s0 s1 around plain
  refine ⟨fun h => State.tagsFirst_idle h _, fun hturn he0 he htakes hcode => ?_, fun hturn hrec hi => ?_, step_commitEnd, fun h => ?_,
    fun h => ?_⟩
  · have hstep {j : Instr} (hfetch : s1.fetchInstr e = (t, j)) :
        step s = around (exec j { t with issuer := some (bid, who) }) ∧
          (plain → step s = exec j { t with issuer := some (bid, who) }) := by
      have h := step_issue hturn he0 rfl he htakes hcode hfetch
      exact ⟨h, fun hp => h.trans (around_plain _ hp _)⟩
    exact ⟨fun hw hi => hstep (fetched_ok hi ▸ State.fetchInstr_word hw), fun hw hx => hstep (fetched_error hx ▸ State.fetchInstr_word hw),
      fun hf => hstep (State.fetchInstr_fault hf)⟩
  · have h := step_event hturn hrec (endsCommit_eq_false hi)
    exact ⟨h, fun hidle => h.trans (holdHomes_idle hidle _ _)⟩
  · simp only [step, State.turn, h, s0]
  · simp only [step, State.turn, h]

/-- Settles O2: each word by evaluating the decoder. -/
theorem wordsOfTheSpecDecode : Obligations.WordsOfTheSpecDecode :=
  ⟨rfl, rfl, rfl, rfl, rfl, rfl, rfl, rfl, ⟨_, rfl⟩, ⟨_, rfl⟩⟩

end Sys2Proof.Machine
end

section
/-!
SUPPORT. Control instructions (02 R21, R31; 14 R283 to R287; 15 R306 to R308; 16 R326; 17 R363; 18 R378, R379, R394, R405): where a
branch goes, and what traps.
-/
namespace Sys2Proof.Machine

set_option Elab.async false

section
variable {s t : State} {e : Env} {i : Instr} {vals : List Nat} {ok : Bool} {target : DWord} {rs : List Nat}

/-- A branch offset as words added to the PC as an integer (14 R283). -/
theorem branchTarget_eq (pc : DWord) (off : BitVec 22) : branchTarget pc off = BitVec.ofInt 64 (pc.toNat + 4 * off.toInt) := by
  have h := ofNat_add_signExtend_shiftLeft pc.toNat off 2
  rwa [BitVec.ofNat_toNat, BitVec.setWidth_eq, mul_comm] at h

/-- A jump to a legal target. -/
theorem issue_jump (h : Issues s e i vals) {body : Env → List Nat → State → Act} (hb : body e vals s = jump ok target rs s)
    (hok : ok = true) : issue i body s = .next (s.retired e i { state := s, vals := rs, pc := some target }) :=
  issue_retires h (hb.trans (if_pos hok)) rfl

/-- A jump to an illegal target traps. -/
theorem issue_badJump (h : Issues s e i vals) {body : Env → List Nat → State → Act} (hb : body e vals s = jump ok target rs s)
    (hok : ok = false) :
    issue i body s = .next (s.issueTrap i e (e.form i) { code := .illopd, detail := 0, addr := 0 }) :=
  issue_trap h (hb.trans (if_neg (Bool.eq_false_iff.1 hok)))

end

theorem goodPc_iff (a : DWord) : goodPc a = true ↔ a.toNat % 4 = 0 ∧ canonical a = true := by
  rw [goodPc, Bool.and_eq_true, decide_eq_true_eq]

/-- Settles O20: the branches by their targets. -/
theorem controlInstructionsGoWhereTheyPoint : Obligations.ControlInstructionsGoWhereTheyPoint := by
  constructor
  · intro s e off ra fe g a t r
    have ht : branchTarget e.ctx.pc off = t := branchTarget_eq ..
    exact ⟨fun h => issue_retires h rfl rfl, fun h => issue_retires h rfl rfl, fun h hc => issue_jump h (by rw [ht]) hc,
      fun h hc => issue_jump h (by rw [ht]) hc, fun h hw hc => issue_jump h rfl ((goodPc_iff r).2 ⟨hw, hc⟩),
      fun h hw hc => issue_jump h rfl ((goodPc_iff r).2 ⟨hw, hc⟩), fun h => issue_retires h rfl rfl⟩
  · intro s e off ra fe g a i t r illopd
    have ht : branchTarget e.ctx.pc off = t := branchTarget_eq ..
    refine ⟨fun hc hi h => ?_, fun hbad hi h => ?_⟩
    · rcases hi with rfl | rfl <;> exact issue_badJump h (by rw [ht]) hc
    · have hr : goodPc r = false := by
        rw [Bool.eq_false_iff, Ne, goodPc_iff]
        rcases hbad with hc | hw
        · simp [hc]
        · exact fun h => hw h.1
      rcases hi with rfl | rfl <;> exact issue_badJump h rfl hr

/-- A word that cannot be performed traps at the fetch. -/
theorem fetchTraps_alone {s : State} {e : Env} (h : Alone s e) (i : Instr) (trap : Env → Trap) :
    fetchTraps i trap s = .next (s.issueTrap i e (base .always false) (trap e)) := by
  have hu : s.unhold e = s := by simp [State.unhold, h.2]
  simp only [fetchTraps, h.1, hu, again_self h.1]

/-- Settles O23. -/
theorem trapInstructionsTakeTheirTrap : Obligations.TrapInstructionsTakeTheirTrap := by
  intro s e imm g w f
  exact ⟨fun h => issue_trap h rfl, fun h => fetchTraps_alone h (.unassignedOpcode w) fun e => badWordTrap w e.lead,
    fun h => fetchTraps_alone h (.instructionFetchFault f) fun _ => fetchTrap f⟩

section
variable {s t : State} {e : Env} {ra rb : Reg} {fe : Bool} {g : Guard} {a b : Nat}

/-- The window base in the control word of ERET is one that a fibre may have: even and within the allocation (16 R326). -/
theorem eret_window {c : Nat} (h : bitAt c 31 = true → e.who ≠ .lead ∧ bits c 16 12 % 2 = 0 ∧ bits c 16 12 < e.alloc) :
    (bitAt c 31 && (e.lead || bitAt c 16 || decide (bits c 16 12 ≥ e.alloc))) = false := by
  cases h31 : bitAt c 31
  · rfl
  · obtain ⟨hwho, heven, hlt⟩ := h h31
    have hlead : e.lead = false := by
      cases hcase : e.who with
      | lead => exact absurd hcase hwho
      | fibre k => rw [Env.lead, hcase]; rfl
    have hbit : bitAt c 16 = false := by
      rw [bits_eq_div_mod] at heven
      rw [bitAt, Nat.testBit_eq_decide_div_mod_eq, decide_eq_false_iff_not]
      omega
    simp [hlead, hbit, hlt]

/-- ERET with a legal PC, reserved bits of 0 and a legal window base goes there. -/
theorem exec_eret (h : Issues s e (.eret ra rb fe g) [a, b]) (hpc : goodPc (BitVec.ofNat 64 a) = true)
    (hzero : bits (b % 2 ^ 32) 28 3 = 0)
    (hwb : (bitAt (b % 2 ^ 32) 31 && (e.lead || bitAt (b % 2 ^ 32) 16 || decide (bits (b % 2 ^ 32) 16 12 ≥ e.alloc))) = false) :
    exec (.eret ra rb fe g) s = .next (s.retired e (.eret ra rb fe g)
      { state := s, pc := some (BitVec.ofNat 64 a), preds := some (BitVec.ofNat 16 (b % 2 ^ 32)),
        wb := if bitAt (b % 2 ^ 32) 31 then some (BitVec.ofNat 12 (bits (b % 2 ^ 32) 16 12)) else none }) :=
  issue_retires h (by
    simp only [List.getD_cons_zero, List.getD_cons_succ, low, hpc, hzero, hwb]
    rfl) rfl

/-- REP whose following word passes arms the repeat. -/
theorem exec_rep {cnt : BitVec 6} {sd sa sb : BitVec 3} {w : Word} {r : Rep}
    (hr : r = { active := true, count := cnt.toNat, index := 0, sd := sd, sa := sa, sb := sb })
    (h : Issues s e (.rep cnt sd sa sb) []) (hfetch : s.fetch e.blk.space (e.ctx.pc + 4) = (t, .ok w))
    (hword : repTrap w r e = none) (ht : Issues t e (.rep cnt sd sa sb) []) :
    exec (.rep cnt sd sa sb) s = .next (t.retired e (.rep cnt sd sa sb) { state := t, pc := some (e.ctx.pc + 4), rep := some r }) := by
  obtain ⟨⟨⟨henv, -⟩, hstatic, -⟩, -⟩ := h
  subst hr
  show execRep cnt sd sa sb s = _
  simp only [execRep, issueChecked, henv, hstatic, hfetch, hword]
  exact issue_retires ht rfl rfl

end

/-- Settles O21: ERET by the checks of its two operands, REP by the check of the word that follows. -/
theorem eretAndRepTakeEffect : Obligations.EretAndRepTakeEffect := by
  constructor
  · intro s e ra rb fe g a b t c w hword hcanon hzero hwb h
    have hw : bits (b % 2 ^ 32) 16 12 = w := bits_eq_div_mod ..
    have hpreds : BitVec.ofNat 16 (b % 2 ^ 32) = BitVec.ofNat 16 b :=
      BitVec.eq_of_toNat_eq (Nat.mod_mod_of_dvd b (by decide))
    have hfits : (bitAt (b % 2 ^ 32) 31 && (e.lead || bitAt (b % 2 ^ 32) 16 || decide (bits (b % 2 ^ 32) 16 12 ≥ e.alloc))) = false :=
      eret_window (by rw [hw]; exact hwb)
    rw [exec_eret h ((goodPc_iff t).2 ⟨hword, hcanon⟩) ((bits_eq_div_mod ..).trans hzero) hfits, hw, hpreds]
    rfl
  · intro s t e cnt sd sa sb w r
    exact exec_rep rfl

end Sys2Proof.Machine
end

section
/-!
SUPPORT. The debug instructions (12 R240, R246 to R251; 16 R336, R337; 18 R400): what each comes to with no step under way where it acts.
-/
namespace Sys2Proof.Machine

set_option Elab.async false

section
variable {s s1 s2 s3 t : State} {e : Env} {rd ra rb : Reg} {fe : Bool} {g : Guard} {a n v st : Nat} {blk : Block} {who : Who}
  {c c1 : Ctx} {ws : List Word} {ps : List Piece} {bs : List Byte} {w : Watch} {known : List (Nat × Byte)}

/-! HREAD and HWRITE (12 R246 to R248). -/

/-- The item that a handle and an index name in a halted fibre. -/
def State.itemAt (s : State) (h index : Nat) : Option Nat :=
  match s.target h with
  | .halted b _ c => c.item b.params.allocation index
  | _ => none

theorem State.itemAt_halted (h : s.target a = .halted blk who c) (k : Nat) : s.itemAt a k = c.item blk.params.allocation k := by
  simp only [State.itemAt, h]

theorem State.itemAt_eq_none {k : Nat} (h : s.target a = .fails ∨ s.target a = .running ∨
    (s.target a = .halted blk who c ∧ c.item blk.params.allocation k = none)) : s.itemAt a k = none := by
  rcases h with h | h | ⟨h, hitem⟩ <;> simp only [State.itemAt, h]
  exact hitem

/-- HREAD, by the item that it reaches. -/
def readItem (e : Env) (v : List Nat) (s : State) : Act :=
  if s.stepUnderWay (v.getD 0 0) then .wait s .answer
  else match s.itemAt (v.getD 0 0) (low v 1) with
    | some x => .done { state := s, vals := [x], long := true, preds := some (setPred e.ctx.preds 1 true) }
    | none => .done { state := s, preds := some (setPred e.ctx.preds 1 false) }

theorem exec_hread (s : State) : exec (.hread rd ra rb fe g) s = issue (.hread rd ra rb fe g) readItem s := rfl

/-- HREAD produces the item that it reaches. -/
theorem exec_hread_reaches (h : Issues s e (.hread rd ra rb fe g) [a, n]) (hstep : s.stepUnderWay a = false) {x : Nat}
    (hitem : s.itemAt a (n % 2 ^ 32) = some x) : exec (.hread rd ra rb fe g) s = .next (s.retired e (.hread rd ra rb fe g)
      { state := s, vals := [x], long := true, preds := some (setPred e.ctx.preds 1 true) }) :=
  (exec_hread s).trans (issue_retires h (by
    simp only [readItem, List.getD_cons_zero, List.getD_cons_succ, low, hstep, hitem, Bool.false_eq_true, if_false]) rfl)

/-- HREAD that reaches no item only clears p1. -/
theorem exec_hread_misses (h : Issues s e (.hread rd ra rb fe g) [a, n]) (hstep : s.stepUnderWay a = false)
    (hitem : s.itemAt a (n % 2 ^ 32) = none) : exec (.hread rd ra rb fe g) s = .next (s.retired e (.hread rd ra rb fe g)
      { state := s, preds := some (setPred e.ctx.preds 1 false) }) :=
  (exec_hread s).trans (issue_retires h (by
    simp only [readItem, List.getD_cons_zero, List.getD_cons_succ, low, hstep, hitem, Bool.false_eq_true, if_false]) rfl)

/-- HWRITE into an item of a halted fibre of an unpaired block. -/
theorem exec_hwrite_reaches (h : Issues s e (.hwrite rd ra rb fe g) [a, n, v]) (hstep : s.stepUnderWay a = false)
    (ht : s.target a = .halted blk who c) (hrole : blk.role = .single)
    (hitem : c.writeItem blk.params.allocation (n % 2 ^ 32) (v % 2 ^ 32) = some c1) :
    exec (.hwrite rd ra rb fe g) s = .next (s.retired e (.hwrite rd ra rb fe g)
      { state := s.outside e (s.modCtx blk.bid who (fun _ => c1)), preds := some (setPred e.ctx.preds 1 true) }) :=
  issue_retires h (by
    simp only [List.getD_cons_zero, List.getD_cons_succ, low, hstep, ht, hrole, hitem]
    rfl) rfl

/-- HWRITE that reaches nothing only clears p1. -/
theorem exec_hwrite_misses (h : Issues s e (.hwrite rd ra rb fe g) [a, n, v]) (hstep : s.stepUnderWay a = false)
    (ht : s.target a = .fails ∨ s.target a = .running ∨ (s.target a = .halted blk who c ∧
      (blk.role ≠ .single ∨ c.writeItem blk.params.allocation (n % 2 ^ 32) (v % 2 ^ 32) = none))) :
    exec (.hwrite rd ra rb fe g) s = .next (s.retired e (.hwrite rd ra rb fe g)
      { state := s, preds := some (setPred e.ctx.preds 1 false) }) := by
  refine issue_retires h ?_ rfl
  rcases ht with ht | ht | ⟨ht, hpair | hitem⟩
  · simp only [List.getD_cons_zero, hstep, ht]
    rfl
  · simp only [List.getD_cons_zero, hstep, ht]
    rfl
  · simp only [List.getD_cons_zero, hstep, ht, hpair, ne_eq, not_false_eq_true, if_true]
    rfl
  · simp only [List.getD_cons_zero, List.getD_cons_succ, low, hstep, ht, hitem, Option.map_none, ite_self]
    rfl

/-! HSTEP (12 R249, R250; 11 R232). -/

/-- HSTEP that answers its status. -/
theorem issue_stepStatus {i : Instr} {vals : List Nat} {body : Env → List Nat → State → Act} (h : Issues s e i vals)
    (hb : body e vals s = s.stepStatus e st) : issue i body s =
      .next (s.retired e i { state := s.forward e.blk e.who [BitVec.ofNat 32 st], vals := [st] }) :=
  issue_retires h hb rfl

section
variable (h : Issues s e (.hstep rd ra fe g) [a])
include h

theorem exec_hstep_forwarded (hrole : e.blk.role = .trailing) (ht : s.takeForwarded e.blk e.who = some (t, ws)) :
    exec (.hstep rd ra fe g) s = .next (s.retired e (.hstep rd ra fe g) { state := t, vals := [(ws.getD 0 0).toNat] }) :=
  issue_retires h (by
    simp only [hrole, if_true, ht]
    rfl) rfl

variable (hrole : e.blk.role ≠ .trailing)
include hrole

theorem exec_hstep_answered (hans : e.ctx.phase.answer = .got ws) : exec (.hstep rd ra fe g) s =
    .next (s.retired e (.hstep rd ra fe g)
      { state := s.forward e.blk e.who [BitVec.ofNat 32 (ws.getD 0 0).toNat], vals := [(ws.getD 0 0).toNat] }) :=
  issue_stepStatus h (by simp only [hrole, if_false, hans])

variable (hans : e.ctx.phase.answer = .none) (hstep : s.stepUnderWay a = false)
include hans hstep

theorem exec_hstep_fails (ht : s.target a = .fails) : exec (.hstep rd ra fe g) s =
    .next (s.retired e (.hstep rd ra fe g) { state := s.forward e.blk e.who [3#32], vals := [3] }) :=
  issue_stepStatus h (by simp only [hrole, if_false, hans, List.getD_cons_zero, hstep, ht, Bool.false_eq_true])

theorem exec_hstep_running (ht : s.target a = .running) (hsingle : ∀ b ∈ s.named a, b.role = .single) :
    exec (.hstep rd ra fe g) s =
      .next (s.retired e (.hstep rd ra fe g) { state := s.forward e.blk e.who [2#32], vals := [2] }) := by
  have hany : (s.named a).any (fun b => decide (b.role ≠ .single)) = false :=
    List.any_eq_false.2 fun b hb => by simp [hsingle b hb]
  exact issue_stepStatus h (by simp only [hrole, if_false, hans, List.getD_cons_zero, hstep, ht, hany, Bool.false_eq_true])

theorem exec_hstep_pair (ht : s.target a = .halted blk who c) (hpair : blk.role ≠ .single) : exec (.hstep rd ra fe g) s =
    .next (s.retired e (.hstep rd ra fe g) { state := s.forward e.blk e.who [3#32], vals := [3] }) :=
  issue_stepStatus h (by
    simp only [hrole, if_false, hans, List.getD_cons_zero, hstep, ht, Bool.false_eq_true, hpair, ne_eq, not_false_eq_true, if_true])

/-- HSTEP of a halted fibre lets it take the next turn and waits. -/
theorem exec_hstep_steps (ht : s.target a = .halted blk who c) (hsingle : blk.role = .single) : exec (.hstep rd ra fe g) s =
    .next ((({ s.modCtx blk.bid who (fun c => { c with halt := { c.halt with stepper := some (e.bid, e.who), exempt := true } }) with
        agenda := Turn.issue blk.bid who :: s.agenda } : State).setPhase e (fun p => { p with answer := .awaiting })).stay
      (.hstep rd ra fe g) e (e.form (.hstep rd ra fe g)) .answer) :=
  issue_wait h (by
    simp only [hrole, if_false, hans, List.getD_cons_zero, hstep, ht, Bool.false_eq_true, hsingle, ne_eq, not_true_eq_false]
    rfl) (by simp [Wait.stalls])

end

/-! HRUN (12 R251, 16 R336). -/

section
variable (hstep : ∀ b ∈ s.blocks, b.params.lid = a / 2 ^ 48 % 2 ^ 16 → b.stepping = false)
include hstep

theorem launch_steps_none : s.blocks.any (fun b => decide (b.params.lid = bits a 48 16) && b.stepping) = false := by
  refine List.any_eq_false.2 fun b hb => ?_
  rw [bits_eq_div_mod, Bool.and_eq_true, decide_eq_true_eq]
  exact fun hboth => Bool.false_ne_true ((hstep b hb hboth.1).symm.trans hboth.2)

variable (h : Issues s e (.hrun ra rb fe g) [a, n])
include h

theorem exec_hrun_resident (hk : n % 2 ^ 32 ≤ 1) : exec (.hrun ra rb fe g) s = .next (s.retired e (.hrun ra rb fe g)
    { state := s.outside e { s with blocks := s.blocks.map (fun b =>
        if (((s.named a).filter (fun b => b.core.isSome)).map (·.bid)).contains b.bid
        then b.released (fun w => decide (n % 2 ^ 32 = 1) || decide (w = .fibre (a / 2 ^ 14 % 2 ^ 10))) else b) } }) := by
  have hlow : ¬ 3 ≤ n % 2 ^ 32 := by omega
  have hlaunch : n % 2 ^ 32 ≠ 2 := by omega
  refine issue_retires h ?_ rfl
  simp only [List.getD_cons_zero, List.getD_cons_succ, low, launch_steps_none hstep, ge_iff_le, hlow, hlaunch, if_false,
    Bool.false_eq_true, bits_eq_div_mod a 14 10]
  rfl

theorem exec_hrun_launch (hk : n % 2 ^ 32 = 2) : exec (.hrun ra rb fe g) s = .next (s.retired e (.hrun ra rb fe g)
    { state := s.outside e (({ s with blocks := s.blocks.map (fun b =>
        if b.params.lid = a / 2 ^ 48 % 2 ^ 16 then b.released (fun _ => true) else b) } : State).modLaunch (a / 2 ^ 48 % 2 ^ 16)
          (fun l => { l with held := false })) }) := by
  refine issue_retires h ?_ rfl
  have hnone := launch_steps_none hstep
  simp only [List.getD_cons_zero, List.getD_cons_succ, low, hk, bits_eq_div_mod a 48 16] at hnone ⊢
  simp only [hnone]
  rfl

end

/-! WSET and WCLR (12 R240). -/

/-- WSET of a slot with a legal record that has been read sets it and restarts its counts. -/
theorem exec_wset_sets (h : Issues s e (.wset ra rb fe g) [a, n]) (hslot : a % 2 ^ 32 ≤ 63) (halign : n % 32 = 0)
    (hps : s.pieces e.blk.space n 32 needR = (s1, .ok ps)) (hgo : s1.beforeRead e n 32 = .go s2)
    (hread : s2.HasRead e 32 ps known s3 bs) (hw : watchOf bs = some w) :
    exec (.wset ra rb fe g) s = .next (s.retired e (.wset ra rb fe g)
      { state := s3.outside e { s3 with proctors := { slots := aput s3.proctors.slots (a % 2 ^ 32) w,
                                                      hits := s3.proctors.hits.filter (fun h => h.1 % 64 != a % 2 ^ 32) } } }) :=
  issue_retires h (by
    simp only [List.getD_cons_zero, List.getD_cons_succ, low, gt_iff_lt, not_lt.2 hslot, halign, ne_eq, not_true_eq_false, or_self,
      if_false, hps, hgo, Gate.act, awayRead_goes hread, hw]
    rfl) rfl

theorem exec_wclr_clears (h : Issues s e (.wclr ra fe g) [a]) (hslot : a % 2 ^ 32 ≤ 63) : exec (.wclr ra fe g) s =
    .next (s.retired e (.wclr ra fe g)
      { state := s.outside e { s with proctors := { s.proctors with slots := adel s.proctors.slots (a % 2 ^ 32) } } }) :=
  issue_retires h (if_neg (not_lt.2 hslot)) rfl

end

/-- Settles O37, instruction by instruction. -/
theorem debugInstructionsComplete : Obligations.DebugInstructionsComplete := by
  intro s s1 s2 s3 t e rd ra rb fe g a n v blk who c c1 ws ps bs w known k slot lid p1 step
  refine ⟨fun h hstep => ⟨fun ht x hitem => ?_, fun ht => ?_⟩, fun h hstep => ⟨?_, ?_⟩, fun h => ⟨?_, ?_, ?_, ?_, ?_⟩,
    fun h hstep => ⟨exec_hrun_resident hstep h, exec_hrun_launch hstep h⟩, exec_wset_sets, exec_wclr_clears⟩
  · exact exec_hread_reaches h hstep ((State.itemAt_halted ht k).trans hitem)
  · exact exec_hread_misses h hstep (State.itemAt_eq_none ht)
  · exact exec_hwrite_reaches h hstep
  · exact exec_hwrite_misses h hstep
  · exact exec_hstep_answered h
  · exact exec_hstep_fails h
  · exact exec_hstep_running h
  · exact fun hrole hans hnone ht => ⟨exec_hstep_pair h hrole hans hnone ht, exec_hstep_steps h hrole hans hnone ht⟩
  · exact exec_hstep_forwarded h

end Sys2Proof.Machine
end

section
/-!
SUPPORT. Causal trials (12 R253, R254): the start of a trial, the end of a window, the last cycle of a pending delay.
-/
namespace Sys2Proof.Machine

set_option Elab.async false

section
variable {s : State} {v core : Nat}

/-- The fields of TR_CTL are stored by every write of it (12 R253). -/
theorem State.trialCtl_fields (s : State) (v : Nat) : (s.trialCtl v).trial.delay = bits v 48 8 ∧
    (s.trialCtl v).trial.lid = bits v 32 16 ∧ (s.trialCtl v).trial.nwin = bits v 16 16 ∧
    (s.trialCtl v).trial.run = (bitAt v 63 && decide (bits v 48 8 ≠ 0)) := by
  unfold State.trialCtl
  dsimp only
  split
  · next h => exact ⟨rfl, rfl, rfl, by simp_all⟩
  · next h =>
    split
    · next hd => exact ⟨rfl, rfl, rfl, by simp_all [Trial.fields]⟩
    · next hd => exact ⟨rfl, rfl, rfl, by simp_all [Trial.fields]⟩

/-- A trial that runs after a write of TR_CTL has just started. -/
theorem State.trialCtl_starts (h : (s.trialCtl v).trial.run = true) : (s.trialCtl v).trial.status = 1 ∧
    (s.trialCtl v).trial.pairs = 0 ∧ (s.trialCtl v).trial.inserted = 0 ∧ (s.trialCtl v).trial.pb = [] ∧
    (s.trialCtl v).trial.pd = [] ∧ (s.trialCtl v).trial.delayed = false ∧
    (s.trialCtl v).trial.windowEnd = s.time + s.trial.win * cycleTime := by
  unfold State.trialCtl at h ⊢
  dsimp only at h ⊢
  split at h
  · cases h
  · split at h
    · cases h
    · next h1 h2 =>
      rw [if_neg h1, if_neg h2]
      exact ⟨rfl, rfl, rfl, rfl, rfl, rfl, rfl⟩

/-- The trial as the next window begins, with these inserted cycles. -/
def Trial.nextWindow (t : Trial) (waited : List (Nat × Nat)) : Trial :=
  { t with pending := [], waited := waited, windowEnd := t.windowEnd + t.win * cycleTime }

/-- The trial as the window begins that follows a delayed one. -/
def Trial.nextPair (t : Trial) (waited : List (Nat × Nat)) : Trial :=
  { t.nextWindow waited with inserted := (t.inserted + t.mean) % 2 ^ 64, pairs := t.pairs + 1, delayed := false }

/-- A window whose end has come (12 R254). -/
theorem exec_trialWindowEnd (hrun : s.trial.run = true) (hend : s.trial.windowEnd ≤ s.time) : exec .trialWindowEnd s = .next (
    if !s.trial.delayed then { s with trial := { s.trial.nextWindow s.zeroWaited with delayed := true } }
    else if s.trial.pairs + 1 < max 1 s.trial.nwin then { s with trial := s.trial.nextPair s.zeroWaited }
    else { s with trial := { s.trial.nextPair s.zeroWaited with run := false, status := 2, waited := [] } }) := by
  have hgo : (!s.trial.run || decide (s.time < s.trial.windowEnd)) = false := by simp [hrun, hend]
  show event _ = _
  simp only [event, hgo, Bool.false_eq_true, if_false]
  rfl

/-- The last cycle of a pending delay (12 R254). -/
theorem exec_trialDelayExpire (hrun : s.trial.run = true) (hlast : sget 0 s.trial.pending core = 1) :
    exec (.trialDelayExpire core) s = .next { s with trial := { s.trial with
      pending := sput 0 s.trial.pending core 0, waited := aput s.trial.waited core ((aget s.trial.waited core).getD 0 + 1) } } := by
  show event _ = _
  simp [event, hrun, hlast]

end

/-- Settles O53, event by event. -/
theorem trialsRunInWindows : Obligations.TrialsRunInWindows := by
  intro s v core t next done
  refine ⟨?_, fun hrun hend => ?_, exec_trialDelayExpire⟩
  · obtain ⟨hdelay, hlid, hnwin, hrun⟩ := s.trialCtl_fields v.toNat
    exact ⟨s.trialCtl v.toNat, rfl, hdelay, hlid, hnwin, hrun, State.trialCtl_starts⟩
  · have h := exec_trialWindowEnd hrun hend
    exact ⟨fun hd => h.trans (congrArg _ (if_pos (congrArg not hd))),
      fun hd hmore => h.trans (congrArg _ ((if_neg (by rw [hd]; decide)).trans (if_pos hmore))),
      fun hd hlast => h.trans (congrArg _ ((if_neg (by rw [hd]; decide)).trans (if_neg (not_lt.2 hlast))))⟩

end Sys2Proof.Machine
end

section
/-!
SUPPORT. The governors (13 R267; log entry 35): one step with and without an alarm, and the start of an emergency on several dies.
-/
namespace Sys2Proof.Machine

set_option Elab.async false

/-! What a governor remembers. -/

theorem Governor.remember_eq (g old : Governor) (now : Nat) : g.remember old now =
    { g with history := if g.throttle = old.throttle then g.history else (now, old.throttle) :: old.history } := by
  unfold Governor.remember
  split <;> rfl

@[simp] theorem State.governor_setGovernor_self (s : State) (k : Nat) (g : Governor) :
    (s.setGovernor k g).governor k = g.remember (s.governor k) s.time := by
  simp [State.governor]

theorem State.governor_setGovernor_ne (s : State) {j k : Nat} (g : Governor) (h : j ≠ k) :
    (s.setGovernor k g).governor j = s.governor j := by
  simp [State.governor, aget_aput_ne _ _ h]

/-! A step (13 R267). -/

section
variable {g : Governor} {policy : Bool} {cap now : Nat} {r : Reading}

/-- A reading that starts an emergency: an alert, 110 °C, or 1 ms above 15,000 W. -/
def Governor.alarmed (g : Governor) (r : Reading) (now : Nat) : Prop :=
  r.alert = true ∨ r.junction ≥ 110 ∨ (r.packagePower > 15000 ∧ g.overSince.getD now + nsTime 1000000 ≤ now)

theorem Governor.alarms_eq_nil : g.alarms r now = [] ↔ ¬ g.alarmed r now := by
  by_cases hp : r.packagePower > 15000 <;>
    simp [Governor.alarms, Governor.alarmed, Governor.over, hp, not_or]

theorem stepsUp_iff : stepsUp policy cap r = true ↔
    r.junction ≥ 100 ∨ r.packagePower > cap * 10 ∨ (policy = false ∧ r.dram > 82) := by
  simp [stepsUp, or_assoc]

section
variable (he : g.emergency = false)
include he

theorem Governor.moved_up (h : stepsUp policy cap r = true) : g.moved policy cap r = min 7 (g.throttle + 1) := by
  simp [Governor.moved, he, h]

variable (h : ¬ stepsUp policy cap r = true)
include h

theorem Governor.moved_down (hcool : r.junction < 95) : g.moved policy cap r = g.throttle - 1 := by
  simp [Governor.moved, he, h, hcool]

theorem Governor.moved_stays (hwarm : r.junction ≥ 95) : g.moved policy cap r = g.throttle := by
  simp [Governor.moved, he, h, not_lt.2 hwarm]

end

/-- A governor after its step, before what the reading alarms it of. -/
def Governor.settled (g : Governor) (policy : Bool) (cap : Nat) (r : Reading) (now : Nat) : Governor :=
  { g with throttle := g.moved policy cap r, refresh := max (refreshMult (g.moved policy cap r)) (dramDemand r.dram), lastStep := now,
           overSince := g.over r now, emergencyAt := if g.causes.any (fun c => causeSeen c r) then now else g.emergencyAt }

theorem Governor.step_calm (h : ¬ g.alarmed r now) : g.step policy cap r now = g.settled policy cap r now := by
  unfold Governor.step
  rw [Governor.alarms_eq_nil.2 h]
  rfl

/-- Alarms put a governor into the emergency state, in T7. -/
theorem Governor.foldl_alarm (cs : List EmergencyCause) (hcs : cs ≠ []) (x : Governor) :
    ∃ causes, cs.foldl (fun x c => x.alarm c now) x =
      { x with throttle := 7, emergency := true, causes := causes, emergencyAt := now, refresh := max 4 x.refresh } := by
  induction cs generalizing x with
  | nil => exact absurd rfl hcs
  | cons c cs ih =>
    by_cases h : cs = []
    · subst h
      exact ⟨_, rfl⟩
    · obtain ⟨causes, hfold⟩ := ih h (x.alarm c now)
      refine ⟨causes, hfold.trans ?_⟩
      simp [Governor.alarm]

theorem Governor.step_alarmed (h : g.alarmed r now) : ∃ causes, g.step policy cap r now =
    { g.settled policy cap r now with throttle := 7, emergency := true, causes := causes, emergencyAt := now,
                                      refresh := max 4 (g.settled policy cap r now).refresh } :=
  Governor.foldl_alarm _ (mt Governor.alarms_eq_nil.1 (not_not.2 h)) _

/-- An alarm raises the refresh multiplier to that of T7. -/
theorem Governor.refresh_alarmed :
    max 4 (g.settled policy cap r now).refresh = max (refreshMult 7) (dramDemand r.dram) := by
  have ht := refreshMult_mem (g.moved policy cap r)
  show max 4 (max (refreshMult (g.moved policy cap r)) (dramDemand r.dram)) = max 4 (dramDemand r.dram)
  omega

/-- A governor after its step at a time that its step is due. -/
theorem exec_governorStep {s : State} {k : Nat} (hk : k < 32) (hdue : (s.governor k).lastStep + nsTime 10000 ≤ s.time) :
    exec (.governorStep k r) s = .next (s.setGovernor k ((s.governor k).step s.gvPolicy s.gvCap r s.time)) := by
  show event _ = _
  rw [if_neg (by simp [hk, hdue])]
  rfl

/-! Emergencies (13 R267). -/

/-- Dies put into the emergency state, one after the other. -/
def State.alarmDies (s : State) (dies : List Nat) (c : EmergencyCause) (now : Nat) : State :=
  dies.foldl (fun t k => t.setGovernor k ((t.governor k).alarm c now)) s

theorem State.alarmDies_governor_ne {k : Nat} (c : EmergencyCause) (dies : List Nat) (hk : k ∉ dies) (s : State) :
    (s.alarmDies dies c now).governor k = s.governor k := by
  induction dies generalizing s with
  | nil => rfl
  | cons j dies ih =>
    obtain ⟨hj, hrest⟩ := not_or.1 (mt List.mem_cons.2 hk)
    exact (ih hrest _).trans (State.governor_setGovernor_ne s _ hj)

/-- Whether a governor is in an emergency that a cause has begun at a time. -/
def Governor.inAlarm (g : Governor) (c : EmergencyCause) (now : Nat) : Prop :=
  g.throttle = 7 ∧ g.emergency = true ∧ g.emergencyAt = now ∧ c ∈ g.causes

theorem State.inAlarm_setGovernor (s : State) (j : Nat) (c : EmergencyCause) :
    ((s.setGovernor j ((s.governor j).alarm c now)).governor j).inAlarm c now := by
  rw [State.governor_setGovernor_self, Governor.remember_eq]
  exact ⟨rfl, rfl, rfl, List.mem_cons_self⟩

theorem State.alarmDies_inAlarm {k : Nat} (c : EmergencyCause) (dies : List Nat) (s : State)
    (h : k ∈ dies ∨ (s.governor k).inAlarm c now) : ((s.alarmDies dies c now).governor k).inAlarm c now := by
  induction dies generalizing s with
  | nil => exact h.resolve_left List.not_mem_nil
  | cons j dies ih =>
    refine ih _ (Classical.or_iff_not_imp_left.2 fun hrest => ?_)
    by_cases hj : k = j
    · subst hj
      exact s.inAlarm_setGovernor k c
    · rw [State.governor_setGovernor_ne s _ hj]
      exact h.resolve_left (fun hmem => (List.mem_cons.1 hmem).elim hj hrest)

end

/-- Settles O54: a step by whether it is alarmed, an emergency die by die. -/
theorem governorsMoveOneStep : Obligations.GovernorsMoveOneStep := by
  intro s k r dies cause g up alarm
  refine ⟨fun hk hdue => ?_, ?_, fun hemergency hend => ?_⟩
  · have hold : (s.setGovernor k (g.step s.gvPolicy s.gvCap r s.time)).governor k =
        { g.step s.gvPolicy s.gvCap r s.time with
          history := if (g.step s.gvPolicy s.gvCap r s.time).throttle = g.throttle
            then (g.step s.gvPolicy s.gvCap r s.time).history else (s.time, g.throttle) :: g.history } := by
      rw [State.governor_setGovernor_self, Governor.remember_eq]
    have hup : stepsUp s.gvPolicy s.gvCap r = true ↔ up := stepsUp_iff
    refine ⟨_, _, exec_governorStep hk hdue, hold, ?_⟩
    rcases em (g.alarmed r s.time) with ha | ha
    · obtain ⟨causes, hstep⟩ := Governor.step_alarmed (policy := s.gvPolicy) (cap := s.gvCap) ha
      rw [hstep]
      refine ⟨rfl, absurd ha, fun _ => ⟨rfl, rfl⟩, fun _ => rfl, nofun, nofun, nofun, ?_, rfl, rfl, fun _ => rfl, absurd ha,
        fun j hj => State.governor_setGovernor_ne s _ hj⟩
      exact (Governor.refresh_alarmed ..)
    · rw [Governor.step_calm ha]
      refine ⟨rfl, fun _ => rfl, fun h => absurd h ha, fun h => if_pos h, fun hcalm h => ?_, fun hcalm h hcool => ?_,
        fun hcalm h hwarm => ?_, rfl, rfl, rfl, fun h => ?_, fun _ h => ?_, fun j hj => State.governor_setGovernor_ne s _ hj⟩
      · exact Governor.moved_up hcalm (hup.2 h)
      · exact Governor.moved_down hcalm (mt hup.1 h) hcool
      · exact Governor.moved_stays hcalm (mt hup.1 h) hwarm
      · exact if_pos (List.any_eq_true.2 h)
      · exact if_neg (Bool.eq_false_iff.1 (List.any_eq_false.2 fun c hc => Bool.eq_false_iff.1 (h c hc)))
  · refine ⟨s.alarmDies (dies.filter (fun k => decide (k < 32))) cause s.time, rfl, fun hk hmem => ?_, fun hmem => ?_⟩
    · exact State.alarmDies_inAlarm cause _ s (.inl (List.mem_filter.2 ⟨hmem, decide_eq_true hk⟩))
    · exact State.alarmDies_governor_ne cause _ (fun h => hmem (List.mem_filter.1 h).1) s
  · show event _ = _
    rw [if_pos (by simp [hemergency, hend, g])]
    rfl

end Sys2Proof.Machine
end

section
/-!
SUPPORT. The host ports (13 R258 to R260): a fence of instruction fetch, the queue windows, the aperture.
-/
namespace Sys2Proof.Machine

set_option Elab.async false

/-! HIFENCE (13 R258). -/

section
variable {s : State} {port : Nat} {v : DWord} {p : Port}

theorem Port.accepts_iff {n : Nat} :
    p.accepts n = true ↔ p.busy = false ∧ 2 ≤ n % 16 ∧ n % 16 ≤ 10 ∧ bits n 4 59 = 0 := by
  simp [Port.accepts, and_assoc]

theorem exec_hifence_refused (hp : port < 2) (h : ¬(s.port port).accepts v.toNat = true) :
    exec (.hifence port v) s = .next (s.setPort port { s.port port with err := true }) := by
  show event (s.writeHifence port v.toNat) = _
  simp [event, State.writeHifence, hp, h]

theorem exec_hifence_accepted (hp : port < 2) (h : (s.port port).accepts v.toNat = true) :
    exec (.hifence port v) s = .next
      (let begun := s.setPort port { s.port port with
         busy := true, err := false, tmo := false, scope := v.toNat % 16, fenceAt := s.time, fenceFrom := s.fresh, fenceDead := false }
       if v.toNat % 16 < 8 then begun
       else begun.members.foldl (fun t d => t.remoteSend (d * 2 ^ 42) .codeFence (.fence port) none 0) begun) := by
  show event (s.writeHifence port v.toNat) = _
  simp [event, State.writeHifence, hp, h]

theorem State.fenceAbroad_iff : s.fenceAbroad port = true ↔ (s.port port).fenceDead = true ∨
    ∃ o ∈ s.peers.outstanding, o.use = .fence port ∧ (s.port port).fenceFrom ≤ o.rid := by
  simp [State.fenceAbroad]

theorem exec_hifenceComplete_ends (hb : (s.port port).busy = true) (h : ¬s.fenceAbroad port = true) :
    exec (.hifenceComplete port) s = .next (s.dropAllCode.setPort port { s.port port with busy := false }) :=
  congrArg _ (if_neg (by simp [hb, h]))

theorem exec_hifenceComplete_waits (h : s.fenceAbroad port = true) : exec (.hifenceComplete port) s = .next s :=
  congrArg _ (if_pos (by simp [h]))

theorem exec_hifenceTimeout_early (h : s.time < (s.port port).fenceAt + nsTime 1000000) :
    exec (.hifenceTimeout port) s = .next s :=
  congrArg _ (if_pos (by simp [h]))

theorem exec_hifenceTimeout_ends (hb : (s.port port).busy = true) (h : s.fenceAbroad port = true)
    (ht : (s.port port).fenceAt + nsTime 1000000 ≤ s.time) :
    exec (.hifenceTimeout port) s = .next (s.dropAllCode.setPort port { s.port port with busy := false, tmo := true }) :=
  congrArg _ (if_neg (by simp [hb, h, ht]))

end

/-! What withdrawing a window's requests leaves of the ports (07 R145). -/

@[simp] theorem State.dramWrite_ports (s : State) (c : Nat) (bs : List Byte) : (s.dramWrite c bs).ports = s.ports := by
  induction bs generalizing s c with
  | nil => rfl
  | cons b bs ih => exact ih (s.dramPut c b) (c + 1)

@[simp] theorem State.putBytes_ports (s : State) (unc : Bool) (c : Nat) (bs : List Byte) :
    (s.putBytes unc c bs).ports = s.ports := by
  unfold State.putBytes State.homeWrite
  split
  · simp
  · split <;> simp

@[simp] theorem State.noteWaiters_ports (s : State) (pa : Nat) : (s.noteWaiters pa).ports = s.ports := by
  unfold State.noteWaiters State.ctlWrite
  split
  · rfl
  · dsimp only
    split
    · rfl
    · exact State.putBytes_ports _ _ _ _

@[simp] theorem State.withdrawReqs_ports (s : State) (gone : QReq → Bool) : (s.withdrawReqs gone).ports = s.ports := by
  refine List.foldlRecOn _ (motive := fun t : State => t.ports = s.ports) _ rfl fun t ht pa _ => ?_
  exact (t.noteWaiters_ports pa).trans ht

/-! Queue windows (13 R259). -/

section
variable {s s1 s2 : State} {port w off : Nat} {v : DWord} {el : List Byte} {rest : List (List Byte)} {p : Piece} {bs : List Byte}
  {x : Trap}

theorem State.window_setWindowHandle (s : State) (hp : port < 2) (hw : w < 64) (v : DWord) :
    (s.setWindowHandle port w v).window port w = { s.window port w with handle := v, fifo := [], sending := none } := by
  rw [State.setWindowHandle, State.window_modWindow_self _ hp hw]
  simp [State.window, State.port]

theorem oneElement_iff : oneElement v el = true ↔ bits v.toNat 0 3 ≤ 6 ∧ el.length = codeSize (bits v.toNat 0 3) := by
  simp [oneElement]

/-- A change of a window is the change of what the window holds. -/
theorem State.modWindow_congr {f g : Window → Window} (h : f (s.window port w) = g (s.window port w)) :
    s.modWindow port w f = s.modWindow port w g := by
  simp [State.modWindow, h]

theorem State.stageElement_stages (hoff : off = 0x100) (hone : oneElement (s.window port w).handle el = true)
    (hroom : (s.window port w).fifo.length < 16) :
    s.stageElement port w off el = s.modWindow port w (fun x => { x with fifo := (s.window port w).fifo ++ [el] }) :=
  State.modWindow_congr (if_pos (by simp [hoff, hone, hroom]))

theorem State.stageElement_drops
    (h : ¬(off = 0x100 ∧ oneElement (s.window port w).handle el = true ∧ (s.window port w).fifo.length < 16)) :
    s.stageElement port w off el =
      s.modWindow port w (fun x => { x with drops := min ((s.window port w).drops + 1) 0xFFFFFFFF }) :=
  State.modWindow_congr (if_neg (by simpa [and_assoc] using h))

theorem exec_qwStagingEnqueue (hfifo : (s.window port w).fifo = el :: rest) (hidle : (s.window port w).sending = none) :
    exec (.qwStagingEnqueue port w) s = .next
      ((s.sendAgent (.window port w s.fresh) (s.window port w).handle w el).modWindow port w
        (fun y => { y with sending := some s.fresh })) := by
  show event _ = _
  simp only [event, hfifo, hidle]
  rfl

/-- What a read of QW_DEQ finds of the control block of its window's queue. -/
def State.deqAccess (s : State) (port w : Nat) : State × Except Trap Piece :=
  s.controlBlock (s.queueSpace w (portCore port)) (s.window port w).handle.toNat needRW

/-- The code of the element size of a window's queue. -/
def State.deqCode (s : State) (port w : Nat) : Nat := bits (s.window port w).handle.toNat 0 3

/-- What a read of QW_DEQ leaves of the window, by what taking an element at once gave. -/
def State.dequeued (s : State) (port w : Nat) (r : Except Trap (Option (List Byte))) : State :=
  match r with
  | .error t => s.failDeq port w t.code.num
  | .ok none => s.modWindow port w (fun x => { x with result := 0 })
  | .ok (some bs) => s.modWindow port w (fun x => { x with hold := bs, result := 1 })

section
variable (hw : w < 64) (hp : port < 2)
include hw hp

theorem exec_qwDeq_badHandle (h : handleOk (s.window port w).handle.toNat = false) :
    exec (.qwDeq port w) s = .next (s.failDeq port w (TrapCode.num .illopd)) := by
  show event _ = _
  simp [event, hw, hp, h]

variable (h : handleOk (s.window port w).handle.toNat = true)
include h

theorem exec_qwDeq_fails (ha : s.deqAccess port w = (s1, .error x)) :
    exec (.qwDeq port w) s = .next (s1.forgetAgent.failDeq port w x.code.num) := by
  rw [State.deqAccess] at ha
  show event _ = _
  simp [event, hw, hp, h, ha]

variable (ha : s.deqAccess port w = (s1, .ok p)) (hm : p.mig = false)
include ha hm

theorem exec_qwDeq_abroad (hfar : s1.forgetAgent.away p.pa = true) :
    exec (.qwDeq port w) s = .next (s1.forgetAgent.deqAway port w (s.window port w).handle p) := by
  rw [State.deqAccess] at ha
  show event _ = _
  simp [event, hw, hp, h, ha, hm, hfar]

variable (hhere : s1.forgetAgent.away p.pa = false) (hfree : s1.forgetAgent.readsHeld p.pa = false)
include hhere hfree

/-- At home the read is what taking an element at once gives. -/
theorem exec_qwDeq_here {r : Except Trap (Option (List Byte))}
    (htake : s1.forgetAgent.takeNow (agentStop (.window port w 0) w) p.pa (s.deqCode port w) = (s2, r)) :
    exec (.qwDeq port w) s = .next (s2.dequeued port w r) := by
  rw [State.deqAccess] at ha
  rw [State.deqCode] at htake
  show event _ = _
  rw [if_neg (by simp [hw, hp])]
  simp only [event, h, ha, hm, hhere, hfree, htake]
  rfl

end

end

/-! The aperture (13 R260; 06 R142). -/

section
variable {s : State} {port off n : Nat} {bs : List Byte} {cells : List (Nat × Nat)}

theorem exec_hostApertureRead_inside (hp : port < 2) (hn : off + n ≤ 2 ^ 36) (h : s.cellsOf (s.apertureAddr port off) n = some cells) :
    exec (.hostApertureRead port off n) s = .next
      (let r := (s.recallAll cells).homeRead (portCore port) cells .normal
       r.1.setPort port { r.1.port port with
         lastRead := r.2, lastStatus := if ((s.recallAll cells).poisonAny cells).isSome then 1 else 0 }) := by
  show event _ = _
  rw [if_neg (by simp; omega)]
  simp only [event, h]

theorem exec_hostApertureRead_outside (hp : port < 2) (hn : off + n ≤ 2 ^ 36) (h : s.cellsOf (s.apertureAddr port off) n = none) :
    exec (.hostApertureRead port off n) s = .next ((s.setPort port { s.port port with lastRead := [], lastStatus := 2 }).logErr
      (.aperture port (s.apertureAddr port off))) := by
  show event _ = _
  rw [if_neg (by simp; omega)]
  simp only [event, h]

theorem exec_hostApertureWrite_inside (hp : port < 2) (hn : off + bs.length ≤ 2 ^ 36)
    (h : s.cellsOf (s.apertureAddr port off) bs.length = some cells) :
    exec (.hostApertureWrite port off bs) s = .next (s.homeStore (portCore port) cells bs .normal) := by
  show event _ = _
  rw [if_neg (by simp; omega)]
  simp only [event, h]

theorem exec_hostApertureWrite_outside (hp : port < 2) (hn : off + bs.length ≤ 2 ^ 36)
    (h : s.cellsOf (s.apertureAddr port off) bs.length = none) :
    exec (.hostApertureWrite port off bs) s = .next ((s.setPort port { s.port port with reports := (s.port port).reports + 1 }).logErr
      (.aperture port (s.apertureAddr port off))) := by
  show event _ = _
  rw [if_neg (by simp; omega)]
  simp only [event, h]

end

/-- Settles O57: the fence by whether it is accepted and whom it awaits, a window's read by what it meets, the aperture by
whether its bytes are in a region. -/
theorem hostPortsReachQueuesAndMemory : Obligations.HostPortsReachQueuesAndMemory := by
  refine ⟨?fence, ?window, ?aperture⟩
  case fence =>
    intro s port rid v p ok begun every gone abroad hp
    have hok : p.accepts v.toNat = true ↔ ok := Port.accepts_iff
    have habroad : s.fenceAbroad port = true ↔ abroad := State.fenceAbroad_iff
    exact ⟨fun h => exec_hifence_accepted hp (hok.2 h), fun h => exec_hifence_refused hp (mt hok.1 h),
      fun hb h => exec_hifenceComplete_ends hb (mt habroad.1 h), fun _ h => exec_hifenceComplete_waits (habroad.2 h),
      fun _ _ ht => exec_hifenceTimeout_early ht, fun hb h ht => exec_hifenceTimeout_ends hb (habroad.2 h) ht,
      fun h => if_neg (Nat.not_lt.2 h)⟩
  case window =>
    intro s s1 s2 port w off v el rest p bs x win h code access hw hp
    refine ⟨?_, fun hoff hcode hlen hroom => ?_, fun hbad => ?_, exec_qwStagingEnqueue, exec_qwDeq_badHandle hw hp,
      exec_qwDeq_fails hw hp, exec_qwDeq_abroad hw hp, fun hh ha hm hhere hfree => ?_⟩
    · have hset := s.window_setWindowHandle hp hw v
      exact ⟨_, rfl, congrArg (·.handle) hset, congrArg (·.fifo) hset, congrArg (·.sending) hset, congrArg (·.drops) hset⟩
    · exact congrArg _ (State.stageElement_stages hoff (oneElement_iff.2 ⟨hcode, hlen⟩) hroom)
    · refine congrArg _ (State.stageElement_drops fun hgood => ?_)
      obtain ⟨hoff, hone, hroom⟩ := hgood
      obtain ⟨hcode, hlen⟩ := oneElement_iff.1 hone
      rcases hbad with hbad | hbad | hbad | hbad
      · exact hbad hoff
      · exact absurd hcode (Nat.not_le.2 hbad)
      · exact hbad hlen
      · exact absurd hroom (Nat.not_lt.2 hbad)
    · exact ⟨exec_qwDeq_here hw hp hh ha hm hhere hfree, exec_qwDeq_here hw hp hh ha hm hhere hfree,
        exec_qwDeq_here hw hp hh ha hm hhere hfree⟩
  case aperture =>
    intro s port off n bs cells pa s0 r hp
    exact ⟨exec_hostApertureRead_inside hp, exec_hostApertureRead_outside hp, exec_hostApertureWrite_inside hp,
      exec_hostApertureWrite_outside hp⟩

end Sys2Proof.Machine
end

section
/-!
SUPPORT. The ports of the peer links (13 R261 to R263): what a port does with a flit, what it sends, the repair of a lane.
-/
namespace Sys2Proof.Machine

set_option Elab.async false

section
variable {x : PeerPort} {f : Flit} {now lane : Nat}

/-- A port that takes flits: its link is up and not retraining. -/
def PeerPort.listens (x : PeerPort) : Prop := x.up = true ∧ x.retrainEnd = none

/-! What acting on the acknowledgement fields leaves (13 R262). -/

@[simp] theorem PeerPort.heard_expect : (x.heard f).expect = x.expect := by
  unfold PeerPort.heard PeerPort.acked
  split
  · rfl
  · split
    · split <;> rfl
    · rfl

@[simp] theorem PeerPort.heard_inbox : (x.heard f).inbox = x.inbox := by
  unfold PeerPort.heard PeerPort.acked
  split
  · rfl
  · split
    · split <;> rfl
    · rfl

@[simp] theorem PeerPort.laneError_inbox : (x.laneError lane now).inbox = x.inbox := by
  unfold PeerPort.laneError
  dsimp only
  split <;> rfl

/-- An error noted counts once (13 R263). -/
theorem PeerPort.errorsOf_noted (x : PeerPort) (lane now : Nat) :
    ({ x with laneErrors := x.laneErrors.filter (fun e => decide (now < e.2 + nsTime 1000000)) ++ [(lane, now)] } :
      PeerPort).errorsOf lane now = x.errorsOf lane now + 1 := by
  have hpos : now < now + nsTime 1000000 := Nat.lt_add_of_pos_right (by decide)
  simp [PeerPort.errorsOf, List.filter_filter, hpos]

/-- A lane that has 15 errors of the last 1 ms is worn by the next one (13 R263). -/
theorem PeerPort.laneError_worn (hw : x.worn = none) :
    (x.laneError lane now).worn = if 15 ≤ x.errorsOf lane now then some lane else none := by
  unfold PeerPort.laneError
  extract_lets p1
  have hcount : p1.errorsOf lane now = x.errorsOf lane now + 1 := x.errorsOf_noted lane now
  have hnew : p1.worn = none := hw
  simp [hcount, hnew, apply_ite PeerPort.worn]

/-! What a port makes of a flit (13 R261, R262). -/

section
variable (h : x.listens)
include h

theorem PeerPort.receive_bad (hc : f.crc.toNat ≠ crc32 (flitBytes f)) :
    x.receive f now = { x.laneError f.lane now with nakOut := some x.expect } := by
  unfold PeerPort.receive
  rw [if_neg (by simp [h.1, h.2]), if_pos hc]

variable (hc : f.crc.toNat = crc32 (flitBytes f))
include hc

theorem PeerPort.receive_data (ht : f.type = .data) : x.receive f now = (x.heard f).take f := by
  unfold PeerPort.receive
  rw [if_neg (by simp [h.1, h.2]), if_neg (not_not.2 hc), ht]

theorem PeerPort.receive_control (ht : f.type = .idle ∨ f.type = .control) : x.receive f now = x.heard f := by
  unfold PeerPort.receive
  rw [if_neg (by simp [h.1, h.2]), if_neg (not_not.2 hc)]
  rcases ht with ht | ht <;> rw [ht]

end

theorem PeerPort.take_in (hs : f.seq = x.expect) :
    (x.heard f).take f = { x.heard f with
      inbox := (x.heard f).inbox ++ [f.payload], expect := (x.expect + 1) % 4096, nakOut := none, ackOut := some f.seq } := by
  unfold PeerPort.take
  rw [if_pos (by simpa using hs), PeerPort.heard_expect]

theorem PeerPort.take_out (hs : f.seq ≠ x.expect) : (x.heard f).take f = { x.heard f with nakOut := some x.expect } := by
  unfold PeerPort.take
  rw [if_neg (by simpa using hs)]
  simp only [PeerPort.heard_expect]

/-! What a port sends when nothing is replayed (13 R262). -/

section
variable {m : Nat × PeerMsg} {rest : List (Nat × PeerMsg)} (h : x.listens) (hr : x.replay = []) (hw : x.waiting = m :: rest)
include h hr hw

theorem PeerPort.send_sends (hroom : x.unacked.length < 4095) :
    x.send.unacked = x.unacked ++ [(x.nextSeq, m)] ∧ x.send.waiting = rest ∧ x.send.nextSeq = (x.nextSeq + 1) % 4096 := by
  unfold PeerPort.send
  simp only [h.1, h.2, hr, hw, Nat.not_le.2 hroom]
  exact ⟨rfl, rfl, rfl⟩

theorem PeerPort.send_holds (hfull : 4095 ≤ x.unacked.length) :
    x.send.unacked = x.unacked ∧ x.send.waiting = x.waiting ∧ x.send.nextSeq = x.nextSeq := by
  unfold PeerPort.send
  simp only [h.1, h.2, hr, hw, ge_iff_le, hfull]
  exact ⟨rfl, rfl, rfl⟩

end

end

/-! The events of a port (13 R262, R263). -/

section
variable {s : State} {port lane t : Nat} {f : Flit}

/-- The state with one peer-link port replaced. -/
def State.setPeer (s : State) (port : Nat) (y : PeerPort) : State := { s with peers := s.peers.setPort port y }

theorem exec_peerFlitReceive_delivers (hp : port < 32)
    (h : (s.peers.port port).inbox.length < ((s.peers.port port).receive f s.time).inbox.length) :
    exec (.peerFlitReceive port f) s =
      .next ((s.setPeer port ((s.peers.port port).receive f s.time)).peerMessage port f.src f.msg) := by
  show event _ = _
  rw [if_neg (by omega)]
  exact congrArg _ (if_pos h)

theorem exec_peerFlitReceive_silent (hp : port < 32)
    (h : ((s.peers.port port).receive f s.time).inbox = (s.peers.port port).inbox) :
    exec (.peerFlitReceive port f) s = .next (s.setPeer port ((s.peers.port port).receive f s.time)) := by
  show event _ = _
  rw [if_neg (by omega)]
  exact congrArg _ (if_neg (by simp [h]))

section
variable (hp : port < 32) (h : (s.peers.port port).listens) (hr : (s.peers.port port).replay = [])
  (hw : (s.peers.port port).worn = some lane)
include hp h hr hw

theorem exec_laneRepair_first (hn : (s.peers.port port).repairs = 0) : exec (.laneRepair port lane) s = .next (s.setPeer port
    { (s.peers.port port).laneDone lane s.time with repairs := 1, lanes := 3, retrainEnd := some (s.time + nsTime 2000) }) := by
  show event _ = _
  rw [if_neg (by simp [h.1, h.2, hr, hw]; omega), if_pos hn]
  rfl

theorem exec_laneRepair_again (hn : (s.peers.port port).repairs ≠ 0) : exec (.laneRepair port lane) s = .next
    { s with peers := (s.peers.setPort port { s.peers.port port with
        up := false, repairs := (s.peers.port port).repairs + 1, laneErrors := [], worn := none }).dropRoutes port } := by
  show event _ = _
  rw [if_neg (by simp [h.1, h.2, hr, hw]; omega), if_neg hn]
  rfl

end

theorem exec_linkRetrainComplete (he : (s.peers.port port).retrainEnd = some t) (ht : t ≤ s.time) :
    exec (.linkRetrainComplete port) s = .next (s.setPeer port { s.peers.port port with
      retrainEnd := none, replay := (s.peers.port port).unacked.map (·.1) }) := by
  show event _ = _
  simp only [he]
  exact congrArg _ (if_neg (Nat.not_lt.2 ht))

end

/-- Settles O58: by what the port makes of the flit. -/
theorem peerFlitsArriveInOrder : Obligations.PeerFlitsArriveInOrder := by
  intro s port lane t now f m rest x good into left recent heard hp hup
  refine ⟨fun hr hbad => ?_, PeerPort.laneError_worn, fun hr hgood ht hs => ?_, fun hr hgood ht hs => ?_, fun hr hgood ht => ?_,
    fun hr hn hw => ⟨PeerPort.send_sends ⟨hup, hr⟩ hn hw, PeerPort.send_holds ⟨hup, hr⟩ hn hw⟩,
    fun hr hn hw => ⟨exec_laneRepair_first hp ⟨hup, hr⟩ hn hw, exec_laneRepair_again hp ⟨hup, hr⟩ hn hw⟩,
    exec_linkRetrainComplete⟩
  · have hx : x.receive f s.time = _ := PeerPort.receive_bad ⟨hup, hr⟩ hbad
    rw [exec_peerFlitReceive_silent hp (by rw [hx]; exact PeerPort.laneError_inbox), hx]
    rfl
  · have hx : x.receive f s.time = _ := (PeerPort.receive_data ⟨hup, hr⟩ hgood ht).trans (PeerPort.take_in hs)
    rw [exec_peerFlitReceive_delivers hp (by rw [hx]; simp [x]), hx]
    rfl
  · have hx : x.receive f s.time = _ := (PeerPort.receive_data ⟨hup, hr⟩ hgood ht).trans (PeerPort.take_out hs)
    rw [exec_peerFlitReceive_silent hp (by rw [hx]; exact PeerPort.heard_inbox), hx]
    rfl
  · have hx : x.receive f s.time = _ := PeerPort.receive_control ⟨hup, hr⟩ hgood ht
    rw [exec_peerFlitReceive_silent hp (by rw [hx]; exact PeerPort.heard_inbox), hx]
    rfl

end Sys2Proof.Machine
end

section
/-!
SUPPORT. Operations between devices (13 R264, R265; 05 R118; 07 R155): a request at its target, a request without a response, the
release of a lent extent.
-/
namespace Sys2Proof.Machine

set_option Elab.async false

/-! A request at its target (13 R264). -/

section
variable {s : State} {req : RemoteReq} {cells : List (Nat × Nat)}

theorem exec_remoteRequest_refused (h : s.peers.admits req = false) :
    exec (.remoteRequestAtTarget req) s = .next (s.refuseRemote req) :=
  congrArg _ (if_pos (by simp [h]))

section
variable (h : s.peers.admits req = true)
include h

theorem exec_remoteRequest_cached {ws : List Word} (hc : s.peers.cached req = some ws) :
    exec (.remoteRequestAtTarget req) s = .next (s.answerReq req 0 (bytesOf ws)) := by
  show event _ = _
  simp only [event, h, hc]
  rfl

variable (hc : s.peers.cached req = none) (hcells : s.cellsOf (s.device * 2 ^ 42 + req.addr) (remoteLen req.kind) = some cells)
include hc hcells

theorem exec_remoteRequest_new : exec (.remoteRequestAtTarget req) s =
    .next (if s.remoteUnderway req then s.answerReq req 3 [] else s.remoteDo req cells) := by
  show event _ = _
  simp only [event, h, hc, hcells]
  rfl

theorem exec_remoteRequest_underway (hu : s.remoteUnderway req = true) :
    exec (.remoteRequestAtTarget req) s = .next (s.answerReq req 3 []) := by
  rw [exec_remoteRequest_new h hc hcells, if_pos hu]

theorem exec_remoteRequest_performed (hu : s.remoteUnderway req = false) :
    exec (.remoteRequestAtTarget req) s = .next (s.remoteDo req cells) := by
  rw [exec_remoteRequest_new h hc hcells, if_neg (by simp [hu])]

end

/-! What is performed, by the kind of the request (13 R264). -/

theorem State.remoteDo_write {n : Nat} {bytes : List (Nat × Byte)} (hk : req.kind = .write n bytes false false) :
    s.remoteDo req cells = ((s.recallAll cells).scatterHome (remoteCore req.port)
      { va := 0, pa := s.device * 2 ^ 42 + req.addr, len := n, entry := 0 } bytes).answerReq req 0 [] := by
  simp only [State.remoteDo, hk]
  rfl

theorem State.remoteDo_upkeep {d : Bool} (hk : req.kind = .upkeep d) :
    s.remoteDo req cells = (s.maintainHome ((s.device * 2 ^ 42 + req.addr) / 128) d).answerReq req 0 [] := by
  simp only [State.remoteDo, hk]

theorem State.remoteDo_codeFence (hk : req.kind = .codeFence) : s.remoteDo req cells = s.dropAllCode.answerReq req 0 [] := by
  simp only [State.remoteDo, hk]

theorem State.remoteDo_read {n : Nat} (hk : req.kind = .read n) : s.remoteDo req cells =
    (let r := (s.recallAll cells).homeRead (remoteCore req.port) cells .normal
     r.1.answerReq req (if ((s.recallAll cells).poisonAny cells).isSome then 2 else 0) r.2) := by
  simp only [State.remoteDo, hk]

/-- An atomic on bytes that are not poisoned stores its result and answers the old word. -/
theorem State.remoteDo_atom {op : Nat} {v : Word} (hk : req.kind = .atom op v) (hp : (s.recallAll cells).poisonAny cells = none) :
    s.remoteDo req cells =
      (let r := (s.recallAll cells).homeRead (remoteCore req.port) cells .normal
       let old : Word := BitVec.ofNat 32 (ofBytes r.2)
       (r.1.homeScatter cells (toBytes 4 ((atomOpOf (BitVec.ofNat 4 op)).apply old v).1.toNat)).respond
         req.source req.seq true [old]) := by
  simp only [State.remoteDo, State.remoteAtom, hk, hp]
  rfl

end

/-! A request without a response (13 R264, R265). -/

section
variable {s : State} {op first last n : Nat} {o : RemoteOp}

/-- The request that an operation's number names. -/
def State.asked (s : State) (op : Nat) : Option RemoteOp := s.peers.outstanding.find? (fun o => o.rid == op)

section
variable (ho : s.asked op = some o) (hseq : o.seq = some n) (hsent : o.sent = some (first, last))
include ho hseq hsent

theorem exec_remoteResend_due (h : last + nsTime 100000 ≤ s.time) : exec (.remoteResend op) s = .next (s.sendOp o) := by
  rw [State.asked] at ho
  show event _ = _
  simp only [event, ho, hseq, hsent]
  rw [if_neg (Nat.not_lt.2 h)]

theorem exec_remoteResend_early (h : s.time < last + nsTime 100000) : exec (.remoteResend op) s = .next s := by
  rw [State.asked] at ho
  show event _ = _
  simp only [event, ho, hseq, hsent]
  rw [if_pos h]

end

/-- The state after a device has been found dead and the operations on its queues have ended. -/
def State.deadTarget (s : State) (o : RemoteOp) : State :=
  let s1 := (s.remoteSilent o).modPeers (fun p => { p with dead := sins p.dead o.target })
  (s1.peers.outstanding.filter (fun x => RemoteKind.ofQueue x.kind && x.target == o.target)).foldl (fun t x => t.remoteError x 1) s1

theorem RemoteOp.expired_of {now : Nat} (h : o.doomed = true ∨ (o.sent = some (first, last) ∧ first + nsTime 1000000 ≤ now)) :
    o.expired now = true := by
  rcases h with h | ⟨hsent, ht⟩
  · simp [RemoteOp.expired, h]
  · simp [RemoteOp.expired, hsent, ht]

theorem exec_remoteTimeout_expired (ho : s.asked op = some o) (h : o.expired s.time = true) : exec (.remoteTimeout op) s =
    .next (((s.deadTarget o).peers.imports.filter (fun i => i.device == o.target)).foldl
      (fun t i => t.releaseExtent i.base i.limit) (s.deadTarget o)) := by
  rw [State.asked] at ho
  show event _ = _
  simp only [event, ho, h]
  rfl

end

/-! The release of a lent extent (05 R118). -/

section
variable {s : State} {base limit : Nat}

/-- Writing lines back leaves what the peer links hold. -/
theorem State.scClean_peers (s : State) (l : Line) : (s.scClean l).peers = s.peers := by
  have hbytes : ((List.range 64).foldl
      (fun t i => if bitAt l.dirty i then t.dramPut (l.tag * 64 + i) (sget 0 l.bytes i) else t) s).peers = s.peers := by
    refine List.foldlRecOn _ (motive := fun t : State => t.peers = s.peers) _ rfl fun t ht i _ => ?_
    split
    · exact ht
    · exact ht
  unfold State.scClean
  split
  · exact hbytes
  · exact hbytes

theorem State.cleanExtent_peers (s : State) (base limit : Nat) : (s.cleanExtent base limit).peers = s.peers :=
  List.foldlRecOn _ (motive := fun t : State => t.peers = s.peers) _ rfl fun t ht l _ => (t.scClean_peers l).trans ht

theorem State.endRelease_released (s : State) (e : Nat × Nat) : (s.endRelease e).peers.released = s.peers.released := by
  unfold State.endRelease
  split
  · rfl
  · exact congrArg (·.released) (s.cleanExtent_peers e.1 e.2)

theorem State.mem_released (s : State) (base limit : Nat) : (base, limit) ∈ (s.releaseExtent base limit).peers.released := by
  rw [State.releaseExtent, State.endRelease_released]
  exact List.mem_append_right _ (List.mem_singleton_self _)

theorem State.endRelease_acknowledged {e : Nat × Nat} (h : s.extentBusy e = false) :
    e ∈ (s.endRelease e).peers.acknowledged := by
  unfold State.endRelease
  rw [if_neg (Bool.eq_false_iff.1 h)]
  exact List.mem_append_right _ (List.mem_singleton_self _)

/-- A release is acknowledged when nothing that was let in is under way. -/
theorem State.mem_acknowledged (h : s.extentBusy (base, limit) = false) :
    (base, limit) ∈ (s.releaseExtent base limit).peers.acknowledged :=
  State.endRelease_acknowledged h

/-- What meets a released extent is not let in. -/
theorem Peers.admits_released {p : Peers} {e : Nat × Nat} {req : RemoteReq} (he : e ∈ p.released) (hk : req.kind ≠ .codeFence)
    (hlo : req.addr < e.2 * 2 ^ 21) (hhi : e.1 * 2 ^ 21 < req.addr + remoteLen req.kind) : p.admits req = false := by
  have hmeets : p.released.any (fun e => meetsUnits e req.addr (remoteLen req.kind)) = true :=
    List.any_eq_true.2 ⟨e, he, by simp only [meetsUnits, hlo, hhi, decide_true, Bool.and_true]⟩
  unfold Peers.admits
  dsimp only
  rw [hmeets]
  simp [hk]

end

/-- Settles O59: a request by what its source may do and whether it is known, a silent target by its extents. -/
theorem remoteOperationsAreAppliedOnce : Obligations.RemoteOperationsAreAppliedOnce := by
  refine ⟨?target, ?source⟩
  case target =>
    intro s req cells ws out home s1 r
    refine ⟨exec_remoteRequest_refused, fun ha hc => exec_remoteRequest_cached ha hc, fun ha hc hcells =>
      ⟨exec_remoteRequest_underway ha hc hcells, fun hu => ?_⟩⟩
    have hdo : out = .next (s.remoteDo req cells) := exec_remoteRequest_performed ha hc hcells hu
    rw [hdo]
    exact ⟨fun n bytes hk => congrArg _ (State.remoteDo_write hk), fun d hk => congrArg _ (State.remoteDo_upkeep hk),
      fun hk => congrArg _ (State.remoteDo_codeFence hk), fun n hk => congrArg _ (State.remoteDo_read hk),
      fun op v hk hp => congrArg _ (State.remoteDo_atom hk hp)⟩
  case source =>
    intro s op d base limit first last n o s1 s2 s3
    refine ⟨fun ho hseq hsent => ⟨exec_remoteResend_due ho hseq hsent, exec_remoteResend_early ho hseq hsent⟩,
      fun ho h => exec_remoteTimeout_expired ho (RemoteOp.expired_of h), rfl, _, rfl, rfl, s.mem_released base limit,
      State.mem_acknowledged, fun req hk hlo hhi => Peers.admits_released (s.mem_released base limit) hk hlo hhi⟩

end Sys2Proof.Machine
end

section
/-!
SUPPORT. The computing instructions (14 R270, 03 R52, R58): what each is done with, and a result read back from its destination.
-/
namespace Sys2Proof.Machine

set_option Elab.async false

/-- The state without watch slots (12 R240). -/
def State.unwatched (s : State) : State := { s with proctors := { s.proctors with slots := [] } }

/-- A body that computes, for an instruction, an issuer and the values of its sources: it is done, with watch slots or without, leaves
the state as it finds it, and gives nothing but values, exceptions, predicates, a window base and a time at which its issuer is ready. -/
structure Computes (i : Instr) (e : Env) (v : List Nat) (s : State) (body : Env → List Nat → State → Act) (d : Done) : Prop where
  done : body e v s = .done d
  unwatched : body e v s.unwatched = .done { d with state := s.unwatched }
  state : d.state = s
  acquire : d.acquire = none
  cells : d.cells = []
  fills : d.fills = []
  loaded : d.loaded = none
  preds : writesPreds i = false → d.preds = none
  window : writesWindow i = false → d.wb = none
  flags : isFp i = false → d.flags = fNone

/-- Every computing instruction issues a body that computes. -/
theorem computes_body {i : Instr} (h : computes i = true) : ∃ body : Env → List Nat → State → Act,
    (∀ s, exec i s = issue i body s) ∧ ∀ e v s, ∃ d, Computes i e v s body d := by
  cases i <;> cases h <;>
    exact ⟨_, fun _ => rfl, fun e v s =>
      ⟨_, ⟨rfl, rfl, rfl, rfl, rfl, rfl, rfl, fun h => by cases h <;> rfl, fun h => by cases h <;> rfl, fun h => by cases h <;> rfl⟩⟩⟩

/-! A result read back (03 R52, R58). -/

section
variable {s : State} {e : Env} {i : Instr}

/-- The block of an issuer whose instruction retires holds its retired context. -/
theorem State.retired_ctx {d : Done} (he : s.env? = some e) (hu : Unobserved s e) (hd : d.state = s) (hq : d.acquire = none) :
    ∃ b, (s.retired e i d).block? e.bid = some b ∧
      b.ctx? e.who = some (e.ctx.retired e (e.form i) { d with since := some s.fresh } s.fresh s.time) := by
  obtain ⟨_, hb, hx⟩ := env_spec he
  have hmod := block_modBlock_self
    (fun b => (b.modCtx e.who (fun c => c.retired e (e.form i) { d with since := some s.fresh } s.fresh s.time)).freeUq)
    (fun b => by simp) hb
  have hcharge := block_modBlock_self (fun b => { b with cost := b.cost + if e.ctx.counted then 0 else 1 }) (fun _ => rfl)
    (s := (s.modBlock e.bid _).tick1) hmod
  rw [← chargeOnce_eq] at hcharge
  rw [State.retired, retire_eq (e.form i) { d with since := some s.fresh } hd hq hu]
  refine ⟨_, hcharge, ?_⟩
  show ((e.blk.modCtx e.who _).freeUq).ctx? e.who = _
  rw [ctx_freeUq, Block.modCtx, hx]
  exact ctx_setCtx_self _ _ _

theorem length_wordsOfNat (n x : Nat) : (wordsOfNat n x).length = n := by
  induction n generalizing x with
  | zero => rfl
  | succ n ih => rw [wordsOfNat, List.length_cons, ih]

/-- A field has a word for each of its cells. -/
theorem Fld.length_cells_le (x : Fld) (lead : Bool) (wb v : Nat) : (x.cells lead wb).length ≤ (x.words lead v).length := by
  unfold Fld.cells Fld.words
  rw [length_wordsOfNat]
  split
  · exact Nat.zero_le _
  · split <;> simp [span]

theorem Fld.nodup_cells (x : Fld) (lead : Bool) (wb : Nat) : (x.cells lead wb).Nodup := by
  unfold Fld.cells
  split
  · exact List.nodup_nil
  · split <;> exact span_nodup _ _

/-- A written register holds the words of the value (03 R58). -/
theorem sget_writeReg (c : Ctx) (x : Fld) (lead : Bool) (wb v : Nat) {k n : Nat} (h : (x.cells lead wb)[k]? = some n) :
    sget 0 (c.writeReg (x.cells lead wb) (x.fullBits lead wb) (x.words lead v)).regs n = (x.words lead v).getD k 0 := by
  obtain ⟨hk, rfl⟩ := List.getElem?_eq_some_iff.1 h
  have hw : k < (x.words lead v).length := hk.trans_le (x.length_cells_le lead wb v)
  rw [writeReg_regs, writeCells_get _ _ _ (x.nodup_cells lead wb) k hk hw]
  simp [hw]

/-- A written register is full (03 R58). -/
theorem notMem_writeReg_empties (c : Ctx) (cells bits : List Nat) (ws : List Word) {n : Nat} (h : n ∈ bits) :
    n ∉ (c.writeReg cells bits ws).empties := by
  simp [Ctx.writeReg, h]

/-- What advancing leaves outside the PC and the repeat. -/
theorem Ctx.advance_rest (c : Ctx) (target : Option DWord) :
    (c.advance target).regs = c.regs ∧ (c.advance target).empties = c.empties ∧ (c.advance target).wait = c.wait := by
  unfold Ctx.advance
  split
  · exact ⟨rfl, rfl, rfl⟩
  · split <;> exact ⟨rfl, rfl, rfl⟩

theorem Ctx.advance_pc {c : Ctx} (h : c.rep.active = false) : (c.advance none).pc = c.pc + 4 := by
  simp [Ctx.advance, h]

/-- A context after an instruction that only writes one value. -/
theorem Ctx.retired_writes {x : Fld} {v : Nat} (t : State) (h : (e.form i).dsts = [x]) (since : Option Nat) (pid now : Nat) :
    let c := e.ctx.retired e (e.form i) { state := t, vals := [v], since := since } pid now
    let w := (e.ctx.writeReg (x.cells e.lead e.ctx.wb.toNat) (x.fullBits e.lead e.ctx.wb.toNat) (x.words e.lead v))
    c.regs = w.regs ∧ c.empties = w.empties ∧ c.wait = none ∧ (e.ctx.rep.active = false → c.pc = e.ctx.pc + 4) := by
  have hw := writeDsts_single e { e.ctx with uqPos := e.ctx.uqPos + (e.form i).pops } x v
  simp only [Ctx.retired, Bool.false_eq_true, if_false, h, hw]
  obtain ⟨hregs, hempties, hwait⟩ := Ctx.advance_rest (Ctx.mk ..) none
  exact ⟨hregs, hempties, hwait, fun hr => Ctx.advance_pc hr⟩

end

/-- Settles O6: a computing body by its instruction, a result by the writing of its destination. -/
theorem computingInstructionsChangeOnlyTheirIssuer : Obligations.ComputingInstructionsChangeOnlyTheirIssuer := by
  intro s t e i vals x v hu
  refine ⟨fun hc hi hex => ?_, fun he hx => ?_⟩
  · obtain ⟨body, hbody, hcomp⟩ := computes_body hc
    obtain ⟨d, hd⟩ := hcomp e vals s
    rw [hbody, issue_retires hi hd.done hd.loaded] at hex
    cases hex
    exact ⟨_, _, _, retired_only i d hi.1.1.1 hu hd.state hd.acquire hd.cells hd.fills, fun h => by rw [hd.preds h]; rfl,
      fun h => by rw [hd.window h]; rfl, fun h => by rw [hd.flags h]; exact BitVec.or_zero⟩
  · obtain ⟨b, hb, hctx⟩ := State.retired_ctx (i := i) (d := { state := s, vals := [v] }) he hu rfl rfl
    obtain ⟨hregs, hempties, hwait, hpc⟩ := Ctx.retired_writes (v := v) s hx (some s.fresh) s.fresh s.time
    refine ⟨b, _, hb, hctx, fun k n hn => ?_, fun n hn => ?_, hpc, hwait⟩
    · rw [hregs]
      exact sget_writeReg _ x _ _ v hn
    · rw [hempties]
      exact notMem_writeReg_empties _ _ _ _ hn

end Sys2Proof.Machine
end

section
/-!
SUPPORT. Reads of state, system registers and translation maintenance (14 R282; 18 R383, R384, R391 to R393; 06 R140; 12 R255).
-/
namespace Sys2Proof.Machine

set_option Elab.async false

section
variable {s : State} {e : Env}

/-- The value of an SREAD number by the table (14 R282). -/
theorem State.map_sreadValue (s : State) (e : Env) : (List.range 20).map (s.sreadValue e) =
    [if e.lead then 0xFFFFFFFF else e.who.fid, if e.lead then 0xFFFFFFFF else e.who.fid % 32, e.blk.bx, e.blk.by_, e.blk.bz, e.blk.stage,
      e.blk.params.fibreCount, e.blk.params.dimX, e.blk.params.dimY, e.blk.params.dimZ, e.core, e.core / 4, s.cycle % 2 ^ 32,
      e.ctx.latch.toNat, if e.lead then 0 else e.ctx.wb.toNat,
      (s.governor (e.core / 4)).throttle + if (s.governor (e.core / 4)).emergency then 8 else 0,
      if e.blk.role = .leading then 1 else if e.blk.role = .trailing then 2 else 0, e.blk.params.lid, e.ctx.fps.toNat,
      e.blk.params.allocation] := by
  have hthrottle : s.sreadValue e 15 =
      (s.governor (e.core / 4)).throttle + if (s.governor (e.core / 4)).emergency then 8 else 0 := by
    show _ + 8 * bit01 _ = _
    unfold bit01 stackOf
    split <;> rfl
  have hrole : s.sreadValue e 16 = if e.blk.role = .leading then 1 else if e.blk.role = .trailing then 2 else 0 := by
    simp only [State.sreadValue]
    cases e.blk.role <;> rfl
  rw [← hthrottle, ← hrole]
  rfl

/-- An issuer's CRC has nothing to take that is no lead's, or behind which nothing waits (11 R233). -/
theorem State.crc_flushCrc (he : s.env? = some e) (h : e.who ≠ .lead ∨ e.blk.body.drains = []) :
    (e.again (s.flushCrc e.bid)).ctx.crc = e.ctx.crc := by
  obtain ⟨_, hb, hx⟩ := env_spec he
  have hblock : (s.flushCrc e.bid).block? e.bid = some (e.blk.modBody (fun y => y.flushed s.rowsOpen)) :=
    block_modBlock_self _ (fun _ => rfl) hb
  have hctx : ∃ c, (e.blk.modBody (fun y => y.flushed s.rowsOpen)).ctx? e.who = some c ∧ c.crc = e.ctx.crc := by
    cases hw : e.who with
    | fibre k => exact ⟨e.ctx, by rw [← hx, hw]; rfl, rfl⟩
    | lead =>
      have hdrains := h.resolve_left (not_not.2 hw)
      have hlead : e.blk.body.lead = e.ctx := Option.some_inj.1 (by rw [← hx, hw]; rfl)
      exact ⟨_, rfl, by simp [Block.modBody, BlockBody.flushed, hdrains, flushDrains, hlead]⟩
  obtain ⟨c, hc, hcrc⟩ := hctx
  simp [Env.again, State.envOf, hblock, hc, hcrc]

theorem State.outside_trailing (h : e.blk.role = .trailing) (t : State) : s.outside e t = s := if_pos h

theorem State.outside_leading (h : e.blk.role ≠ .trailing) (t : State) : s.outside e t = t := if_neg h

end

/-! The forms of SREAD, SYSW, PROG (17 R370, 18 R384, R391). -/

section
variable {s : State} {e : Env} {rd : Reg} {imm : BitVec 8} {num : BitVec 15} {g : Guard} {a : Nat}

theorem exec_sread (h : Issues s e (.sread rd imm g) []) : exec (.sread rd imm g) s = .next (s.retired e (.sread rd imm g)
    { state := if imm.toNat = 12 then s.modMe e (fun c => { c with latch := BitVec.ofNat 32 (s.cycle / 2 ^ 32) }) else s,
      vals := [s.sreadValue e imm.toNat] }) := by
  have himm : imm = 12#8 ↔ imm.toNat = 12 := BitVec.toNat_inj.symm
  simp only [← himm]
  exact issue_retires h rfl rfl

theorem exec_sysw (h : Issues s e (.sysw rd num g) [a]) : exec (.sysw rd num g) s = .next (s.retired e (.sysw rd num g)
    { state := if num.toNat = 18 then s.modMe e (fun c => { c with fps := BitVec.ofNat 5 a })
        else if e.blk.role = .trailing then s else s.amapWrite (8 * (num.toNat - 0x1000)) a }) := by
  refine issue_retires h ?_ rfl
  have hnum : num = 18#15 ↔ num.toNat = 18 := BitVec.toNat_inj.symm
  simp only [hnum, List.getD_cons_zero, State.outside, Act.write]
  split <;> rfl

theorem exec_prog (h : Issues s e (.prog imm g) []) : exec (.prog imm g) s = .next (s.retired e (.prog imm g)
    { state := if s.trial.run = true ∧ s.trial.lid = e.blk.params.lid ∧ e.blk.role ≠ .trailing
        then { s with trial := s.trial.progress imm.toNat } else s }) := by
  refine issue_retires h ?_ rfl
  simp only [Bool.and_eq_true, decide_eq_true_eq, and_assoc, Act.write]
  split <;> rfl

end

/-! TLBI (18 R392, R393; 06 R140). -/

section
variable {s : State} {e : Env} {i : Instr} {vals : List Nat} {gone : TlbEntry → Bool}

/-- Each TLBI issues the operation of TLBI on the entries that it removes. -/
theorem exec_tlbi {ra rb : Reg} {fe : Bool} {g : Guard} {a b : Nat}
    (h : (i = .tlbiPage ra rb fe g ∧ vals = [a, b] ∧ gone = fun x =>
        (x.asn == b % 2 ^ 16 || x.entry.getLsbD 5) && (decide (x.base ≤ a) && decide (a < x.base + x.size))) ∨
      (i = .tlbiAsn rb fe g ∧ vals = [b] ∧ gone = fun x => x.asn == b % 2 ^ 16 && !x.entry.getLsbD 5) ∨
      (i = .tlbiAll g ∧ vals = [] ∧ gone = fun _ => true)) :
    ∃ body : Env → List Nat → State → Act, exec i s = issue i body s ∧ body e vals s = tlbiAct e gone s := by
  rcases h with ⟨rfl, rfl, rfl⟩ | ⟨rfl, rfl, rfl⟩ | ⟨rfl, rfl, rfl⟩
  · refine ⟨_, rfl, ?_⟩
    simp only [Bool.and_assoc]
    rfl
  · exact ⟨_, rfl, rfl⟩
  · exact ⟨_, rfl, rfl⟩

theorem tlbiAct_done (h : e.ctx.phase.release = .done) : tlbiAct e gone s = .done { state := s } := by
  simp only [tlbiAct, h]
  rfl

theorem tlbiAct_trailing (hr : e.blk.role = .trailing) (h : e.ctx.phase.release = .none) :
    tlbiAct e gone s = .done { state := s } := by
  simp only [tlbiAct, h, State.outside_trailing hr]
  exact if_neg (fun hc => hc.1 hr)

section
variable (hr : e.blk.role ≠ .trailing) (h : e.ctx.phase.release = .none)
include hr h

theorem tlbiAct_drained (hd : (s.tlbi gone).undrained (s.tlbi gone).fresh = false) :
    tlbiAct e gone s = .done { state := s.tlbi gone } := by
  simp only [tlbiAct, h, State.outside_leading hr]
  exact if_neg (fun hc => Bool.eq_false_iff.1 hd hc.2)

theorem tlbiAct_undrained (hd : (s.tlbi gone).undrained (s.tlbi gone).fresh = true) : tlbiAct e gone s =
    .wait ((s.tlbi gone).setPhase e (fun p => { p with release := .drained (s.tlbi gone).fresh })) .acks := by
  simp only [tlbiAct, h, State.outside_leading hr]
  exact if_pos ⟨hr, hd⟩

end

end

/-- Settles O24: system reads by their number, TLBI by its operation. -/
theorem systemInstructionsReachTheirState : Obligations.SystemInstructionsReachTheirState := by
  refine ⟨?system, ?tlbi⟩
  case system =>
    intro s e rd imm num g a
    refine ⟨exec_sread, s.map_sreadValue e, fun h => issue_retires h rfl rfl, exec_sysw, fun h => issue_retires h rfl rfl,
      fun h hc => ?_, exec_prog⟩
    rw [← State.crc_flushCrc h.1.1.1 hc]
    exact issue_retires h rfl rfl
  case tlbi =>
    intro s e ra rb fe g a b global page asn i vals gone hcase h t
    obtain ⟨body, hexec, hbody⟩ := exec_tlbi (s := s) (e := e) hcase
    rw [hexec]
    refine ⟨⟨rfl, rfl⟩, fun hr hn => ?_, fun hr hn hd => ?_, fun hr hn hd hs => ?_, fun hdone => ?_⟩
    · exact issue_retires h (hbody.trans (tlbiAct_trailing hr hn)) rfl
    · exact issue_retires h (hbody.trans (tlbiAct_drained hr hn hd)) rfl
    · exact issue_wait h (hbody.trans (tlbiAct_undrained hr hn hd)) (by simp [hs])
    · exact issue_retires h (hbody.trans (tlbiAct_done hdone)) rfl

end Sys2Proof.Machine
end

section
/-!
SUPPORT. The instructions that are commit points (15 R312, 06 R128, R138, 16 R338, 11 R229, R230): CHKPT, FENCE, IFENCE.
-/
namespace Sys2Proof.Machine

set_option Elab.async false

section
variable {s t : State} {e : Env} {ord : BitVec 2} {sc : BitVec 4} {g : Guard} {b : Bool}

theorem Gate.act_go {G : Gate} (h : G = .go t) (f : State → Act) : G.act f = f t := by rw [h]; rfl

theorem exec_chkpt (h : Issues s e (.chkpt g) []) (hgo : s.commitPoint e [] = .go t) : exec (.chkpt g) s =
    .next (s.retired e (.chkpt g) { state := t.takeOrdinal e, sealed := e.blk.ckptMode }) :=
  issue_retires h (Gate.act_go hgo _) rfl

section
variable (h : Issues s e (.fence ord sc b) [])
include h

theorem exec_fence_acquires (ho : ord = 2) :
    exec (.fence ord sc b) s = .next (s.retired e (.fence ord sc b) { state := s.acquire e.core sc.toNat }) :=
  issue_retires h (if_pos ho) rfl

variable (ho : ord ≠ 2)
include ho

theorem exec_fence_narrow (hsc : sc.toNat ≤ 1) :
    exec (.fence ord sc b) s = .next (s.writes e (.fence ord sc b) []) :=
  issue_retires h ((if_neg ho).trans (if_pos hsc)) rfl

theorem exec_fence_releases (hsc : 2 ≤ sc.toNat) (hgo : s.releasePoint e [] sc.toNat = .go t) :
    exec (.fence ord sc b) s = .next (s.retired e (.fence ord sc b)
      { state := (if ord = 0 then t.acquire e.core sc.toNat else t).takeOrdinal e, sealed := e.blk.ckptMode }) :=
  issue_retires h (((if_neg ho).trans (if_neg (Nat.not_le.2 hsc))).trans (Gate.act_go hgo _)) rfl

end

/-- The scope at which an IFENCE acts (16 R338). -/
def ifenceScope (sc : BitVec 4) : Nat := if sc.toNat ≤ 1 then 2 else if sc.toNat = 8 then 9 else sc.toNat

section
variable (h : Issues s e (.ifence sc b) []) (hgo : s.releasePoint e [] (ifenceScope sc) = .go t)
include h hgo

theorem exec_ifence_local (ha : e.ctx.phase.answer ≠ .awaiting) (hk : ifenceScope sc < 9) :
    exec (.ifence sc b) s = .next (s.retired e (.ifence sc b)
      { state := (t.dropCode (scopeCores e.core (ifenceScope sc))).takeOrdinal e, sealed := e.blk.ckptMode }) :=
  issue_retires h (((Gate.act_go hgo _).trans (if_neg ha)).trans (if_pos hk)) rfl

theorem exec_ifence_acknowledged (ha : e.ctx.phase.answer = .awaiting) :
    exec (.ifence sc b) s = .next (s.retired e (.ifence sc b) { state := t.takeOrdinal e, sealed := e.blk.ckptMode }) :=
  issue_retires h ((Gate.act_go hgo _).trans (if_pos ha)) rfl

end

end

/-- Settles O25: each instruction once its gate opens. -/
theorem commitPointsCompleteWhenLetThrough : Obligations.CommitPointsCompleteWhenLetThrough := by
  intro s t e ord sc g b k
  exact ⟨exec_chkpt, exec_fence_acquires, exec_fence_narrow, exec_fence_releases,
    fun h hgo => ⟨exec_ifence_local h hgo, exec_ifence_acknowledged h hgo⟩⟩

end Sys2Proof.Machine
end

section
/-!
SUPPORT. Loads and stores of one issuer (17 R344 to R348, 18 R386; 06 R122; 12 R242): what a load comes to once its bytes may be read.
-/
namespace Sys2Proof.Machine

set_option Elab.async false

section
variable {s s1 s2 s3 s4 s5 t : State} {e : Env} {i : Instr} {vals : List Nat}

/-- An instruction that passes its checks, and that no slot matches before it is performed, performs its operation. -/
theorem issue_performs (h : Passes s e i vals) (hearly : s.early e i vals = []) (body : Env → List Nat → State → Act) :
    issue i body s = .next (s.settle i e (e.form i) [] (body e vals s)) := by
  have hact : s.acting e (s.early e i vals) = none := by rw [hearly, acting_nil]
  simp only [issue, h.1.1, State.unhold_self h.1.2, again_self h.1.1, State.perform, checkIssue_pass h hact, hearly]

/-- Such an instruction stays at its PC if its operation waits. -/
theorem issue_holds (h : Passes s e i vals) (hearly : s.early e i vals = []) {body : Env → List Nat → State → Act} {w : Wait}
    (hb : body e vals s = .wait t w) (hw : w.stalls = false) : issue i body s = .next (t.stay i e (e.form i) w) := by
  rw [issue_performs h hearly, hb, settle_wait _ _ _ _ _ (by rw [hw, Bool.and_false])]

/-- No slot matches an instruction that has issued (12 R240). -/
theorem State.early_issued (h : e.ctx.issued = true) : s.early e i vals = [] := if_pos h

/-- A load that is done completes; proctors have seen what it loaded. -/
theorem issue_loads (h : Issues s e i vals) (hi : showsLoad i = true) {body : Env → List Nat → State → Act} {d : Done}
    {x : Option SeenValue} (hd : body e vals s = .done { d with loaded := x }) : issue i body s = .next (s.retired e i d) :=
  (issue_done h hd (fun _ => hi)).trans (congrArg _ (State.retired_loaded s e i d x))

/-! LD (17 R344, R346). -/

section
variable {rd ra : Reg} {sz : BitVec 3} {ord : BitVec 2} {sc : BitVec 4} {b : Bool} {a d : Nat} {ps : List Piece} {bs : List Byte}
  {known : List (Nat × Byte)} {x : Trap}

/-- The acquire that a load's order and scope give it. -/
def loadAcquire (ord : BitVec 2) (sc : BitVec 4) : Option Nat := acquireScope (decide (ord = 1)) sc.toNat

/-- What a load comes to whose bytes may be read: from here, or from other devices. -/
def ldReads (e : Env) (a : Nat) (sz : BitVec 3) (acq : Option Nat) (ps : List Piece) (s : State) : Act :=
  if s.anyAway ps then loadAway e a sz acq ps s
  else
    let q := s.readPieces e.core (s.bufferFor e ps) ps
    match q.2 with
    | .error t => .trap q.1 t
    | .ok bs => .done { state := q.1, vals := [loadValue sz bs], long := true, acquire := acq,
                        src := q.1.readSpan e.blk.space a (sizeBytes sz), loaded := some (seenValue sz (ofBytes bs)) }

/-- A load that gathers no bytes goes on from its translation. -/
theorem exec_ld_translates (hn : ∀ k, e.ctx.phase.answer ≠ .loading k) :
    ∃ body : Env → List Nat → State → Act, exec (.ld rd ra sz ord sc b) s = issue (.ld rd ra sz ord sc b) body s ∧
      (∀ x, s.pieces e.blk.space a (sizeBytes sz) needR = (s1, .error x) → body e [a] s = .trap s1 x) ∧
      (∀ ps, s.pieces e.blk.space a (sizeBytes sz) needR = (s1, .ok ps) → s1.beforeRead e a (sizeBytes sz) = .go s2 →
        body e [a] s = ldReads e a sz (loadAcquire ord sc) ps s2) := by
  refine ⟨_, rfl, fun x hp => ?_, fun ps hp hgo => ?_⟩
  · split
    · exact absurd ‹_› (hn _)
    · simp only [List.getD_cons_zero, hp]
  · split
    · exact absurd ‹_› (hn _)
    · simp only [List.getD_cons_zero, hp, hgo]
      rfl

/-- A load whose translation or permission fails traps. -/
theorem exec_ld_fails (h : Issues s e (.ld rd ra sz ord sc b) [a]) (hn : ∀ k, e.ctx.phase.answer ≠ .loading k)
    (hp : s.pieces e.blk.space a (sizeBytes sz) needR = (s1, .error x)) :
    exec (.ld rd ra sz ord sc b) s = .next (s1.issueTrap (.ld rd ra sz ord sc b) e (e.form (.ld rd ra sz ord sc b)) x) := by
  obtain ⟨body, hbody, hfails, -⟩ := exec_ld_translates (s := s) (s1 := s1) (s2 := s1) (rd := rd) (ra := ra) (sz := sz)
    (ord := ord) (sc := sc) (b := b) (a := a) hn
  rw [hbody, issue_trap h (hfails x hp)]

section
variable (hn : ∀ k, e.ctx.phase.answer ≠ .loading k) (hp : s.pieces e.blk.space a (sizeBytes sz) needR = (s1, .ok ps))
  (hgo : s1.beforeRead e a (sizeBytes sz) = .go s2)
include hn hp hgo

theorem exec_ld_reads : ∃ body : Env → List Nat → State → Act, exec (.ld rd ra sz ord sc b) s = issue (.ld rd ra sz ord sc b) body s ∧
    body e [a] s = ldReads e a sz (loadAcquire ord sc) ps s2 := by
  obtain ⟨body, hbody, -, hreads⟩ := exec_ld_translates (s := s) (rd := rd) (ra := ra) (ord := ord) (sc := sc) (b := b) (a := a) hn
  exact ⟨body, hbody, hreads ps hp hgo⟩

section
variable (h : Issues s e (.ld rd ra sz ord sc b) [a])
include h

/-- A load of which every byte is here is a producer of the value that it reads. -/
theorem exec_ld_here (hhere : s2.anyAway ps = false) (hr : s2.readPieces e.core (s2.bufferFor e ps) ps = (s3, .ok bs)) :
    exec (.ld rd ra sz ord sc b) s = .next (s.retired e (.ld rd ra sz ord sc b)
      { state := s3, vals := [loadValue sz bs], long := true, acquire := loadAcquire ord sc,
        src := s3.readSpan e.blk.space a (sizeBytes sz) }) := by
  obtain ⟨body, hbody, hreads⟩ := exec_ld_reads (rd := rd) (ra := ra) (ord := ord) (sc := sc) (b := b) hn hp hgo
  rw [hbody]
  refine issue_loads (x := some (seenValue sz (ofBytes bs))) h rfl (hreads.trans ?_)
  simp only [ldReads, hhere, hr]
  rfl

/-- A load that meets poison traps. -/
theorem exec_ld_poisoned (hhere : s2.anyAway ps = false) (hr : s2.readPieces e.core (s2.bufferFor e ps) ps = (s3, .error x)) :
    exec (.ld rd ra sz ord sc b) s = .next (s3.issueTrap (.ld rd ra sz ord sc b) e (e.form (.ld rd ra sz ord sc b)) x) := by
  obtain ⟨body, hbody, hreads⟩ := exec_ld_reads (rd := rd) (ra := ra) (ord := ord) (sc := sc) (b := b) hn hp hgo
  rw [hbody]
  refine issue_trap h (hreads.trans ?_)
  simp only [ldReads, hhere, hr]
  rfl

end

section
variable (haway : s2.anyAway ps = true) (hk : s2.knownBytes e.core (s2.bufferFor e ps) a ps = (s3, .ok known))
  (hfew : known.length < sizeBytes sz)
include haway hk hfew

/-- A load that no slot may hold asks other devices for its bytes and is a producer of them. -/
theorem exec_ld_asks (h : Issues s e (.ld rd ra sz ord sc b) [a]) (hfree : s3.holdsLoad e = false) :
    exec (.ld rd ra sz ord sc b) s = .next (s.retired e (.ld rd ra sz ord sc b)
      { state := s3.tick1.askBytes e s3.fresh a ps, long := true, acquire := loadAcquire ord sc,
        src := s3.readSpan e.blk.space a (sizeBytes sz), pid := some s3.fresh, late := some (.load sz known) }) := by
  obtain ⟨body, hbody, hreads⟩ := exec_ld_reads (rd := rd) (ra := ra) (ord := ord) (sc := sc) (b := b) hn hp hgo
  rw [hbody]
  refine issue_retires h (hreads.trans ?_) rfl
  simp only [ldReads, haway, loadAway, hk, ge_iff_le, Nat.not_le.2 hfew, hfree]
  rfl

/-- A load that a slot may hold waits for its bytes. -/
theorem exec_ld_held (h : Passes s e (.ld rd ra sz ord sc b) [a]) (hearly : s.early e (.ld rd ra sz ord sc b) [a] = [])
    (hholds : s3.holdsLoad e = true) : exec (.ld rd ra sz ord sc b) s =
      .next ((s3.askHeld e a ps known).stay (.ld rd ra sz ord sc b) e (e.form (.ld rd ra sz ord sc b)) .watch) := by
  obtain ⟨body, hbody, hreads⟩ := exec_ld_reads (rd := rd) (ra := ra) (ord := ord) (sc := sc) (b := b) hn hp hgo
  rw [hbody]
  refine issue_holds h hearly (hreads.trans ?_) rfl
  simp only [ldReads, haway, loadAway, hk, ge_iff_le, Nat.not_le.2 hfew, hholds]
  rfl

end

end

/-! A load whose bytes are gathered at its PC (12 R242). -/

section
variable (h : Passes s e (.ld rd ra sz ord sc b) [a]) (hi : e.ctx.issued = true) (hl : e.ctx.phase.answer = .loading known)
include h hi hl

theorem exec_ld_gathers (hg : gathered known (sizeBytes sz) = none) : exec (.ld rd ra sz ord sc b) s =
    .next (s.stay (.ld rd ra sz ord sc b) e (e.form (.ld rd ra sz ord sc b)) .watch) := by
  refine issue_holds h (State.early_issued hi) ?_ rfl
  simp only [hl, heldLoad, hg]

theorem exec_ld_gathered (hg : gathered known (sizeBytes sz) = some bs) (hw : s.watchesLate e (.ld rd ra sz ord sc b) = false) :
    exec (.ld rd ra sz ord sc b) s = .next (s.retired e (.ld rd ra sz ord sc b)
      { state := s, vals := [loadValue sz bs], long := true, acquire := loadAcquire ord sc }) := by
  refine issue_loads (x := some (seenValue sz (ofBytes bs))) ⟨h, State.early_issued hi, hw⟩ rfl ?_
  simp only [hl, heldLoad, hg]
  rfl

end

/-! ST (18 R386). -/

/-- A store whose translation or permission fails traps. -/
theorem exec_st_fails (h : Issues s e (.st rd ra sz ord sc b) [a, d])
    (hp : s.pieces e.blk.space a (sizeBytes sz) needW = (s1, .error x)) :
    exec (.st rd ra sz ord sc b) s = .next (s1.issueTrap (.st rd ra sz ord sc b) e (e.form (.st rd ra sz ord sc b)) x) :=
  issue_trap h (by simp only [List.getD_cons_zero, hp])

end

end

/-- Settles O30: by the first step of the access that fails. -/
theorem failedAccessesTrap : Obligations.FailedAccessesTrap := by
  intro s s1 s2 s3 e rd ra sz ord sc b a d x ps ld st hn
  exact ⟨fun h hp => exec_ld_fails h hn hp, exec_st_fails,
    fun h hp hgo hhere hr => exec_ld_poisoned hn hp hgo h hhere hr⟩

end Sys2Proof.Machine
end

section
/-!
SUPPORT. LDE and an answered LDT (17 R348, R352; 05 R96): the element that LDE names, and what each is a producer of.
-/
namespace Sys2Proof.Machine

set_option Elab.async false

section
variable {s s1 s2 s3 s4 s5 : State} {e : Env} {rd ra rb : Reg} {fe : Bool} {g : Guard} {a n : Nat} {p q : Piece}
  {ps qs rs : List Piece} {bs : List Byte}

/-! The address of an element (05 R96). -/

/-- The number of an element within its unit. -/
def elemIndex (p : Piece) (n : Nat) : Nat := n % unitElems p.fmt (pteGeom p.entry)

/-- The address of the unit of an element of the page at a. -/
def elemUnit (p : Piece) (a n : Nat) : Nat := (a + 65536 * (n / unitElems p.fmt (pteGeom p.entry))) % 2 ^ 64

/-- The address of the byte of an element. -/
def elemByte (p : Piece) (a n : Nat) : Nat :=
  elemUnit p a n + (if p.fmt = 1 then elemIndex p n / 2 else elemIndex p n)

/-- An element whose unit has its page's format and geometry has an address. -/
theorem State.elemAddr_found {sp : Space} (ha : a % 65536 = 0) (hlo : 1 ≤ p.fmt) (hhi : p.fmt ≤ 3)
    (hp : s.pieces sp a 1 needR = (s1, .ok (p :: ps))) (hq : s1.pieces sp (elemUnit p a n) 1 needR = (s2, .ok (q :: qs)))
    (hfmt : q.fmt = p.fmt) (hgeom : pteGeom q.entry = pteGeom p.entry) :
    s.elemAddr sp a n = (s2, .ok (p.fmt, elemIndex p n, elemByte p a n)) := by
  have hknown : ¬(p.fmt = 0 ∨ p.fmt > 3) := by omega
  rw [needR] at hp hq
  rw [elemUnit] at hq
  simp only [State.elemAddr, ha, hp, hknown, hq, hfmt, hgeom, ne_eq, not_true_eq_false, if_false]
  rfl

/-! LDE (17 R348). -/

/-- What an LDE comes to whose byte may be read: from here, or from another device. -/
def ldeReads (e : Env) (fmt i a : Nat) (ps : List Piece) (s : State) : Act :=
  let own := (bufferByte (s.bufferFor e ps) a).isSome
  if s.anyAway ps && !own then
    if s.holdsLoad e then .wait (s.askHeld e a ps []) .watch else
    .done { state := s.tick1.askBytes e s.fresh a ps, long := true, pid := some s.fresh, late := some (.lde fmt i) }
  else
  let z := s.readPieces e.core (s.bufferFor e ps) ps
  match z.2 with
  | .error x => .trap z.1 x
  | .ok bs =>
    .done { state := z.1, vals := [ldeValue fmt i (bs.getD 0 0)], long := true, src := z.1.readSpan e.blk.space a 1,
            loaded := some { value := ldeValue fmt i (bs.getD 0 0), words := [ldeValue fmt i (bs.getD 0 0)] } }

section
variable (hn : ∀ k, e.ctx.phase.answer ≠ .loading k)
  (hat : s.elemAddr e.blk.space a (n % 2 ^ 32) = (s2, .ok (p.fmt, elemIndex p (n % 2 ^ 32), elemByte p a (n % 2 ^ 32))))
  (hr : s2.pieces e.blk.space (elemByte p a (n % 2 ^ 32)) 1 needR = (s3, .ok rs))
  (hgo : s3.beforeRead e (elemByte p a (n % 2 ^ 32)) 1 = .go s4)
include hn hat hr hgo

theorem exec_lde_reads : ∃ body : Env → List Nat → State → Act, exec (.lde rd ra rb fe g) s = issue (.lde rd ra rb fe g) body s ∧
    body e [a, n] s = ldeReads e p.fmt (elemIndex p (n % 2 ^ 32)) (elemByte p a (n % 2 ^ 32)) rs s4 := by
  have hsecond : low [a, n] 1 = n % 2 ^ 32 := rfl
  refine ⟨_, rfl, ?_⟩
  simp only [hsecond, List.getD_cons_zero, hat, hr, hgo, Gate.act]
  rfl

variable (h : Issues s e (.lde rd ra rb fe g) [a, n])
include h

/-- An LDE whose byte is here is a producer of its element. -/
theorem exec_lde_here (hhere : s4.anyAway rs = false) (hread : s4.readPieces e.core (s4.bufferFor e rs) rs = (s5, .ok bs)) :
    exec (.lde rd ra rb fe g) s = .next (s.retired e (.lde rd ra rb fe g)
      { state := s5, vals := [ldeValue p.fmt (elemIndex p (n % 2 ^ 32)) (bs.getD 0 0)], long := true,
        src := s5.readSpan e.blk.space (elemByte p a (n % 2 ^ 32)) 1 }) := by
  obtain ⟨body, hbody, hreads⟩ := exec_lde_reads (rd := rd) (ra := ra) (rb := rb) (fe := fe) (g := g) hn hat hr hgo
  rw [hbody]
  let elem := ldeValue p.fmt (elemIndex p (n % 2 ^ 32)) (bs.getD 0 0)
  refine issue_loads (x := some ⟨elem, [elem]⟩) h rfl (hreads.trans ?_)
  simp only [ldeReads, hhere, hread]
  rfl

/-- An LDE whose byte another device holds, and that no slot may hold, asks for it and is a producer of its element. -/
theorem exec_lde_asks (haway : s4.anyAway rs = true) (hbuf : bufferByte (s4.bufferFor e rs) (elemByte p a (n % 2 ^ 32)) = none)
    (hfree : s4.holdsLoad e = false) : exec (.lde rd ra rb fe g) s = .next (s.retired e (.lde rd ra rb fe g)
      { state := s4.tick1.askBytes e s4.fresh (elemByte p a (n % 2 ^ 32)) rs, long := true, pid := some s4.fresh,
        late := some (.lde p.fmt (elemIndex p (n % 2 ^ 32))) }) := by
  obtain ⟨body, hbody, hreads⟩ := exec_lde_reads (rd := rd) (ra := ra) (rb := rb) (fe := fe) (g := g) hn hat hr hgo
  rw [hbody]
  refine issue_retires h (hreads.trans ?_) rfl
  simp only [ldeReads, haway, hbuf, hfree]
  rfl

end

/-! LDT (17 R352). -/

/-- An LDT that its home has answered, and that is no commit point, is a producer of the answer. -/
theorem exec_ldt_answered {sz : BitVec 3} {ord : BitVec 2} {sc : BitVec 4} {b : Bool} {ws : List Word}
    (h : Issues s e (.ldt rd ra sz ord sc b) [a]) (hans : e.ctx.phase.answer = .got ws)
    (hplain : ord ≠ 1 ∨ e.blk.ckptMode = false) :
    exec (.ldt rd ra sz ord sc b) s = .next (s.retired e (.ldt rd ra sz ord sc b)
      { state := s, vals := [loadValue sz ((bytesOf ws).take (sizeBytes sz))], long := true,
        acquire := acquireScope true sc.toNat, src := s.readSpan e.blk.space a (sizeBytes sz) }) := by
  have hpoint : (decide (ord = 1) && e.blk.ckptMode) = false := by
    rcases hplain with ho | hc
    · rw [decide_eq_false ho, Bool.false_and]
    · rw [hc, Bool.and_false]
  refine issue_loads (x := if decide (ord = 1) then none else
    some (seenValue sz (ofBytes ((bytesOf ws).take (sizeBytes sz))))) h rfl ?_
  simp only [hans, hpoint]
  rfl

end

/-- Settles O27: a load by where its bytes are, an element by its address. -/
theorem loadsProduceWhatTheyRead : Obligations.LoadsProduceWhatTheyRead := by
  intro s s1 s2 s3 s4 s5 e rd ra rb sz ord sc b fe g a n p q ps qs rs bs ws known sp fmt geom i u at_ ld lde acq
  refine ⟨fun h hn hp hgo => ⟨exec_ld_here hn hp hgo h, fun haway hk hfew => exec_ld_asks hn hp hgo haway hk hfew h⟩,
    fun h hearly hn hp hgo haway hk hfew => exec_ld_held hn hp hgo haway hk hfew h hearly,
    fun h hi hl => ⟨exec_ld_gathers h hi hl, exec_ld_gathered h hi hl⟩,
    fun h hn ha hlo hhi hp hq hfmt hgeom hr hgo => ?_, exec_ldt_answered⟩
  have hat := State.elemAddr_found (n := n % 2 ^ 32) ha hlo hhi hp hq hfmt hgeom
  exact ⟨exec_lde_here hn hat hr hgo h, exec_lde_asks hn hat hr hgo h⟩

end Sys2Proof.Machine
end

section
/-!
SUPPORT. The bytes of memory (05 R103, R116): what DRAM and a home hold once a byte has been written, a stack-cache copy has gone home,
an L1 line has written a sector back.
-/
namespace Sys2Proof.Machine

set_option Elab.async false

section
variable {s t : State} {c u x : Nat} {b : Byte} {l m : Line}

/-! DRAM (05 R116). -/

/-- Whether an extent covers a cell once a byte has been written. -/
theorem Extent.covers_written (e : Extent) (c x : Nat) :
    (if e.covers c then { e with written := c :: e.written } else e).covers x = (e.covers x && decide (x ≠ c)) := by
  by_cases hx : x = c
  · subst hx
    split
    · simp [Extent.covers]
    · next h => simp [h]
  · split
    · simp [Extent.covers, hx]
    · simp [hx]

theorem State.dramByte_dramPut_self (s : State) (c : Nat) (b : Byte) : (s.dramPut c b).dramByte c = b := by
  have hfree : (s.dramPut c b).blur.find? (fun e => e.covers c) = none := by
    refine List.find?_eq_none.2 fun e he => ?_
    obtain ⟨e0, -, rfl⟩ := List.mem_map.1 he
    simp [Extent.covers_written]
  rw [State.dramByte, hfree]
  exact sget_sput_self _ _ _ _

theorem State.dramByte_dramPut_ne (s : State) (b : Byte) (h : x ≠ c) : (s.dramPut c b).dramByte x = s.dramByte x := by
  have hcovers (e : Extent) : (if e.covers c then { e with written := c :: e.written } else e).covers x = e.covers x := by
    rw [Extent.covers_written, decide_eq_true h, Bool.and_true]
  have hfind : (s.dramPut c b).blur.find? (fun e => e.covers x) =
      (s.blur.find? (fun e => e.covers x)).map (fun e => if e.covers c then { e with written := c :: e.written } else e) := by
    rw [State.dramPut, List.find?_map]
    simp only [Function.comp_def, hcovers]
  rw [State.dramByte, hfind, State.dramByte]
  cases s.blur.find? (fun e => e.covers x) with
  | none => exact sget_sput_ne _ _ _ h
  | some e =>
    show Config.freeByte (if e.covers c then _ else e).epoch x = _
    split <;> rfl

/-- What a cell of DRAM holds depends on memory and on what is undefined alone. -/
theorem State.dramByte_congr (hmem : t.mem = s.mem) (hblur : t.blur = s.blur) (c : Nat) : t.dramByte c = s.dramByte c := by
  rw [State.dramByte, State.dramByte, hmem, hblur]

theorem State.homeByte_congr (hsc : t.scache = s.scache) (hmem : t.mem = s.mem) (hblur : t.blur = s.blur) (c : Nat) :
    t.homeByte c = s.homeByte c := by
  rw [State.homeByte, State.homeByte, State.scFind, State.scFind, hsc, State.dramByte_congr hmem hblur]

/-! Stack-cache copies (05 R103). -/

theorem State.scFind_tag (h : s.scFind u = some l) : l.tag = u := by
  simpa using List.find?_some h

theorem State.scFind_scPut_self (s : State) (l : Line) : (s.scPut l).scFind l.tag = some l := by
  simp [State.scPut, State.scFind]

theorem State.scFind_scPut_ne (s : State) (h : u ≠ l.tag) : (s.scPut l).scFind u = s.scFind u := by
  simp only [State.scPut, State.scFind]
  rw [List.find?_cons_of_neg (by simpa using h.symm), List.find?_filter]
  refine List.find?_congr fun x _ => ?_
  by_cases hx : x.tag = u <;> simp [hx, h]

/-! Writes of several bytes at a home. -/

/-- A cell after bytes have been written one by one upward: the byte written there, else what the rest of the writing leaves. -/
theorem getD_cons_window (bs : List Byte) (b : Byte) (lo x : Nat) (old : Byte) :
    (if lo + 1 ≤ x ∧ x < lo + 1 + bs.length then bs.getD (x - (lo + 1)) 0 else if x = lo then b else old) =
      if lo ≤ x ∧ x < lo + (b :: bs).length then (b :: bs).getD (x - lo) 0 else old := by
  rcases Nat.lt_trichotomy x lo with h | rfl | h
  · rw [if_neg (by omega), if_neg (by omega), if_neg (by omega)]
  · rw [if_neg (by omega), if_pos rfl, if_pos (by simp), Nat.sub_self, List.getD_cons_zero]
  · obtain ⟨k, rfl⟩ : ∃ k, x = lo + 1 + k := ⟨x - (lo + 1), by omega⟩
    have hin : (lo + 1 ≤ lo + 1 + k ∧ lo + 1 + k < lo + 1 + bs.length) ↔
        (lo ≤ lo + 1 + k ∧ lo + 1 + k < lo + (b :: bs).length) := by
      rw [List.length_cons]
      omega
    rw [show lo + 1 + k - (lo + 1) = k by omega, show lo + 1 + k - lo = k + 1 by omega, List.getD_cons_succ,
      if_neg (show ¬lo + 1 + k = lo by omega)]
    exact if_congr hin rfl rfl

theorem sget_writeSparse (m : Memory) (lo : Nat) (bs : List Byte) (x : Nat) :
    sget 0 (writeSparse m lo bs) x = if lo ≤ x ∧ x < lo + bs.length then bs.getD (x - lo) 0 else sget 0 m x := by
  induction bs generalizing m lo with
  | nil => exact (if_neg (by simp)).symm
  | cons b bs ih => rw [writeSparse, ih, sget_sput, getD_cons_window]

theorem State.dramByte_dramPut (s : State) (c : Nat) (b : Byte) (x : Nat) :
    (s.dramPut c b).dramByte x = if x = c then b else s.dramByte x := by
  split
  · next h => rw [h, State.dramByte_dramPut_self]
  · next h => exact s.dramByte_dramPut_ne b h

theorem State.dramByte_dramWrite (s : State) (c : Nat) (bs : List Byte) (x : Nat) :
    (s.dramWrite c bs).dramByte x = if c ≤ x ∧ x < c + bs.length then bs.getD (x - c) 0 else s.dramByte x := by
  induction bs generalizing s c with
  | nil => exact (if_neg (by simp)).symm
  | cons b bs ih => rw [State.dramWrite, ih, State.dramByte_dramPut, getD_cons_window]

@[simp] theorem State.dramWrite_scache (s : State) (c : Nat) (bs : List Byte) : (s.dramWrite c bs).scache = s.scache := by
  induction bs generalizing s c with
  | nil => rfl
  | cons b bs ih => exact ih (s.dramPut c b) (c + 1)

/-- The bytes of a home after a write within one unit. -/
theorem State.homeByte_homeWrite (s : State) {c : Nat} {bs : List Byte} (hfit : c % 64 + bs.length ≤ 64) (x : Nat) :
    (s.homeWrite c bs).homeByte x = if c ≤ x ∧ x < c + bs.length then bs.getD (x - c) 0 else s.homeByte x := by
  have hunit (h : c ≤ x ∧ x < c + bs.length) : x / 64 = c / 64 := by omega
  unfold State.homeWrite
  cases hf : s.scFind (c / 64) with
  | none =>
    have hscan : ((s.dramWrite c bs).clearPoison c bs.length).scFind (x / 64) = s.scFind (x / 64) :=
      congrArg (List.find? _) (s.dramWrite_scache c bs)
    show ((s.dramWrite c bs).clearPoison c bs.length).homeByte x = _
    rw [State.homeByte, State.homeByte, hscan]
    cases hx : s.scFind (x / 64) with
    | none => exact s.dramByte_dramWrite c bs x
    | some l =>
      refine (if_neg fun h => ?_).symm
      rw [hunit h, hf] at hx
      cases hx
  | some l =>
    have htag : l.tag = c / 64 := State.scFind_tag hf
    let new : Line := { l with bytes := writeSparse l.bytes (c % 64) bs, dirty := l.dirty ||| maskOf (c % 64) bs.length }
    show (s.scPut new).homeByte x = _
    by_cases hx : x / 64 = c / 64
    · have hnew : (s.scPut new).scFind (x / 64) = some new := by
        rw [hx, ← htag]
        exact s.scFind_scPut_self new
      have hold : s.scFind (x / 64) = some l := by rw [hx, hf]
      rw [State.homeByte, State.homeByte, hnew, hold]
      show sget 0 (writeSparse l.bytes (c % 64) bs) (x % 64) = _
      rw [sget_writeSparse, show x % 64 - c % 64 = x - c by omega]
      exact if_congr (by omega) rfl rfl
    · have hold : (s.scPut new).scFind (x / 64) = s.scFind (x / 64) := s.scFind_scPut_ne (by rwa [← htag] at hx)
      rw [State.homeByte, State.homeByte, hold, if_neg (mt hunit hx)]
      rfl

/-! A stack-cache copy goes home (15 R310). -/

/-- DRAM after the first n dirty bytes of a copy have been written back. -/
def State.putDirty (s : State) (l : Line) (n : Nat) : State :=
  (List.range n).foldl (fun t i => if bitAt l.dirty i then t.dramPut (l.tag * 64 + i) (sget 0 l.bytes i) else t) s

theorem State.putDirty_succ (s : State) (l : Line) (n : Nat) : s.putDirty l (n + 1) =
    if bitAt l.dirty n then (s.putDirty l n).dramPut (l.tag * 64 + n) (sget 0 l.bytes n) else s.putDirty l n := by
  rw [State.putDirty, List.range_succ, List.foldl_append]
  rfl

theorem State.putDirty_rest (s : State) (l : Line) (n : Nat) : (s.putDirty l n).scache = s.scache ∧
    (s.putDirty l n).device = s.device ∧ (s.putDirty l n).amap = s.amap ∧ (s.putDirty l n).apwin = s.apwin := by
  induction n with
  | zero => exact ⟨rfl, rfl, rfl, rfl⟩
  | succ n ih =>
    rw [State.putDirty_succ]
    split
    · exact ih
    · exact ih

theorem State.dramByte_putDirty (s : State) (l : Line) (n j : Nat) : (s.putDirty l n).dramByte (l.tag * 64 + j) =
    if j < n ∧ bitAt l.dirty j = true then sget 0 l.bytes j else s.dramByte (l.tag * 64 + j) := by
  induction n with
  | zero => exact (if_neg (by simp)).symm
  | succ n ih =>
    rw [State.putDirty_succ]
    by_cases hj : j = n
    · subst hj
      split
      · next hd => rw [State.dramByte_dramPut_self, if_pos ⟨Nat.lt_succ_self j, hd⟩]
      · next hd => rw [ih, if_neg (by simp), if_neg (by simp [hd])]
    · have hiff : (j < n + 1 ∧ bitAt l.dirty j = true) ↔ (j < n ∧ bitAt l.dirty j = true) :=
        and_congr_left fun _ => by omega
      split
      · rw [State.dramByte_dramPut_ne _ _ (by omega), ih]
        exact if_congr hiff.symm rfl rfl
      · rw [ih]
        exact if_congr hiff.symm rfl rfl

/-- A copy's write-back leaves the cells of other units. -/
theorem State.dramByte_putDirty_ne (s : State) {n : Nat} (hn : n ≤ 64) (h : x / 64 ≠ l.tag) :
    (s.putDirty l n).dramByte x = s.dramByte x := by
  induction n with
  | zero => rfl
  | succ n ih =>
    rw [State.putDirty_succ]
    split
    · rw [State.dramByte_dramPut_ne _ _ (by omega), ih (by omega)]
    · exact ih (by omega)

theorem State.scClean_eq (s : State) (l : Line) : s.scClean l = (if l.dirty = 0 then s.putDirty l 64
    else ((s.putDirty l 64).noteDram l.tag .normal).msideTouch l.tag).scPut { l with dirty := 0 } := rfl

/-- A copy goes home over DRAM, and stays clean. -/
theorem State.scClean_eq_scPut (s : State) (l : Line) : ∃ t : State, s.scClean l = t.scPut { l with dirty := 0 } ∧
    t.scache = (s.putDirty l 64).scache ∧ t.mem = (s.putDirty l 64).mem ∧ t.blur = (s.putDirty l 64).blur ∧
    t.device = (s.putDirty l 64).device ∧ t.amap = (s.putDirty l 64).amap ∧ t.apwin = (s.putDirty l 64).apwin := by
  refine ⟨_, s.scClean_eq l, ?_⟩
  generalize s.putDirty l 64 = t
  split <;> exact ⟨rfl, rfl, rfl, rfl, rfl, rfl⟩

theorem State.dramByte_scClean (s : State) (l : Line) (x : Nat) : (s.scClean l).dramByte x = (s.putDirty l 64).dramByte x := by
  obtain ⟨t, ht, -, hmem, hblur, -⟩ := s.scClean_eq_scPut l
  rw [ht]
  exact State.dramByte_congr hmem hblur x

theorem State.scClean_rest (s : State) (l : Line) : (s.scClean l).device = s.device ∧ (s.scClean l).amap = s.amap ∧
    (s.scClean l).apwin = s.apwin := by
  obtain ⟨-, hdevice, hamap, hapwin⟩ := s.putDirty_rest l 64
  obtain ⟨t, ht, -, -, -, hd, ha, hw⟩ := s.scClean_eq_scPut l
  rw [ht]
  exact ⟨hd.trans hdevice, ha.trans hamap, hw.trans hapwin⟩

theorem State.scFind_scClean_self (s : State) (l : Line) : (s.scClean l).scFind l.tag = some { l with dirty := 0 } := by
  obtain ⟨t, ht, -⟩ := s.scClean_eq_scPut l
  rw [ht]
  exact t.scFind_scPut_self { l with dirty := 0 }

theorem State.scFind_scClean_ne (s : State) (h : u ≠ l.tag) : (s.scClean l).scFind u = s.scFind u := by
  obtain ⟨t, ht, hsc, -⟩ := s.scClean_eq_scPut l
  rw [ht, State.scFind_scPut_ne t (l := { l with dirty := 0 }) h]
  exact congrArg (List.find? _) (hsc.trans (s.putDirty_rest l 64).1)

theorem State.scFind_scDrop_self (s : State) (l : Line) : (s.scDrop l).scFind l.tag = none := by
  refine List.find?_eq_none.2 fun y hy hmatch => ?_
  obtain ⟨-, hother⟩ := List.mem_filter.1 hy
  simp_all

theorem State.scFind_scDrop_ne (s : State) (h : u ≠ l.tag) : (s.scDrop l).scFind u = s.scFind u := by
  rw [← s.scFind_scClean_ne h, State.scFind, State.scFind, State.scDrop, List.find?_filter]
  refine List.find?_congr fun y _ => ?_
  by_cases hy : y.tag = u <;> simp [hy, h]

theorem State.dramByte_scDrop (s : State) (l : Line) (x : Nat) : (s.scDrop l).dramByte x = (s.putDirty l 64).dramByte x :=
  s.dramByte_scClean l x

/-- Where an address lies depends on the mapping registers and the device alone (05 R89, R106, R110). -/
theorem State.paCell_congr (hdevice : t.device = s.device) (hamap : t.amap = s.amap) (hapwin : t.apwin = s.apwin) (pa : Nat) :
    t.paCell pa = s.paCell pa := by
  have hregion (n : Nat) : t.region n = s.region n := by rw [State.region, State.region, hamap]
  simp only [State.paCell, State.localCell, State.apertureCell, State.maps, hregion, hdevice, hapwin]

theorem canonCell_mod {maps : List (Nat × Mapping)} {a : Nat} (h : canonCell maps a = some c) : c % 64 = a % 64 := by
  unfold canonCell at h
  split at h
  · cases h
  · obtain rfl := Option.some_inj.1 h
    rw [Nat.mul_add_mod', Nat.mod_mod]

theorem State.apertureCell_mod {kind o : Nat} (h : s.apertureCell kind o = some c) : c % 64 = o % 64 := by
  unfold State.apertureCell at h
  dsimp only at h
  split at h
  · cases h
  · split at h
    · obtain rfl := Option.some_inj.1 h
      rw [Nat.mul_add_mod', Nat.mod_mod]
    · cases h

theorem State.localCell_mod {k : Nat} (h : s.localCell k = some c) : c % 64 = k % 64 := by
  have hbase : 2 ^ 41 = 64 * 2 ^ 35 := by norm_num
  have hsize : 64 ∣ 2 ^ 39 := by norm_num
  unfold State.localCell at h
  split at h
  · exact canonCell_mod h
  · next hlow =>
    dsimp only at h
    split at h
    · rw [State.apertureCell_mod h, Nat.mod_mod_of_dvd _ hsize, hbase, Nat.sub_mul_mod (hbase ▸ Nat.not_lt.1 hlow)]
    · cases h

/-- A cell lies in its unit where its address lies in its own (05 R105, R110). -/
theorem State.paCell_mod {pa : Nat} (h : s.paCell pa = some c) : c % 64 = pa % 64 := by
  unfold State.paCell at h
  split at h
  · rw [State.localCell_mod h, Nat.mod_mod_of_dvd _ (by norm_num)]
  · cases h

end

end Sys2Proof.Machine
end

section
/-!
SUPPORT. The lines of the L1s (05 R102; 07 R161): which lines a recall, a write-back and a push leave.
-/
namespace Sys2Proof.Machine

set_option Elab.async false

/-! What leaves every L1 as it is. -/

/-- A fold whose every step leaves the L1s as they are leaves them so. -/
theorem foldl_l1 {α : Type} {f : State → α → State} (h : ∀ s x, (f s x).l1 = s.l1) (xs : List α) (s : State) :
    (xs.foldl f s).l1 = s.l1 :=
  List.foldlRecOn xs f (motive := fun t => t.l1 = s.l1) rfl fun t ht x _ => (h t x).trans ht

@[simp] theorem State.dramWrite_l1 (s : State) (c : Nat) (bs : List Byte) : (s.dramWrite c bs).l1 = s.l1 := by
  induction bs generalizing s c with
  | nil => rfl
  | cons b bs ih => exact ih (s.dramPut c b) (c + 1)

@[simp] theorem State.homeWrite_l1 (s : State) (c : Nat) (bs : List Byte) : (s.homeWrite c bs).l1 = s.l1 := by
  unfold State.homeWrite
  split <;> simp

@[simp] theorem State.putBytes_l1 (s : State) (unc : Bool) (c : Nat) (bs : List Byte) : (s.putBytes unc c bs).l1 = s.l1 := by
  unfold State.putBytes
  split <;> simp

@[simp] theorem State.ridgeSend_l1 (s : State) (rc : RidgeClass) (src dst : Nat) (data : List Nat) (reader : Option Nat) :
    (s.ridgeSend rc src dst data reader).l1 = s.l1 := by
  unfold State.ridgeSend
  split <;> rfl

@[simp] theorem State.noteDram_l1 (s : State) (unit : Nat) (cls : DramClass) (reading : Bool) (reader : Option Nat) :
    (s.noteDram unit cls reading reader).l1 = s.l1 := rfl

@[simp] theorem State.note_l1 (s : State) (core c n : Nat) (cls : DramClass) (rc : RidgeClass) :
    (s.note core c n cls rc).l1 = s.l1 := by
  simp [State.note]

@[simp] theorem State.sendRecord_l1 (s : State) (queue : Nat) (r : FaultRec) : (s.sendRecord queue r).l1 = s.l1 := rfl

@[simp] theorem State.combineLine_l1 (s : State) (l : Line) : (s.combineLine l).l1 = s.l1 := by
  unfold State.combineLine State.combineAt
  split
  · rfl
  · refine foldl_l1 (fun t off => ?_) _ s
    dsimp only
    split
    · rfl
    · split
      · exact foldl_l1 (fun u g => u.sendRecord_l1 _ _) _ t
      · simp

@[simp] theorem State.noteBack_l1 (s : State) (l : Line) (u : Nat) : (s.noteBack l u).l1 = s.l1 := by
  unfold State.noteBack
  split
  · rfl
  · dsimp only
    split <;> simp

/-! The line of a core at a tag. -/

section
variable {s t : State} {core tag c n : Nat} {l m : Line}

/-- From s to t a core's line at a tag stays or goes. -/
def State.KeepsLine (s t : State) (core tag : Nat) : Prop := ∀ l, t.l1Find core tag = some l → s.l1Find core tag = some l

theorem State.KeepsLine.of_l1 (h : t.l1 = s.l1) : s.KeepsLine t core tag := fun l hl => by
  rwa [State.l1Find, h] at hl

theorem State.KeepsLine.trans {u : State} (h : s.KeepsLine t core tag) (k : t.KeepsLine u core tag) : s.KeepsLine u core tag :=
  fun l hl => h l (k l hl)

theorem State.KeepsLine.foldl {α : Type} {f : State → α → State} (h : ∀ (s : State) x, s.KeepsLine (f s x) core tag) (xs : List α)
    (s : State) :
    s.KeepsLine (xs.foldl f s) core tag :=
  List.foldlRecOn xs f (motive := fun t => s.KeepsLine t core tag) (fun _ hl => hl) fun t ht x _ => ht.trans (h t x)

theorem State.l1Find_key (h : s.l1Find core tag = some l) : l.core = core ∧ l.tag = tag := by
  simpa using List.find?_some h

/-- A line of another place is found or not whatever lines of a place have gone. -/
theorem State.l1Find_l1Drop_ne (s : State) (h : ¬(core = c ∧ tag = n)) : (s.l1Drop c n).l1Find core tag = s.l1Find core tag := by
  rw [State.l1Find, State.l1Find, State.l1Drop, List.find?_filter]
  refine List.find?_congr fun y _ => ?_
  rw [Bool.eq_iff_iff]
  simp only [Bool.and_eq_true, Bool.not_eq_true', Bool.and_eq_false_iff, beq_iff_eq, beq_eq_false_iff_ne]
  grind

theorem State.keepsLine_l1Drop (s : State) (c n : Nat) : s.KeepsLine (s.l1Drop c n) core tag := by
  intro l hl
  by_cases h : core = c ∧ tag = n
  · obtain ⟨rfl, rfl⟩ := h
    rw [State.l1Find_l1Drop_self] at hl
    cases hl
  · rwa [s.l1Find_l1Drop_ne h] at hl

theorem State.l1Find_l1Put_self (s : State) (l : Line) : (s.l1Put l).l1Find l.core l.tag = some l := by
  simp [State.l1Put, State.l1Find]

theorem State.keepsLine_l1Put (s : State) (h : l.core ≠ core) : s.KeepsLine (s.l1Put l) core tag := by
  intro m hm
  rw [← s.l1Find_l1Drop_ne (c := l.core) (n := l.tag) (fun hc => h hc.1.symm)]
  rw [State.l1Find, State.l1Put, List.find?_cons_of_neg (by simp [h])] at hm
  exact hm

theorem State.keepsLine_recall (s : State) (unit : Nat) : s.KeepsLine (s.recall unit) core tag := by
  unfold State.recall
  split
  · exact fun _ hl => hl
  · exact State.KeepsLine.foldl
      (fun u m => (State.KeepsLine.of_l1 (u.combineLine_l1 m)).trans ((u.combineLine m).keepsLine_l1Drop m.core m.tag)) _ _

/-- The state in which the dirty bytes of sector k of a line have been written from cell c on. -/
def State.putSector (s : State) (l : Line) (k c : Nat) : State :=
  if bits l.dirty (32 * k) 32 = 2 ^ 32 - 1 then s.homeWrite c (readSparse l.bytes (32 * k) 32)
  else (List.range 32).foldl (fun t i =>
    if bitAt l.dirty (32 * k + i) then t.homeWrite (c + i) [sget 0 l.bytes (32 * k + i)] else t) s

theorem State.writeSector_eq (s : State) (l : Line) {k : Nat} (h : s.paCell (l.tag * 128 + 32 * k) = some c) : s.writeSector l k =
    if bitAt l.poison k then ((s.recall (c / 64)).putSector l k c).addPoison c 1 6 else (s.recall (c / 64)).putSector l k c := by
  unfold State.writeSector
  rw [h]
  rfl

theorem State.putSector_l1 (s : State) (l : Line) (k c : Nat) : (s.putSector l k c).l1 = s.l1 := by
  unfold State.putSector
  split
  · simp
  · refine foldl_l1 (fun u i => ?_) _ s
    split <;> simp

theorem State.writeSector_l1 (s : State) (l : Line) {k : Nat} (h : s.paCell (l.tag * 128 + 32 * k) = some c) :
    (s.writeSector l k).l1 = (s.recall (c / 64)).l1 := by
  rw [s.writeSector_eq l h]
  split <;> exact State.putSector_l1 _ l k c

theorem State.keepsLine_writeSector (s : State) (l : Line) (k : Nat) : s.KeepsLine (s.writeSector l k) core tag := by
  cases h : s.paCell (l.tag * 128 + 32 * k) with
  | none =>
    unfold State.writeSector
    rw [h]
    exact fun _ hl => hl
  | some c => exact (s.keepsLine_recall (c / 64)).trans (State.KeepsLine.of_l1 (s.writeSector_l1 l h))

/-- The state in which the dirty bytes of a line have been written back, but for the line itself. -/
def State.wroteBack (s : State) (l : Line) : State :=
  [0, 1].foldl (fun t u => t.noteBack l u)
    ((List.range 4).foldl (fun t k => if bits l.dirty (32 * k) 32 = 0 then t else t.writeSector l k) s)

theorem State.writeBack_clean (h : l.dirty = 0) : s.writeBack l = s := if_pos h

theorem State.writeBack_dirty (h : l.dirty ≠ 0) : s.writeBack l = (s.wroteBack l).l1Put { l with dirty := 0 } := if_neg h

theorem State.keepsLine_wroteBack (s : State) (l : Line) : s.KeepsLine (s.wroteBack l) core tag := by
  refine (State.KeepsLine.foldl (fun t k => ?_) _ s).trans (State.KeepsLine.foldl (fun t u => State.KeepsLine.of_l1 (t.noteBack_l1 l u)) _ _)
  split
  · exact fun _ hl => hl
  · exact t.keepsLine_writeSector l k

/-- A core's write-back leaves no line of another core that it did not find. -/
theorem State.keepsLine_writeBack (s : State) (h : l.core ≠ core) : s.KeepsLine (s.writeBack l) core tag := by
  by_cases hd : l.dirty = 0
  · rw [State.writeBack_clean hd]
    exact fun _ hl => hl
  · rw [State.writeBack_dirty hd]
    exact (s.keepsLine_wroteBack l).trans (State.keepsLine_l1Put (l := { l with dirty := 0 }) _ h)

theorem State.keepsLine_pushLine (s : State) (h : l.core ≠ core) : s.KeepsLine (s.pushLine l) core tag := by
  unfold State.pushLine
  split
  · exact (State.KeepsLine.of_l1 (s.combineLine_l1 l)).trans (State.keepsLine_l1Drop _ _ _)
  · exact s.keepsLine_writeBack h

/-- A line written back is clean. -/
theorem State.l1Find_writeBack (h : s.l1Find core tag = some l) (hm : (s.writeBack l).l1Find core tag = some m) : m.dirty = 0 := by
  obtain ⟨rfl, rfl⟩ := State.l1Find_key h
  by_cases hd : l.dirty = 0
  · rw [State.writeBack_clean hd, h] at hm
    cases hm
    exact hd
  · rw [State.writeBack_dirty hd] at hm
    rw [(s.wroteBack l).l1Find_l1Put_self { l with dirty := 0 }] at hm
    cases hm
    rfl

theorem State.l1Find_pushLine_update (h : s.l1Find core tag = some l) (hred : l.red ≠ none) :
    (s.pushLine l).l1Find core tag = none := by
  obtain ⟨rfl, rfl⟩ := State.l1Find_key h
  unfold State.pushLine
  split
  · exact State.l1Find_l1Drop_self _ _ _
  · contradiction

end

end Sys2Proof.Machine
end

section
/-!
SUPPORT. PREF, CFLUSH and CINV (15 R310, R311; 17 R368, R369): the line that a maintenance leaves in an L1 and at its home, and what the
instructions complete with.
-/
namespace Sys2Proof.Machine

set_option Elab.async false

section
variable {s t : State} {core tag c u i j k : Nat} {l m : Line} {discard : Bool}

/-! One line in one L1 (15 R310). -/

/-- Write back or discard the line of one core. -/
def State.maintainLine (s : State) (tag : Nat) (discard : Bool) (core : Nat) : State :=
  match s.l1Find core tag with
  | none => s
  | some l =>
    match l.red with
    | some _ => s.pushLine l
    | none => if discard then s.l1Drop core tag else s.writeBack l

theorem State.maintainL1_eq (s : State) (cores : List Nat) (tag : Nat) (discard : Bool) :
    s.maintainL1 cores tag discard = cores.foldl (fun t core => t.maintainLine tag discard core) s := rfl

/-- A line that has been maintained is clean, or gone. -/
theorem State.l1Find_maintainLine (h : (s.maintainLine tag discard core).l1Find core tag = some m) :
    discard = false ∧ m.dirty = 0 := by
  unfold State.maintainLine at h
  split at h
  · next hnone =>
    rw [hnone] at h
    cases h
  · next l hl =>
    split at h
    · next op hred =>
      rw [State.l1Find_pushLine_update hl (by simp [hred])] at h
      cases h
    · split at h
      · rw [State.l1Find_l1Drop_self] at h
        cases h
      · next hd => exact ⟨Bool.eq_false_iff.2 hd, State.l1Find_writeBack hl h⟩

theorem State.keepsLine_maintainLine (s : State) (tag : Nat) (discard : Bool) {n : Nat} (h : n ≠ core) :
    s.KeepsLine (s.maintainLine tag discard n) core tag := by
  unfold State.maintainLine
  split
  · exact fun _ hl => hl
  · next l hl =>
    obtain ⟨hcore, -⟩ := State.l1Find_key hl
    split
    · exact s.keepsLine_pushLine (hcore ▸ h)
    · split
      · exact s.keepsLine_l1Drop n tag
      · exact s.keepsLine_writeBack (hcore ▸ h)

/-- Of a line that has been maintained in the L1s of some cores each of these holds a clean copy, or none. -/
theorem State.l1Find_maintainL1 {cores : List Nat} (hc : core ∈ cores) (h : (s.maintainL1 cores tag discard).l1Find core tag = some m) :
    discard = false ∧ m.dirty = 0 := by
  rw [State.maintainL1_eq] at h
  induction cores using List.reverseRecOn generalizing m with
  | nil => cases hc
  | append_singleton cores n ih =>
    rw [List.foldl_append, List.foldl_cons, List.foldl_nil] at h
    by_cases hn : n = core
    · subst hn
      exact State.l1Find_maintainLine h
    · have hmem : core ∈ cores := (List.mem_append.1 hc).resolve_right (fun hlast => hn (List.mem_singleton.1 hlast).symm)
      exact ih hmem (State.keepsLine_maintainLine _ tag discard hn m h)

/-! The bytes of a sector that is written back (05 R102). -/

theorem State.noteBack_homeByte (s : State) (l : Line) (u c : Nat) : (s.noteBack l u).homeByte c = s.homeByte c := by
  unfold State.noteBack State.ridgeSend
  split
  · rfl
  · dsimp only
    split
    · rfl
    · split <;> exact State.homeByte_congr rfl rfl rfl c

/-- Bytes written one by one where a condition holds. -/
theorem State.homeByte_foldl_homeWrite (s : State) (c : Nat) (p : Nat → Bool) (f : Nat → Byte) (xs : List Nat) (i : Nat) :
    (xs.foldl (fun t i => if p i then t.homeWrite (c + i) [f i] else t) s).homeByte (c + i) =
      if i ∈ xs ∧ p i = true then f i else s.homeByte (c + i) := by
  induction xs using List.reverseRecOn with
  | nil => exact (if_neg (by simp)).symm
  | append_singleton xs n ih =>
    rw [List.foldl_append, List.foldl_cons, List.foldl_nil]
    by_cases hp : p n = true
    · rw [if_pos hp, State.homeByte_homeWrite _ (by simp; omega), ih]
      by_cases hn : i = n
      · subst hn
        rw [if_pos (by simp), if_pos (by simp [hp])]
        simp
      · rw [if_neg (by simp; omega)]
        exact if_congr (by simp [hn]) rfl rfl
    · rw [if_neg hp, ih]
      refine if_congr ?_ rfl rfl
      rw [List.mem_append, List.mem_singleton]
      exact and_congr_left fun hpi => (or_iff_left (fun hin : i = n => hp (hin ▸ hpi))).symm

theorem getD_readSparse (bytes : Memory) {lo n : Nat} (h : i < n) : (readSparse bytes lo n).getD i 0 = sget 0 bytes (lo + i) := by
  simp [readSparse, span, h]

theorem State.homeByte_putSector (s : State) (hc : c % 64 + 32 ≤ 64) (hi : i < 32) (hd : bitAt l.dirty (32 * k + i) = true) :
    (s.putSector l k c).homeByte (c + i) = sget 0 l.bytes (32 * k + i) := by
  unfold State.putSector
  split
  · have hlen : (readSparse l.bytes (32 * k) 32).length = 32 := by simp [readSparse, span]
    rw [State.homeByte_homeWrite s (by rw [hlen]; exact hc), hlen, if_pos (by omega), Nat.add_sub_cancel_left, getD_readSparse _ hi]
  · rw [State.homeByte_foldl_homeWrite s c (fun i => bitAt l.dirty (32 * k + i)) (fun i => sget 0 l.bytes (32 * k + i))]
    exact if_pos ⟨List.mem_range.2 hi, hd⟩

/-- A fold of which one step alone acts. -/
theorem foldl_eq_step {α : Type} {f : State → α → State} {xs : List α} {x : α} (hx : x ∈ xs) (hn : xs.Nodup)
    (h : ∀ t, ∀ y ∈ xs, y ≠ x → f t y = t) (s : State) : xs.foldl f s = f s x := by
  have hskip (ys : List α) (hsub : ys ⊆ xs) (hnot : x ∉ ys) (t : State) : ys.foldl f t = t :=
    List.foldlRecOn ys f (motive := fun u => u = t) rfl fun u hu y hy =>
      (h u y (hsub hy) (fun heq => hnot (heq ▸ hy))).trans hu
  obtain ⟨as, bs, rfl⟩ := List.append_of_mem hx
  obtain ⟨-, hcons, hdisj⟩ := List.nodup_append.1 hn
  rw [List.foldl_append, List.foldl_cons, hskip as (fun y hy => by simp [hy]) (fun hin => hdisj x hin x (by simp) rfl) s,
    hskip bs (fun y hy => by simp [hy]) (List.nodup_cons.1 hcons).1]

theorem bits_ne_zero {x lo n i : Nat} (hi : i < n) (h : bitAt x (lo + i) = true) : bits x lo n ≠ 0 := by
  intro hz
  have htest : (bits x lo n).testBit i = true := by
    rw [bits, Nat.testBit_mod_two_pow, decide_eq_true hi, Bool.true_and, Nat.testBit_shiftRight]
    exact h
  rw [hz, Nat.zero_testBit] at htest
  cases htest

/-- A line of which one sector is dirty leaves that sector's dirty bytes at their home. -/
theorem State.homeByte_maintainL1 (hl : s.l1Find core tag = some l) (hred : l.red = none) (hj : j < 4)
    (hone : ∀ h, h < 4 → h ≠ j → bits l.dirty (32 * h) 32 = 0) (hc : s.paCell (tag * 128 + 32 * j) = some c) (hi : i < 32)
    (hd : bitAt l.dirty (32 * j + i) = true) :
    (s.maintainL1 [core] tag false).homeByte (c + i) = sget 0 l.bytes (32 * j + i) := by
  obtain ⟨-, rfl⟩ := State.l1Find_key hl
  have hsector : bits l.dirty (32 * j) 32 ≠ 0 := bits_ne_zero hi hd
  have hdirty : l.dirty ≠ 0 := fun hz => hsector (by rw [hz, bits, Nat.zero_shiftRight, Nat.zero_mod])
  have hline : s.maintainL1 [core] l.tag false = s.writeBack l := by
    show s.maintainLine l.tag false core = _
    unfold State.maintainLine
    rw [hl]
    simp only [hred]
    rfl
  have hfold : (List.range 4).foldl (fun t k => if bits l.dirty (32 * k) 32 = 0 then t else t.writeSector l k) s =
      s.writeSector l j :=
    (foldl_eq_step (List.mem_range.2 hj) List.nodup_range
      (fun t h hmem hne => if_pos (hone h (List.mem_range.1 hmem) hne)) s).trans (if_neg hsector)
  have hfit : c % 64 + 32 ≤ 64 := by
    have := State.paCell_mod hc
    omega
  rw [hline, State.writeBack_dirty hdirty]
  show (s.wroteBack l).homeByte (c + i) = _
  rw [State.wroteBack, hfold, List.foldl_cons, List.foldl_cons, List.foldl_nil, State.noteBack_homeByte, State.noteBack_homeByte,
    s.writeSector_eq l hc]
  split <;> exact State.homeByte_putSector _ hfit hi hd

/-! One line at its home (15 R310). -/

/-- Write back the copy of the unit at an address in its home stack cache, and invalidate it if asked. -/
def State.maintainUnit (s : State) (discard : Bool) (pa : Nat) : State :=
  match s.paCell pa with
  | none => s
  | some c =>
    match s.scFind (c / 64) with
    | none => s
    | some l => if discard then s.scDrop l else s.scClean l

theorem State.maintainHome_eq (s : State) (tag : Nat) (discard : Bool) :
    s.maintainHome tag discard = (s.maintainUnit discard (tag * 128)).maintainUnit discard (tag * 128 + 64) := rfl

/-- What maintaining the unit at an address is: nothing, or the copy found there goes home and is kept clean or dropped. -/
theorem State.maintainUnit_cases (s : State) (discard : Bool) (pa : Nat) :
    (s.maintainUnit discard pa = s ∧ ∀ c, s.paCell pa = some c → s.scFind (c / 64) = none) ∨
    ∃ c l, s.paCell pa = some c ∧ s.scFind (c / 64) = some l ∧
      s.maintainUnit discard pa = if discard then s.scDrop l else s.scClean l := by
  unfold State.maintainUnit
  cases hc : s.paCell pa with
  | none => exact .inl ⟨rfl, nofun⟩
  | some c =>
    cases hf : s.scFind (c / 64) with
    | none =>
      refine .inl ⟨by simp only [hf], fun c' hc' => ?_⟩
      cases hc'
      exact hf
    | some l => exact .inr ⟨c, l, rfl, hf, by simp only [hf]⟩

theorem State.goneHome_dramByte (s : State) (l : Line) (discard : Bool) (x : Nat) :
    (if discard then s.scDrop l else s.scClean l).dramByte x = (s.putDirty l 64).dramByte x := by
  split
  · exact s.dramByte_scDrop l x
  · exact s.dramByte_scClean l x

/-- A copy that has gone home is kept clean, or is gone. -/
theorem State.goneHome_scFind (h : (if discard then s.scDrop l else s.scClean l).scFind l.tag = some m) :
    discard = false ∧ m.dirty = 0 := by
  split at h
  · rw [State.scFind_scDrop_self] at h
    cases h
  · next hd =>
    rw [State.scFind_scClean_self] at h
    cases h
    exact ⟨Bool.eq_false_iff.2 hd, rfl⟩

theorem State.goneHome_scFind_ne (s : State) (discard : Bool) (h : u ≠ l.tag) :
    (if discard then s.scDrop l else s.scClean l).scFind u = s.scFind u := by
  split
  · exact s.scFind_scDrop_ne h
  · exact s.scFind_scClean_ne h

/-- Of a unit its home's stack cache holds a clean copy, or none. -/
def State.UnitClean (s : State) (discard : Bool) (u : Nat) : Prop := ∀ l, s.scFind u = some l → discard = false ∧ l.dirty = 0

theorem State.maintainUnit_paCell (s : State) (discard : Bool) (pa x : Nat) : (s.maintainUnit discard pa).paCell x = s.paCell x := by
  rcases s.maintainUnit_cases discard pa with ⟨h, -⟩ | ⟨c, l, -, -, h⟩
  · rw [h]
  · obtain ⟨hdevice, hamap, hapwin⟩ := s.scClean_rest l
    rw [h]
    split <;> exact State.paCell_congr hdevice hamap hapwin x

theorem State.maintainUnit_scFind_ne {pa : Nat} (h : ∀ c, s.paCell pa = some c → c / 64 ≠ u) :
    (s.maintainUnit discard pa).scFind u = s.scFind u := by
  rcases s.maintainUnit_cases discard pa with ⟨hsame, -⟩ | ⟨c, l, hc, hf, hgone⟩
  · rw [hsame]
  · rw [hgone, s.goneHome_scFind_ne discard (State.scFind_tag hf ▸ (h c hc).symm)]

/-- The unit at the address is clean afterwards. -/
theorem State.maintainUnit_clean {pa : Nat} (hc : s.paCell pa = some c) : (s.maintainUnit discard pa).UnitClean discard (c / 64) := by
  intro m hm
  rcases s.maintainUnit_cases discard pa with ⟨hsame, hnone⟩ | ⟨c', l, hc', hf, hgone⟩
  · rw [hsame, hnone c hc] at hm
    cases hm
  · obtain rfl : c = c' := Option.some_inj.1 (hc.symm.trans hc')
    rw [hgone, ← State.scFind_tag hf] at hm
    exact State.goneHome_scFind hm

/-- A clean unit stays so. -/
theorem State.UnitClean.maintainUnit {pa : Nat} (h : s.UnitClean discard u) : (s.maintainUnit discard pa).UnitClean discard u := by
  by_cases hu : ∃ c, s.paCell pa = some c ∧ c / 64 = u
  · obtain ⟨c, hc, rfl⟩ := hu
    exact State.maintainUnit_clean hc
  · intro l hl
    rw [State.maintainUnit_scFind_ne (fun c hc heq => hu ⟨c, hc, heq⟩)] at hl
    exact h l hl

/-- The dirty bytes of the unit's copy are DRAM's afterwards. -/
theorem State.maintainUnit_writes {pa : Nat} (hc : s.paCell pa = some c) (hf : s.scFind (c / 64) = some l) (hj : j < 64)
    (hd : bitAt l.dirty j = true) : (s.maintainUnit discard pa).dramByte (c / 64 * 64 + j) = sget 0 l.bytes j := by
  rcases s.maintainUnit_cases discard pa with ⟨-, hnone⟩ | ⟨c', l', hc', hf', hgone⟩
  · rw [hnone c hc] at hf
    cases hf
  · obtain rfl : c = c' := Option.some_inj.1 (hc.symm.trans hc')
    obtain rfl : l = l' := Option.some_inj.1 (hf.symm.trans hf')
    rw [hgone, State.goneHome_dramByte, ← State.scFind_tag hf, State.dramByte_putDirty, if_pos ⟨hj, hd⟩]

/-- Maintenance writes nothing to a unit of which no dirty copy is held. -/
theorem State.UnitClean.dramByte {pa : Nat} (h : s.UnitClean discard u) (hj : j < 64) :
    (s.maintainUnit discard pa).dramByte (u * 64 + j) = s.dramByte (u * 64 + j) := by
  rcases s.maintainUnit_cases discard pa with ⟨hsame, -⟩ | ⟨c, l, -, hf, hgone⟩
  · rw [hsame]
  · rw [hgone, State.goneHome_dramByte]
    have htag := State.scFind_tag hf
    by_cases hu : c / 64 = u
    · obtain ⟨-, hclean⟩ := h l (hu ▸ hf)
      rw [← hu, ← htag, State.dramByte_putDirty, if_neg]
      simp [hclean, bitAt]
    · exact State.dramByte_putDirty_ne s le_rfl (by omega)

/-- At its home a line's units are clean after maintenance, and what was dirty of them is in DRAM. -/
theorem State.maintainHome_unit {pa : Nat} (hpa : pa ∈ [tag * 128, tag * 128 + 64]) (hc : s.paCell pa = some c) :
    (s.maintainHome tag discard).UnitClean discard (c / 64) ∧
    ∀ l j, s.scFind (c / 64) = some l → j < 64 → bitAt l.dirty j = true →
      (s.maintainHome tag discard).dramByte (c / 64 * 64 + j) = sget 0 l.bytes j := by
  rw [State.maintainHome_eq]
  have hfirst {pa : Nat} (hc : s.paCell pa = some c) (y : Nat) :
      ((s.maintainUnit discard pa).maintainUnit discard y).UnitClean discard (c / 64) ∧
      ∀ l j, s.scFind (c / 64) = some l → j < 64 → bitAt l.dirty j = true →
        ((s.maintainUnit discard pa).maintainUnit discard y).dramByte (c / 64 * 64 + j) = sget 0 l.bytes j := by
    have hclean : (s.maintainUnit discard pa).UnitClean discard (c / 64) := State.maintainUnit_clean hc
    exact ⟨hclean.maintainUnit, fun l j hf hj hd => (hclean.dramByte hj).trans (State.maintainUnit_writes hc hf hj hd)⟩
  rcases List.mem_cons.1 hpa with rfl | hlast
  · exact hfirst hc _
  · obtain rfl := List.mem_singleton.1 hlast
    by_cases hsame : ∃ d, s.paCell (tag * 128) = some d ∧ d / 64 = c / 64
    · obtain ⟨d, hd, hunit⟩ := hsame
      rw [← hunit]
      have hclean : (s.maintainUnit discard (tag * 128)).UnitClean discard (d / 64) := State.maintainUnit_clean hd
      exact ⟨hclean.maintainUnit, fun l j hf hj hb => (hclean.dramByte hj).trans (State.maintainUnit_writes hd hf hj hb)⟩
    · have hc' : (s.maintainUnit discard (tag * 128)).paCell (tag * 128 + 64) = some c := by rw [State.maintainUnit_paCell, hc]
      have hkept : (s.maintainUnit discard (tag * 128)).scFind (c / 64) = s.scFind (c / 64) :=
        State.maintainUnit_scFind_ne (fun d hd heq => hsame ⟨d, hd, heq⟩)
      exact ⟨State.maintainUnit_clean hc', fun l j hf hj hd => State.maintainUnit_writes hc' (hkept.trans hf) hj hd⟩

end

/-! The instructions (15 R310, R311; 17 R368, R369). -/

section
variable {s t w r : State} {e : Env} {rd ra : Reg} {sc : BitVec 4} {b : Bool} {a n k va : Nat} {rest : List Nat} {discard : Bool}
  {x : Trap} {p : Piece} {ps : List Piece}

theorem State.maintain_faults (h : s.pieces e.blk.space va 128 needR = (r, .error x)) :
    s.maintain e k discard (va :: rest) = (r, some x) := by
  simp only [State.maintain, h]

section
variable (h : s.pieces e.blk.space va 128 needR = (r, .ok (p :: ps)))
include h

theorem State.maintain_uncached (hu : p.unc = true) : s.maintain e k discard (va :: rest) = r.maintain e k discard rest := by
  simp only [State.maintain, h, hu]
  rfl

theorem State.maintain_abroad (hu : p.unc = false) (ha : r.away p.pa = true) : s.maintain e k discard (va :: rest) =
    (if k ≥ 7 then r.remoteSend p.pa (.upkeep discard) .ack (some (e.bid, e.who, e.ctx.pc)) (BitVec.ofNat 64 va)
      else r).maintain e k discard rest := by
  simp only [State.maintain, h, hu, ha]
  rfl

theorem State.maintain_here (hu : p.unc = false) (ha : r.away p.pa = false) : s.maintain e k discard (va :: rest) =
    (let near := r.maintainL1 (scopeCores e.core (if k ≥ 7 then 6 else k)) (p.pa / 128) discard
     if k ≥ 7 then near.maintainHome (p.pa / 128) discard else near).maintain e k discard rest := by
  simp only [State.maintain, h, hu, ha]
  rfl

end

/-- PREF completes without its line where its translation fails. -/
theorem exec_pref_dropped (h : Issues s e (.pref ra sc b) [a]) (hp : s.pieces e.blk.space a 1 needR = (t, .error x)) :
    exec (.pref ra sc b) s = .next (s.retired e (.pref ra sc b) { state := t }) :=
  issue_retires h (by simp only [List.getD_cons_zero, hp]; rfl) rfl

/-- PREF completes. -/
theorem exec_pref (h : Issues s e (.pref ra sc b) [a]) :
    ∃ u, exec (.pref ra sc b) s = .next (s.retired e (.pref ra sc b) { state := u }) := by
  have hbody : ∃ body : Env → List Nat → State → Act, exec (.pref ra sc b) s = issue (.pref ra sc b) body s ∧
      ∃ u, body e [a] s = .done { state := u } := by
    refine ⟨_, rfl, ?_⟩
    dsimp only
    split
    · exact ⟨_, rfl⟩
    · exact ⟨_, rfl⟩
    · split <;> exact ⟨_, rfl⟩
  obtain ⟨body, hexec, u, hu⟩ := hbody
  exact ⟨u, hexec.trans (issue_retires h hu rfl)⟩

/-- What CFLUSH and CINV do with the lines that their sources name. -/
def maintainAct (e : Env) (sc : BitVec 4) (discard : Bool) (v : List Nat) (s : State) : Act :=
  if e.ctx.phase.release ≠ .none then (s.release e 10).act (fun t => .write t [])
  else
    let r := s.maintain e sc.toNat discard (lineAddrs (v.getD 0 0) (low v 1))
    match r.2 with
    | some t => .trap r.1 t
    | none => (r.1.abroadGate e s.fresh).act (fun t => .write t [])

/-- It is done once no line has faulted and what was asked of other devices is done. -/
theorem maintainAct_done (hw : (if e.ctx.phase.release = .none then t.abroadGate e s.fresh else s.release e 10) = .go w)
    (hm : e.ctx.phase.release = .none → s.maintain e sc.toNat discard (lineAddrs a (n % 2 ^ 32)) = (t, none)) :
    maintainAct e sc discard [a, n] s = .done { state := w } := by
  have hsecond : low [a, n] 1 = n % 2 ^ 32 := rfl
  unfold maintainAct
  by_cases hr : e.ctx.phase.release = .none
  · rw [if_pos hr] at hw
    simp only [hr, hsecond, List.getD_cons_zero, hm hr]
    exact Gate.act_go hw _
  · rw [if_neg hr] at hw
    exact (if_pos hr).trans (Gate.act_go hw _)

theorem exec_cflush : exec (.cflush rd ra sc b) s = issue (.cflush rd ra sc b) (fun e => maintainAct e sc false) s := rfl

theorem exec_cinv : exec (.cinv rd ra sc b) s = issue (.cinv rd ra sc b) (fun e => maintainAct e sc true) s := rfl

end

/-- Settles O31: a line by where it lies, its L1s core by core, its home unit by unit. -/
theorem cacheInstructionsComplete : Obligations.CacheInstructionsComplete := by
  intro s t w e rd ra sc b a n x
  refine ⟨?lines, exec_pref_dropped, exec_pref, fun hw => ⟨fun h hm => ?flush, fun h hm => ?invalidate⟩⟩
  case lines =>
    intro r p ps va k rest discard tag m near done
    exact ⟨State.maintain_faults, fun h => ⟨State.maintain_uncached h, State.maintain_abroad h, State.maintain_here h⟩,
      fun core hc l hl => State.l1Find_maintainL1 hc hl, fun pa hpa c hc => State.maintainHome_unit hpa hc,
      fun l j c i hl hred hj hone hc hi hd => State.homeByte_maintainL1 hl hred hj hone hc hi hd⟩
  case flush => exact exec_cflush.trans (issue_retires h (maintainAct_done hw hm) rfl)
  case invalidate => exact exec_cinv.trans (issue_retires h (maintainAct_done hw hm) rfl)

end Sys2Proof.Machine
end

section
/-!
SUPPORT. The line collectives (17 R350, 18 R388; 02 R38; 06 R122, R130): what the row of an LDL or an STL comes to once its last fibre has
arrived.
-/
namespace Sys2Proof.Machine

set_option Elab.async false

section
variable {s s1 s2 u : State} {e f f0 : Env} {i : Instr} {t0 k : Nat} {a0 : Arrival} {as ts rest : List (Nat × Arrival)} {ps : List Piece}
  {x : Trap}

/-- An arrival leaves its fibre's stepper as it was. -/
theorem State.arrive_stepper (he : s.envOf e.bid e.who = some e) (g : Form) (long active : Bool) (b : Bring) :
    (e.again (s.arrive e g long active b)).ctx.halt.stepper = e.ctx.halt.stepper := by
  obtain ⟨n, hn⟩ := State.envOf_chargeOnce he e.ctx
  rw [Env.again_of_envOf (s := s.arrive e g long active b) (State.envOf_modCtx hn _)]
  rfl

/-- No debugger steps a fibre that stands at a collective of its row. -/
theorem State.Arrives.unstepped (h : s.Arrives e i u) : (e.again u).ctx.halt.stepper = none := by
  obtain ⟨henv, hs, -, ⟨a, vals, -, -, rfl⟩ | ⟨-, vals, -, -, rfl⟩ | ⟨-, -, -, -, vals, -, rfl⟩⟩ := h
  · rw [again_self henv, hs]
  · have hcounted := State.envOf_of_blocks (s.countMatches_blocks e (s.early e i vals)) e.bid e.who
    rw [State.arrive_stepper (hcounted.trans (envOf_of henv)), hs]
  · rw [State.arrive_stepper (envOf_of henv), hs]

/-- The last fibre of its row to arrive at an LDL completes it for all. -/
theorem State.Arrives.exec_ldl {rd ra : Reg} {sz : BitVec 3} {ord : BitVec 2} {sc : BitVec 4} {b : Bool}
    (h : s.Arrives e (.ldl rd ra sz ord sc b) u) (hrow : (e.again u).rowComplete) :
    exec (.ldl rd ra sz ord sc b) s = .next (u.completeLdl (e.again u) (e.again u).arrivals) := by
  obtain ⟨a, vals, ha, hop⟩ := h.recorded
  rw [h.exec_eq rfl, rowTry_complete hrow ha, hop]
  rfl

/-- The last fibre of its row to arrive at an STL completes it for all. -/
theorem State.Arrives.exec_stl {rd ra : Reg} {sz : BitVec 3} {ord : BitVec 2} {sc : BitVec 4} {b : Bool}
    (h : s.Arrives e (.stl rd ra sz ord sc b) u) (hrow : (e.again u).rowComplete) :
    exec (.stl rd ra sz ord sc b) s = .next (u.completeStl (e.again u) (e.again u).arrivals) := by
  obtain ⟨a, vals, ha, hop⟩ := h.recorded
  rw [h.exec_eq rfl, rowTry_complete hrow ha, hop]
  rfl

/-! A row without contributing fibres, and a line that cannot be accessed (17 R350). -/

section
variable (hts : as.filter (fun a => a.2.active) = ts)
include hts

theorem completeLdl_idle (hnil : ts = []) : u.completeLdl f as = u.retireRest f.bid as (fun _ t => { state := t }) := by
  simp only [State.completeLdl, hts, hnil]

theorem completeStl_idle (hnil : ts = []) : u.completeStl f as = u.retireRest f.bid as (fun _ t => { state := t }) := by
  simp only [State.completeStl, hts, hnil]

theorem completeLdl_misplaced (hbad : badLine ts = some k) : u.completeLdl f as = u.trapMate f k (Trap.plain .illopd) := by
  cases ts with
  | nil => cases hbad
  | cons t ts => simp only [State.completeLdl, hts, hbad]

theorem completeStl_misplaced (hbad : badLine ts = some k) : u.completeStl f as = u.trapMate f k (Trap.plain .illopd) := by
  cases ts with
  | nil => cases hbad
  | cons t ts => simp only [State.completeStl, hts, hbad]

variable (hbad : badLine ts = none) (hcons : ts = (t0, a0) :: rest) (hf0 : u.envOf f.bid (.fibre t0) = some f0)
include hbad hcons hf0

theorem completeLdl_faults (hp : u.pieces f.blk.space (a0.op.addr / 128 * 128) 128 needR = (s1, .error x)) :
    u.completeLdl f as = s1.lineFault f t0 x := by
  subst hcons
  simp only [State.completeLdl, hts, hbad, hf0, hp]

theorem completeStl_faults (hp : u.pieces f.blk.space (a0.op.addr / 128 * 128) 128 needW = (s1, .error x)) :
    u.completeStl f as = s1.lineFault f t0 x := by
  subst hcons
  simp only [State.completeStl, hts, hbad, hf0, hp]

end

/-! LDL (17 R350). -/

/-- A fibre whose load no slot of kind 5 may watch shows no loaded value to a slot (12 R242). -/
theorem State.matches_loaded_nil (h : s.holdsLoad e = false) (y : Seen) : s.matches e y [5] = [] := by
  unfold State.holdsLoad at h
  unfold State.matches
  cases hw : e.lead || e.blk.params.supervisor || decide (e.blk.role = .trailing) with
  | true => rfl
  | false =>
    rw [hw, Bool.not_false, Bool.true_and, List.any_eq_false] at h
    rw [if_neg Bool.false_ne_true, List.filterMap_eq_nil_iff]
    intro p hp
    rw [if_neg]
    simpa using h p hp

/-- The value that a fibre's arrival takes from the bytes of its line, read past those of its block that are uncommitted. -/
def Arrival.valueIn (buf : List SbEntry) (line : Nat) (bs : List Byte) (a : Arrival) : Nat :=
  loadValue a.op.sz ((span a.op.addr (sizeBytes a.op.sz)).map (fun va => (bufferByte buf va).getD (bs.getD (va - line) 0)))

/-- What an LDL is done with for a contributing fibre whose bytes have been read in u as part of these bytes of its line. -/
def Arrival.loads (a : Arrival) (u : State) (space : Space) (since : Nat) (v : Nat) (t : State) : Done :=
  { state := t, long := true, cells := a.cells, fills := a.bits, words := wordsOfNat a.cells.length v, acquire := a.op.acquire,
    since := some since, src := u.readSpan space a.op.addr (sizeBytes a.op.sz) }

section
variable {n : Nat} (hts : as.filter (fun a => a.2.active) = ts) (hbad : badLine ts = none) (hcons : ts = (t0, a0) :: rest)
  (hf0 : u.envOf f.bid (.fibre t0) = some f0) (hp : u.pieces f.blk.space (a0.op.addr / 128 * 128) 128 needR = (s1, .ok ps))
  (hgo : s1.beforeReads f0 (ts.map (fun t => t.2.op.addr)) (sizeBytes a0.op.sz) = .go s2)
include hts hbad hcons hf0 hp hgo

theorem completeLdl_asks (haway : s2.anyAway ps = true) : u.completeLdl f as =
    s2.ldlAway f f0 (ps.headD { va := a0.op.addr / 128 * 128, pa := 0, len := 0, entry := 0 }) (a0.op.addr / 128 * 128) as := by
  subst hcons
  simp only [State.completeLdl, hts, hbad, hf0, hp, hgo, haway, if_true]

/-- An LDL whose bytes may all be read here reads its line once and hands every contributing fibre its value. -/
theorem completeLdl_reads {buf : List SbEntry} {u1 : State} {q : State × List Byte} (hhere : s2.anyAway ps = false)
    (hbuf : s2.bufferFor f0 ps = buf) (hu1 : ps.foldl (fun x p => x.evictFor f.core p.pa) s2 = u1)
    (hq : u1.readLine f.core ps = q)
    (hfree : ∀ t ∈ ts, ∀ x, q.1.envOf f.bid (.fibre t.1) = some x → q.1.holdsLoad x = false)
    (hsound : ∀ t ∈ ts, ∀ va ∈ span t.2.op.addr (sizeBytes t.2.op.sz),
      (bufferByte buf va).isSome ∨ (u1.cellAt ps va).bind (fun c => u1.poisonIn c 1) = none) :
    u.completeLdl f as = as.foldl (fun t m =>
      if m.2.active then t.retireMate f.bid m.1 []
        (m.2.loads q.1 f.blk.space u.fresh (m.2.valueIn buf (a0.op.addr / 128 * 128) q.2))
      else t.retireMate f.bid m.1 [] (fun x => { state := x })) q.1 := by
  subst hcons hbuf hu1 hq
  simp only [State.completeLdl, hts, hbad, hf0, hp, hgo, hhere, Bool.false_eq_true, if_false]
  split
  case h_1 k o a tail hpoisoned =>
    rw [List.filterMap_eq_nil_iff.2 fun t ht => ?_] at hpoisoned
    · cases hpoisoned
    · rw [List.filterMap_eq_nil_iff.2 fun va hva => ?_]
      · rfl
      · rcases hsound t ht va hva with h | h <;> simp [h]
  case h_2 =>
    split
    case h_1 k a g tail hacts =>
      rw [List.filterMap_eq_nil_iff.2 fun t ht => ?_] at hacts
      · cases hacts
      · split
        · rfl
        next x hx =>
          simp only [State.matches_loaded_nil (hfree t ht x hx), acting_nil, Option.map_none]
    case h_2 =>
      refine List.foldl_ext _ _ _ fun t m hm => ?_
      cases hactive : m.2.active with
      | false => rfl
      | true =>
        simp only [if_true]
        split
        · rfl
        next x hx =>
          rw [State.matches_loaded_nil (hfree m (hts ▸ List.mem_filter.2 ⟨hm, hactive⟩) x hx)]
          rfl

end

/-! STL (18 R388). -/

/-- An issuer as one that no debugger steps. -/
def Env.freed (e : Env) : Env := { e with ctx := { e.ctx with halt := { e.ctx.halt with stepper := none } } }

/-- The bytes that the contributing fibres of an STL bring, by their addresses. -/
def rowBytes (ts : List (Nat × Arrival)) : List (Nat × Byte) :=
  ts.foldl (fun m t => match t.2.op with
    | .stl _ _ addr data => (placeBytes addr.toNat data).foldl (fun m b => aput m b.1 b.2) m
    | _ => m) []

/-- The entry that an STL of first fibre t0, whose environment is e, brings into its block's store buffer. -/
def rowEntry (e : Env) (t0 : Nat) (a0 : Arrival) (ts : List (Nat × Arrival)) : SbEntry :=
  { kind := .stl, va := BitVec.ofNat 64 (a0.op.addr / 128 * 128), szcode := a0.op.sz.toNat, who := .fibre t0, pc := e.ctx.pc,
    bytes := rowBytes ts }

/-- What the commit points and the store buffer make of an STL of order rel whose line may be written. -/
def stlGate (s : State) (e : Env) (t0 : Nat) (a0 : Arrival) (ts : List (Nat × Arrival)) (rel : Nat) : Gate :=
  if 2 ≤ rel then
    if e.ctx.phase.entered then s.commitAgain e
    else ((s.rowEvents e ts).andThen (fun t => t.releasePoint e [] rel)).andThen
      (fun t => (t.enterBuffer e (rowEntry e t0 a0 ts)).secondCommit e)
  else ((s.roomFor e (rowBytes ts).length).andThen (fun t => t.rowEvents e ts)).andThen
    (fun t => .go (t.enterBuffer e (rowEntry e t0 a0 ts)))

/-- What a row at an STL of first fibre t0, whose environment is e, comes to by them. -/
def stlEnds (f e : Env) (t0 : Nat) (as : List (Nat × Arrival)) (rel : Nat) (g : Gate) : State :=
  match g with
  | .go u => u.retireRest f.bid as (fun k t =>
      if k = t0 ∧ 2 ≤ rel then ({ state := t } : Done).point e else { state := t })
  | .wait u w => u.rowWait f t0 w
  | .trap u t => u.trapMate f t0 t

section
variable {z : BitVec 3} {rel : Nat} {addr : DWord} {data : List Byte} (hts : as.filter (fun a => a.2.active) = ts)
  (hbad : badLine ts = none) (hcons : ts = (t0, a0) :: rest) (hf0 : u.envOf f.bid (.fibre t0) = some f0)
  (hstep : f.ctx.halt.stepper = none) (hop : a0.op = .stl z rel addr data)
  (hp : u.pieces f.blk.space (a0.op.addr / 128 * 128) 128 needW = (s1, .ok ps))
include hts hbad hcons hf0 hstep hop hp

theorem completeStl_eq : u.completeStl f as = stlEnds f f0.freed t0 as rel (stlGate s1 f0.freed t0 a0 ts rel) := by
  obtain ⟨pc, op, active, value, pred, cells, bits, before⟩ := a0
  subst hcons hop
  simp only [State.completeStl, hts, hbad, hf0, hp, hstep]
  rfl

/-- A plain STL enters one entry once there is room for it and its events have been made. -/
theorem completeStl_enters (hrel : rel ≤ 1)
    (hgo : (s1.roomFor f0.freed (rowBytes ts).length).andThen (fun t => t.rowEvents f0.freed ts) = .go s2) :
    u.completeStl f as =
      (s2.enterBuffer f0.freed (rowEntry f0.freed t0 a0 ts)).retireRest f.bid as (fun _ t => { state := t }) := by
  have hplain : ¬ 2 ≤ rel := by omega
  rw [completeStl_eq hts hbad hcons hf0 hstep hop hp, stlGate, if_neg hplain, hgo]
  simp only [stlEnds, Gate.andThen, hplain, and_false, if_false]

/-- One that releases enters its entry between its commit points. -/
theorem completeStl_releases (hrel : 2 ≤ rel)
    (hgo : (if f0.freed.ctx.phase.entered then s1.commitAgain f0.freed else
      ((s1.rowEvents f0.freed ts).andThen (fun t => t.releasePoint f0.freed [] rel)).andThen
        (fun t => (t.enterBuffer f0.freed (rowEntry f0.freed t0 a0 ts)).secondCommit f0.freed)) = .go s2) :
    u.completeStl f as =
      s2.retireRest f.bid as (fun k t => if k = t0 then ({ state := t } : Done).point f0.freed else { state := t }) := by
  rw [completeStl_eq hts hbad hcons hf0 hstep hop hp, stlGate, if_pos hrel, hgo]
  simp only [stlEnds, hrel, and_true]

end

/-! An LDL that goes on by itself (12 R242). -/

/-- An LDL of one fibre whose bytes have been gathered at its PC completes with them. -/
theorem exec_ldl_gathered {rd ra : Reg} {sz : BitVec 3} {ord : BitVec 2} {sc : BitVec 4} {b : Bool} {a : Nat}
    {known : List (Nat × Byte)} {bs : List Byte} (h : Passes s e (.ldl rd ra sz ord sc b) [a]) (hi : e.ctx.issued = true)
    (hl : e.ctx.phase.answer = .loading known) (hg : gathered known (sizeBytes sz) = some bs)
    (hw : s.watchesLate e (.ldl rd ra sz ord sc b) = false) :
    exec (.ldl rd ra sz ord sc b) s = .next (s.retired e (.ldl rd ra sz ord sc b)
      { state := s, vals := [loadValue sz bs], long := true, acquire := loadAcquire ord sc }) := by
  have hloading : s.loading = some known := by simp only [State.loading, h.1.1, hl]
  show execLdl rd ra sz ord sc b s = _
  simp only [execLdl, hloading]
  refine issue_loads (x := some (seenValue sz (ofBytes bs))) ⟨h, State.early_issued hi, hw⟩ rfl ?_
  simp only [heldLoad, hg]
  rfl

/-- Settles O39: the row's idle, misplaced and faulting cases, then LDL and STL by what their line comes to. -/
theorem lineCollectivesCompleteForTheRow : Obligations.LineCollectivesCompleteForTheRow := by
  intro s u s1 s2 e f0 rd ra sz ord sc b i t0 k a0 rest ps x z addr data rel f as ts line n buf vas u1 q value bytes e0 entry ldl stl
  have hts : as.filter (fun a => a.2.active) = ts := rfl
  refine ⟨fun h hrow hi => ⟨fun hnil => ?idle, fun hbad => ?misplaced, fun hbad hcons hf0 hp => ?faults⟩,
    fun h hrow hbad hcons hf0 => ⟨fun hi hp hgo => ⟨fun haway => ?asks, fun hhere hfree hsound => ?reads⟩,
      fun hi hop hp => ⟨fun hrel hgo => ?enters, fun hrel hgo => ?releases⟩⟩,
    fun known bs h hi hl hg hw => exec_ldl_gathered h hi hl hg hw⟩
  case idle =>
    rcases hi with rfl | rfl
    · rw [h.exec_ldl hrow, completeLdl_idle hts hnil]
    · rw [h.exec_stl hrow, completeStl_idle hts hnil]
  case misplaced =>
    rcases hi with rfl | rfl
    · rw [h.exec_ldl hrow, completeLdl_misplaced hts hbad]
    · rw [h.exec_stl hrow, completeStl_misplaced hts hbad]
  case faults =>
    rcases hi with rfl | rfl
    · rw [if_pos rfl] at hp
      rw [h.exec_ldl hrow, completeLdl_faults hts hbad hcons hf0 hp]
    · rw [if_neg (fun heq => Instr.noConfusion heq)] at hp
      rw [h.exec_stl hrow, completeStl_faults hts hbad hcons hf0 hp]
  case asks =>
    subst hi
    rw [h.exec_ldl hrow, completeLdl_asks hts hbad hcons hf0 hp hgo haway]
  case reads =>
    subst hi
    rw [h.exec_ldl hrow, completeLdl_reads hts hbad hcons hf0 hp hgo hhere rfl rfl rfl hfree hsound]
    rfl
  case enters =>
    subst hi
    obtain rfl : z = a0.op.sz := by rw [hop]; rfl
    rw [h.exec_stl hrow, completeStl_enters hts hbad hcons hf0 h.unstepped hop hp hrel hgo]
    rfl
  case releases =>
    subst hi
    obtain rfl : z = a0.op.sz := by rw [hop]; rfl
    rw [h.exec_stl hrow, completeStl_releases hts hbad hcons hf0 h.unstepped hop hp hrel hgo]
    rfl

end

end Sys2Proof.Machine
end

section
/-!
SUPPORT. The checks before an instruction (14 R272, R274; 02 R43; 03 R57, R59, R61, R64): what an instruction comes to that its checks do
not let issue, and what of its issuer stands meanwhile.
-/
namespace Sys2Proof.Machine

set_option Elab.async false

section
variable {s t : State} {e : Env} {i : Instr} {w : Word} {c : TrapCode} {k : Nat}

/-- An instruction that has a word issues an operation of its own, or arrives at its row, or is REP. -/
theorem exec_coded (h : encodeWord i = some w) :
    (∃ body, ∀ s, exec i s = issue i body s) ∨ collects i = true ∨ ∃ n a b c, i = .rep n a b c := by
  cases i
  any_goals exact .inl ⟨_, fun _ => rfl⟩
  case rep n a b c => exact .inr (.inr ⟨n, a, b, c, rfl⟩)
  case xlane => exact .inr (.inl rfl)
  case xshf => exact .inr (.inl rfl)
  case vote => exact .inr (.inl rfl)
  case ldl => exact .inr (.inl rfl)
  case stl => exact .inr (.inl rfl)
  all_goals cases h

/-- The instructions whose form asks for a supervisor range. -/
theorem form_super (i : Instr) : (e.form i).super = privileged i := by
  cases i
  all_goals rfl

/-! Executor, encoding, privilege (14 R274 steps 3 to 5). -/

theorem staticCheck_wrongExecutor {f : Form} (h : (if e.lead then f.lead else f.fibre) = false) : staticCheck i f e = some .illop := by
  simp [staticCheck, h]

section
variable {f : Form} (hruns : (if e.lead then f.lead else f.fibre) = true)
include hruns

theorem staticCheck_illegalForm (h : f.legal i e.lead e.ctx.wb.toNat e.alloc = false) : staticCheck i f e = some .illopd := by
  simp [staticCheck, hruns, h]

theorem staticCheck_legalForm (h : f.legal i e.lead e.ctx.wb.toNat e.alloc = true) :
    staticCheck i f e = if f.super = true ∧ e.blk.params.supervisor = false then some .priv else none := by
  simp [staticCheck, hruns, h]

end

/-! Operands (14 R274 step 8; 03 R59, R64). -/

theorem firstMissing_uq {x : Fld} {rest : List Fld} (h : x.reg = 127) :
    firstMissing e (x :: rest) k = if e.unread ≤ k then some .uq else firstMissing e rest (k + 1) := by
  simp [firstMissing, h]

theorem firstMissing_full {x : Fld} {rest : List Fld} (h : x.reg ≠ 127)
    (hfull : ∀ n ∈ x.fullBits e.lead e.ctx.wb.toNat, e.ctx.empties.contains n = false) :
    firstMissing e (x :: rest) k = firstMissing e rest k := by
  simp only [firstMissing, h, if_false, Ctx.firstEmpty_eq_none hfull]

/-- The first empty one of some registers. -/
theorem Ctx.firstEmpty_append {c : Ctx} {pre post : List Nat} {b : Nat} (hpre : ∀ n ∈ pre, c.empties.contains n = false)
    (hb : c.empties.contains b = true) : c.firstEmpty (pre ++ b :: post) = some b := by
  have hnone : pre.find? (fun b => c.empties.contains b) = none := Ctx.firstEmpty_eq_none hpre
  rw [Ctx.firstEmpty, List.find?_append, hnone, Option.none_or, List.find?_cons_of_pos hb]

theorem firstMissing_empty {x : Fld} {rest : List Fld} {pre post : List Nat} {b : Nat} (h : x.reg ≠ 127)
    (hbits : x.fullBits e.lead e.ctx.wb.toNat = pre ++ b :: post) (hpre : ∀ n ∈ pre, e.ctx.empties.contains n = false)
    (hb : e.ctx.empties.contains b = true) : firstMissing e (x :: rest) k = some (.reg b) := by
  simp only [firstMissing, h, if_false, hbits, Ctx.firstEmpty_append hpre hb]

theorem operandCheck_emptyTraps {f : Form} (hfe : f.fe = true) (hmiss : firstMissing e f.srcs 0 = some (.reg k)) :
    operandCheck f e = some (.trap { code := .emptyt, detail := k, addr := 0 }) := by
  simp [operandCheck, hmiss, hfe]

theorem operandCheck_uqWaits {f : Form} (hfe : f.fe = false) (hlive : e.blk.body.lead.life = .live)
    (hmiss : firstMissing e f.srcs 0 = some .uq) : operandCheck f e = some (.wait .uqEmpty) := by
  simp [operandCheck, hmiss, hfe, hlive]

theorem operandCheck_uqTraps {f : Form} (h : f.fe = true ∨ e.blk.body.lead.life ≠ .live)
    (hmiss : firstMissing e f.srcs 0 = some .uq) :
    operandCheck f e = some (.trap { code := .emptyt, detail := 0x1000, addr := 0 }) := by
  simp [operandCheck, hmiss, h]

theorem operandCheck_destinationWaits {f : Form} (hmiss : firstMissing e f.srcs 0 = none)
    (hempty : ∃ d ∈ f.dsts, ∃ n ∈ d.fullBits e.lead e.ctx.wb.toNat, e.ctx.empties.contains n = true) :
    operandCheck f e = some (.wait .sourceEmpty) := by
  obtain ⟨d, hd, n, hn, hc⟩ := hempty
  have hfound : (e.ctx.firstEmpty (f.dsts.flatMap (fun x => x.fullBits e.lead e.ctx.wb.toNat))).isSome :=
    List.find?_isSome.2 ⟨n, List.mem_flatMap.2 ⟨d, hd, hn⟩, hc⟩
  obtain ⟨m, hm⟩ := Option.isSome_iff_exists.1 hfound
  simp only [operandCheck, hmiss, hm]

/-! What is left of an instruction that does not issue (14 R274). -/

/-- What the checks of instruction i of issuer e leave when they end in a trap, a wait or a halt. -/
def Ready.leaves (s : State) (i : Instr) (e : Env) (r : Ready) : Option State :=
  match r with
  | .trap t => some (s.issueTrap i e (e.form i) t)
  | .halt ms slot action v => some ((s.countMatches e ms).haltBy e slot action v)
  | .wait w => some (s.stay i e (e.form i) w)
  | .skip | .go .. => none

theorem issue_leaves (halone : Alone s e) (h : (checkIssue s i (e.form i) e).leaves s i e = some t)
    (body : Env → List Nat → State → Act) : issue i body s = .next t := by
  obtain ⟨henv, hheld⟩ := halone
  simp only [issue, henv, State.unhold_self hheld, again_self henv, State.perform]
  revert h
  cases checkIssue s i (e.form i) e with
  | trap t | halt ms slot action v | wait w => exact fun h => congrArg _ (Option.some.inj h)
  | skip | go vals ms => exact fun h => nomatch h

theorem exec_collects_leaves (hc : collects i = true) (hstands : StandsAt s e)
    (h : (checkIssue s i (e.form i) e).leaves s i e = some t) : exec i s = .next t := by
  refine exec_collects_stays hc hstands ?_
  unfold State.arriveOne
  dsimp only
  revert h
  cases checkIssue s i (e.form i) e with
  | trap t | halt ms slot action v | wait w => exact fun h => congrArg (·, false) (Option.some.inj h)
  | skip | go vals ms => exact fun h => nomatch h

/-- A coded instruction other than REP leaves what its checks leave that do not let it issue. -/
theorem exec_leaves (hw : encodeWord i = some w) (hrep : ∀ n a b c, i ≠ .rep n a b c) (halone : Alone s e)
    (hrow : collects i = true → StandsAt s e) (h : (checkIssue s i (e.form i) e).leaves s i e = some t) : exec i s = .next t := by
  rcases exec_coded hw with ⟨body, hbody⟩ | hc | ⟨n, a, b, c, rfl⟩
  · rw [hbody, issue_leaves halone h]
  · exact exec_collects_leaves hc (hrow hc) h
  · exact absurd rfl (hrep n a b c)

/-- An instruction whose executor, encoding or privilege is wrong traps. -/
theorem exec_staticTraps (hw : encodeWord i = some w) (halone : Alone s e) (hrow : collects i = true → StandsAt s e)
    (h : staticCheck i (e.form i) e = some c) :
    exec i s = .next (s.issueTrap i e (e.form i) { code := c, detail := 0, addr := 0 }) := by
  have hleaves : (checkIssue s i (e.form i) e).leaves s i e =
      some (s.issueTrap i e (e.form i) { code := c, detail := 0, addr := 0 }) := by
    simp only [checkIssue, h]
    rfl
  rcases exec_coded hw with ⟨body, hbody⟩ | hc | ⟨n, a, b, d, rfl⟩
  · rw [hbody, issue_leaves halone hleaves]
  · exact exec_collects_leaves hc (hrow hc) hleaves
  · show execRep n a b d s = _
    simp only [execRep, issueChecked, halone.1, h]
    exact issue_leaves halone hleaves _

/-- With its guard false an instruction that is no row collective only advances. -/
theorem exec_skips (hw : encodeWord i = some w) (halone : Alone s e) (hstatic : staticCheck i (e.form i) e = none)
    (hguard : guardHolds (e.form i).guard e.ctx = false) (hc : collects i = false) : exec i s = .next (s.skipped e) := by
  rcases exec_coded hw with ⟨body, hbody⟩ | hrow | ⟨n, a, b, d, rfl⟩
  · obtain ⟨henv, hheld⟩ := halone
    simp only [hbody, issue, henv, State.unhold_self hheld, again_self henv, State.perform, checkIssue_skip hstatic hguard]
  · cases hc.symm.trans hrow
  · cases hguard

/-- An instruction that comes to its operands leaves what they make of it. -/
theorem exec_operandLeaves {r : Ready} (hw : encodeWord i = some w) (halone : Alone s e) (hrow : collects i = true → StandsAt s e)
    (hstatic : staticCheck i (e.form i) e = none) (hguard : guardHolds (e.form i).guard e.ctx = true)
    (hact : s.acting e (s.early e i (e.known i)) = none) (hop : operandCheck (e.form i) e = some r)
    (h : r.leaves s i e = some t) : exec i s = .next t := by
  refine exec_leaves hw (fun n a b c hi => ?_) halone hrow ?_
  · subst hi
    cases hop
  · rwa [checkIssue_operands hstatic hguard hact hop]

/-! What stands of an issuer that waits or starts again (03 R57, R59, R61). -/

/-- Of a context another keeps its PC, repeat, registers and full bits, predicates, flags and uq position. -/
structure Ctx.Keeps (c d : Ctx) : Prop where
  wait : d.wait = c.wait
  pc : d.pc = c.pc
  rep : d.rep = c.rep
  regs : d.regs = c.regs
  empties : d.empties = c.empties
  preds : d.preds = c.preds
  fps : d.fps = c.fps
  uqPos : d.uqPos = c.uqPos

theorem Ctx.Keeps.refl (c : Ctx) : c.Keeps c := ⟨rfl, rfl, rfl, rfl, rfl, rfl, rfl, rfl⟩

theorem Ctx.Keeps.trans {a b c : Ctx} (h : a.Keeps b) (k : b.Keeps c) : a.Keeps c :=
  ⟨k.wait.trans h.wait, k.pc.trans h.pc, k.rep.trans h.rep, k.regs.trans h.regs, k.empties.trans h.empties, k.preds.trans h.preds,
    k.fps.trans h.fps, k.uqPos.trans h.uqPos⟩

/-- An issuer is found by its block's number and its name. -/
theorem State.modCtx_ctx_ne {bid n : Nat} {who v : Who} (h : (n, v) ≠ (bid, who)) (f : Ctx → Ctx) :
    (s.modCtx bid who f).ctx? n v = s.ctx? n v := by
  unfold State.ctx? State.modCtx
  rw [block_modBlock s bid n _ (fun b => modCtx_bid b who f)]
  cases hb : s.block? n with
  | none => rfl
  | some b =>
    dsimp only [Option.map_some]
    split
    case isTrue hn =>
      have hv : v ≠ who := fun hv => h (by rw [← hn, ← hv, block_bid hb])
      exact ctx_modCtx_ne b f hv
    case isFalse => rfl

/-- A change of one issuer that keeps its context keeps the context of every issuer. -/
theorem State.modCtx_keeps {bid n : Nat} {who v : Who} {c : Ctx} {f : Ctx → Ctx} (hf : ∀ c, Ctx.Keeps c (f c))
    (h : s.ctx? n v = some c) : ∃ d, (s.modCtx bid who f).ctx? n v = some d ∧ c.Keeps d := by
  by_cases heq : (n, v) = (bid, who)
  · cases heq
    exact ⟨_, State.modCtx_ctx_self h f, hf c⟩
  · exact ⟨c, (State.modCtx_ctx_ne heq f).trans h, Ctx.Keeps.refl c⟩

/-- The end of a step keeps every issuer's context. -/
theorem State.endStep_keeps {n status : Nat} {v : Who} {c : Ctx} (h : s.ctx? n v = some c) :
    ∃ d, (s.endStep e status).ctx? n v = some d ∧ c.Keeps d := by
  unfold State.endStep
  split
  case h_1 => exact ⟨c, h, Ctx.Keeps.refl c⟩
  case h_2 bid who hstepper =>
    obtain ⟨d, hd, hcd⟩ := State.modCtx_keeps (bid := e.bid) (who := e.who)
      (f := fun c => { c with halt := { c.halt with stepper := none } }) (fun _ => ⟨rfl, rfl, rfl, rfl, rfl, rfl, rfl, rfl⟩) h
    obtain ⟨d', hd', hdd'⟩ := State.modCtx_keeps (bid := bid) (who := who)
      (f := fun c => { c with phase := { c.phase with answer := .got [BitVec.ofNat 32 status] } })
      (fun _ => ⟨rfl, rfl, rfl, rfl, rfl, rfl, rfl, rfl⟩) hd
    exact ⟨d', hd', hcd.trans hdd'⟩

theorem State.ctx_of_env (he : s.envOf e.bid e.who = some e) : s.ctx? e.bid e.who = some e.ctx := by
  obtain ⟨hb, hc, -⟩ := State.envOf_eq_some_iff.1 he
  simp only [State.ctx?, hb, hc]

/-- An issuer that waits for an operand keeps its context, unless it is held at a long-latency producer. -/
theorem State.stay_keeps (he : s.envOf e.bid e.who = some e) (hlong : isLong i = false) {kw : Wait}
    (hkw : kw = .sourceEmpty ∨ kw = .uqEmpty) (f : Form) :
    ∃ d, (s.stay i e f kw).ctx? e.bid e.who = some d ∧ d.wait = some kw ∧ d.pc = e.ctx.pc ∧ d.regs = e.ctx.regs ∧
      d.empties = e.ctx.empties ∧ d.preds = e.ctx.preds ∧ d.uqPos = e.ctx.uqPos := by
  have hbegun : s.begun e kw = false := by rcases hkw with rfl | rfl <;> rfl
  unfold State.stay
  simp only [hlong, hbegun, Bool.false_and, Bool.and_false, Bool.or_self, Bool.false_eq_true, if_false]
  have hown := State.modCtx_ctx_self (State.ctx_of_env he)
  split
  · obtain ⟨d, hd, hk⟩ := State.endStep_keeps (e := e) (status := 1) (hown _)
    exact ⟨d, hd, hk.wait, hk.pc, hk.regs, hk.empties, hk.preds, hk.uqPos⟩
  · exact ⟨_, hown _, rfl, rfl, rfl, rfl, rfl, rfl⟩

/-- The issuer f is e as it starts again: what it had emptied is full, and nothing else of it is changed (03 R61). -/
structure Env.Restarted (e f : Env) : Prop where
  held : f.ctx.heldBits = []
  full : ∀ b ∈ e.ctx.heldBits, f.ctx.empties.contains b = false
  arrival : f.ctx.arrival = e.ctx.arrival
  phase : f.ctx.phase = e.ctx.phase

theorem State.unhold_restarts (henv : s.env? = some e) :
    ∃ f, (s.unhold e).env? = some f ∧ e.again (s.unhold e) = f ∧ f.bid = e.bid ∧ f.who = e.who ∧ e.Restarted f := by
  by_cases hheld : e.ctx.heldBits = []
  · rw [State.unhold_self hheld]
    refine ⟨e, henv, again_self henv, rfl, rfl, hheld, ?_, rfl, rfl⟩
    rw [hheld]
    exact fun _ hb => nomatch hb
  · obtain ⟨hissuer, hblock, hctx⟩ := env_spec henv
    have hf := State.envOf_modCtx (envOf_of henv) (fun c =>
      { c with empties := c.empties.filter (fun b => !c.heldBits.contains b), heldBits := [] })
    have heq : s.unhold e = s.modCtx e.bid e.who (fun c =>
        { c with empties := c.empties.filter (fun b => !c.heldBits.contains b), heldBits := [] }) := by
      simp [State.unhold, hheld, State.modMe]
    rw [heq]
    refine ⟨_, ?_, Env.again_of_envOf hf, modCtx_bid _ _ _, rfl, rfl, fun b hb => ?_, rfl, rfl⟩
    · rw [State.env?, State.modCtx_issuer, hissuer]
      exact hf
    · simp [hb]

/-- A coded instruction that its issuer had begun performs as of the issuer that starts again. -/
theorem exec_restarts (hw : encodeWord i = some w) (hlong : isLong i = true) (henv : s.env? = some e) (harrival : e.ctx.arrival = none)
    (hanswer : collects i = true → ∀ k, e.ctx.phase.answer ≠ .loading k) : exec i s = exec i (s.unhold e) := by
  obtain ⟨f, hf, hagain, -, -, hres⟩ := State.unhold_restarts henv
  rcases exec_coded hw with ⟨body, hbody⟩ | hc | ⟨n, a, b, d, rfl⟩
  · simp only [hbody, issue, henv, hf, hagain, State.unhold_self hres.held, again_self hf]
  · rw [exec_collects hc (State.loading_eq_none henv (hanswer hc)),
      exec_collects hc (State.loading_eq_none hf (hres.phase ▸ hanswer hc))]
    simp only [collective, henv, hf, harrival, hres.arrival, hagain, State.unhold_self hres.held, again_self hf, Option.isSome_none,
      Bool.false_eq_true, if_false]
  · cases hlong

/-- The destinations that a held producer had emptied are full as it starts again. -/
theorem State.unhold_full (henv : s.env? = some e) {b : Nat} (hb : b ∈ e.ctx.heldBits) :
    (((s.unhold e).ctx? e.bid e.who).map (fun c => c.empties.contains b || c.heldBits.contains b)) = some false := by
  obtain ⟨f, hf, -, hbid, hwho, hres⟩ := State.unhold_restarts henv
  have hctx := State.ctx_of_env (envOf_of hf)
  rw [hbid, hwho] at hctx
  rw [hctx, Option.map_some, hres.full b hb, hres.held]
  rfl

end

end Sys2Proof.Machine
end

section
/-!
SUPPORT. Watch slots (12 R238, R242 to R246): which slots match, which match acts, and what a halting match leaves of its fibre.
-/
namespace Sys2Proof.Machine

set_option Elab.async false

section
variable {s t : State} {e : Env} {i : Instr} {vals : List Nat}

/-! Matching (12 R238, R242, R243). -/

/-- Leads, supervisor ranges and trailing copies are never watched. -/
theorem State.matches_unwatched (h : e.lead = true ∨ e.blk.params.supervisor = true ∨ e.blk.role = .trailing) (x : Seen)
    (kinds : List Nat) : s.matches e x kinds = [] := by
  unfold State.matches
  rw [if_pos]
  simpa [or_assoc] using h

theorem Watch.admits_iff (p : Watch) (lid blk fid : Nat) : p.admits lid blk fid = true ↔
    (p.liden = true → p.lidf = lid) ∧ (p.blken = true → p.blkf = blk) ∧ (p.fiden = true → p.fidf = fid) := by
  simp only [Watch.admits, Bool.and_eq_true, Bool.or_eq_true, Bool.not_eq_true', decide_eq_true_eq, and_assoc]
  grind

/-- Of a fibre of a user range a slot matches what its kind, its filters and its comparison let through. -/
theorem State.mem_matches (hlead : e.lead = false) (hsuper : e.blk.params.supervisor = false) (hrole : e.blk.role ≠ .trailing)
    {x : Seen} {kinds : List Nat} {p : Nat × Watch × Nat} : p ∈ s.matches e x kinds ↔
    (p.1, p.2.1) ∈ e.ctx.slots.getD s.proctors.slots ∧ p.2.1.kind ∈ kinds ∧
      ((p.2.1.liden = true → p.2.1.lidf = e.blk.params.lid) ∧ (p.2.1.blken = true → p.2.1.blkf = e.blk.index) ∧
        (p.2.1.fiden = true → p.2.1.fidf = e.who.fid)) ∧ p.2.1.sees x = some p.2.2 := by
  obtain ⟨slot, p2, v⟩ := p
  unfold State.matches
  rw [if_neg (by simp [hlead, hsuper, hrole]), List.mem_filterMap, ← Watch.admits_iff]
  constructor
  · rintro ⟨q, hq, h⟩
    split at h
    case isTrue hkind =>
      obtain ⟨u, hu, h⟩ := Option.map_eq_some_iff.1 h
      cases h
      simp only [Bool.and_eq_true, List.contains_iff_mem] at hkind
      exact ⟨hq, hkind.1, hkind.2, hu⟩
    case isFalse => cases h
  · rintro ⟨hq, hkind, hadmits, hsees⟩
    exact ⟨_, hq, by simp [hkind, hadmits, hsees]⟩

/-! The match that acts (12 R243). -/

/-- Whether a match acts: its slot's action is one that halts, and its hits are more than its count. -/
def State.Acts (s : State) (e : Env) (q : Nat × Watch × Nat) : Prop :=
  q.2.1.action < 3 ∧ q.2.1.count < min (s.hits e.core q.1 + 1) 0xFFFFFFFF

/-- One match is taken into account after those of lower slots. -/
def State.actsNext (s : State) (e : Env) (acc : Option (Nat × Nat × Nat)) (m : Nat × Watch × Nat) : Option (Nat × Nat × Nat) :=
  if m.2.1.action < 3 && decide (min (s.hits e.core m.1 + 1) 0xFFFFFFFF > m.2.1.count) then
    match acc with
    | none => some (m.1, m.2.1.action, m.2.2)
    | some a => if m.2.1.action > a.2.1 then some (m.1, m.2.1.action, m.2.2) else acc
  else acc

/-- A result stands for the match of some matches that acts: the widest, and of those the lowest slot. -/
def State.Foremost (s : State) (e : Env) (ms : List (Nat × Watch × Nat)) (r : Option (Nat × Nat × Nat)) : Prop :=
  match r with
  | none => ∀ q ∈ ms, ¬ s.Acts e q
  | some a => (∃ q ∈ ms, s.Acts e q ∧ q.1 = a.1 ∧ q.2.1.action = a.2.1 ∧ q.2.2 = a.2.2) ∧
      ∀ q ∈ ms, s.Acts e q → q.2.1.action < a.2.1 ∨ q.2.1.action = a.2.1 ∧ a.1 ≤ q.1

theorem State.actsNext_foremost {ms : List (Nat × Watch × Nat)} {m : Nat × Watch × Nat} {r : Option (Nat × Nat × Nat)}
    (h : s.Foremost e ms r) (hlow : ∀ q ∈ ms, q.1 < m.1) : s.Foremost e (ms ++ [m]) (s.actsNext e r m) := by
  unfold State.actsNext
  by_cases hm : s.Acts e m
  · rw [if_pos (by simpa [State.Acts] using hm)]
    cases r with
    | none => exact ⟨⟨m, by simp, hm, rfl, rfl, rfl⟩, List.forall_mem_append.2
        ⟨fun q hq hacts => absurd hacts (h q hq), List.forall_mem_singleton.2 fun _ => .inr ⟨rfl, le_rfl⟩⟩⟩
    | some a =>
      obtain ⟨⟨q0, hq0, hacts0, hslot, haction, hseen⟩, hwidest⟩ := h
      dsimp only
      split
      case isTrue hwider =>
        refine ⟨⟨m, by simp, hm, rfl, rfl, rfl⟩, List.forall_mem_append.2
          ⟨fun q hq hacts => .inl ?_, List.forall_mem_singleton.2 fun _ => .inr ⟨rfl, le_rfl⟩⟩⟩
        have hle := hwidest q hq hacts
        dsimp only
        omega
      case isFalse hwider =>
        have hlt := hlow q0 hq0
        exact ⟨⟨q0, by simp [hq0], hacts0, hslot, haction, hseen⟩, List.forall_mem_append.2
          ⟨hwidest, List.forall_mem_singleton.2 fun _ => by omega⟩⟩
  · rw [if_neg (by simpa [State.Acts] using hm)]
    cases r with
    | none => exact List.forall_mem_append.2 ⟨h, List.forall_mem_singleton.2 hm⟩
    | some a =>
      obtain ⟨⟨q0, hq0, hfirst⟩, hwidest⟩ := h
      exact ⟨⟨q0, by simp [hq0], hfirst⟩, List.forall_mem_append.2 ⟨hwidest, List.forall_mem_singleton.2 fun hacts => absurd hacts hm⟩⟩

/-- With the slots in rising order the foremost match is the one that acts. -/
theorem State.foldl_actsNext_foremost (ms : List (Nat × Watch × Nat)) (h : (ms.map (·.1)).Pairwise (· < ·)) :
    s.Foremost e ms (ms.foldl (s.actsNext e) none) := by
  induction ms using List.reverseRecOn with
  | nil => exact fun q hq => nomatch hq
  | append_singleton ms m ih =>
    rw [List.map_append, List.pairwise_append] at h
    obtain ⟨hms, -, hlow⟩ := h
    rw [List.foldl_append]
    exact State.actsNext_foremost (ih hms) fun q hq => hlow _ (List.mem_map_of_mem hq) _ (by simp)

theorem State.acting_foremost {ms : List (Nat × Watch × Nat)} {a : Nat × Nat × Nat} (h : s.acting e ms = some a)
    (hms : (ms.map (·.1)).Pairwise (· < ·)) : e.ctx.halt.exempt = false ∧ s.Foremost e ms (some a) := by
  unfold State.acting at h
  split at h
  case isTrue => cases h
  case isFalse hexempt =>
    refine ⟨Bool.eq_false_iff.2 hexempt, ?_⟩
    rw [← h]
    exact State.foldl_actsNext_foremost ms hms

/-! What leaves the watch slots and their hit counters as they are (06 R123; 12 R252). -/

section
variable (s : State)

@[simp] theorem State.dramWrite_proctors (c : Nat) (bs : List Byte) : (s.dramWrite c bs).proctors = s.proctors := by
  induction bs generalizing s c with
  | nil => rfl
  | cons b bs ih => exact ih (s.dramPut c b) (c + 1)

@[simp] theorem State.homeWrite_proctors (c : Nat) (bs : List Byte) : (s.homeWrite c bs).proctors = s.proctors := by
  unfold State.homeWrite
  split <;> simp

@[simp] theorem State.ridgeSend_proctors (rc : RidgeClass) (src dst : Nat) (data : List Nat) (reader : Option Nat) :
    (s.ridgeSend rc src dst data reader).proctors = s.proctors := by
  unfold State.ridgeSend
  split <;> rfl

@[simp] theorem State.noteDram_proctors (unit : Nat) (cls : DramClass) (reading : Bool) (reader : Option Nat) :
    (s.noteDram unit cls reading reader).proctors = s.proctors := rfl

@[simp] theorem State.sendRecord_proctors (queue : Nat) (r : FaultRec) : (s.sendRecord queue r).proctors = s.proctors := rfl

@[simp] theorem State.combineLine_proctors (l : Line) : (s.combineLine l).proctors = s.proctors := by
  unfold State.combineLine State.combineAt
  split
  · rfl
  · refine foldl_keeps (·.proctors) (fun t off => ?_) _ s
    dsimp only
    split
    · rfl
    · split
      · exact foldl_keeps (·.proctors) (fun u g => u.sendRecord_proctors _ _) _ t
      · simp [State.putBytes, State.note]

@[simp] theorem State.recall_proctors (unit : Nat) : (s.recall unit).proctors = s.proctors := by
  unfold State.recall
  split
  · rfl
  · exact foldl_keeps (·.proctors) (fun t l => by simp) _ _

@[simp] theorem State.writeSector_proctors (l : Line) (k : Nat) : (s.writeSector l k).proctors = s.proctors := by
  unfold State.writeSector
  split
  · rfl
  · extract_lets recalled written
    have hwritten : written.proctors = s.proctors := by
      unfold written
      split
      · simp [recalled]
      · refine (foldl_keeps (·.proctors) (fun t i => ?_) _ recalled).trans (s.recall_proctors _)
        split <;> simp
    split <;> exact hwritten

@[simp] theorem State.noteBack_proctors (l : Line) (u : Nat) : (s.noteBack l u).proctors = s.proctors := by
  unfold State.noteBack
  split
  · rfl
  · dsimp only
    split <;> simp

@[simp] theorem State.pushLine_proctors (l : Line) : (s.pushLine l).proctors = s.proctors := by
  unfold State.pushLine State.writeBack
  split
  · simp
  · split
    · rfl
    · rw [State.l1Put_proctors, foldl_keeps (·.proctors) (fun t u => t.noteBack_proctors l u)]
      refine foldl_keeps (·.proctors) (fun t k => ?_) _ s
      split <;> simp

@[simp] theorem State.pushCore_proctors (core : Nat) : (s.pushCore core).proctors = s.proctors :=
  foldl_keeps (·.proctors) (fun t l => t.pushLine_proctors l) _ s

end

/-! Counting (12 R243). -/

@[simp] theorem State.traceRecord_proctors (s : State) (e : Env) : (s.traceRecord e).proctors = s.proctors := by
  unfold State.traceRecord
  dsimp only
  split
  · rfl
  · split
    · rfl
    · exact s.pushCore_proctors e.core

/-- A match adds to its slot's hit counter. -/
theorem State.hits_countMatches (s : State) (e : Env) (p : Nat × Watch × Nat) :
    (s.countMatches e [p]).hits e.core p.1 = min (s.hits e.core p.1 + 1) 0xFFFFFFFF := by
  unfold State.countMatches State.hits
  dsimp only [List.foldl_cons, List.foldl_nil]
  split
  · rw [State.traceRecord_proctors, sget_sput_self]
  · rw [sget_sput_self]

/-! Computing instructions under watch (12 R242, R244). -/

/-- An instruction that passes its checks, and none of whose matches acts, performs its operation with them. -/
theorem issue_settles (h : Passes s e i vals) (hact : s.acting e (s.early e i vals) = none) (body : Env → List Nat → State → Act) :
    issue i body s = .next (s.settle i e (e.form i) (s.early e i vals) (body e vals s)) := by
  simp only [issue, h.1.1, State.unhold_self h.1.2, again_self h.1.1, State.perform, checkIssue_pass h hact]

/-- Without watch slots of its own an issuer meets none in a state that has none. -/
theorem State.unwatched_matches (h : e.ctx.slots = none) (x : Seen) (kinds : List Nat) : s.unwatched.matches e x kinds = [] := by
  unfold State.matches State.unwatched
  rw [h]
  split <;> rfl

theorem State.unwatched_early (h : e.ctx.slots = none) (i : Instr) (vals : List Nat) : s.unwatched.early e i vals = [] := by
  unfold State.early
  split
  · rfl
  · exact State.unwatched_matches h _ _

/-- What is shown of an instruction once it is done whose outcome is d. -/
def Env.shows (e : Env) (i : Instr) (d : Done) : Seen :=
  { Seen.at e.ctx.pc with loaded := none, raised := if isFp i then some d.flags else none }

section
variable {body : Env → List Nat → State → Act} {d : Done}

/-- A computing instruction in a state without watch slots completes. -/
theorem Computes.issue_unwatched (hd : Computes i e vals s body d) (h : Passes s e i vals) (hslots : e.ctx.slots = none) :
    issue i body s.unwatched =
      .next (retire e (e.form i) [] { d with state := s.unwatched, since := some s.fresh }) := by
  have hbare : Passes s.unwatched e i vals := h
  rw [issue_performs hbare (State.unwatched_early hslots i vals), hd.unwatched]
  simp only [State.settle, State.unwatched_matches hslots, List.append_nil, acting_nil]
  rfl

/-- An instruction that is done and has loaded nothing completes with its matches unless one of them acts. -/
theorem State.settle_completes {f : Form} {ms : List (Nat × Watch × Nat)} (hloaded : d.loaded = none)
    (h : s.acting e (ms ++ s.matches e (e.shows i d) [5, 6]) = none) : s.settle i e f ms (.done d) =
    retire e f (ms ++ s.matches e (e.shows i d) [5, 6]) { d with since := some s.fresh } := by
  simp only [Env.shows] at h ⊢
  simp only [State.settle, hloaded, h]

/-- A match that acts halts its fibre. -/
theorem State.settle_halts {f : Form} {ms : List (Nat × Watch × Nat)} {slot action v : Nat} (hloaded : d.loaded = none)
    (h : s.acting e (ms ++ s.matches e (e.shows i d) [5, 6]) = some (slot, action, v)) : s.settle i e f ms (.done d) =
    (s.countMatches e (ms ++ s.matches e (e.shows i d) [5, 6])).haltBy e slot action v := by
  simp only [Env.shows] at h ⊢
  simp only [State.settle, hloaded, h]

end

/-! Halting (12 R244 to R246). -/

theorem aget_map {α β : Type} (g : Nat → α → β) (m : List (Nat × α)) (k : Nat) :
    aget (m.map (fun x => (x.1, g x.1 x.2))) k = (aget m k).map (g k) := by
  induction m with
  | nil => rfl
  | cons x m ih =>
    obtain ⟨j, v⟩ := x
    by_cases hj : j = k
    · subst hj
      simp [aget]
    · simp [aget, hj, ih]

theorem ctx_mapCtx (b : Block) (f : Who → Ctx → Ctx) (w : Who) : (b.mapCtx f).ctx? w = (b.ctx? w).map (f w) := by
  cases w with
  | lead => rfl
  | fibre k => exact aget_map (fun k => f (.fibre k)) b.body.fibres k

theorem Ctx.haltSoon_halted {c : Ctx} (h : c.halt.halted = true) (slot bound seed now : Nat) : c.haltSoon slot bound seed now = c := by
  simp [Ctx.haltSoon, h]

/-- A fibre that is halted stays as it is when its block or another is. -/
theorem State.haltBlock_halted {n bid slot bound : Nat} {v : Who} {skip : Option Who} {c : Ctx} (h : s.ctx? n v = some c)
    (hhalted : c.halt.halted = true) : (s.haltBlock bid slot bound skip).ctx? n v = some c := by
  unfold State.ctx? at h ⊢
  split at h
  case h_1 => cases h
  case h_2 b hb =>
    have hblock := (block_modBlock s bid n (fun b => b.mapCtx (fun w c => if skip = some w then c else
      c.haltSoon slot bound (2 ^ 64 + s.fresh * 2048 + (if w.isLead then 1024 else w.fid)) s.time)) (fun _ => rfl)).trans
      (congrArg _ hb)
    show (match (s.modBlock bid _).block? n with
      | none => none
      | some b => b.ctx? v) = some c
    rw [hblock]
    dsimp only [Option.map_some]
    split
    · rw [ctx_mapCtx, h, Option.map_some, Ctx.haltSoon_halted hhalted, ite_self]
    · exact h

/-- So it does when several blocks are halted. -/
theorem State.foldl_haltBlock_halted {n slot bound : Nat} {v : Who} {skip : Option Who} {c : Ctx} (bs : List Block)
    (h : s.ctx? n v = some c) (hhalted : c.halt.halted = true) :
    (bs.foldl (fun u b => u.haltBlock b.bid slot bound skip) s).ctx? n v = some c := by
  induction bs generalizing s with
  | nil => exact h
  | cons b bs ih => exact ih (State.haltBlock_halted h hhalted)

/-- Context d is c halted at a slot's match: its PC, repeat, registers, predicates, flags and uq position stand. -/
structure Ctx.HaltedAt (c : Ctx) (slot : Nat) (d : Ctx) : Prop where
  halted : d.halt.halted = true
  slot : d.halt.slot = slot
  pc : d.pc = c.pc
  rep : d.rep = c.rep
  regs : d.regs = c.regs
  preds : d.preds = c.preds
  fps : d.fps = c.fps
  uqPos : d.uqPos = c.uqPos

/-- A match that halts leaves its fibre halted at it. -/
theorem State.haltBy_ctx (he : s.envOf e.bid e.who = some e) (slot action v : Nat) :
    ∃ d, (s.haltBy e slot action v).ctx? e.bid e.who = some d ∧ e.ctx.HaltedAt slot d := by
  unfold State.haltBy
  extract_lets trap recorded own act blocks partner others
  have hrecorded : recorded.ctx? e.bid e.who = some e.ctx := by
    rw [← State.ctx_of_env he, State.ctx?, State.ctx?, State.block_of_blocks (State.blockRecord_blocks s _ _)]
  obtain ⟨d, hown, hd⟩ : ∃ d, own.ctx? e.bid e.who = some d ∧ e.ctx.HaltedAt slot d :=
    ⟨_, State.modCtx_ctx_self hrecorded _, rfl, rfl, rfl, rfl, rfl, rfl, rfl, rfl⟩
  have hblocks : blocks.ctx? e.bid e.who = some d := by
    unfold blocks
    split
    · exact State.haltBlock_halted hown hd.halted
    · exact hown
  have hpartner : partner.ctx? e.bid e.who = some d := by
    unfold partner
    split
    · exact State.haltBlock_halted hblocks hd.halted
    · exact hblocks
  refine ⟨d, ?_, hd⟩
  split
  · exact State.foldl_haltBlock_halted others hpartner hd.halted
  · exact hpartner

/-- An issuer that is found has its block and, there, its context. -/
theorem State.ctx_eq_some {n : Nat} {v : Who} {c : Ctx} (h : s.ctx? n v = some c) : ∃ b, s.block? n = some b ∧ b.ctx? v = some c := by
  unfold State.ctx? at h
  split at h
  case h_1 => cases h
  case h_2 b hb => exact ⟨b, hb, h⟩

end

/-- An instruction one of whose matches acts is not performed: its fibre halts at it. -/
theorem exec_halts {s : State} {e : Env} {i : Instr} {w : Word} {slot action v : Nat} (hw : encodeWord i = some w)
    (hrep : ∀ n a b c, i ≠ .rep n a b c) (halone : Alone s e) (hrow : collects i = true → StandsAt s e)
    (hstatic : staticCheck i (e.form i) e = none) (hguard : guardHolds (e.form i).guard e.ctx = true)
    (hact : s.acting e (s.early e i (e.known i)) = some (slot, action, v)) :
    exec i s = .next ((s.countMatches e (s.early e i (e.known i))).haltBy e slot action v) := by
  refine exec_leaves hw hrep halone hrow ?_
  unfold State.early Env.known at hact ⊢
  simp only [checkIssue, hstatic, hguard, Bool.not_true, Bool.false_eq_true, if_false, hact]
  rfl

/-- Settles O7: the checks by what each leaves, the watch slots by which match and which match acts. -/
theorem checksComeBeforeTheInstruction : Obligations.ChecksComeBeforeTheInstruction := by
  refine ⟨fun s e i w c b k x rest kw => ?checks, fun s e i w vals slot action v x kinds p ms => ?watch⟩
  case checks =>
    intro f runs waits traps full hfresh hw
    have hrow (halone : Alone s e) (hc : collects i = true) : StandsAt s e :=
      ⟨halone, (hfresh hc).1, (hfresh hc).2.1, (hfresh hc).2.2⟩
    refine ⟨form_super i, staticCheck_wrongExecutor, staticCheck_illegalForm, fun hruns hlegal => ?privilege,
      fun halone hc => exec_staticTraps hw halone (hrow halone) hc,
      fun halone hstatic hguard hc => exec_skips hw halone hstatic hguard hc,
      fun halone hstatic hguard hact => ?operands,
      ⟨rfl, firstMissing_uq, firstMissing_full, fun hreg pre post hbits hpre hb => firstMissing_empty hreg hbits hpre hb⟩,
      fun henv hkw hlong => State.stay_keeps (envOf_of henv) hlong hkw f,
      fun hlong henv harrival => ⟨exec_restarts hw hlong henv harrival fun hc => (hfresh hc).2.2, fun b hb => State.unhold_full henv hb⟩⟩
    case privilege =>
      rw [staticCheck_legalForm hruns hlegal, form_super]
    case operands =>
      have hleaves {r : Ready} {t : State} (hop : operandCheck f e = some r) (h : r.leaves s i e = some t) : exec i s = .next t :=
        exec_operandLeaves hw halone (hrow halone) hstatic hguard hact hop h
      exact ⟨fun hmiss => ⟨fun hfe => hleaves (operandCheck_waits hfe hmiss) rfl,
          fun hfe => hleaves (operandCheck_emptyTraps hfe hmiss) rfl⟩,
        fun hmiss => ⟨fun h => hleaves (operandCheck_uqWaits h.1 h.2 hmiss) rfl, fun h => hleaves (operandCheck_uqTraps h hmiss) rfl⟩,
        fun hmiss hempty => hleaves (operandCheck_destinationWaits hmiss hempty) rfl⟩
  case watch =>
    intro p2 early late bare acts
    refine ⟨fun h => State.matches_unwatched h x kinds, fun hlead hsuper hrole => ?matching, fun hact hms => ?acting,
      State.hits_countMatches s e p, fun hfresh hw hrep halone hstatic hguard hact => ?halts,
      fun hi hpass hact hslots => ?computes, fun he => ?halted⟩
    case matching =>
      rw [State.mem_matches hlead hsuper hrole]
      simp only [and_assoc]
      rfl
    case acting =>
      obtain ⟨hexempt, hfirst, hwidest⟩ := State.acting_foremost hact hms
      exact ⟨hexempt, hfirst, hwidest⟩
    case halts =>
      exact exec_halts hw hrep halone (fun hc => ⟨halone, (hfresh hc).1, (hfresh hc).2.1, (hfresh hc).2.2⟩) hstatic hguard hact
    case computes =>
      obtain ⟨body, hexec, hcomputes⟩ := computes_body hi
      obtain ⟨d, hd⟩ := hcomputes e vals s
      refine ⟨d, hd.state, (hexec bare).trans (hd.issue_unwatched hpass hslots), fun hnone => ?_, fun hsome => ?_⟩
      · rw [hexec, issue_settles hpass hact, hd.done, State.settle_completes hd.loaded hnone]
        rfl
      · rw [hexec, issue_settles hpass hact, hd.done, State.settle_halts hd.loaded hsome]
        rfl
    case halted =>
      obtain ⟨d, hd, hat⟩ := State.haltBy_ctx he slot action v
      obtain ⟨blk, hblk, hctx⟩ := State.ctx_eq_some hd
      exact ⟨blk, d, hblk, hctx, hat.halted, hat.slot, hat.pc, hat.rep, hat.regs, hat.preds, hat.fps, hat.uqPos⟩

end Sys2Proof.Machine
end
